-- ==== Sys2Proof/Word.lean ====
section
/-! DEFINITION. Word.lean: the widths the manual reads its values in. -/

namespace Sys2Proof

/-- One byte of a packet, a frame or a memory. -/
abbrev Byte := BitVec 8

/-- One 32-bit register or hang number (R11, R12). -/
abbrev Word := BitVec 32

/-- One 64-bit count or container word (R32, R80). -/
abbrev Word64 := BitVec 64

/-- A byte string: parameters, results, frame contents. -/
abbrev Bytes := List Byte

end Sys2Proof
end

