-- ==== Sys2Proof/Syntax.lean ====
section
/-! DEFINITION. Syntax.lean: the commands the device takes, one constructor per row of the
operation table, and the plain data their operands carry. -/

namespace Sys2Proof

/-- Where a command packet came from, and where its reply goes (R355). -/
inductive Endpoint where
  | pcie
  /-- Port, source address and UDP port, VLAN tag if there is one, and source MAC address (R192). -/
  | udp (port : Fin 64) (ip : BitVec 128) (udpPort : BitVec 16) (vlan : Option (BitVec 16)) (mac : BitVec 48)
  /-- The partner, which forwards a command with its TWIN_SEQ (R490, R500). -/
  | twin (twinSeq : Word)
  deriving DecidableEq, Repr

/-- A command packet without its opcode, which the constructor of `Instr` names (R361). -/
structure Packet where
  endpoint : Endpoint
  /-- The ring a PCIe packet was read from; not used on other transports (R356). -/
  ring : Fin 4
  version : Byte
  cls : Byte
  flags : BitVec 16
  session : BitVec 16
  seq : Word
  target : Word
  family : Byte
  rsvd17 : Byte
  paramLength : BitVec 16
  rsvd20 : BitVec 96
  params : Bytes
  crc : Word
  deriving DecidableEq, Repr

/-- A packet as it stands in a ring or a UDP payload: with its opcode. -/
structure HostPacket where
  opcode : BitVec 16
  body : Packet
  deriving DecidableEq, Repr

/-- The three matrices (R15 to R17). -/
inductive Matrix where
  | video | anc | audio
  deriving DecidableEq, Repr

/-- An address that an access names: a BAR0 offset, a BAR2 offset or a bus address (R407, R413). -/
inductive BusAddr where
  | bar0 (offset : Nat)
  | bar2 (offset : Nat)
  | bus (addr : BitVec 40)
  deriving DecidableEq, Repr

/-- The lane references of R46 and R73. -/
inductive LaneRef where
  | a | b | c
  deriving DecidableEq, Repr

/-- Causes of a device reset (R505). -/
inductive ResetCause where
  | sysrst (lowNs : Nat)
  | lifecycle
  | boundaryScan
  | docent
  deriving DecidableEq, Repr

/-- What a fabric receiver sees where it expects a comma (R50, R60, R61). -/
inductive Comma where
  | plain | complemented | missing
  deriving DecidableEq, Repr

/-- One received block slot: the comma at the slot boundary, the comma directly after the last bit of the
block before (R58), and the bits that follow the comma, in transmission order (R52). -/
structure RxSlot where
  comma : Comma
  late : Comma := .missing
  bits : List Bool
  /-- The lane-receive FIFO filled during the slot (R38). -/
  overflow : Bool := false
  deriving DecidableEq, Repr

/-- How the TRS of a received SDI line compares with the flywheel (R111). -/
inductive Trs where
  | good | missing | moved
  deriving DecidableEq, Repr

/-- An ancillary packet: DID and SDID without parity, user data words, and the raster line, stream and
space in which it was received (R87, R132). -/
structure AncPacket where
  did : Byte
  sdid : Byte
  data : List (BitVec 10)
  line : Nat
  cStream : Bool
  hanc : Bool
  deriving DecidableEq, Repr

/-- One line of active picture, counted from 1 in its field or progressive frame, its samples in the order
of the interface: Cb, Y, Cr, Y (R83, R85). (DESIGN CHOICE, log entry 143.) -/
structure PicLine where
  second : Bool
  line : Nat
  samples : List (BitVec 10)
  deriving DecidableEq, Repr

/-- An ancillary packet as a receiver finds it: whether its parity, checksum and, for audio, ECC hold
(R131, R132). -/
structure RxAnc where
  packet : AncPacket
  good : Bool
  deriving DecidableEq, Repr

/-- One received SDI line (R111, R130 to R132). -/
structure SdiLine where
  /-- The TRS words at the predicted positions of the line. -/
  eav : Trs
  sav : Trs
  /-- Raster line by the flywheel's count, and whether the line number words agree. -/
  number : Nat
  numberOk : Bool
  /-- Link or sub-image, and stream (0 = Y, 1 = C), whose line CRC failed. -/
  crcFailed : List (Fin 4 × Fin 2)
  /-- Samples between SAV and EAV, one list for each sub-image that the lane carries. -/
  images : List (List (BitVec 10))
  anc : List RxAnc
  /-- The lane-receive FIFO filled during the line (R38). -/
  overflow : Bool := false
  deriving DecidableEq, Repr

/-- What one complete received SDI frame shows (R112, R115, R116, R110). -/
structure SdiFrame where
  /-- Format code of the detected structure; a code outside R107 for any other structure. -/
  format : Nat
  pid : Option Word
  /-- ROOT cycle of the first word of the EAV that begins line 1 (R116). -/
  arrival : Int
  /-- Quad-link: link numbers in place, skew at most 2 µs. -/
  linksOk : Bool
  deriving DecidableEq, Repr

/-- The SDI line rates in Mb/s, `d` for those divided by 1.001 (R46). -/
inductive SdiRate where
  | m270 | m1485 | m1485d | m2970 | m2970d | m5940 | m5940d | m11880 | m11880d
  deriving DecidableEq, Repr

/-- Why an SDI signal is gone (R112). -/
inductive SignalLoss where
  | cdr | noTransition | link
  deriving DecidableEq, Repr

/-- What an output does with a line of vertical blanking when its elastic stage is re-centred (R128). -/
inductive LineSlip where
  | omitted | repeated
  deriving DecidableEq, Repr

/-- A received Ethernet frame, destination address first, FCS checked and removed (R185). -/
structure RxFrame where
  bytes : Bytes
  /-- Bytes on the wire from the destination address through the FCS. -/
  wireLength : Nat
  fcsOk : Bool
  errored : Bool
  /-- FEC codewords of the frame that were corrected, and that could not be (R182, R210). -/
  fecCorrected : Nat
  fecUncorrected : Nat
  /-- The port's lane whose lane-receive FIFO filled during the frame (R38). -/
  overflow : Option (Fin 4) := none
  deriving DecidableEq, Repr

/-- Device time: seconds, nanoseconds and 2⁻¹⁶ ns (R234). -/
structure Time where
  sec : Nat
  ns : Nat
  frac : Nat
  deriving DecidableEq, Repr

/-- The start-up observations of one start phase (R446, R476, R487).
(DESIGN CHOICE, log entry 120.) -/
structure BootObs where
  /-- The PUF array's response, 32 blocks of 255 bits. -/
  puf : List (BitVec 255)
  /-- Bit errors that the extractor found per block. -/
  corrections : List Nat
  /-- Whether the image in slot 0, and in slot 1, passes checks 2 to 5 of R476. -/
  slot0Good : Bool
  slot1Good : Bool
  /-- Whether store bank A, and B, passes check 1 of R467, and whether its CMAC passes. -/
  bankAKept : Bool
  bankBKept : Bool
  bankACmac : Bool
  bankBCmac : Bool
  deriving DecidableEq, Repr

/-- How an engine invocation goes: whether the one before it has finished, and what it counts (R342, R352). -/
structure EngineRun where
  finished : Bool
  glyphMissing : Nat
  dmaBytes : Nat
  deriving DecidableEq, Repr

/-- Stop causes of an engine (R350). -/
inductive StopCause where
  | hang | illegal | dma | memory
  deriving DecidableEq, Repr

/-- Temperature sensors (R441, R538). -/
inductive Sensor where
  | gallery (g : Fin 16)
  | device
  | stackA
  | stackB
  deriving DecidableEq, Repr

/-- The monitored rails, in the order of indices 3 to 9 of R441. -/
inductive Rail where
  | vddCore | vddSram | vddSds | vddaSds | vddRsv | vppRsv | vddIo
  deriving DecidableEq, Repr

/-- The cases of a forced or real ECC error that its chapter tells apart (R219, R303, R350). -/
structure EccSite where
  source : BitVec 16
  /-- Queue that owns the word, for the queue link RAM. -/
  queue : Nat
  /-- Whether the word is the link word of a cell, which is then retired by a sweep (R220). -/
  cell : Option Nat
  /-- TDM port and direction (true = transmit) whose matrix side missed its deadline (R303). -/
  tdm : Option (Fin 16 × Bool)
  /-- A bit of a payload cell of the egress cell pool flips, which carries no check bits (R25): cell and bit. -/
  flip : Option (Fin 196608 × Fin 1024)
  corrected : Bool
  deriving DecidableEq, Repr

/-- A PTP message sent or received by a port (R248, R251). -/
inductive PtpMessage where
  | sync | delayReq | pdelayReq | pdelayResp | announce | delayResp | other
  deriving DecidableEq, Repr

/-- The arguments of a Docent command line, as its parser reads them (R522). -/
structure DocentArgs where
  nums : List Nat
  /-- The line had a bad argument form. -/
  bad : Bool
  deriving DecidableEq, Repr

/-- The commands of the device, one constructor per row of the operation table. -/
inductive Instr where
  -- sessions and restate
  | sessionOpen (p : Packet)
  | sessionClose (p : Packet)
  | sessionReset (p : Packet)
  | restateBegin (p : Packet)
  | restateCommit (p : Packet)
  | ping (p : Packet)
  | identify (p : Packet)
  -- takes and matrix configuration
  | takeVideo (p : Packet)
  | takeAudio (p : Packet)
  | takeAnc (p : Packet)
  | takeBundle (p : Packet)
  | hangAt (p : Packet)
  | unstage (p : Packet)
  | protectSet (p : Packet)
  | destConfig (p : Packet)
  | sourceConfig (p : Packet)
  | destLock (p : Packet)
  | hangRefConfig (p : Packet)
  -- lanes, fabric and SDI
  | laneConfig (p : Packet)
  | laneBringup (p : Packet)
  | lanePrbs (p : Packet)
  | laneStatus (p : Packet)
  | laneEq (p : Packet)
  | fabricMap (p : Packet)
  | fabricPlanePair (p : Packet)
  | fabricStatus (p : Packet)
  | sdiInConfig (p : Packet)
  | sdiOutConfig (p : Packet)
  | framesyncConfig (p : Packet)
  | sdiStatus (p : Packet)
  -- packet ports, flows and queues
  | macConfig (p : Packet)
  | trapPatternSet (p : Packet)
  | flowRxAdd (p : Packet)
  | flowRxDel (p : Packet)
  | flowTxAdd (p : Packet)
  | flowTxDel (p : Packet)
  | queueConfig (p : Packet)
  | pausePolicy (p : Packet)
  | macCounters (p : Packet)
  -- time and reference
  | timeRead (p : Packet)
  | timeAdjust (p : Packet)
  | ptpPortConfig (p : Packet)
  | asymmetrySet (p : Packet)
  | pathStepAccept (p : Packet)
  | refConfig (p : Packet)
  | refStatus (p : Packet)
  | dpllConfig (p : Packet)
  | pulseConfig (p : Packet)
  | pulseRealign (p : Packet)
  -- audio
  | audioEmbedConfig (p : Packet)
  | audioDeembedConfig (p : Packet)
  | tdmPortConfig (p : Packet)
  | tdmStartGroup (p : Packet)
  | tdmSlotMask (p : Packet)
  | tdmRestart (p : Packet)
  | audioStatus (p : Packet)
  -- compositor and engines
  | headConfig (p : Packet)
  | layerConfig (p : Packet)
  | lutLoad (p : Packet)
  | flip (p : Packet)
  | flipGroup (p : Packet)
  | headStatus (p : Packet)
  | engineAssign (p : Packet)
  | engineParam (p : Packet)
  | displayListSubmit (p : Packet)
  | fenceQuery (p : Packet)
  | engineStatus (p : Packet)
  -- faults and the Ledger
  | faultRead (p : Packet)
  | faultAck (p : Packet)
  | faultSeveritySet (p : Packet)
  | faultForce (p : Packet)
  | checkInvert (p : Packet)
  | ledgerRead (p : Packet)
  -- store, update and security
  | storeRead (p : Packet)
  | storeWrite (p : Packet)
  | imageBegin (p : Packet)
  | imageChunk (p : Packet)
  | imageStatus (p : Packet)
  | imageVerify (p : Packet)
  | activate (p : Packet)
  | confirmHealth (p : Packet)
  | settingsConfirm (p : Packet)
  | keySlotWrite (p : Packet)
  | keySlotStatus (p : Packet)
  | attest (p : Packet)
  | lifecycleAdvance (p : Packet)
  -- twins and diagnostics
  | twinPair (p : Packet)
  | twinRole (p : Packet)
  | twinStatus (p : Packet)
  | twinSwap (p : Packet)
  | countersRead (p : Packet)
  | probeRead (p : Packet)
  | tempRead (p : Packet)
  | docentEnable (p : Packet)
  -- BAR0 and bus registers
  | ringTailWrite (ring : Fin 4) (tail : Word) (published : List HostPacket) (readError : Bool)
  | ringSizeWrite (ring : Fin 5) (value : Word)
  | replyHeadWrite (value : Word)
  | replyWrite
  | sessionResetDoorbell (value : Word)
  | irqStatusClear (value : Word)
  | irqMaskWrite (value : Word)
  | uptimeLoRead
  | hangSnapCapture (value : Word)
  | timeSnapCapture (value : Word)
  | remap
  | sysctlRestart
  | wdogKick (value : Word)
  | bmErrInfoClear (value : Word)
  | bmErrCountRead (master : Fin 6)
  | registerWrite (master : Fin 6) (addr : BusAddr) (width : Nat) (value : Word)
  -- resets and starts
  | powerOnReset
  | rootLock
  | deviceReset (cause : ResetCause)
  | startPhaseAdvance (obs : BootObs)
  | pcieReset
  | lockstepMismatch
  | watchdogExpiry
  | confirmTimeout
  | commandServiceResumed
  | slowRestart
  -- hang, switch and presentation points
  | hangBoundary (family : Fin 4)
  | cutoff (family : Fin 4)
  | switchPoint (mx : Matrix) (dest : Fin 32768)
  | presentationPoint (family : Fin 4)
  | flipPoint (family : Fin 4)
  | restateTimeout
  | idleTimeout (session : Fin 17)
  -- fabric events
  | blockSlotTx (lane : Fin 256) (rawBits : Nat)
  | fabricBlockRx (lane : Fin 256) (slot : RxSlot)
  | retryTimeout (lane : Fin 256)
  | huntTimeout (lane : Fin 256)
  | fallbackStageTimer (lane : Fin 256)
  | fabricSourceTimeout (source : Fin 1280)
  | lanePllLoss (gallery : Fin 16) (ref : LaneRef)
  -- SDI events
  | cdrLock (lane : Fin 160) (rate : SdiRate)
  | sdiSignalLoss (lane : Fin 160) (why : SignalLoss)
  | sdiLineRx (lane : Fin 160) (line : SdiLine)
  | sdiFrameRx (lane : Fin 160) (frame : SdiFrame)
  | sdiOutputFrameStart (lane : Fin 160) (arrivalNs : Int) (fillPercent : Nat) (slip : LineSlip)
  -- packet events
  | portFrameRx (port : Fin 64) (frame : RxFrame)
  | pauseExpiry (port : Fin 64)
  | linkLoss (port : Fin 64) (up : Bool)
  | legDown (flow : Fin 16384) (legB : Bool)
  | audioFlowSilence (flow : Fin 16384) (channel : Fin 64)
  | packetizerPacket (flow : Fin 16384) (written : Bool)
  | heldPacketExpiry (flow : Fin 16384) (legB : Bool)
  | ctrlDropTimeout (queue : Fin 65536)
  | schedulerPick (port : Fin 64)
  | frameTxComplete (port : Fin 64)
  | headLate (queue : Fin 65536)
  | flushSweepComplete (queue : Fin 65536)
  -- time events
  | tripleApply
  | ptpMeasurement (masterRate : Nat)
  | portBecomesSlave (port : Fin 320) (slave : Bool)
  | refselAdopt (value : Fin 8)
  | activityLoss (candidate : Fin 7) (glitch : Bool)
  | activityRegained (candidate : Fin 7)
  | frequencyGate (readings : List (Option Int)) (rootOffset : Int)
  | loopLocked
  | xoInLoss
  | freqValidReturn
  | refFpEdge (input : Fin 4) (rootCycle : Nat)
  | refFpTimeout (input : Fin 4)
  -- audio events
  | audioGridPeriod (sources : List (Fin 32768 × Word)) (din : List (Fin 16 × List Word))
  | zcTimeout (port : Fin 16) (transmit : Bool) (slot : Fin 32)
  | tdmPortStart (port : Fin 16)
  -- engine events
  | engineInvocation (engine : Fin 128) (run : EngineRun)
  | kernelLoadComplete (engine : Fin 128)
  | engineSwitch (engine : Fin 128)
  | engineStop (engine : Fin 128) (cause : StopCause)
  | listCommandTimeout (engine : Fin 128)
  | engineTakeover (engine : Fin 128)
  | displayListRun (engine : Fin 128)
  | fenceSignal (engine : Fin 128)
  -- faults, Ledger and environment
  | faultRaise (source : BitVec 16)
  | ledgerCheck
  | eccUncorrected (site : EccSite)
  | thermalThreshold (sensor : Sensor) (tenths : Int)
  | railOutOfTolerance (rail : Rail)
  | bankWriteComplete (good : Bool)
  | bitmapWriteTimer
  -- twin events
  | twinStateTx
  | twinStateRx (message : Bytes)
  | partnerLost
  | twinCommandRx (twinSeq : Word) (packet : HostPacket)
  | partnerFailoverN
  | partnerHbLoss
  | swapPoint
  -- Docent
  | docentHelp
  | docentStatus
  | docentFaults (args : DocentArgs)
  | docentLedger
  | docentLanes (args : DocentArgs)
  | docentTime
  | docentRef
  | docentPeek (args : DocentArgs)
  | docentPoke (args : DocentArgs)
  | docentTraceOn
  | docentTraceOff
  | docentTraceDump (args : DocentArgs)
  | docentReset
  -- JTAG
  | extest
  | idcode
  | samplePreload
  | clamp
  | highz
  | dbgAccess (write : Bool) (addr : BitVec 40) (value : Word)
  | dbgUnlock
  | bypass
  | testLogicReset
  -- later rows
  | prbsCheckerRx (lane : Fin 416) (bits : List Bool)
  | adaptationFreeze (lane : Fin 416)
  | xoInRestored
  | lanePllLock (gallery : Fin 16) (ref : LaneRef)
  | pcieLinkUp
  | twinReplyRx (twinSeq : Word) (status : BitVec 16) (hang : Word)
  | trapQueueService (gallery : Fin 16)
  | ptpMessageInterval (port : Fin 320) (message : PtpMessage)
  | docentCharacterRx (char : Byte)
  | docentOutputDrained
  deriving DecidableEq, Repr

end Sys2Proof
end

