-- ==== Sys2Proof/Config.lean ====
section
/-! DEFINITION. Config.lean: what an implementation fixes and the manual leaves open, as constants
without a body. No proof can see their values. -/

namespace Sys2Proof.Config

/-- The n-th free value drawn, of width w. (DESIGN CHOICE, log entry 2.) -/
opaque free (w : Nat) : Nat → BitVec w

/-- DEVICE_UID, fused at manufacture (R452). -/
opaque deviceUid : BitVec 128

/-- The test root in the boot ROM (R450). -/
opaque testRoot : BitVec 256

/-- SHA-384 (R446, R476). -/
opaque sha384 : Bytes → BitVec 384

/-- HMAC-SHA-384 under a key (R457, R459). -/
opaque hmacSha384 : Bytes → Bytes → BitVec 384

/-- AES-256 key wrap under a key (R452, R454). -/
opaque keyWrap : Bytes → Bytes → Bytes

/-- AES-256 key unwrap under a key; none where the integrity check fails (R454). -/
opaque keyUnwrap : Bytes → Bytes → Option Bytes

/-- AES-256 CMAC under a key (R452). -/
opaque cmac : Bytes → Bytes → BitVec 128

/-- The KDF of R452: root, label. -/
opaque kdf : BitVec 256 → String → Bytes

/-- The code-offset extractor of R446, steps 3 and 4: PUF response and helper data to root. -/
opaque extractRoot : List (BitVec 255) → BitVec 8160 → BitVec 256

/-- The helper data that enrolment writes for a PUF response (R448). -/
opaque enrolHelper : List (BitVec 255) → BitVec 8160

/-- The check value of R446, step 5, for a root. -/
opaque rootCheck : BitVec 256 → BitVec 384

/-- ECDSA P-384 verification of a catalogue under the boot ROM's key (R472). -/
opaque signatureGood : Bytes → Bytes → Bool

/-- CATALOGUE_VERSION and settings format of the image that the device was shipped with. -/
opaque shippedVersion : Word
opaque shippedSettingsFormat : Nat
opaque shippedSecurityVersion : Nat

/-- SHA-384 over the catalogue of the image that the device was shipped with (R459). -/
opaque shippedCatalogue : BitVec 384

/-- Directory of the SETTINGS records of a format that a STORE_WRITE captured: TYPE offset from 0x0100 and
LENGTH of each (R465, R466). (DESIGN CHOICE, log entry 121.) -/
opaque settingsDirectory : Nat → Nat → List (Nat × Nat)

/-- Version of a kernel of the running catalogue (R352). -/
opaque kernelVersion : Nat → Nat → Word

/-- Whether the fonts of the catalogue include font number f (R346). -/
opaque fontPresent : Nat → Bool

/-- Whether a kernel of an image slot passes its digest check (R336). (DEDUCED, log entry 127.) -/
opaque kernelGood : Nat → Nat → Bool

/-- Coverage of a glyph of a font and size at an offset from its origin, in 1 / 255; and its advance in
pixels (R346). -/
opaque glyphCoverage : Nat → Nat → Nat → Int → Int → BitVec 8
opaque glyphAdvance : Nat → Nat → Nat → Nat

/-- Whether a font has a glyph for a character (R346). -/
opaque glyphPresent : Nat → Nat → Bool

/-- DATA_VERSION of a kernel in an image slot (R338). -/
opaque dataVersion : Nat → Nat → Nat

/-- Bytes 1 and 2 of the ST 352 payload ID of a format, byte 1 in the low half (R115).
(DESIGN CHOICE, log entry 44.) -/
opaque pidOfFormat : Nat → BitVec 16

/-- Bytes 3 and 4 of BT.709, SDR-TV, the default of PID_FILL (R115).
(DESIGN CHOICE, log entry 44.) -/
opaque pidFillDefault : BitVec 16

/-- Format code of R107 or R196 of the picture that a payload ID names (R88). -/
opaque formatOfPid : Word → Nat

/-- Payload ID of a head's output, by FORMAT, OUT_COLORIMETRY and OUT_TRANSFER (R307).
(DEDUCED, log entry 92.) -/
opaque headPid : Nat → Nat → Nat → Word

/-- Reference that an edge lane's PLL uses in TEST: 0 = LREF_A, 1 = LREF_B, other = LREF_C (R74).
(DESIGN CHOICE, log entry 28.) -/
opaque edgeTestRef : Nat → Nat

/-- Reference of an SDI receiver that has acquired no rate: 0 = LREF_B, other = LREF_C (R48).
(DESIGN CHOICE, log entry 178.) -/
opaque undetectedRef : Nat → Nat

/-- Code by which CDR_RATE reports a rate, numbered from 0 in the order of R46 (R72).
(DESIGN CHOICE, log entry 178.) -/
opaque cdrCode : Nat → Byte

/-- ADAPT of a lane by the lane table of the active catalogue, by lane, mode and rate (R66). -/
opaque adaptDefault : Nat → Nat → Nat → Nat

/-- The other equalization controls by that table: lane, mode, rate and control, in the order of R66:
0 TX_SWING, 1 TX_PRE1, 2 TX_PRE2, 3 TX_POST1, 4 RX_CTLE, 5 RX_VGA in its steps (R66). -/
opaque eqDefault : Nat → Nat → Nat → Nat → Int

/-- State from which the pattern generator of a lane starts, its bit 0 taken as 1 (R68).
(DESIGN CHOICE, log entry 172.) -/
opaque prbsStart : Nat → BitVec 31

/-- Clock identity by which the device's PTP ports name themselves (R251). (DESIGN CHOICE, log entry 75.) -/
opaque clockIdentity : BitVec 64

/-- Phase of a reference candidate against ROOT's feedback at a count, in 2⁻¹⁶ ns (R268).
(DESIGN CHOICE, log entry 150.) -/
opaque refPhase : Nat → Word64 → Int

/-- TTL or hop limit, and IPv4 identification of the n-th frame, of a command reply (R192).
(DESIGN CHOICE, log entry 151.) -/
opaque replyTtl : Byte
/-- DESIGN CHOICE, log entry 151. -/
opaque replyIdent : Nat → BitVec 16

/-- Mean of a PROBE region from the sum and number of its samples, and a level of an empty region (R340).
(DESIGN CHOICE, log entry 103.) -/
opaque probeMean : Nat → Nat → Int
opaque emptyLevel : Nat → Int

/-- Sample of a generator pattern other than black and flat: format, PATTERN, frame, field, line and place in the line
(R340). (DESIGN CHOICE, log entry 103.) -/
opaque patternSample : Nat → Nat → Nat → Bool → Nat → Nat → BitVec 10

/-- Gain of a MIX crosspoint some grid periods after its change from one value to another over RAMP ms; and an output
word from input words with their gains (R340, R341). (DESIGN CHOICE, log entry 103.) -/
opaque mixGain : Int → Int → Nat → Nat → Int
opaque mixWord : List (Word × Int) → Word

/-- Word of a tone source by FREQ, LEVEL and grid period (R340). (DESIGN CHOICE, log entry 103.) -/
opaque toneWord : Int → Int → Nat → Word

/-- The meters of BS.1770: what they hold after 24 grid periods of eight inputs with their LAYOUTs, after
RESET_INTEGRATED, and the eleven results (R340, R352). (DESIGN CHOICE, log entry 103.) -/
opaque meterStep : List Int → List Int → List (List Word) → List Int
opaque meterReset : List Int → List Int
opaque meterResult : List Int → Nat → Int

/-- Chroma of a tile line at a pixel from its half-rate samples, and back (R321). (DESIGN CHOICE, log entry 95.) -/
opaque chromaUp : List Nat → Nat → Nat
opaque chromaDown : List Nat → Nat → Nat

/-- A word of the boot ROM, by its offset (R407). (DEDUCED, log entry 114.) -/
opaque bootRom : Nat → Word

/-- Colorimetry that a payload ID names: 0 = BT.709, other = BT.2020 (R313). -/
opaque pidColorimetry : Word → Nat

/-- Transfer that a payload ID names, as a PRE_LUT code 1 to 3 (R313). -/
opaque pidTransfer : Word → Nat

/-- Coefficients of the catalogue's matrices in 2⁻¹³: 1 = BT.709 to BT.2020, 2 = BT.2020 to BT.709;
row-major (R313, R322). -/
opaque colourMatrix : Nat → Nat → Int

/-- Scaler coefficients of a FILTER set, horizontal (8 taps) or vertical (6), by phase in 1/64 and tap,
in 2⁻¹⁵ (R313, R314). -/
opaque filterTap : Nat → Bool → Nat → Nat → Int

end Sys2Proof.Config
end

