-- ==== Sys2Proof/Machine/State.lean ====
section
/-! DEFINITION. State.lean: everything the manual gives the device to hold, as plain data, and
the value of each piece right after reset. A table (`Tab`) lists only the units whose record
differs from the record a unit has at reset. -/

namespace Sys2Proof.Machine

/-- A sparse table: the units, by number, whose record differs from the reset record. Keys rise
strictly. -/
abbrev Tab (α : Type) := List (Nat × α)

/-! ## Command channel (13_command_channel) -/

/-- A command ring or the reply ring (R357). `unread` is what the host has published between
HEAD and TAIL. -/
structure Ring where
  baseLo : Word := 0
  baseHi : Word := 0
  size : Word := 0
  head : Word := 0
  tail : Word := 0
  halted : Bool := false
  haltReason : Nat := 0
  unread : List HostPacket := []
  deriving DecidableEq, Repr

/-- A reply (R364). -/
structure Reply where
  endpoint : Endpoint := .pcie
  cls : Nat := 0
  completion : Bool := false
  replay : Bool := false
  opcode : Nat := 0
  session : Nat := 0
  seq : Word := 0
  status : Nat := 0
  detail : Nat := 0
  hang : Word := 0
  family : Nat := 0
  results : Bytes := []
  /-- Not in the reply's bytes: the command was mirrored and has no stream here (R500). -/
  mirrored : Bool := false
  deriving DecidableEq, Repr

/-- One sequence stream of a session (R367, R368, R375, R376). -/
structure Stream where
  expected : Word := 1
  /-- The last 16 reply headers, newest first. -/
  cache : List Reply := []
  /-- Last sequence taken into the work queue and last replied, and the replies that wait for an
  earlier one of the stream: sequence and, once it is known, the reply (R364, R376). -/
  taken : Option Word := none
  replied : Option Word := none
  owed : List (Word × Option Reply) := []
  /-- Hint of the BUSY reply that the stream stands under, and the count at which it has elapsed. -/
  busy : Option (Nat × Word64) := none
  deriving DecidableEq, Repr

/-- One session (R365, R366, R388). -/
structure Session where
  isOpen : Bool := false
  endpoint : Endpoint := .pcie
  authenticated : Bool := false
  keySlot : Nat := 0
  debugSlot : Bool := false
  idleTimeout : Nat := 0
  /-- The session's BAR2 window has been mapped since the last start (R388). -/
  window : Bool := false
  take : Stream := {}
  control : Stream := {}
  bulk : Stream := {}
  diag : Stream := {}
  deriving DecidableEq, Repr

/-- One MSI-X table entry (R380). -/
structure MsixEntry where
  addrLo : Word := 0
  addrHi : Word := 0
  data : Word := 0
  control : Word := 1
  deriving DecidableEq, Repr

/-- An OPEN_NONCE issued to an endpoint (R457). -/
structure Nonce where
  endpoint : Endpoint
  value : BitVec 128
  issuedAt : Word64
  used : Bool := false
  deriving DecidableEq, Repr

/-- Rings, sessions, replies, queues and interrupts (R354 to R380). -/
structure Command where
  ring0 : Ring := {}
  ring1 : Ring := {}
  ring2 : Ring := {}
  ring3 : Ring := {}
  replyRing : Ring := {}
  /-- Replies that wait for room in the reply ring, oldest first (R360). -/
  waiting : List Reply := []
  /-- Replies written to the reply ring, oldest first. -/
  written : List Reply := []
  /-- Replies that have left on UDP or the twin channel, oldest first. -/
  left : List Reply := []
  sessions : Tab Session := []
  workQueue : List HostPacket := []
  /-- Packets that the take gate has read from ring 0, and UDP and twin take packets that wait for it
  (R161). -/
  takeQueue : List HostPacket := []
  doorbellBusy : Bool := false
  nonces : List Nonce := []
  irqStatus : Word := 0
  irqMask : Word := 0x0000_0FFF
  irqMap0 : Word := 0x4132_1110
  irqMap1 : Word := 0x0000_8765
  msix : Tab MsixEntry := []
  msixPending : BitVec 16 := 0
  /-- MSI-X messages sent, by vector, oldest first. -/
  messages : List Nat := []
  deriving DecidableEq, Repr

/-! ## Matrices and the hang (05_matrix_and_hanging) -/

/-- What a staging entry aims at (R151). -/
inductive Aim where
  | hang (n : Word)
  | held (tag : Nat)
  deriving DecidableEq, Repr

/-- What a staged take does at its hang (R151, R172, R285). -/
inductive TakeKind where
  | take
  | protect (revert : Bool) (followAudio : Bool) (wtr : Nat)
  deriving DecidableEq, Repr

/-- A staging entry, or a loaded shadow selection (R151, R152). -/
structure Entry where
  kind : TakeKind := .take
  source : Option Nat := none
  aim : Aim
  family : Nat
  session : Nat
  /-- The take this entry belongs to; the entries of one bundle share it (R164). -/
  take : Nat
  /-- The command whose completion waits for this entry, and the HANG_AT that released it (R160). -/
  cmd : Nat
  released : Option Nat := none
  /-- TAG of the take that staged it (R157, R158). -/
  tag : Nat := 0
  /-- V_FADE with this length in ms; 0 = CUT (R285). -/
  fade : Nat := 0
  /-- Answered LATE, so that it counts as late-hung (R180). -/
  late : Bool := false
  /-- Entry of a bundle whose mask includes AUDIO (R167). -/
  withAudio : Bool := false
  /-- The protection that a restate's difference carries beside its selection (R177). -/
  prot : Option (Option Nat × TakeKind) := none
  deriving DecidableEq, Repr

/-- One destination of one matrix (R18, R151, R171). -/
structure Dest where
  active : Option Nat := none
  staged : List Entry := []
  shadow : Option Entry := none
  /-- The frame of the loaded hang has reached the switch point (audio, R149). -/
  ready : Bool := false
  lock : Option Nat := none
  deriving DecidableEq, Repr

/-- Settings of a video destination (R163, R166, R391). -/
structure DestCfg where
  family : Nat := 0
  fallback : Nat := 0
  formatLock : Bool := false
  lockFormat : Nat := 0x21
  bond : Nat := 1
  report : Bool := false
  /-- none = the default run of R163; some (base, count) = the run set. -/
  run : Option (Nat × Nat) := none
  depth : Nat := 4
  deriving DecidableEq, Repr

/-- Running state of a video destination besides its selection (R166 to R173).
(DEDUCED, log entry 52.) -/
structure DestRun where
  protSource : Option Nat := none
  revert : Bool := false
  wtr : Nat := 30
  followAudio : Bool := false
  onProtection : Bool := false
  inFallback : Bool := true
  mismatch : Bool := false
  refused : Bool := false
  /-- The source of which these two speak (R168, R170). -/
  judged : Option Nat := none
  /-- Settings that wait for the next frame start (R167). -/
  pendingCfg : Option DestCfg := none
  deriving DecidableEq, Repr

/-- Settings of a video source (R163, R165, R391). -/
structure SourceCfg where
  bond : Nat := 1
  run : Option (Nat × Nat) := none
  playSlot : Option Nat := none
  delay : Nat := 0
  deriving DecidableEq, Repr

/-- Running state of a video source (R168, R170, R173). -/
structure Source where
  usable : Bool := false
  format : Option Nat := none
  family : Nat := 0
  pid : Word := 0
  usableSince : Word64 := 0
  deriving DecidableEq, Repr

/-- A frame of essences: payload ID, active picture lines, ancillary packets, and audio samples by channel. -/
structure MediaFrame where
  pid : Word := 0
  lines : List PicLine := []
  anc : List AncPacket := []
  audio : Tab (List Word) := []
  deriving DecidableEq, Repr

/-- What a video source and its ancillary source have brought to the matrices (R15, R16): the frame in
progress, the last complete one, and sample periods of its run that wait for the audio grid.
(DESIGN CHOICE, log entry 143.) -/
structure Essence where
  now : MediaFrame := {}
  done : MediaFrame := {}
  /-- ROOT cycles at which the frame in progress and the last complete one began (R146). -/
  beganAt : Int := 0
  doneAt : Int := 0
  /-- Per channel of the run: samples that wait, oldest first; and the last good sample. -/
  audio : Tab (List Word) := []
  lastAudio : Tab Word := []
  deriving DecidableEq, Repr

/-- Settings of a rate family (R137). -/
structure FamilyCfg where
  enable : Bool := false
  rate : Nat
  cutoff : Nat := 250
  deriving DecidableEq, Repr

/-- A staged realignment (R277). -/
structure Realign where
  source : Nat
  target : Word
  /-- Shift in ROOT cycles and number at the moved boundary, once computed at ref(M − 1). -/
  computed : Option (Int × Word) := none
  deriving DecidableEq, Repr

/-- Running state of a rate family (R139 to R145, R277 to R279). -/
structure Family where
  hang : Word := 0
  /-- ROOT cycle at which the running boundary started. -/
  boundary : Int := 0
  cutoffPassed : Bool := false
  aligned : Bool := false
  realign : Option Realign := none
  realigns : Nat := 0
  lastShift : Int := 0
  lastNumber : Word := 0
  newCutoff : Option (Nat × Nat) := none
  /-- A rebase has moved time against its boundaries, and no realignment has followed (R241). -/
  stepped : Bool := false
  deriving DecidableEq, Repr

/-- A take whose counts have not yet entered the totals (R180). -/
structure TakeCount where
  take : Nat
  family : Nat
  hang : Word
  late : Bool
  unstaged : Bool := false
  deriving DecidableEq, Repr

/-- A command whose completion reply is owed, and whether a part of it has hung (R160). -/
structure Owed where
  cmd : Nat
  reply : Reply
  hung : Bool := false
  /-- The reply's hang stands whatever hangs: a RESTATE_COMMIT's last hang used (R178). -/
  fixed : Bool := false
  deriving DecidableEq, Repr

/-- What a setting that a restate found different sets (R177). -/
inductive SettingChange where
  | dest (d : Nat) (cfg : DestCfg)
  | source (n : Nat) (cfg : SourceCfg)
  | lock (m : Matrix) (d : Nat) (session : Option Nat)
  deriving DecidableEq, Repr

/-- A setting staged by a RESTATE_COMMIT (R177). -/
structure SettingDue where
  family : Nat
  hang : Word
  cmd : Nat
  change : SettingChange
  deriving DecidableEq, Repr

/-- The restate table (R176 to R179). -/
structure Restate where
  session : Nat
  openedAt : Word64
  /-- The collected commands, oldest first. -/
  collected : List HostPacket := []
  deriving DecidableEq, Repr

/-- The hang snapshot registers of BAR0 (R143 to R145). -/
structure HangSnap where
  capture : Bool := false
  valid : Bool := false
  aligned : BitVec 4 := 0
  pastCutoff : BitVec 4 := 0
  enabled : BitVec 4 := 0
  hang0 : Word := 0
  hang1 : Word := 0
  hang2 : Word := 0
  hang3 : Word := 0
  countLo : Word := 0
  countHi : Word := 0
  remain0 : Word := 0
  remain1 : Word := 0
  remain2 : Word := 0
  remain3 : Word := 0
  deriving DecidableEq, Repr

/-- The four take counters (R180). -/
structure TakeTotals where
  accepted : Nat := 0
  hung : Nat := 0
  lateHung : Nat := 0
  unstaged : Nat := 0
  deriving DecidableEq, Repr

/-- The matrices, families and staging. -/
structure Matrices where
  families : Tab Family := []
  video : Tab Dest := []
  anc : Tab Dest := []
  audio : Tab Dest := []
  destRun : Tab DestRun := []
  sources : Tab Source := []
  /-- What the sources bring, by source. -/
  essences : Tab Essence := []
  /-- Frames in the record slots, by slot, newest first (R19, R391). -/
  records : Tab (List MediaFrame) := []
  /-- Sample periods of a record slot's run since its last frame, by slot. -/
  recordAudio : Tab (List (List Word)) := []
  nextTake : Nat := 1
  nextCmd : Nat := 1
  counts : List TakeCount := []
  owed : List Owed := []
  restate : Option Restate := none
  /-- Settings that a restate has staged, in order (R177). -/
  settings : List SettingDue := []
  snap : HangSnap := {}
  /-- The counters that COUNTERS_READ returns. -/
  totals : TakeTotals := {}
  protectSwitches : Nat := 0
  familyMismatch : Nat := 0
  formatRefused : Nat := 0
  takeQueueDrop : Nat := 0
  deriving DecidableEq, Repr

/-! ## Lanes (02_lanes) and the fabric link (03_fabric_link) -/

/-- LANE_CONFIG settings (R45, R50, R62, R392). -/
structure LaneCfg where
  mode : Nat := 0
  rate : Nat := 0
  blindOnly : Bool := false
  txInvert : Bool := false
  rxInvert : Bool := false
  deriving DecidableEq, Repr

/-- LANE_EQ overrides; none = the catalogue's value (R66, R392). -/
structure EqCfg where
  txSwing : Option Nat := none
  txPre1 : Option Nat := none
  txPre2 : Option Nat := none
  txPost1 : Option Nat := none
  rxCtle : Option Nat := none
  rxVga : Option (BitVec 8) := none
  adapt : Option Nat := none
  deriving DecidableEq, Repr

/-- Bring-up states of R62; an edge lane uses `reset`, `hunt`, `locked`, `test` and `down`. -/
inductive LaneState where
  | reset | hunt | verify | locked | fbBase | fbCheck | fbVerdict | test | down
  deriving DecidableEq, Repr

/-- The counters of R72. -/
structure LaneCounters where
  blocksGood : Nat := 0
  blocksBad : Nat := 0
  commaMiss : Nat := 0
  stuffViol : Nat := 0
  stuffBits : Nat := 0
  stuffOver : Nat := 0
  idleBits : Nat := 0
  idleErrors : Nat := 0
  idleSlips : Nat := 0
  lockLoss : Nat := 0
  huntTimeout : Nat := 0
  fallback : Nat := 0
  fifoOverflow : Nat := 0
  prbsBits : Nat := 0
  prbsErrors : Nat := 0
  syncLoss : Nat := 0
  cdrRate : Option SdiRate := none
  deriving DecidableEq, Repr

/-- PRBS generator and checker of a lane (R68, R69); both are Off before a LANE_PRBS. (DESIGN CHOICE, log entry 182.) -/
structure Prbs where
  tx : Nat := 4
  txInvert : Bool := false
  rx : Nat := 4
  rxInvert : Bool := false
  insert : Nat := 0
  /-- Received bits that the checker holds as its sequence, newest first. -/
  window : List Bool := []
  /-- Bits since the load without error, up to 1,024. -/
  clean : Nat := 0
  sync : Bool := false
  windowBits : Nat := 0
  windowErrors : Nat := 0
  /-- The generator's last 31 bits, bit 0 the newest, once it runs; bits sent since the last inserted
  error (R68). -/
  gen : Option (BitVec 31) := none
  genBits : Nat := 0
  deriving DecidableEq, Repr

/-- Running state of a lane (R50 to R74). -/
structure Lane where
  state : LaneState := .reset
  rate : Nat := 0
  lastPassed : Nat := 0
  stageWaiting : Bool := false
  /-- Bits received since the stage's PRBS began, whether the checker synchronized within 1 ms, and
  errors counted after it (R62). -/
  stageBits : Nat := 0
  stageSync : Bool := false
  stageErrors : Nat := 0
  ownPass : Bool := false
  partnerCeiling : Option Nat := none
  partnerPass : Bool := false
  attempts : Nat := 0
  reducedRate : Bool := false
  polarityAuto : Bool := false
  adaptFrozen : Bool := false
  goodRun : Nat := 0
  /-- Good or bad of the last 64 blocks in LOCKED, newest first (R61). -/
  recent : List Bool := []
  /-- Transmit and receive key sequences, bit 0 the newest (R54, R60). -/
  txKey : BitVec 31 := BitVec.allOnes 31
  rxKey : BitVec 31 := BitVec.allOnes 31
  stuffLag : Nat := 0
  /-- The block before carried more than 128 stuff bits (R58). -/
  rxOver : Bool := false
  /-- What the transmitter has last sent: one level for each symbol, in order (R47, R52). -/
  sent : List Nat := []
  /-- Adapted taps of the receiver, once frozen (R66, R67). -/
  dfe : List Int := []
  prbs : Prbs := {}
  counters : LaneCounters := {}
  deriving DecidableEq, Repr

/-- The counters of R105, lane part. -/
structure LinkCounters where
  slotJump : Nat := 0
  ancOverflow : Nat := 0
  segErrored : Nat := 0
  segMalformed : Nat := 0
  hangSkew : Nat := 0
  dupCell : Nat := 0
  unknownType : Nat := 0
  calViol : Nat := 0
  hdrRsvd : Nat := 0
  noCreditDrop : Nat := 0
  creditViol : Nat := 0
  msgMalformed : Nat := 0
  msgUnknown : Nat := 0
  cellsSent : Nat := 0
  cellsRetx : Nat := 0
  cellsRcvd : Nat := 0
  retryReqSent : Nat := 0
  retryReqRcvd : Nat := 0
  creditResyncSent : Nat := 0
  creditResyncRcvd : Nat := 0
  deriving DecidableEq, Repr

/-- A message cell of the message channel (R98). -/
structure Cell where
  seq : BitVec 16
  msgType : Nat
  first : Bool
  last : Bool
  data : Bytes
  /-- As received: an earlier transmission of it has been missed (R255). -/
  again : Bool := false
  deriving DecidableEq, Repr

/-- Segment in progress of a container (R83, R91). -/
structure SegmentRx where
  header : Option Word64 := none
  words : List Word64 := []
  lost : Bool := false
  deriving DecidableEq, Repr

/-- Fabric link protocol of a lane (R75 to R105). -/
structure Link where
  txSlot : Nat := 0
  txCal : Nat := 0
  /-- Next capability block (true) or idle block (false) of R78. -/
  txCapability : Bool := true
  rxPos : Option (Nat × Nat) := none
  rxCandidate : Option (Nat × Nat) := none
  partnerPaired : Bool := false
  /-- A block with more than 128 stuff bits has come since the last idle or message slot, and the stuff
  lag of the partner in bits (R58, R82). -/
  rxLong : Bool := false
  rxLag : Nat := 0
  /-- Slot and period of the last block placed, and the nominal end of its slot in 10⁻⁵ ticks (R95). -/
  rxEnd : Option ((Nat × Nat) × Int) := none
  /-- Segments in progress per container (R83). -/
  segments : Tab SegmentRx := []
  /-- Cells waiting to be sent for the first time, oldest first. -/
  sendQueue : List Cell := []
  /-- Retry entries: cells sent and not acknowledged, oldest first. -/
  retry : List Cell := []
  /-- Cells of `retry` that a rewind has made due again. -/
  resend : Nat := 0
  nextSeq : BitVec 16 := 0
  lastAck : BitVec 16 := 0
  lastLimit : BitVec 16 := 64
  sendCredits : Nat := 64
  inFlight : Nat := 0
  rxOccupancy : Nat := 0
  rewinds : Nat := 0
  /-- Receive side: next sequence expected, buffers in use, message in progress. -/
  rxNext : BitVec 16 := 0
  /-- The number behind the latest that has been seen (R255). -/
  rxSeen : BitVec 16 := 0
  rxHeld : Nat := 0
  rxPartial : List Cell := []
  /-- The message in progress is being discarded (R104). -/
  rxDiscard : Bool := false
  owesRetry : Bool := false
  /-- A RETRY_REQ was owed at this ACK; until this count no other is, unless ACK advances (R102). -/
  retryHold : Option (BitVec 16 × Word64) := none
  owesResync : Bool := false
  creditDirty : Bool := false
  /-- Messages received whole and not yet taken by their user: type, cells and bytes. -/
  inbox : List (Nat × Nat × Bytes) := []
  /-- Header and payload words of the last block sent (R52). -/
  sent : Option (Word × List Word64) := none
  counters : LinkCounters := {}
  deriving DecidableEq, Repr

/-- A plane pair: primary and secondary local lanes (R94). -/
structure PairCfg where
  lanes : Option (Nat × Nat) := none
  deriving DecidableEq, Repr

/-- A container block copy that waits for its release (R95, R96). (DEDUCED, log entry 138.) -/
structure PairCopy where
  slot : Nat
  cal : Nat
  crc : Word
  words : List Word64
  good : Bool
  deriving DecidableEq, Repr

/-- The release schedule of a plane pair (R95): the slot next released, the nominal end of that slot in
10⁻⁵ ticks, and what the schedule adds to the nominal timing of the reference lane. -/
structure Schedule where
  next : Nat × Nat
  endAt : Int
  offset : Int := 0
  deriving DecidableEq, Repr

/-- Running state of a plane pair (R94 to R97, R105). -/
structure Pair where
  schedule : Option Schedule := none
  reference : Nat := 0
  skewNs : Int := 0
  /-- Arrival of the secondary less that of the primary, in 10⁻⁵ ticks. -/
  skew : Int := 0
  /-- Copies that wait for their release, oldest first. -/
  primary : List PairCopy := []
  secondary : List PairCopy := []
  /-- Slot and period last used while no schedule stands. -/
  released : Option (Nat × Nat) := none
  /-- Container slots whose contents one lane has formed and the other has still to send (R94). -/
  txBlocks : List ((Nat × Nat) × List Word64) := []
  /-- The lanes run at different rates, or disagree in SLOT and CAL (R97). -/
  rateSplit : Bool := false
  slotSplit : Bool := false
  disagreements : Nat := 0
  lateCopy : Nat := 0
  mismatch : Nat := 0
  bothBad : Nat := 0
  plane0Used : Nat := 0
  plane1Used : Nat := 0
  deriving DecidableEq, Repr

/-- A picture line in reception: its data words, none for a lost one (R85, R91). -/
structure RxLine where
  second : Bool
  line : Nat
  words : List (Option Word64)
  deriving DecidableEq, Repr

/-- Frame identity of a fabric source (R88, R92). -/
structure FabricSource where
  pid : Word := 0
  family : Nat := 0
  hang : Word := 0
  starts : Nat := 0
  arrivedAt : Word64 := 0
  /-- Its own two FRAME_STARTs have come; a bond needs this of every member (R90, R92). -/
  good : Bool := false
  /-- The picture line in reception (R85). -/
  line : Option RxLine := none
  /-- Words of an ancillary record that continues in the next segment (R87). -/
  ancPart : List Word64 := []
  deriving DecidableEq, Repr

/-- What a carried container destination sends (R80 to R89). -/
structure TxContainer where
  /-- Segments that wait, oldest first, and what is left of the one in progress. -/
  queue : List (List Word64) := []
  rest : List Word64 := []
  /-- A FRAME_START has been sent since the lane locked (R169). -/
  started : Bool := false
  pid : Word := 0
  /-- Line in progress, of the second field or not; sample periods that wait for their segment, and the
  line in progress when the first of them began (R86). -/
  line : Nat := 0
  second : Bool := false
  audio : List (List Word) := []
  audioLine : Nat := 0
  audioSecond : Bool := false
  /-- Ancillary segments of the frame in progress (R89). -/
  ancUsed : Nat := 0
  deriving DecidableEq, Repr

/-- Which lane PLL references of a gallery are locked (R73). -/
structure Plls where
  a : Bool := true
  b : Bool := true
  c : Bool := true
  deriving DecidableEq, Repr

/-- Lanes and links. -/
structure Fabric where
  lanes : Tab Lane := []
  links : Tab Link := []
  pairs : Tab Pair := []
  sources : Tab FabricSource := []
  /-- Container destinations by number. -/
  tx : Tab TxContainer := []
  plls : Tab Plls := []
  deriving DecidableEq, Repr

/-! ## SDI (04_sdi) -/

/-- SDI_IN_CONFIG and FRAMESYNC_CONFIG settings (R117, R122). -/
structure SdiInCfg where
  mode : Nat := 0
  family : Nat := 0
  windowClass : Nat := 1
  links : Nat := 1
  pidFill : BitVec 16 := 0
  freeze : Bool := false
  deriving DecidableEq, Repr

/-- SDI_OUT_CONFIG settings (R123). -/
structure SdiOutCfg where
  enable : Bool := false
  format : Nat := 0xFF
  defaultFormat : Nat := 0x21
  family : Nat := 0
  links : Nat := 1
  outDelay : Nat := 100
  deriving DecidableEq, Repr

/-- Input states of R112. -/
inductive SdiState where
  | noSignal | detecting | usable | outOfWindow
  deriving DecidableEq, Repr

/-- Input counters of R134. (DEDUCED, log entry 42.) -/
structure SdiInCounters where
  trsErrors : Nat := 0
  lnErrors : Nat := 0
  /-- Per link or sub-image k and stream x (0 = Y, 1 = C) at 2k + x. -/
  crcErrors : Tab Nat := []
  pidAbsent : Nat := 0
  detects : Nat := 0
  losses : Nat := 0
  repeats : Nat := 0
  drops : Nat := 0
  audioAsync : Nat := 0
  audioRate : Nat := 0
  audioErrors : Nat := 0
  audioIgnored : Nat := 0
  ancErrors : Nat := 0
  ancDrop : Nat := 0
  deriving DecidableEq, Repr

/-- What an input in WINDOW mode brings in order: a frame start, a picture line, an ancillary packet (R20, R119). -/
inductive WindowItem where
  | frame
  | line (l : PicLine)
  | anc (p : AncPacket)
  deriving DecidableEq, Repr

/-- An SDI input (R111 to R122). -/
structure SdiIn where
  state : SdiState := .noSignal
  reason : Nat := 1
  isolated : Bool := false
  /-- The last complete frame's structure and payload ID, and how many in a row were identical. -/
  last : Option (Nat × Option Word) := none
  same : Nat := 0
  detected : Option Nat := none
  pid : Word := 0
  /-- Offset in 2⁻¹⁶ ns, positive late (R116). -/
  offset : Int := 0
  /-- Lines in a row with the TRS missing or found at another position (R111). -/
  trsRun : Nat := 0
  /-- FRAMESYNC: usable from the first PP with a complete frame (R120). -/
  usablePending : Bool := false
  frozen : Bool := false
  /-- Frame synchronizer: frames completed since the last PP, and whether one can be presented. -/
  completed : Nat := 0
  haveFrame : Bool := false
  /-- The frame that is being written, the newest complete one, and the one that is presented (R120). -/
  writing : MediaFrame := {}
  stored : MediaFrame := {}
  shown : MediaFrame := {}
  /-- The next frame follows a repeat or a drop: its audio fades in (R121). -/
  seam : Bool := false
  /-- What waits for its place in the alignment window, and lines since it came (R20, R119). -/
  window : List (Nat × WindowItem) := []
  /-- The raster line received last, by the flywheel's count (R111). -/
  atLine : Nat := 0
  /-- Lines of links of a quad-link input that wait for the other links: link, raster line, samples (R110). -/
  quad : List (Nat × Nat × List (BitVec 10)) := []
  /-- What control packets declare of audio groups: 1 = asynchronous, 2 = another rate than 48 kHz (R131). -/
  groups : Tab Nat := []
  counters : SdiInCounters := {}
  deriving DecidableEq, Repr

/-- One line of an output's raster: line, link or sub-image, and the words of the interface in order from its
EAV on (R125). -/
structure RasterLine where
  line : Nat
  sub : Nat
  words : List (BitVec 10)
  deriving DecidableEq, Repr

/-- An SDI output (R123 to R128, R134). -/
structure SdiOut where
  /-- Settings that wait for the next frame start. -/
  pendingCfg : Option SdiOutCfg := none
  current : Nat := 0x21
  running : Bool := false
  /-- The timed source that is out of range (R126). -/
  outOf : Option Nat := none
  /-- Out of range, but the last frame was in range (R126). -/
  recovering : Bool := false
  /-- The last frame that brought a source was in range (R135). -/
  inRange : Bool := false
  /-- Fill of the elastic stage in percent of its depth. -/
  fill : Nat := 0
  isolated : Bool := false
  lastPid : Option Word := none
  /-- When line 1 of the frame in progress leaves the serializer, in 2⁻¹⁶ ns from ROOT cycle 0 (R125). -/
  startAt : Int := 0
  /-- A line of vertical blanking of the frame in progress is omitted or repeated (R128). -/
  slips : Option LineSlip := none
  /-- The frame in progress takes the second field of a Level B-DL raster. -/
  secondField : Bool := false
  /-- ROOT cycles by which a realignment makes the frame in progress longer, or below 0 shorter (R278). -/
  shift : Int := 0
  /-- The ancillary selection before the switch that the frame in progress holds (R148). -/
  ancBefore : Option (Option Nat) := none
  /-- Sample periods of its 16 channels since the frame start (R131). -/
  audio : List (List Word) := []
  /-- The last frame sent, and where the line code stands: scrambler and level (R46, R125). -/
  raster : List RasterLine := []
  scrambler : BitVec 9 := 0
  level : Bool := false
  /-- Place in the channel-status block that it generates (R291). -/
  csPlace : Nat := 0
  mistimed : Nat := 0
  formatSwitch : Nat := 0
  txSlip : Nat := 0
  deriving DecidableEq, Repr

/-- Embedded audio settings (R290, R291). -/
structure EmbedCfg where
  groupEn : BitVec 4 := 0xF
  csMode : BitVec 8 := 0
  control : Bool := true
  sdWidth : Bool := true
  deriving DecidableEq, Repr

/-- Edge lanes' SDI sides. -/
structure Sdi where
  inputs : Tab SdiIn := []
  outputs : Tab SdiOut := []
  /-- AUDIO_EMBED_CONFIG settings that wait for the next output frame start. -/
  pendingEmbed : Tab EmbedCfg := []
  /-- AUDIO_DEEMBED_CONFIG settings that apply from the next grid period. -/
  pendingDeembed : Tab (BitVec 4) := []
  deriving DecidableEq, Repr

/-! ## Packet ports and flows (06_packet_video) and queues (07_egress_queues) -/

/-- MAC_CONFIG settings (R183). -/
structure MacCfg where
  macAddr : BitVec 48 := 0
  fec : Nat := 0
  maxFrame : Nat := 9216
  vlanMode : Nat := 2
  vlanList : List Nat := []
  ipv4 : BitVec 32 := 0
  ipv6 : BitVec 128 := 0
  deriving DecidableEq, Repr

/-- A trap pattern (R190). -/
structure TrapPattern where
  mask : BitVec 128 := 0
  check : BitVec 16 := 0
  action : Nat := 0
  deriving DecidableEq, Repr

/-- Port counters of R210. (DEDUCED, log entry 70.) -/
structure PortCounters where
  received : Nat := 0
  forwarded : Nat := 0
  trapped : Nat := 0
  /-- Per drop reason of R186. -/
  dropped : Tab Nat := []
  rxBytes : Nat := 0
  txFrames : Nat := 0
  txBytes : Nat := 0
  txLinkDown : Nat := 0
  pauseRcvd : Nat := 0
  pauseHonoured : Nat := 0
  pauseTime : Nat := 0
  pfcIgnored : Nat := 0
  macCtrlUnknown : Nat := 0
  fecCorrected : Nat := 0
  fecUncorrected : Nat := 0
  linkLoss : Nat := 0
  deriving DecidableEq, Repr

/-- A frame stored in cells (R217, R218). -/
structure QFrame where
  bytes : Nat
  cells : Nat
  /-- The stored bytes, and the cells that hold them once it has been admitted. -/
  data : Bytes := []
  at' : List Nat := []
  launch : Word64
  ptpEvent : Bool := false
  deriving DecidableEq, Repr

/-- A packet port (R182 to R194, R223). -/
structure Port where
  link : Bool := false
  isolated : Bool := false
  paused : Bool := false
  pauseQuanta : Nat := 0
  pauseStart : Word64 := 0
  /-- The frame in transmission and its queue. -/
  sending : Option (Nat × QFrame) := none
  /-- The frame that the port has last sent, as it left: from its preamble to its FCS (R217, R219), and the state of
  the scrambler behind it (R46). -/
  wire : Bytes := []
  scrambler : BitVec 58 := BitVec.allOnes 58
  /-- Last queue served, per priority (R223). -/
  lastServed : Tab Nat := []
  counters : PortCounters := {}
  deriving DecidableEq, Repr

/-- Kinds of media flow (R197). -/
inductive FlowKind where
  | video | audio | anc | sdi
  deriving DecidableEq, Repr

/-- A leg of a receive flow (R197, R393). -/
structure RxLeg where
  port : Nat
  vid : Option Nat
  ipv6 : Bool
  dstPort : Nat
  dstIp : BitVec 128
  srcIp : BitVec 128
  deriving DecidableEq, Repr

/-- Flow counters of R210. -/
structure FlowCounters where
  usedA : Nat := 0
  usedB : Nat := 0
  duplicate : Nat := 0
  early : Nat := 0
  late : Nat := 0
  linesIncomplete : Nat := 0
  geometryErr : Nat := 0
  samplesRepeated : Nat := 0
  ancOverflow : Nat := 0
  deriving DecidableEq, Repr

/-- What a frame buffer of a receive slot holds of one frame (R198 to R203). -/
structure RxBuffer where
  /-- Frame start in ROOT cycles. -/
  start : Int
  packets : Nat := 0
  /-- Runs of samples: row key (field × 65,536 + row), first sample of the row, samples. -/
  rows : List (Nat × Nat × List (BitVec 10)) := []
  anc : List AncPacket := []
  /-- SDI: media bytes by packet of the frame. -/
  stream : Tab Bytes := []
  deriving DecidableEq, Repr

/-- A receive flow (R197 to R205). -/
structure RxFlow where
  kind : FlowKind
  slot : Option Nat
  chBase : Nat
  chCount : Nat
  format : Nat
  family : Nat
  pt : Nat
  l16 : Bool
  arrival : Bool
  playout : Nat
  pidFill : BitVec 16
  join : Bool
  report : Bool
  legA : RxLeg
  legB : Option RxLeg
  legAUp : Bool := true
  legBUp : Bool := true
  /-- Packets accepted in the window, newest first: extended sequence number, count of arrival, and
  whether leg B brought it (R204). -/
  recent : List (Nat × Word64 × Bool) := []
  /-- RTP timestamp, frame start in ROOT cycles and first sequence number of the frames in reception, newest
  first (R198). -/
  maps : List (Word × Int × Nat) := []
  /-- Frames in the frame buffers, and frames in a row that had a packet (R199, R200). -/
  buffers : List RxBuffer := []
  goodFrames : Nat := 0
  /-- Start of the frame that is being presented. -/
  shownAt : Option Int := none
  /-- Lines of it that have left. -/
  shownLines : Nat := 0
  /-- What waits in the arrival margin: frame start, first sequence number, UDP payload (R199). -/
  margin : List (Int × Nat × Bytes) := []
  /-- Arrival differences of packets received on both legs, with the count of each (R205). -/
  skews : List (Word64 × Int) := []
  /-- AUDIO: samples that wait for their play time, one word per channel, by 48 kHz index; the last
  good samples; the channels that carry silence (R201). -/
  samples : Tab (List Word) := []
  lastGood : List Word := []
  silent : List Nat := []
  /-- SDI: frames in a row with the same structure and payload ID, the structure detected and the payload ID;
  what control packets declare of its audio groups (R131, R203). -/
  same : Nat := 0
  detected : Option Nat := none
  pid : Option Word := none
  groups : Tab Nat := []
  /-- SDI: sequence number of the newest packet with the marker, the last one of its frame. -/
  lastMarker : Option Nat := none
  timeUnset : Bool := false
  counters : FlowCounters := {}
  deriving DecidableEq, Repr

/-- A leg of a transmit flow (R206, R207, R222). -/
structure TxLeg where
  queue : Nat
  template : Bytes
  /-- Packets refused by their queue, oldest first, at most 4 (R222). -/
  held : List QFrame := []
  /-- A packet that its queue has admitted and whose EOP cell has not been written (R221). -/
  writing : Option QFrame := none
  deriving DecidableEq, Repr

/-- A transmit flow (R206 to R209). -/
structure TxFlow where
  kind : FlowKind
  slot : Nat
  chBase : Nat
  chCount : Nat
  format : Nat
  family : Nat
  profile : Nat
  block : Bool
  payload : Nat
  ptime : Nat
  l16 : Bool
  ancPackets : Nat
  legA : TxLeg
  legB : Option TxLeg
  /-- FLOW_TX_DEL has been taken; the flow ends at the next frame start. -/
  stopping : Bool := false
  /-- Reference position of the frame that is sent, in ROOT cycles, and index of its next packet (R208, R209). -/
  frameAt : Option Int := none
  index : Nat := 0
  /-- Ancillary packets of the frame or field that its packets have taken (R230). -/
  taken : Nat := 0
  /-- Sample periods of its channels that wait, and the grid period of the first; of an SDI flow also those of the
  frame that is sent (R203, R208). -/
  samples : List (List Word) := []
  samplesAt : Nat := 0
  frameAudio : List (List Word) := []
  ancOverflow : Nat := 0
  timeUnset : Bool := false
  deriving DecidableEq, Repr

/-- Settings of an egress queue (R213, R214). -/
structure QueueCfg where
  enable : Bool := false
  port : Nat := 0
  priority : Nat := 0
  asap : Bool := false
  minCells : Nat := 0
  maxCells : Nat := 1024
  rate : Nat := 0
  burst : Nat := 16384
  lateLimit : Nat := 100
  deriving DecidableEq, Repr

/-- Queue counters of R232. -/
structure QueueCounters where
  peakCells : Nat := 0
  framesIn : Nat := 0
  framesOut : Nat := 0
  writeLate : Nat := 0
  headLate : Nat := 0
  frozenDrop : Nat := 0
  ctrlDrop : Nat := 0
  txLinkDown : Nat := 0
  txCut : Nat := 0
  flushed : Nat := 0
  deriving DecidableEq, Repr

/-- An egress queue (R213 to R233). -/
structure Queue where
  cfg : QueueCfg
  frames : List QFrame := []
  frozen : Bool := false
  isolated : Bool := false
  /-- A QUEUE gallery source has been raised for it since that source's last FAULT_ACK (R233). -/
  blame : BitVec 3 := 0
  sweeping : Option Reply := none
  /-- Cells with an uncorrectable link word that its discarded frames left behind: its own until the sweep
  (R220). -/
  stranded : List Nat := []
  /-- Shaper balance in 1/4,752 byte, and the count at which it was last brought up to date (R224). -/
  balance : Int := 16384 * 4752
  balanceAt : Word64 := 0
  /-- Frames of the Curator and of the take gate that wait for admission, of each writer in order, and the count at
  which the first of them was first refused (R222). -/
  stalled : List QFrame := []
  stalledAt : Word64 := 0
  gateStalled : List QFrame := []
  gateStalledAt : Word64 := 0
  counters : QueueCounters := {}
  deriving DecidableEq, Repr

/-- The cell pool (R231, R232). -/
structure CellPool where
  free : Nat := 196608
  /-- The free list: cells from `fresh` on that have never been handed out, and those given back, oldest first. -/
  fresh : Nat := 0
  spare : List Nat := []
  /-- Retired cells (R220). -/
  gone : List Nat := []
  /-- Cells admitted to a writer or in transmission. -/
  inFlight : Nat := 0
  sharedLow : Nat := 180224
  linkEccCorrected : Nat := 0
  /-- Cells whose own link word is uncorrectable, to be retired by the sweep of their queue: queue and
  cell (R220). -/
  badCells : List (Nat × Nat) := []
  deriving DecidableEq, Repr

/-- A trapped frame in a gallery's trap queue (R189). -/
structure Trapped where
  port : Nat
  bytes : Bytes
  /-- Ingress time and count of a PTP event message (R247). -/
  ptpTime : Option (Time × Word64) := none
  /-- The frame was trapped with action COMMAND (R192). -/
  command : Bool := false
  deriving DecidableEq, Repr

/-- Packet ports, flows, trap queues and egress queues. -/
structure Packets where
  ports : Tab Port := []
  rxFlows : Tab RxFlow := []
  txFlows : Tab TxFlow := []
  trapQueues : Tab (List Trapped) := []
  queues : Tab Queue := []
  pool : CellPool := {}
  deriving DecidableEq, Repr

/-! ## Time base and PTP (08_time_base) -/

/-- The triple that turns a count into time (R234). -/
structure Triple where
  c0 : Word64 := 0
  t0 : Time := { sec := 0, ns := 0, frac := 0 }
  rate : Nat := 473863597155987
  deriving DecidableEq, Repr

/-- A staged rebase (R239). -/
structure Rebase where
  triple : Triple
  absolute : Bool
  deriving DecidableEq, Repr

/-- Device PTP settings (R251). -/
structure PtpDevCfg where
  host : Bool := false
  priority1 : Nat := 128
  priority2 : Nat := 128
  clockClass : Nat := 248
  stepLimit : Nat := 1000
  maxSlew : Nat := 10
  deriving DecidableEq, Repr

/-- Settings of one PTP port (R251). -/
structure PtpPortCfg where
  enable : Bool := false
  profile : Nat := 0
  domain : Nat := 127
  transport : Nat := 1
  twoStep : Bool := false
  p2p : Bool := false
  logSync : Int := -3
  logAnnounce : Int := -2
  logDelayReq : Int := -3
  announceTimeout : Nat := 3
  masterOnly : Bool := false
  pathStepLimit : Nat := 100
  deriving DecidableEq, Repr

/-- An entry of an egress FIFO: message, domain, sequence number and egress count (R250). -/
structure EgressTime where
  message : PtpMessage
  domain : Nat
  sequence : Nat
  time : Time
  deriving DecidableEq, Repr

/-- A received two-step message that waits for its follow-up: its sequence, its ingress time and count, the time that it
carries, and its correction, in 2⁻¹⁶ ns (R252). -/
structure PtpWait where
  sequence : Nat
  ingress : Int
  count : Word64
  carried : Int
  correction : Int
  deriving DecidableEq, Repr

/-- The last Sync of the master: when it left by the master and came by the device, in 2⁻¹⁶ ns, and the count (R252). -/
structure PtpSync where
  master : Int
  device : Int
  count : Word64
  deriving DecidableEq, Repr

/-- Running state of one PTP port (R250, R252, R256). -/
structure PtpPort where
  slave : Bool := false
  parent : BitVec 80 := 0
  meanPathDelay : Int := 0
  baseline : Option Int := none
  lastOffset : Int := 0
  /-- Egress FIFO, oldest first (R250). -/
  egress : List EgressTime := []
  tsFifoFull : Nat := 0
  parseSkip : Nat := 0
  syncRcvd : Nat := 0
  delayRespRcvd : Nat := 0
  pathSteps : Nat := 0
  sent : Nat := 0
  /-- The delay exchange in progress: what waits for a follow-up, the last Sync, and sequence and egress time of the last
  request; and the path-delay samples since the last measurement, oldest first, in 2⁻¹⁶ ns (R252). -/
  waitSync : Option PtpWait := none
  waitPeer : Option PtpWait := none
  synced : Option PtpSync := none
  request : Option (Nat × Int) := none
  samples : List Int := []
  deriving DecidableEq, Repr

/-- Servo states of R253. -/
inductive Servo where
  | disabled | acquiring | tracking | timeHoldover
  deriving DecidableEq, Repr

/-- The time snapshot registers (R243 to R245). -/
structure TimeSnap where
  capture : Bool := false
  valid : Bool := false
  withHang : Bool := false
  servo : Servo := .disabled
  secHi : Word := 0
  secLo : Word := 0
  ns : Word := 0
  frac : Word := 0
  countLo : Word := 0
  countHi : Word := 0
  deriving DecidableEq, Repr

/-- The time base and the PTP servo (R32, R234 to R257). -/
structure TimeBase where
  count : Word64 := 0
  uptimeHi : Word := 0
  triple : Triple := {}
  timeSet : Bool := false
  staged : Option Rebase := none
  servo : Servo := .disabled
  pathStep : Bool := false
  overLimit : Nat := 0
  slavePort : Option Nat := none
  lastMeasurement : Option Int := none
  utcOffset : Int := 0
  utcValid : Bool := false
  ptpPorts : Tab PtpPort := []
  snap : TimeSnap := {}
  deriving DecidableEq, Repr

/-! ## Reference unit (09_reference_and_holdover) -/

/-- REF_CONFIG settings of one candidate, frame pulse included (R260, R275). -/
structure RefCfg where
  enable : Bool := false
  freqNum : Nat := 10000000
  freqDen : Nat := 1
  fabLane : Nat
  reject : Nat := 500
  accept : Nat := 200
  acceptTime : Nat := 10
  partner : Option Nat := none
  pairLimit : Nat := 100
  fpEnable : Bool := false
  fpFamily : Nat := 0
  fpDivide : Nat := 1
  fpActiveLow : Bool := false
  deriving DecidableEq, Repr

/-- Monitors of one candidate (R261 to R263, R272, R279). -/
structure Candidate where
  active : Bool := false
  qualified : Bool := false
  lastReason : Nat := 0
  reading : Option Int := none
  gates : Nat := 0
  /-- Inactive for a part of the gate in progress (R262). -/
  partGate : Bool := false
  overGates : Nat := 0
  underGates : Nat := 0
  pairAlarm : Bool := false
  pairDiff : Int := 0
  losses : Nat := 0
  freqDisqualify : Nat := 0
  glitches : Nat := 0
  fpOffset : Int := 0
  fpSeen : Bool := false
  deriving DecidableEq, Repr

/-- Loop states of R265. -/
inductive Loop where
  | freeRun | acquiring | locked | holdover | lost
  deriving DecidableEq, Repr

/-- PULSE_CONFIG settings (R276). -/
structure PulseCfg where
  enable : Bool := false
  family : Nat := 0
  divide : Nat := 1
  phase : Nat := 0
  offset : Nat := 0
  width : Nat := 100
  activeLow : Bool := false
  deriving DecidableEq, Repr

/-- DPLL_CONFIG settings (R264). -/
structure DpllCfg where
  bandwidth : Nat := 10
  freqSlew : Nat := 100
  deriving DecidableEq, Repr

/-- A pulse of an FPOUT: whether the output pulses at all, its edges in 1/4,752 ns, and its polarity (R276). -/
structure FpPulse where
  on : Bool
  start : Int
  stop : Int
  activeLow : Bool
  deriving DecidableEq, Repr

/-- The reference unit (R258 to R280). A device reset keeps it (R274). -/
structure Reference where
  refsel : Option (Fin 8) := none
  loop : Loop := .freeRun
  freqValid : Bool := true
  xoGood : Bool := true
  historySeconds : Nat := 0
  /-- Readings of ROOT against XO_IN of the last 60 s in LOCKED, newest first (R267). -/
  history : List Int := []
  rootOffset : Int := 0
  phaseError : Int := 0
  /-- Phase target of the loop, in 2⁻¹⁶ ns, and ROOT's frequency control word in 0.01 ppm (R268). -/
  phaseTarget : Int := 0
  frequency : Int := 0
  candidates : Tab Candidate := []
  /-- A PULSE_CONFIG change that waits for its boundary: target hang and settings (R276). -/
  pendingPulse : Tab (Word × PulseCfg) := []
  /-- Pulses put out per FPOUT, and the last one of each (R276). -/
  pulses : Tab Nat := []
  fpOut : Tab FpPulse := []
  /-- Of the servo's measurements: the last offset from master, in 2⁻¹⁶ ns, and the master's frequency against XO_IN in
  the gate in progress, in 0.01 ppm (R258, R262, R271). -/
  ptpOffset : Int := 0
  ptpReadings : List Int := []
  switches : Nat := 0
  holdoverEntries : Nat := 0
  lostEntries : Nat := 0
  deriving DecidableEq, Repr

/-! ## Audio (10_audio) -/

/-- TDM_PORT_CONFIG settings (R292). -/
structure TdmCfg where
  enable : Bool := false
  fs96 : Bool := false
  slots : Nat := 8
  lr : Bool := false
  dataDelay : Bool := false
  bclkPolarity : Bool := false
  fsyncPolarity : Bool := false
  txOffHiZ : Bool := false
  zcTimeout : Nat := 10
  group : Option Nat := none
  deriving DecidableEq, Repr

/-- TDM_START_GROUP settings (R298). -/
structure GroupCfg where
  mediaAlign : Bool := false
  align : Nat := 48
  deriving DecidableEq, Repr

/-- Port states of R305. -/
inductive TdmState where
  | stopped | waitingStart | running | isolated
  deriving DecidableEq, Repr

/-- A slot that waits for a zero crossing: its target state and the sample before (R301). -/
structure SlotWait where
  slot : Nat
  target : Bool
  previous : Word
  /-- Grid period at which ZC_TIMEOUT is over. -/
  due : Nat
  deriving DecidableEq, Repr

/-- A TDM port (R292 to R306). -/
structure TdmPort where
  state : TdmState := .stopped
  underrun : Bool := false
  overrun : Bool := false
  /-- Masks set by TDM_SLOT_MASK that wait for the next frame boundary. -/
  pendingMasks : Option (BitVec 32 × BitVec 32) := none
  pendingCfg : Option TdmCfg := none
  txMask : BitVec 32 := 0xFF
  rxMask : BitVec 32 := 0xFF
  /-- Slots that are on now. -/
  txOn : BitVec 32 := 0
  rxOn : BitVec 32 := 0
  txWaiting : List SlotWait := []
  rxWaiting : List SlotWait := []
  txZcSlots : BitVec 32 := 0
  rxZcSlots : BitVec 32 := 0
  /-- The FIFOs of two frames of slot words between the matrix and the shift register: their words, and the places of
  the next write and the next read (R303). -/
  txFifo : List Word := []
  txWrite : Nat := 0
  txRead : Nat := 0
  rxFifo : List Word := []
  rxWrite : Nat := 0
  rxRead : Nat := 0
  /-- The slots of the last period on DOUT, none for high impedance, and FSYNC in each of its bit periods; a port that
  has stopped drives both low where the lists end (R292, R293). -/
  dout : List (Option Word) := []
  fsync : List Bool := []
  /-- ROOT cycle from which on a waiting port may start (R298). -/
  startFrom : Int := 0
  restartPending : Bool := false
  /-- TDM_RESTART commands that are answered once the port runs again (R304). -/
  restartReplies : List Reply := []
  /-- Slot words received in the last frame (R301). -/
  din : List Word := []
  frames : Nat := 0
  underruns : Nat := 0
  overruns : Nat := 0
  zcTimeouts : Nat := 0
  restarts : Nat := 0
  deriving DecidableEq, Repr

/-- A running fade of a destination channel (R286, R289). -/
structure Fade where
  old : Option Nat
  new : Option Nat
  /-- Sample periods per half fade, and periods since s0. -/
  half : Nat
  step : Nat := 0
  /-- Gain at s0 in units of 1 / `startDen`, for a fade that replaced a running one (R289). -/
  startNum : Nat := 1
  startDen : Nat := 1
  /-- FADE engine whose place it holds (R288). -/
  engine : Nat := 0
  deriving DecidableEq, Repr

/-- Audio matrix, grid and TDM ports. -/
structure Audio where
  period : Nat := 0
  /-- Audio sample memory: word of source channel c in period k stands at 32 × c + k mod 32 (R17). -/
  memory : Tab Word := []
  outputs : Tab Word := []
  /-- The outputs of the period before (R301). -/
  outputsBefore : Tab Word := []
  /-- Channels marked non-audio in the last complete channel-status block (R287). -/
  nonAudio : List Nat := []
  /-- Per source channel: place in the channel-status block, and the non-audio bit read in it (R287). -/
  csBlocks : Tab (Nat × Bool) := []
  fades : Tab Fade := []
  /-- Places held from the cutoff: destination channel and FADE engine (R288). -/
  reservedFades : Tab Nat := []
  fadeDowngraded : Nat := 0
  fadeAborted : Nat := 0
  ports : Tab TdmPort := []
  /-- Start group settings that wait for a group boundary under them (R299). -/
  pendingGroups : Tab GroupCfg := []
  deriving DecidableEq, Repr

/-! ## Compositor (11_compositor) -/

/-- HEAD_CONFIG settings (R307). -/
structure HeadCfg where
  enable : Bool := false
  format : Nat := 0x30
  family : Nat := 0
  outColorimetry : Nat := 0
  outTransfer : Nat := 0
  postLut : Nat := 1
  backY : Nat := 64
  backCb : Nat := 512
  backCr : Nat := 512
  deriving DecidableEq, Repr

/-- LAYER_CONFIG settings of a video layer (R313). -/
structure VideoLayerCfg where
  enable : Bool := false
  visible : Bool := true
  x : Int := 0
  y : Int := 0
  w : Nat := 1920
  h : Nat := 1080
  cropX : Nat := 0
  cropY : Nat := 0
  cropW : Nat := 0
  cropH : Nat := 0
  ratio : Bool := false
  hStep : Nat := 0x10000
  vStep : Nat := 0x10000
  pair : Bool := false
  filter : Nat := 0
  hold : Bool := false
  fillY : Nat := 64
  fillCb : Nat := 512
  fillCr : Nat := 512
  holdLimit : Nat := 0
  z : Nat
  alpha : Nat := 1023
  keyLayer : Option Nat := none
  keyLow : Nat := 64
  keyHigh : Nat := 940
  inColorimetry : Nat := 0
  preLut : Nat := 4
  matrix : Nat := 4
  deriving DecidableEq, Repr

/-- LAYER_CONFIG settings of a graphic layer (R324). -/
structure GraphicLayerCfg where
  enable : Bool := false
  x : Int := 0
  y : Int := 0
  w : Nat := 1920
  h : Nat := 1080
  rgb10 : Bool := false
  vitrines : Nat := 2
  z : Nat
  alpha : Nat := 1023
  inColorimetry : Nat := 1
  preLut : Nat := 1
  matrix : Nat := 0
  deriving DecidableEq, Repr

/-- The layer frame that a video layer is writing: its hang, the source frame that it takes by source, format, payload
ID and the ROOT cycle at which that began (R309). -/
structure LayerFrame where
  hang : Word
  source : Nat
  format : Nat
  pid : Word
  beganAt : Int
  deriving DecidableEq, Repr

/-- A tile slot: the hang that tags it, whether it is complete, and what its pixels were scaled from: the layer's
settings, and the format, payload ID and lines of the source frame (R319). -/
structure TileSlot where
  tag : Word
  complete : Bool
  cfg : VideoLayerCfg
  format : Nat
  pid : Word
  lines : List PicLine
  deriving DecidableEq, Repr

/-- A video layer's running state (R316, R317, R319, R331). (DESIGN CHOICE, log entry 88.) -/
structure VideoLayer where
  /-- The settings of the layer frame that is being written. -/
  cfg : VideoLayerCfg
  /-- The settings of the region that is held beside a new one for the frame after the change (R317). -/
  before : Option VideoLayerCfg := none
  unfit : Nat := 0
  /-- The two slots of the tiles of each tile row of the visible window, the one written last in front (R317, R319).
  (DESIGN CHOICE, log entry 88.) -/
  tiles : Tab (List TileSlot) := []
  /-- The layer frame that is being written; none where the layer takes no source frame (R309, R316). -/
  frame : Option LayerFrame := none
  /-- Payload ID of the source of the last layer frame. -/
  pid : Word := 0
  /-- Timed sources, of the shown one and the protection source, that started outside the window of the last layer
  frame: lost at this layer (R309). -/
  outOf : List Nat := []
  /-- What the running output frame shows: 0 source, 1 standby, 2 hold. -/
  shown : Nat := 1
  isolated : Bool := false
  mistimed : Nat := 0
  tilesIncomplete : Nat := 0
  framesStandby : Nat := 0
  framesHeld : Nat := 0
  unfitEvents : Nat := 0
  deriving DecidableEq, Repr

/-- A graphic layer's running state (R325, R326, R331). -/
structure GraphicLayer where
  cfg : GraphicLayerCfg
  displayed : Nat := 0
  /-- Bytes of its vitrines in the graphic surface pool and in the free region; none where no vitrines
  are allocated (R324). -/
  space : Option (Nat × Nat) := none
  isolated : Bool := false
  flips : Nat := 0
  flipsWaited : Nat := 0
  flipsAbandoned : Nat := 0
  flipsCancelled : Nat := 0
  deriving DecidableEq, Repr

/-- One entry of a flip or a flip group (R326, R327). -/
structure FlipEntry where
  head : Nat
  layer : Nat
  vitrine : Nat
  fence : Nat
  deriving DecidableEq, Repr

/-- A pending flip or flip group (R326 to R329). -/
structure Flip where
  group : Bool
  family : Nat
  target : Word
  /-- Frames after the target; none = no deadline (FLIP with DEADLINE 255). -/
  deadline : Option Nat
  entries : List FlipEntry
  reply : Option Reply
  deriving DecidableEq, Repr

/-- What a staged compositor command changes (R323). -/
inductive CompChange where
  | head (cfg : HeadCfg)
  | video (layer : Nat) (cfg : VideoLayerCfg)
  /-- With the space taken for new vitrines, where the change allocates them. -/
  | graphic (layer : Nat) (cfg : GraphicLayerCfg) (space : Option (Nat × Nat))
  | table (target : Nat) (words : List (BitVec 16))
  deriving DecidableEq, Repr

/-- A staged compositor change (R323). -/
structure CompStaged where
  head : Nat
  hang : Word
  change : CompChange
  reply : Option Reply
  deriving DecidableEq, Repr

/-- A compositor head (R307 to R309). -/
structure Head where
  cfg : HeadCfg := {}
  /-- ENABLE has been applied and the first output frame has started. -/
  showing : Bool := false
  /-- Extension units of 4,096 tiles that it holds (R317). -/
  extension : Nat := 0
  deriving DecidableEq, Repr

/-- The compositor. -/
structure Compositor where
  heads : Tab Head := []
  /-- Keyed head × 16 + layer. -/
  video : Tab VideoLayer := []
  graphic : Tab GraphicLayer := []
  /-- Loaded tables, keyed head × 33 + TARGET (R322). -/
  tables : Tab (List (BitVec 16)) := []
  staged : List CompStaged := []
  flips : List Flip := []
  deriving DecidableEq, Repr

/-! ## Engines and fences (12_engines) -/

/-- ENGINE_ASSIGN settings (R339). -/
structure EngineCfg where
  kernel : Nat := 0
  family : Nat := 0
  gen : Option Nat := none
  format : Nat := 0x21
  cover : BitVec 8 := 0
  deriving DecidableEq, Repr

/-- Engine states of R343. -/
inductive EngineState where
  | unassigned | loading | running | spare | stopped | isolated
  deriving DecidableEq, Repr

/-- A staged kernel switch (R337). -/
structure Switch where
  cfg : EngineCfg
  /-- TARGET of the command; none = the next invocation boundary, for a reload after FAULT_ACK. -/
  target : Option Word
  /-- Hang applied, once the load is complete. -/
  hang : Word := 0
  loaded : Bool := false
  /-- Catalogue slot that the kernel is loaded from (R480, R484). -/
  slot : Nat := 0
  /-- State that the engine left, to which an abandoned load returns it. -/
  former : EngineState
  /-- Header of the command's reply, which the end of the load sends; and of its completion. -/
  reply : Option Reply := none
  notify : Option Reply := none
  deriving DecidableEq, Repr

/-- A queued display list (R344). -/
structure DisplayList where
  vit : Nat
  /-- Words not yet run. -/
  words : List Word
  /-- Fence of each SIGNAL not yet run, in list order. -/
  fences : List Nat
  deriving DecidableEq, Repr

/-- Values of ENGINE_PARAM that wait for their hang (R341). -/
structure ParamSet where
  kernel : Nat
  index : Nat
  values : List Word
  hang : Word
  reply : Option Reply := none
  deriving DecidableEq, Repr

/-- An engine (R333 to R352). -/
structure Engine where
  cfg : EngineCfg := {}
  state : EngineState := .unassigned
  bank1 : Bool := false
  /-- A kernel keeps running while another loads (R343). -/
  live : Bool := false
  switch : Option Switch := none
  loadAborted : Bool := false
  queue : List DisplayList := []
  /-- The list at the front of the queue is running; fences of it still to signal. -/
  listRunning : Bool := false
  skips : Nat := 0
  /-- Mailbox values by index, and the last values that the Curator holds, keyed kernel × 1,024 + index
  (R338, R341). -/
  params : Tab Word := []
  held : Tab Word := []
  pendingParams : List ParamSet := []
  results : List Int := []
  /-- PROBE: frames in a row with a mean Y of at most 70, and without a change; the samples of the region in the
  frame before (R340). -/
  blackRun : Nat := 0
  stillRun : Nat := 0
  region : List (List (BitVec 10)) := []
  /-- GEN_VIDEO: the pattern descriptor, PATTERN and levels, and the number of its frame; ANC: the packets of its
  next frame (R340). -/
  pattern : List Int := []
  frameCount : Nat := 0
  ancOut : List AncPacket := []
  /-- Audio kernels: inputs of the last 24 grid periods, oldest first; the sources' words by grid period; MIX: old
  value and period of the change of each gain; LOUDNESS: what its meters hold (R340, R341). -/
  heard : List (List Word) := []
  ready : List (Nat × List Word) := []
  ramps : Tab (Int × Nat) := []
  meter : List Int := []
  /-- Its generator source has become usable since the switch (R339). -/
  offered : Bool := false
  silent : Bool := false
  /-- Catalogue slot of the running kernel. -/
  slot : Nat := 0
  /-- Engine whose ports of R334 this engine holds after takeovers (R351). -/
  ports : Nat
  /-- Engine that it takes over, once chosen. -/
  covers : Option Nat := none
  overruns : Nat := 0
  listsDone : Nat := 0
  listsCancelled : Nat := 0
  glyphMissing : Nat := 0
  takeovers : Nat := 0
  dmaBytes : Nat := 0
  deriving DecidableEq, Repr

/-- States of a fence (R349). -/
inductive FenceState where
  | pending | signalled | cancelled
  deriving DecidableEq, Repr

/-- What has been drawn into vitrines (R325, R345). Positions are vitrine pixels; colours are pixels in
the packing of the vitrine's FORMAT; `blend` = source-over. -/
inductive Paint where
  /-- The vitrines of a layer, numbered 4h + l − 12, are allocated and zero. -/
  | zero (layer : Nat)
  | clear (vit : Nat) (colour : Word)
  | rect (vit : Nat) (x y : Int) (w h : Nat) (colour : Word) (blend rgb10 : Bool)
  | frame (vit : Nat) (x y : Int) (w h : Nat) (colour : Word) (thick : Nat) (blend rgb10 : Bool)
  | text (vit : Nat) (x y : Int) (colour : Word) (font size : Nat) (chars : List Nat) (rgb10 : Bool)
  | blit (vit src : Nat) (sx sy : Int) (w h : Nat) (dx dy : Int) (srcW srcH : Nat) (blend rgb10 : Bool)
  deriving DecidableEq, Repr

/-- Engines, fences and vitrine contents. -/
structure Engines where
  engines : Tab Engine := []
  /-- Everything drawn, newest first. -/
  paint : List Paint := []
  nextFence : Nat := 1
  /-- Fences issued, newest first, at most 1,048,576. -/
  fences : List (Nat × FenceState) := []
  issued : Nat := 0
  signalled : Nat := 0
  pending : Nat := 0
  cancelled : Nat := 0
  deriving DecidableEq, Repr

/-! ## Faults and the Ledger (16_faults_and_ledger) -/

/-- One fault source (R425 to R429, R436). -/
structure FaultSource where
  sticky : Bool := false
  events : Nat := 0
  escalated : Bool := false
  isolating : Bool := false
  maxSeverity : Nat := 0
  /-- Raised at CRITICAL and not acknowledged since, and asking for failover (R431, R432). -/
  critical : Bool := false
  failover : Bool := false
  deriving DecidableEq, Repr

/-- The fault collector. -/
structure Faults where
  sources : Tab FaultSource := []
  /-- Classes in the failover hold (R432). -/
  hold : List Nat := []
  /-- Corrected ECC errors by MEMORY source (R25, R26). -/
  corrected : Tab Nat := []
  /-- Words of a MEMORY source that still get complemented check bits (R439). -/
  invert : Tab Nat := []
  /-- Conditions of R441 that stand: index to whether it has been raised. -/
  standing : List Nat := []
  deriving DecidableEq, Repr

/-- The Ledger's own totals and verdicts (R401, R442, R443). -/
structure Ledger where
  breaches : Tab Nat := []
  lastBreach : Nat := 0
  /-- Instances that failed at their last check: equation × 1,024 + instance. -/
  failed : List Nat := []
  takes : TakeTotals := {}
  /-- Per port: received, forwarded, trapped, dropped. -/
  packets : Tab (Nat × Nat × Nat × Nat) := []
  /-- Per TDM port × 2 + direction: words written, words read and slots counted on. -/
  tdm : Tab (Nat × Nat × Nat) := []
  deriving DecidableEq, Repr

/-! ## Curator and bus matrix (15_curator_and_bus) -/

/-- Causes of a Curator restart (R417). -/
inductive RestartCause where
  | powerOn | watchdog | lockstep | request | activate | confirmTimeout
  deriving DecidableEq, Repr

/-- The bus-error capture (R416). -/
structure BusError where
  reason : Nat := 0
  fetch : Bool := false
  write : Bool := false
  target : Nat := 0
  master : Nat := 0
  valid : Bool := false
  addr : BitVec 40 := 0
  deriving DecidableEq, Repr

/-- System control, watchdog and bus-matrix registers. -/
structure Curator where
  remap : Bool := false
  wdogPeriod : Word := 2000000
  wdogRemain : Word := 2000000
  restartCause : RestartCause := .powerOn
  restartCount : Nat := 0
  confirmRemain : Nat := 0
  restarting : Bool := false
  prio : Word := 0x0000_0023
  park : Word := 0
  error : BusError := {}
  errorCounts : Tab Nat := []
  obBaseLo : Word := 0
  obBaseHi : Word := 0
  starve : Word := 0x0000_0400
  deriving DecidableEq, Repr

/-! ## Strongroom (17_strongroom) -/

/-- State of a key slot (R403, R455). -/
inductive SlotState where
  | empty | valid | bad
  deriving DecidableEq, Repr

/-- A key slot record as the store holds it (R455). -/
structure KeySlot where
  policy : BitVec 16 := 0
  wrapped : Bytes := []
  tag : BitVec 128 := 0
  deriving DecidableEq, Repr

/-- The root of a start (R446 to R450). -/
inductive Root where
  | none
  | failed
  | production (key : BitVec 256)
  | test (key : BitVec 256)
  deriving DecidableEq, Repr

/-- The Strongroom. -/
structure Strongroom where
  root : Root := .none
  /-- States found at the last check of each slot (R455). -/
  slotStates : Tab SlotState := []
  deriving DecidableEq, Repr

/-! ## Store, images and activation (18_store_and_update) -/

/-- The running settings that STORE_WRITE captures (R466). -/
structure Settings where
  lanes : Tab LaneCfg := []
  eq : Tab EqCfg := []
  planes : Tab Bool := []
  pairs : Tab PairCfg := []
  sdiIn : Tab SdiInCfg := []
  sdiOut : Tab SdiOutCfg := []
  embed : Tab EmbedCfg := []
  deembed : Tab (BitVec 4) := []
  mac : Tab MacCfg := []
  traps : Tab TrapPattern := []
  honourPause : Tab Bool := []
  families : Tab FamilyCfg := []
  dests : Tab DestCfg := []
  sources : Tab SourceCfg := []
  ptpDev : PtpDevCfg := {}
  ptpPorts : Tab PtpPortCfg := []
  asymmetry : Tab Int := []
  refs : Tab RefCfg := []
  dpll : DpllCfg := {}
  pulses : Tab PulseCfg := []
  tdm : Tab TdmCfg := []
  groups : Tab GroupCfg := []
  engines : Tab EngineCfg := []
  severities : Tab Nat := []
  twinLetter : Bool := false
  twinLanes : List Nat := []
  twinActive : Option Bool := none
  deriving DecidableEq, Repr

/-- The IMAGE_RX record (R465, R474, R475). -/
structure ImageRx where
  slot : Nat
  /-- 1 receiving, 2 complete, 3 verified. -/
  state : Nat
  size : Nat
  digest : BitVec 384
  held : List Nat
  deriving DecidableEq, Repr

/-- A store bank that a write has made complete (R464, R465). -/
structure Bank where
  seq : Word
  activeSlot : Nat := 0
  trial : Bool := false
  heldFormat : Nat := 0
  minimum : Option Nat := none
  helper : Option (BitVec 8160 × BitVec 384) := none
  keySlots : Option (Tab KeySlot) := none
  imageRx : Option ImageRx := none
  /-- SETTINGS records by settings format, and the key of each one's directory. -/
  settings : Tab Settings := []
  settingsKey : Tab Nat := []
  deriving DecidableEq, Repr

/-- What a store write changes in the bank that it copies (R468). -/
inductive BankChange where
  /-- STORE_WRITE COMMIT and DEFAULTS. -/
  | commit (settings : Settings)
  | defaults
  | keySlot (slot : Nat) (record : Option KeySlot)
  /-- IMAGE_RX as it stands when the write begins. -/
  | imageRx
  | verified
  /-- ACTIVATE: the new slot, and what its reply and switch need (R480). -/
  | activate (slot : Nat) (target : Word) (family window : Nat) (notify : Option Reply)
  | confirm
  | fallBack
  | settingsConfirm
  /-- ACTIVE_SLOT changed after a start from the other slot (R487). -/
  | otherSlot
  deriving DecidableEq, Repr

/-- A requested store write and the command that it answers (R468). -/
structure BankWrite where
  change : BankChange
  reply : Option Reply := none
  deriving DecidableEq, Repr

/-- An activation or a fall-back whose engines have not all switched (R480, R481, R484). -/
structure Activation where
  hang : Word
  family : Nat
  window : Nat
  reply : Option Reply
  deriving DecidableEq, Repr

/-- The store, the images and BOOT_STATE. -/
structure Store where
  bankA : Option Bank := none
  bankB : Option Bank := none
  debugA : Option Bank := none
  debugB : Option Bank := none
  selectedB : Bool := false
  /-- The newer debug bank is bank B. -/
  debugNewB : Bool := false
  noBank : Bool := true
  /-- Banks A and B passed the checks of this start, or have been written since (R467, R469). -/
  validA : Bool := false
  validB : Bool := false
  /-- Writes in the order in which they were requested, the running one first (R468). -/
  writes : List BankWrite := []
  /-- Chunks in the image slots, keyed slot × 6,144 + index. -/
  chunks : Tab Bytes := []
  rx : Option ImageRx := none
  sinceBitmap : Nat := 0
  bootSlot : Nat := 0
  trial : Bool := false
  switched : Bool := false
  /-- The new mirror is filled, and the previous one is kept (R480). -/
  secondMirror : Bool := false
  activation : Option Activation := none
  /-- A fall-back has begun and its bank is not written yet (R484). -/
  fallingBack : Bool := false
  /-- The start came from the slot that ACTIVE_SLOT does not name (R487). -/
  otherSlot : Bool := false
  deriving DecidableEq, Repr

/-! ## Twin pairs (19_twin_pairs) -/

/-- Pair states of R492. -/
inductive PairState where
  | unpaired | seeking | paired | partnerLost
  deriving DecidableEq, Repr

/-- The partner's last TWIN_STATE (R491). -/
structure PartnerState where
  letterB : Bool
  active : Bool
  flags : BitVec 8
  laneCount : Nat
  count : Word64
  hangs : List Word
  swapHang : Word
  swapFamily : Nat
  swapState : Nat
  twinSeq : Word
  receivedAt : Word64
  deriving DecidableEq, Repr

/-- A staged role swap (R498). -/
structure Swap where
  hang : Word
  family : Nat
  agreed : Bool
  /-- The target had passed, so that the reply is LATE. -/
  late : Bool := false
  /-- The twin that received TWIN_SWAP owes its reply and completion. -/
  reply : Option Reply
  notify : Bool := false
  deriving DecidableEq, Repr

/-- A mirrored command whose partner reply is awaited (R500). -/
structure Mirrored where
  twinSeq : Word
  status : Nat
  hang : Word
  deriving DecidableEq, Repr

/-- The twin unit. -/
structure Twin where
  pair : PairState := .unpaired
  active : Bool := false
  partner : Option PartnerState := none
  partnerFailover : Bool := false
  partnerHb : Bool := false
  swap : Option Swap := none
  /-- Cancelled swaps whose replies are still to be sent. -/
  cancelled : List Swap := []
  txSeq : Word := 0
  rxSeq : Word := 0
  /-- TWIN_STATE messages in a row in which family n differed (R499). -/
  differing : Tab Nat := []
  awaiting : List Mirrored := []
  takeovers : Nat := 0
  swaps : Nat := 0
  mirrored : Nat := 0
  mirrorDiffer : Nat := 0
  mirrorDropped : Nat := 0
  deriving DecidableEq, Repr

/-! ## Resets, life cycle, JTAG and Docent (20_reset_lifecycle_docent) -/

/-- Fuses and life cycle (R514). -/
structure LifeCycle where
  provisioned : Bool := true
  retired : Bool := false
  entries : Nat := 0
  exits : Nat := 0
  unlockPending : Bool := false
  testRoot : Bool := false
  /-- A life-cycle change waits for its device reset (R515). -/
  resetDue : Bool := false
  deriving DecidableEq, Repr

/-- JTAG instructions (R518). -/
inductive JtagInstr where
  | idcode | extest | sample | clamp | highz | dbgAccess | dbgUnlock | bypass
  deriving DecidableEq, Repr

/-- The Docent monitor (R520, R521). -/
structure Docent where
  mode : Nat := 1
  baud : Nat := 115200
  newBaud : Option Nat := none
  line : Bytes := []
  overlong : Bool := false
  /-- Lines that wait to leave, oldest first. -/
  output : List String := []
  trace : Bool := false
  resetDue : Bool := false
  deriving DecidableEq, Repr

/-- Start and clock state, balls and sensors (R42, R510, R538). -/
structure Chip where
  reserveReady : Bool := false
  dataPlaneReady : Bool := false
  curatorServing : Bool := false
  rootLocked : Bool := false
  startPhase : Nat := 0
  /-- Neither image slot passed its check: the start goes no further (R487). -/
  bootFailed : Bool := false
  pcieLink : Bool := false
  jtag : JtagInstr := .idcode
  /-- The word the last DBG_ACCESS read returned. -/
  jtagData : Word := 0
  /-- Temperatures in 0.1 °C: galleries 0 to 15, device, stack A, stack B. -/
  temps : Tab Int := []
  /-- Rails out of tolerance. -/
  railsOut : List Rail := []
  deriving DecidableEq, Repr

/-- The whole device. (DESIGN CHOICE, log entry 140.) -/
structure State where
  chip : Chip := {}
  cmd : Command := {}
  mtx : Matrices := {}
  fab : Fabric := {}
  sdi : Sdi := {}
  pkt : Packets := {}
  time : TimeBase := {}
  ref : Reference := {}
  aud : Audio := {}
  comp : Compositor := {}
  eng : Engines := {}
  flt : Faults := {}
  led : Ledger := {}
  cur : Curator := {}
  strong : Strongroom := {}
  store : Store := {}
  twin : Twin := {}
  life : LifeCycle := {}
  doc : Docent := {}
  set : Settings := {}
  /-- Free space of the Reserve's shared part and of the graphic pool, in bytes (R27, R28). -/
  reserveFree : Nat := 9656 * 1048576
  graphicFree : Nat := 13000 * 1048576
  /-- Memory that the bus matrix reaches (R407). -/
  mem : List Host.Cell := []
  /-- The BAR2 windows, by BAR2 offset (R388). -/
  bar2 : List Host.Cell := []
  /-- Not the manual's: how many free values have been drawn. -/
  draws : Nat := 0
  /-- The commands that are waiting, first in, first out. -/
  pending : List Instr := []
  deriving DecidableEq, Repr

/-- The device right after power-on reset: every register at the value the manual states, and at
the value that the assumption log names where it states none. (DESIGN CHOICE, log entry 15.) -/
def State.reset : State := {}

/-- Why a command stops the machine: nothing in the manual does. (DESIGN CHOICE, log entry 4.) -/
inductive Fault where
  deriving DecidableEq, Repr

/-- Why a command has no next state. (DESIGN CHOICE, log entry 4.) -/
inductive Refusal where
  /-- The arm has no meaning yet. Safe. -/
  | notModelled (mnemonic : String)
  /-- Raised by an access to a register or device whose behaviour the manual does not give. Safe. -/
  | undescribedRegister
  deriving DecidableEq, Repr

end Sys2Proof.Machine
end

