-- ==== Sys2Proof/Machine/Ops.lean ====
section
/-! DEFINITION. Ops.lean: the named operations over tables, memory, bytes, checks, numbers and
time that every meaning shares. -/

namespace Sys2Proof.Machine

/-! ## Tables -/

/-- The record listed under a number, if one is listed. -/
def tfind {α : Type} : Tab α → Nat → Option α
  | [], _ => none
  | (i, v) :: t, k => if i = k then some v else tfind t k

/-- The record of unit k: the listed one, or the reset record `d k`. -/
def tget {α : Type} (d : Nat → α) (t : Tab α) (k : Nat) : α := (tfind t k).getD (d k)

/-- List a record under a number, in rising order of numbers. -/
def tput {α : Type} : Tab α → Nat → α → Tab α
  | [], k, v => [(k, v)]
  | (i, w) :: t, k, v =>
    if k < i then (k, v) :: (i, w) :: t
    else if k = i then (k, v) :: t
    else (i, w) :: tput t k v

/-- Take a number off the list. -/
def tdel {α : Type} : Tab α → Nat → Tab α
  | [], _ => []
  | (i, w) :: t, k => if i = k then tdel t k else (i, w) :: tdel t k

/-- Set the record of unit k; a record equal to the reset record is not listed. -/
def tset {α : Type} [DecidableEq α] (d : Nat → α) (t : Tab α) (k : Nat) (v : α) : Tab α :=
  if v = d k then tdel t k else tput t k v

/-- The numbers of a table rise strictly from `lo` on. -/
def tsorted {α : Type} : Nat → Tab α → Bool
  | _, [] => true
  | lo, (i, _) :: t => decide (lo ≤ i) && tsorted (i + 1) t

/-- The canonical form of a table: rising numbers, and no record equal to the reset record. -/
def twf {α : Type} [DecidableEq α] (d : Nat → α) (t : Tab α) : Bool :=
  tsorted 0 t && t.all (fun e => decide (e.2 ≠ d e.1))

/-- Change every listed record. -/
def tmapAll {α : Type} [DecidableEq α] (d : Nat → α) (f : Nat → α → α) : Tab α → Tab α
  | [] => []
  | (i, w) :: t => if f i w = d i then tmapAll d f t else (i, f i w) :: tmapAll d f t

/-! ## Memory (R407): one byte per address, zero where nothing is listed (R507) -/

/-- What an unlisted address reads as after the wipe of R507. (DEDUCED, log entry 115.) -/
def memDefault : Byte := 0

/-- Read one byte. -/
def mread (m : List Host.Cell) (a : Nat) : Byte := tget (fun _ => memDefault) m a

/-- Write one byte. -/
def mwrite (m : List Host.Cell) (a : Nat) (b : Byte) : List Host.Cell :=
  tset (fun _ => memDefault) m a b

/-- The canonical form of a memory. -/
def memWf (m : List Host.Cell) : Bool := twf (fun _ => memDefault) m

/-- Read a 32-bit little-endian word (R9). -/
def mreadWord (m : List Host.Cell) (a : Nat) : Word :=
  mread m (a + 3) ++ mread m (a + 2) ++ mread m (a + 1) ++ mread m a

/-- Write a 32-bit little-endian word (R9). -/
def mwriteWord (m : List Host.Cell) (a : Nat) (w : Word) : List Host.Cell :=
  mwrite (mwrite (mwrite (mwrite m a (w.extractLsb' 0 8)) (a + 1) (w.extractLsb' 8 8))
    (a + 2) (w.extractLsb' 16 8)) (a + 3) (w.extractLsb' 24 8)

/-- Read n words from rising addresses. -/
def mreadWords (m : List Host.Cell) (a : Nat) : Nat → List Word
  | 0 => []
  | n + 1 => mreadWord m a :: mreadWords m (a + 4) n

/-! ## Little-endian byte strings (R9) -/

/-- The low `n` bytes of a number, least significant first. -/
def leBytes : Nat → Nat → Bytes
  | 0, _ => []
  | n + 1, v => BitVec.ofNat 8 v :: leBytes n (v / 256)

/-- The number that bytes spell, least significant first. -/
def leNat : Bytes → Nat
  | [] => 0
  | b :: r => b.toNat + 256 * leNat r

/-- The low n bytes of a number, most significant first. -/
def beBytes (n v : Nat) : Bytes := (leBytes n v).reverse

/-- The number that bytes spell, most significant first (network order). -/
def beNat (b : Bytes) : Nat := leNat b.reverse

/-- A field of `n` bytes at an offset; absent bytes read as zero. -/
def field (b : Bytes) (off n : Nat) : Nat := leNat ((b.drop off).take n)

/-- Bytes with some of them replaced from an offset on. -/
def patch (o : Nat) (xs b : Bytes) : Bytes := b.take o ++ xs ++ b.drop (o + xs.length)

/-- A signed number in `n` bytes, two's complement. -/
def toSigned (n v : Nat) : Int := if v < 2 ^ (8 * n - 1) then v else (v : Int) - 2 ^ (8 * n)

/-- A signed number as the natural number that its `n` bytes spell. -/
def ofSigned (n : Nat) (v : Int) : Nat := (v % (2 ^ (8 * n) : Int)).toNat

/-! ## Checks -/

/-- One step of CRC-32C, reflected (R363). -/
def crc32cBit : Nat → Word → Word
  | 0, c => c
  | n + 1, c => crc32cBit n (if c.getLsbD 0 then (c >>> 1) ^^^ 0x82F63B78#32 else c >>> 1)

/-- CRC-32C over bytes, before the final complement. -/
def crc32cFold : Bytes → Word → Word
  | [], c => c
  | b :: r, c => crc32cFold r (crc32cBit 8 (c ^^^ b.zeroExtend 32))

/-- CRC-32C: initial value all ones, final complement (R363). -/
def crc32c (b : Bytes) : Word := ~~~ crc32cFold b 0xFFFF_FFFF#32

/-- CRC-16 of trap patterns: polynomial 0x1021, not reflected (R190). -/
def crc16Bit : Nat → BitVec 16 → BitVec 16
  | 0, c => c
  | n + 1, c => crc16Bit n (if c.getLsbD 15 then (c <<< 1) ^^^ 0x1021#16 else c <<< 1)

/-- CRC-16 over bytes from a start value. -/
def crc16Fold : Bytes → BitVec 16 → BitVec 16
  | [], c => c
  | b :: r, c => crc16Fold r (crc16Bit 8 (c ^^^ (b.zeroExtend 16 <<< 8)))

/-- CRC-16 with initial value 0xFFFF (R190). -/
def crc16 (b : Bytes) : BitVec 16 := crc16Fold b 0xFFFF#16

/-- CRC-32 of R53 over bits in transmission order, before the final complement. -/
def crc32Fold : List Bool → Word → Word
  | [], c => c
  | b :: r, c =>
    crc32Fold r (if xor b (c.getLsbD 0) then (c >>> 1) ^^^ 0xEDB88320#32 else c >>> 1)

/-- CRC-32 of R53 over bits. -/
def crc32 (bits : List Bool) : Word := ~~~ crc32Fold bits 0xFFFF_FFFF#32

/-! ## Bits -/

/-- The low `n` bits of a number, bit 0 first. -/
def bitsOf : Nat → Nat → List Bool
  | 0, _ => []
  | n + 1, v => (v % 2 == 1) :: bitsOf n (v / 2)

/-- The number that bits spell, bit 0 first. -/
def natOfBits : List Bool → Nat
  | [] => 0
  | b :: r => b.toNat + 2 * natOfBits r

/-- One bit as a number. -/
def bit (b : Bool) : Nat := b.toNat

/-! ## Saturating counters (R72) -/

/-- A 32-bit counter that saturates. (DEDUCED, log entry 25.) -/
def sat32 (v n : Nat) : Nat := min (v + n) (2 ^ 32 - 1)

/-- A 48-bit counter that saturates. (DEDUCED, log entry 25.) -/
def sat48 (v n : Nat) : Nat := min (v + n) (2 ^ 48 - 1)

/-! ## Unit numbers (R2 to R8, R13, R382) -/

/-- Gallery of a lane by its lane index (R382). -/
def galleryOfLane (l : Nat) : Nat := if l < 256 then l / 16 else (l - 256) / 10

/-- Index of a lane inside the LANE sources of its gallery (R73). -/
def laneIndex (l : Nat) : Nat := if l < 256 then l % 16 else 16 + (l - 256) % 10

/-- A fault source ID (R423). -/
def faultId (cls loc idx : Nat) : Nat := cls * 1024 + loc * 32 + idx

/-- Class, location and index of a fault source ID (R423). -/
def faultClass (id : Nat) : Nat := id / 1024
def faultLoc (id : Nat) : Nat := id / 32 % 32
def faultIndex (id : Nat) : Nat := id % 32

/-- Default audio run of a video source, flows aside (R163). -/
def defaultRun (n : Nat) : Option (Nat × Nat) :=
  if n < 1280 then some (16 * n, 16)
  else if n < 1440 then some (20480 + 16 * (n - 1280), 16)
  else none

/-! ## Hang numbers (R12) and rates (R138) -/

/-- Hang a is later than hang b, modulo 2³². -/
def later (a b : Word) : Bool := 1 ≤ (a - b).toNat && (a - b).toNat < 2 ^ 31

/-- Hang a is later than b or equal to it. -/
def notEarlier (a b : Word) : Bool := a == b || later a b

/-- The first even number at or after a hang number (R153). -/
def evenUp (n : Word) : Word := if n.getLsbD 0 then n + 1 else n

/-- Hang period in TIMECLK ticks of a RATE code (R138). -/
def periodTicks (rate : Nat) : Nat :=
  match rate with
  | 0 => 24774750
  | 1 => 24750000
  | 2 => 23760000
  | 3 => 19819800
  | 4 => 19800000
  | 5 => 11880000
  | 6 => 9909900
  | _ => 9900000

/-- Hang period in ROOT cycles (R138). -/
def periodRoot (rate : Nat) : Nat := 8 * periodTicks rate

/-- Frame rates of R107 and R196 as the RATE code of the same frame rate. A rate above 60 Hz is
given as the code of half its rate, with `formatDouble`. -/
def formatRate (f : Nat) : Option Nat :=
  match f with
  | 0x01 => some 3 | 0x02 => some 2
  | 0x10 => some 5 | 0x11 => some 6 | 0x12 => some 7
  | 0x20 => some 2 | 0x21 => some 3 | 0x22 => some 4
  | 0x23 => some 0 | 0x24 => some 1 | 0x25 => some 2 | 0x26 => some 3 | 0x27 => some 4
  | 0x28 => some 0 | 0x29 => some 1 | 0x2A => some 2 | 0x2B => some 3 | 0x2C => some 4
  | 0x30 => some 5 | 0x31 => some 6 | 0x32 => some 7
  | 0x38 => some 5 | 0x39 => some 6 | 0x3A => some 7
  | 0x40 => some 0 | 0x41 => some 1 | 0x42 => some 2 | 0x43 => some 3 | 0x44 => some 4
  | 0x50 => some 5 | 0x51 => some 6 | 0x52 => some 7
  | 0x60 => some 5 | 0x61 => some 6 | 0x62 => some 7
  | 0x70 => some 5 | 0x71 => some 6 | 0x72 => some 7
  | 0x74 => some 5 | 0x75 => some 6 | 0x76 => some 7
  | _ => none

/-- Double-rate bonded pictures (R196). -/
def formatDouble (f : Nat) : Bool := f == 0x74 || f == 0x75 || f == 0x76

/-- A format code of R107, FOLLOW aside. -/
def isFormat (f : Nat) : Bool := (formatRate f).isSome && f < 0x70

/-- A picture code of R107 or R196. -/
def isPicture (f : Nat) : Bool := (formatRate f).isSome

/-- Twice the frame rate of a rate code, where the result is a rate code. -/
def doubleRate (r : Nat) : Option Nat :=
  match r with
  | 2 => some 5 | 3 => some 6 | 4 => some 7 | _ => none

/-- Whether a format runs at the rate of a family, or at half of it (R141). -/
def fitsRate (f rate : Nat) : Bool :=
  match formatRate f with
  | some r => r == rate || doubleRate r == some rate
  | none => false

/-- Whether a format runs at half the rate of a family (R141). -/
def halfRate (f rate : Nat) : Bool :=
  match formatRate f with
  | some r => !(r == rate) && doubleRate r == some rate
  | none => false

/-- Picture of a format: active lines and scan (0 progressive, 1 interlaced, 2 psF) (R107). -/
def formatLines (f : Nat) : Nat × Nat :=
  if f = 0x01 then (486, 1) else if f = 0x02 then (576, 1)
  else if f < 0x20 then (720, 0) else if f < 0x23 then (1080, 1)
  else if f < 0x28 then (1080, 2) else if f < 0x40 then (1080, 0)
  else if f < 0x70 then (2160, 0) else if f < 0x74 then (4320, 0) else (2160, 0)

/-- Picture width in pixels (R24, R107). -/
def formatWidth (f : Nat) : Nat :=
  match (formatLines f).1 with
  | 486 | 576 => 720 | 720 => 1280 | 1080 => 1920 | 2160 => 3840 | _ => 7680

/-- Formats compare by picture only: lines, scan and frame rate (R170). -/
def samePicture (a b : Nat) : Bool :=
  formatLines a == formatLines b && formatRate a == formatRate b && formatDouble a == formatDouble b

/-- Quad-link formats (R107). -/
def isQuad (f : Nat) : Bool := f == 0x60 || f == 0x61 || f == 0x62

/-- Alignment pages that a window class and its links reserve (R21, R117). -/
def windowPages (cls links : Nat) : Nat :=
  let one := match cls with | 0 => 75 | 1 => 38 | 2 => 25 | _ => 15
  if links = 4 then 4 * 38 else one

/-- Alignment pages that an input of a format needs in one lane (R21). -/
def formatPages (f : Nat) : Nat :=
  if isQuad f then 38
  else match (formatLines f).1 with
    | 2160 => 75 | 1080 => 38 | 720 => 25 | _ => 15

/-! ## Time (R234) -/

/-- Time as a number of 2⁻¹⁶ ns. -/
def Time.units (t : Time) : Nat := (t.sec * 1000000000 + t.ns) * 65536 + t.frac

/-- A number of 2⁻¹⁶ ns as a time. -/
def timeOfUnits (u : Nat) : Time :=
  { sec := u / 65536 / 1000000000, ns := u / 65536 % 1000000000, frac := u % 65536 }

/-- Device time in 2⁻¹⁶ ns at a ROOT cycle, the triple extended backwards where needed
(R140, R234). -/
def unitsAtRoot (t : Triple) (root : Int) : Int :=
  (Time.units t.t0 : Int) + Int.tdiv ((root - 8 * t.c0.toNat) * t.rate) (2 ^ 35)

/-- Device time in 2⁻¹⁶ ns at a count and a fraction of a tick in sixteenths (R236). -/
def unitsAtFine (t : Triple) (count : Word64) (sixteenths : Nat) : Int :=
  (Time.units t.t0 : Int) + Int.tdiv ((16 * ((count.toNat : Int) - t.c0.toNat) + sixteenths) * t.rate) (2 ^ 36)

/-- Device time in 2⁻¹⁶ ns at a count. -/
def unitsAt (t : Triple) (count : Word64) : Int := unitsAtRoot t (8 * count.toNat)

/-- Device time at a count. -/
def timeAt (t : Triple) (count : Word64) : Time := timeOfUnits (unitsAt t count).toNat

/-- 594 × 2⁻¹⁶ ns per hang period: a whole number for every rate. -/
def periodUnits594 (rate : Nat) : Nat := periodTicks rate * 65536000

/-- The first ROOT cycle at which the triple gives device time N × P (R140). -/
def boundaryRoot (t : Triple) (rate : Nat) (n : Int) : Int :=
  8 * (t.c0.toNat : Int)
    + -((-((n * periodUnits594 rate - 594 * (Time.units t.t0 : Int)) * 2 ^ 35)) / (594 * t.rate))

/-- Hang number in progress at a ROOT cycle, before reduction modulo 2³² (R140). -/
def hangIndexAt (t : Triple) (rate : Nat) (root : Int) : Int :=
  (594 * unitsAtRoot t root) / periodUnits594 rate

/-- The boundary index nearest a ROOT cycle. -/
def nearestIndex (t : Triple) (rate : Nat) (root : Int) : Int :=
  (2 * 594 * unitsAtRoot t root + periodUnits594 rate) / (2 * periodUnits594 rate)

/-- The index of number `hang` nearest a ROOT cycle: nearest, then moved to the number. -/
def indexOfNumber (t : Triple) (rate : Nat) (root : Int) (hang : Word) : Int :=
  let near := nearestIndex t rate root
  let diff := ((hang.toNat : Int) - near) % 2 ^ 32
  near + (if diff < 2 ^ 31 then diff else diff - 2 ^ 32)

/-- ROOT cycles to 2⁻¹⁶ ns, rounded down (R31: 4,752 MHz). -/
def rootToUnits (r : Int) : Int := r * 65536000 / 4752

/-- The time counter's ROOT cycle. -/
def rootNow (s : State) : Int := 8 * (s.time.count.toNat : Int)

/-- A count is at or after another, modulo 2⁶⁴. -/
def countReached (now c : Word64) : Bool := (now - c).toNat < 2 ^ 63

/-- Until ROOT has locked for the first time only the reset sequencer runs (R32). (DEDUCED, log entry 171.) -/
def clocked (f : State → State) (s : State) : State := if s.chip.rootLocked then f s else s

/-- A TIMECLK cycle in which no command comes: the time counter counts once ROOT has locked (R32).
(DESIGN CHOICE, log entry 1.) -/
def idle (s : State) : State :=
  if s.chip.rootLocked then { s with time := { s.time with count := s.time.count + 1 } } else s

/-! ## Free values -/

/-- Draw a free value of w bits. (DESIGN CHOICE, log entry 2.) -/
def draw (w : Nat) (s : State) : BitVec w × State :=
  (Config.free w s.draws, { s with draws := s.draws + 1 })

/-- Draw a free number below a bound. (DESIGN CHOICE, log entry 2.) -/
def drawBelow (n : Nat) (s : State) : Nat × State :=
  ((Config.free 64 s.draws).toNat % n, { s with draws := s.draws + 1 })

/-! ## Records of units -/

def laneOf (s : State) (l : Nat) : Lane := tget (fun _ => {}) s.fab.lanes l
def putLane (s : State) (l : Nat) (v : Lane) : State :=
  { s with fab := { s.fab with lanes := tset (fun _ => {}) s.fab.lanes l v } }
def laneCfg (s : State) (l : Nat) : LaneCfg := tget (fun _ => {}) s.set.lanes l
/-- An edge lane that lane 0 of its gallery in ETH100 binds (R45). -/
def boundLane (s : State) (l : Nat) : Bool :=
  256 ≤ l && (let i := (l - 256) % 10; 1 ≤ i && i < 4 && (laneCfg s (l - i)).mode == 4)
/-- The mode in which a lane runs: a bound lane runs in ETH100, whatever its own setting (R45).
(DESIGN CHOICE, log entry 144.) -/
def laneMode (s : State) (l : Nat) : Nat := if boundLane s l then 4 else (laneCfg s l).mode
def linkOf (s : State) (f : Nat) : Link := tget (fun _ => {}) s.fab.links f
def putLink (s : State) (f : Nat) (v : Link) : State :=
  { s with fab := { s.fab with links := tset (fun _ => {}) s.fab.links f v } }
def pairOf (s : State) (k : Nat) : Pair := tget (fun _ => {}) s.fab.pairs k
def putPair (s : State) (k : Nat) (v : Pair) : State :=
  { s with fab := { s.fab with pairs := tset (fun _ => {}) s.fab.pairs k v } }
def pairCfg (s : State) (k : Nat) : PairCfg := tget (fun _ => {}) s.set.pairs k
def fabricSource (s : State) (n : Nat) : FabricSource := tget (fun _ => {}) s.fab.sources n
def putFabricSource (s : State) (n : Nat) (v : FabricSource) : State :=
  { s with fab := { s.fab with sources := tset (fun _ => {}) s.fab.sources n v } }
def pllsOf (s : State) (g : Nat) : Plls := tget (fun _ => {}) s.fab.plls g
def putPlls (s : State) (g : Nat) (v : Plls) : State :=
  { s with fab := { s.fab with plls := tset (fun _ => {}) s.fab.plls g v } }

def sdiInOf (s : State) (e : Nat) : SdiIn := tget (fun _ => {}) s.sdi.inputs e
def putSdiIn (s : State) (e : Nat) (v : SdiIn) : State :=
  { s with sdi := { s.sdi with inputs := tset (fun _ => {}) s.sdi.inputs e v } }
def sdiOutOf (s : State) (e : Nat) : SdiOut := tget (fun _ => {}) s.sdi.outputs e
def putSdiOut (s : State) (e : Nat) (v : SdiOut) : State :=
  { s with sdi := { s.sdi with outputs := tset (fun _ => {}) s.sdi.outputs e v } }
def sdiInCfg (s : State) (e : Nat) : SdiInCfg := tget (fun _ => {}) s.set.sdiIn e
def sdiOutCfg (s : State) (e : Nat) : SdiOutCfg := tget (fun _ => {}) s.set.sdiOut e
/-- An edge lane runs in mode SDI (R45). -/
def isSdi (s : State) (e : Nat) : Bool := laneMode s (256 + e) == 2

def portOf (s : State) (n : Nat) : Port := tget (fun _ => {}) s.pkt.ports n
def putPort (s : State) (n : Nat) (v : Port) : State :=
  { s with pkt := { s.pkt with ports := tset (fun _ => {}) s.pkt.ports n v } }
def macCfg (s : State) (n : Nat) : MacCfg := tget (fun _ => {}) s.set.mac n
/-- A packet port exists (R3, R182). -/
def portExists (s : State) (n : Nat) : Bool :=
  let base := 256 + 10 * (n / 4)
  if (laneCfg s base).mode == 4 then n % 4 == 0 else (laneCfg s (base + n % 4)).mode == 3
/-- A port runs as ETH100 (R182). -/
def portIs100 (s : State) (n : Nat) : Bool := (laneCfg s (256 + 10 * (n / 4))).mode == 4
/-- Line rate of a port in Mb/s. -/
def portRate (s : State) (n : Nat) : Nat := if portIs100 s n then 100000 else 25000

/-- Settings of a control queue (R213). -/
def controlQueueCfg (i : Nat) : QueueCfg :=
  { enable := true, port := i, priority := 7, asap := true, minCells := 256, maxCells := 1024,
    rate := 0, burst := 16384, lateLimit := 0 }
/-- A queue's record at start (R213). -/
def queueDefault (q : Nat) : Queue :=
  { cfg := if q % 4096 < 4 then controlQueueCfg (q % 4096) else {} }
def queueOf (s : State) (q : Nat) : Queue := tget queueDefault s.pkt.queues q
def putQueue (s : State) (q : Nat) (v : Queue) : State :=
  { s with pkt := { s.pkt with queues := tset queueDefault s.pkt.queues q v } }
def putPool (s : State) (v : CellPool) : State := { s with pkt := { s.pkt with pool := v } }

/-- Reset settings of a family (R137). -/
def familyCfgDefault (n : Nat) : FamilyCfg :=
  { rate := match n with | 0 => 5 | 1 => 6 | 2 => 2 | _ => 7 }
def familyCfg (s : State) (n : Nat) : FamilyCfg := tget familyCfgDefault s.set.families n
def familyOf (s : State) (n : Nat) : Family := tget (fun _ => {}) s.mtx.families n
def putFamily (s : State) (n : Nat) (v : Family) : State :=
  { s with mtx := { s.mtx with families := tset (fun _ => {}) s.mtx.families n v } }
/-- A family is enabled (R137). -/
def familyOn (s : State) (n : Nat) : Bool := n < 4 && (familyCfg s n).enable

def destOf (s : State) (m : Matrix) (d : Nat) : Dest :=
  match m with
  | .video => tget (fun _ => {}) s.mtx.video d
  | .anc => tget (fun _ => {}) s.mtx.anc d
  | .audio => tget (fun _ => {}) s.mtx.audio d
def putDest (s : State) (m : Matrix) (d : Nat) (v : Dest) : State :=
  match m with
  | .video => { s with mtx := { s.mtx with video := tset (fun _ => {}) s.mtx.video d v } }
  | .anc => { s with mtx := { s.mtx with anc := tset (fun _ => {}) s.mtx.anc d v } }
  | .audio => { s with mtx := { s.mtx with audio := tset (fun _ => {}) s.mtx.audio d v } }
/-- The listed destinations of a matrix. -/
def destsOf (s : State) (m : Matrix) : Tab Dest :=
  match m with | .video => s.mtx.video | .anc => s.mtx.anc | .audio => s.mtx.audio
def destRun (s : State) (d : Nat) : DestRun := tget (fun _ => {}) s.mtx.destRun d
def putDestRun (s : State) (d : Nat) (v : DestRun) : State :=
  { s with mtx := { s.mtx with destRun := tset (fun _ => {}) s.mtx.destRun d v } }
def destCfg (s : State) (d : Nat) : DestCfg := tget (fun _ => {}) s.set.dests d
def sourceCfg (s : State) (n : Nat) : SourceCfg := tget (fun _ => {}) s.set.sources n
def sourceOf (s : State) (n : Nat) : Source := tget (fun _ => {}) s.mtx.sources n
def putSource (s : State) (n : Nat) (v : Source) : State :=
  { s with mtx := { s.mtx with sources := tset (fun _ => {}) s.mtx.sources n v } }

def ptpPortOf (s : State) (n : Nat) : PtpPort := tget (fun _ => {}) s.time.ptpPorts n
def putPtpPort (s : State) (n : Nat) (v : PtpPort) : State :=
  { s with time := { s.time with ptpPorts := tset (fun _ => {}) s.time.ptpPorts n v } }
def ptpPortCfg (s : State) (n : Nat) : PtpPortCfg := tget (fun _ => {}) s.set.ptpPorts n

/-- Reset settings of a reference candidate (R260). -/
def refCfgDefault (c : Nat) : RefCfg := { fabLane := if c = 6 then 128 else 0 }
def refCfg (s : State) (c : Nat) : RefCfg := tget refCfgDefault s.set.refs c
def candidateOf (s : State) (c : Nat) : Candidate := tget (fun _ => {}) s.ref.candidates c
def putCandidate (s : State) (c : Nat) (v : Candidate) : State :=
  { s with ref := { s.ref with candidates := tset (fun _ => {}) s.ref.candidates c v } }

def tdmCfg (s : State) (p : Nat) : TdmCfg := tget (fun _ => {}) s.set.tdm p
def tdmOf (s : State) (p : Nat) : TdmPort := tget (fun _ => {}) s.aud.ports p
def putTdm (s : State) (p : Nat) (v : TdmPort) : State :=
  { s with aud := { s.aud with ports := tset (fun _ => {}) s.aud.ports p v } }
def groupCfg (s : State) (g : Nat) : GroupCfg := tget (fun _ => {}) s.set.groups g

def headOf (s : State) (h : Nat) : Head := tget (fun _ => {}) s.comp.heads h
def putHead (s : State) (h : Nat) (v : Head) : State :=
  { s with comp := { s.comp with heads := tset (fun _ => {}) s.comp.heads h v } }
/-- Reset record of a video layer: Z is its number (R313). -/
def videoLayerDefault (k : Nat) : VideoLayer := { cfg := { z := k % 16 } }
def videoLayer (s : State) (h l : Nat) : VideoLayer :=
  tget videoLayerDefault s.comp.video (16 * h + l)
def putVideoLayer (s : State) (h l : Nat) (v : VideoLayer) : State :=
  { s with comp := { s.comp with video := tset videoLayerDefault s.comp.video (16 * h + l) v } }
/-- Reset record of a graphic layer (R324). -/
def graphicLayerDefault (k : Nat) : GraphicLayer := { cfg := { z := k % 16 } }
def graphicLayer (s : State) (h l : Nat) : GraphicLayer :=
  tget graphicLayerDefault s.comp.graphic (16 * h + l)
def putGraphicLayer (s : State) (h l : Nat) (v : GraphicLayer) : State :=
  { s with comp := { s.comp with graphic := tset graphicLayerDefault s.comp.graphic (16 * h + l) v } }

/-- Reset record of an engine: it holds its own ports (R334). -/
def engineDefault (p : Nat) : Engine := { ports := p }
def engineOf (s : State) (p : Nat) : Engine := tget engineDefault s.eng.engines p
def putEngine (s : State) (p : Nat) (v : Engine) : State :=
  { s with eng := { s.eng with engines := tset engineDefault s.eng.engines p v } }

def sessionOf (s : State) (n : Nat) : Session := tget (fun _ => {}) s.cmd.sessions n
def putSession (s : State) (n : Nat) (v : Session) : State :=
  { s with cmd := { s.cmd with sessions := tset (fun _ => {}) s.cmd.sessions n v } }

end Sys2Proof.Machine
end

