-- ==== Sys2Proof/Machine/Operands.lean ====
section
/-! DEFINITION. Operands.lean: how a command's operands are read: parameter fields, answers and
their order, lane fields, and the target of the header. -/

namespace Sys2Proof.Machine

/-! ## Answers (R372) -/

/-- What a command is answered: status, detail, hang, family and results (R364). -/
structure Answer where
  status : Nat := 0
  detail : Nat := 0
  hang : Word := 0
  family : Nat := 0
  results : Bytes := []
  deriving DecidableEq, Repr

/-- DONE with results. -/
def done (results : Bytes := []) (detail : Nat := 0) : Answer := { results := results, detail := detail }
/-- ACCEPTED for a hang of a family. -/
def accepted (hang : Word) (family : Nat) : Answer := { status := 0x0001, hang := hang, family := family }
/-- LATE, staged for a later hang. -/
def lateFor (hang : Word) (family : Nat) : Answer := { status := 0x0101, hang := hang, family := family }
/-- HUNG (a completion). -/
def hungAt (hang : Word) (family : Nat) : Answer := { status := 0x0002, hang := hang, family := family }
def busy (hint : Nat) : Answer := { status := 0x0100, detail := hint }
def badOpcode (d : Nat) : Answer := { status := 0x0200, detail := d }
/-- DEDUCED, log entry 6. -/
def badParam (d : Nat) : Answer := { status := 0x0201, detail := d }
/-- BAD_PARAM of the header or of a take command's prefix. (DEDUCED, log entry 6.) -/
def badHeader : Answer := badParam 0xFFFF
def badLength : Answer := { status := 0x0202 }
def badCrc : Answer := { status := 0x0203 }
def outOfSequence (x : Word) : Answer := { status := 0x0204, results := leBytes 4 x.toNat }
def staleSession : Answer := { status := 0x0205 }
def noResource (d : Nat := 0) : Answer := { status := 0x0300, detail := d }
def conflict (d : Nat := 0) : Answer := { status := 0x0301, detail := d }
def formatMismatch (d : Nat) : Answer := { status := 0x0302, detail := d }
def lineBuffer (d : Nat) : Answer := { status := 0x0303, detail := d }
def denied (d : Nat) : Answer := { status := 0x0400, detail := d }
def locked (d : Nat) : Answer := { status := 0x0401, detail := d }
def failed (d : Nat) : Answer := { status := 0x0500, detail := d }

/-- A check: the answer that it rejects with, or none where it passes. -/
abbrev Check := Option Answer

/-- Pass where the condition holds, reject otherwise. -/
def need (ok : Bool) (a : Answer) : Check := if ok then none else some a

/-- The first failing check, in order (R373). (DEDUCED, log entry 6.) -/
def firstFail : List Check → Check
  | [] => none
  | some a :: _ => some a
  | none :: r => firstFail r

/-- The first element for which a test fails, tested by index. -/
def firstBad {α : Type} (f : Nat → α → Check) : Nat → List α → Check
  | _, [] => none
  | i, x :: r => match f i x with | some a => some a | none => firstBad f (i + 1) r

/-! ## Parameter fields -/

def u8 (p : Packet) (off : Nat) : Nat := field p.params off 1
def u16 (p : Packet) (off : Nat) : Nat := field p.params off 2
def u32 (p : Packet) (off : Nat) : Nat := field p.params off 4
def u64 (p : Packet) (off : Nat) : Nat := field p.params off 8
def i8 (p : Packet) (off : Nat) : Int := toSigned 1 (u8 p off)
def i16 (p : Packet) (off : Nat) : Int := toSigned 2 (u16 p off)
def i64 (p : Packet) (off : Nat) : Int := toSigned 8 (u64 p off)
def w32 (p : Packet) (off : Nat) : Word := BitVec.ofNat 32 (u32 p off)

/-- n bytes of the parameters are zero. -/
def isZero (p : Packet) (off n : Nat) : Bool := field p.params off n == 0

/-- Reserved bytes are zero, or BAD_PARAM with their offset (R10, R381). -/
def reserved (p : Packet) (off n : Nat) : Check := need (isZero p off n) (badParam off)

/-- A field is in range, or BAD_PARAM with its offset (R381). -/
def fieldIn (v lo hi off : Nat) : Check := need (decide (lo ≤ v ∧ v ≤ hi)) (badParam off)

/-- A field has a property, or BAD_PARAM with its offset. -/
def fieldOk (ok : Bool) (off : Nat) : Check := need ok (badParam off)

/-- TARGET and FAMILY are zero on an opcode that takes no hang (R362). -/
def noTarget (p : Packet) : Check := need (p.target == 0 && p.family == 0) badHeader

/-- A default field sent as 0 takes its default (R382). -/
def orDefault (v d : Nat) : Nat := if v = 0 then d else v

/-- "None" is 0xFFFF (R382). -/
def numberOrNone (v : Nat) : Option Nat := if v = 0xFFFF then none else some v

/-- COUNT entries of `size` bytes from offset `base`. -/
def entriesFrom (b : Bytes) (size : Nat) : Nat → List Bytes
  | 0 => []
  | n + 1 => b.take size :: entriesFrom (b.drop size) size n

/-- Entries of a command: COUNT of them, from offset 4 (R390). -/
def entries (p : Packet) (size : Nat) : List Bytes := entriesFrom (p.params.drop 4) size (u16 p 0)

/-- NOTIFY_HUNG and MIRROR (R362). -/
def notifyHung (p : Packet) : Bool := p.flags.getLsbD 0
def mirrorFlag (p : Packet) : Bool := p.flags.getLsbD 1

/-! ## Sessions as numbers -/

def sess (p : Packet) : Nat := p.session.toNat

/-! ## Hangs and targets (R152 to R154) -/

/-- The hang number after h in family n, a computed realignment included (R145, R277). -/
def nextNumber (s : State) (n : Nat) (h : Word) : Word :=
  match (familyOf s n).realign with
  | some r => if h + 1 = r.target then (match r.computed with | some (_, m) => m | none => h + 1) else h + 1
  | none => h + 1

/-- The first hang of family n whose cutoff has not passed (R153). (DEDUCED, log entry 46.) -/
def firstOpen (s : State) (n : Nat) : Word :=
  let f := familyOf s n
  let h := nextNumber s n f.hang
  if f.cutoffPassed then nextNumber s n h else h

/-- The cutoff of hang h of family n has passed. (DEDUCED, log entry 46.) -/
def cutoffGone (s : State) (n : Nat) (h : Word) : Bool := later (firstOpen s n) h

/-- How a header's TARGET reads (R154). -/
inductive Target where
  | next | held | hang (n : Word) | past | tooFar
  deriving DecidableEq, Repr

/-- Read a TARGET in family n (R154). A disabled family has no hang from which a horizon could count. -/
def readTarget (s : State) (n : Nat) (t : Word) : Target :=
  if t = 0 then .next
  else if t = 0xFFFF_FFFF then .held
  else if !familyOn s n then .hang t
  else
    let d := (t - (familyOf s n).hang).toNat
    if 1 ≤ d ∧ d ≤ 2 ^ 24 then .hang t
    else if 2 ^ 24 < d ∧ d < 2 ^ 31 then .tooFar
    else .past

/-- Round up to even where the command holds a half-rate destination (R153).
(DEDUCED, log entry 46.) -/
def roundHang (half : Bool) (h : Word) : Word := if half then evenUp h else h

/-- The hang applied and whether it is late (R153, steps 3 and 4). (DEDUCED, log entry 46.) -/
def applyTarget (s : State) (n : Nat) (half : Bool) (t : Target) : Word × Bool :=
  let first := roundHang half (firstOpen s n)
  match t with
  | .hang h =>
    let r := roundHang half h
    if cutoffGone s n r then (first, true) else (r, false)
  | .past => (first, true)
  | _ => (first, false)

/-- ACCEPTED or LATE for a hang applied. -/
def answerFor (r : Word × Bool) (n : Nat) : Answer := if r.2 then lateFor r.1 n else accepted r.1 n

/-- A TARGET of a command marked N: HELD and targets over the horizon are BAD_PARAM (R383). -/
def targetN (s : State) (p : Packet) (n : Nat) : Check :=
  match readTarget s n p.target with
  | .held => some badHeader
  | .tooFar => some badHeader
  | _ => none

end Sys2Proof.Machine
end

