-- ==== Sys2Proof/Machine/Flags.lean ====
section
/-! DEFINITION. Flags.lean: interrupt bits and every status word that the registers show. -/

namespace Sys2Proof.Machine

/-! ## Interrupts (R378 to R380) -/

/-- Vector of an event (R378). -/
def irqVector (s : State) (e : Nat) : Nat :=
  if e < 8 then s.cmd.irqMap0.toNat / 16 ^ e % 16 else s.cmd.irqMap1.toNat / 16 ^ (e - 8) % 16

/-- An MSI-X table entry, masked at reset (R380). -/
def msixEntry (s : State) (v : Nat) : MsixEntry := tget (fun _ => {}) s.cmd.msix v

/-- Send a vector's message; a masked table entry keeps it in the pending-bit array.
(PRESUMED, log entry 14.) -/
def sendVector (v : Nat) (s : State) : State :=
  if (msixEntry s v).control.getLsbD 0 then
    { s with cmd := { s.cmd with msixPending := s.cmd.msixPending ||| (1#16 <<< v) } }
  else { s with cmd := { s.cmd with messages := s.cmd.messages ++ [v] } }

/-- Set an event's bit; an unmasked event that goes from 0 to 1 sends its message (R380). -/
def raiseIrq (e : Nat) (s : State) : State :=
  if s.cmd.irqStatus.getLsbD e then s
  else
    let s := { s with cmd := { s.cmd with irqStatus := s.cmd.irqStatus ||| (1#32 <<< e) } }
    if s.cmd.irqMask.getLsbD e then s else sendVector (irqVector s e) s

/-- Send one message on each vector of a list, each once (R380). -/
def sendVectors : List Nat → State → State
  | [], s => s
  | v :: r, s => if r.contains v then sendVectors r s else sendVectors r (sendVector v s)

/-- Events 0 to 11 whose bit of a word is set. -/
def eventsOf (w : Word) : List Nat := (List.range 12).filter (fun e => w.getLsbD e)

def irqReply : Nat := 0
def irqRingError : Nat := 1
def irqSessionReset : Nat := 2
def irqCuratorRestart : Nat := 3
def irqFault : Nat := 4
def irqCritical : Nat := 5
def irqReplyStall : Nat := 6
def irqTimeApplied : Nat := 7
def irqHang (n : Nat) : Nat := 8 + n

/-! ## Fault state (R431, R435, R436) -/

def faultDefault : FaultSource := {}
def faultOf (s : State) (id : Nat) : FaultSource := tget (fun _ => faultDefault) s.flt.sources id
def putFault (s : State) (id : Nat) (v : FaultSource) : State :=
  { s with flt := { s.flt with sources := tset (fun _ => faultDefault) s.flt.sources id v } }

/-- A class has a source with its sticky bit set (R429). -/
def classSticky (s : State) (c : Nat) : Bool :=
  s.flt.sources.any (fun e => e.2.sticky && faultClass e.1 == c)

/-- The failover hold (R432). -/
def inHold (s : State) : Bool := !s.flt.hold.isEmpty

/-- FAILOVER_N is asserted (R431). -/
def failoverAsserted (s : State) : Bool :=
  inHold s || (s.twin.pair != .unpaired && s.flt.sources.any (fun e => e.2.failover))

/-- FAULT_SUMMARY (R436). -/
def faultSummary (s : State) : Word :=
  let st := s.flt.sources.filter (fun e => e.2.sticky)
  BitVec.ofNat 32
    (min st.length 255 * 2 ^ 24
      + (s.flt.hold.foldl (fun m c => if m = 0 ∨ c < m then c else m) 0) * 2 ^ 16
      + bit (failoverAsserted s) * 2 ^ 9 + bit (inHold s) * 2 ^ 8
      + (st.foldl (fun m e => max m e.2.maxSeverity) 0) * 16
      + bit (s.flt.sources.any (fun e => e.2.isolating)) * 8
      + bit (st.any (fun e => e.2.maxSeverity == 3)) * 4
      + bit (st.any (fun e => e.2.escalated)) * 2 + bit (!st.isEmpty))

/-- FAULT_CLASS_STICKY (R435). -/
def faultClassSticky (s : State) : Word :=
  BitVec.ofNat 32 (natOfBits ((List.range 18).map (fun c => classSticky s (c + 1))))

/-! ## Start, life cycle and sessions (R42, R371, R514) -/

/-- DEV_STATE (R42). -/
def devState (s : State) : Word :=
  BitVec.ofNat 32 (bit s.chip.reserveReady * 128 + bit s.chip.dataPlaneReady * 64
    + bit s.chip.curatorServing * 32 + bit s.chip.rootLocked * 16 + s.chip.startPhase % 16)

/-- Life-cycle state code: 0 BLANK, 1 PROVISIONED, 2 FIELD_DEBUG, 3 RETIRED (R514). -/
def lifeState (s : State) : Nat :=
  if s.life.retired then 3
  else if s.life.exits < s.life.entries then 2
  else if s.life.provisioned then 1
  else 0

/-- LIFECYCLE (R514). -/
def lifecycleWord (s : State) : Word :=
  BitVec.ofNat 32 ((32 - s.life.entries) * 256 + bit s.life.unlockPending * 8
    + bit s.life.testRoot * 4 + lifeState s)

/-- SESSION_STATE (R371). -/
def sessionState (s : State) : Word :=
  let ses := (List.range 16).map (fun i => sessionOf s (i + 1))
  BitVec.ofNat 32 (natOfBits (ses.map (fun x => x.isOpen)
    ++ ses.map (fun x => x.isOpen && x.endpoint == .pcie)))

/-- SESSION_RESET_DOORBELL (R371). -/
def doorbellWord (s : State) : Word := BitVec.ofNat 32 (bit s.cmd.doorbellBusy)

/-- RINGc_STATUS (R357). -/
def ringStatus (r : Ring) : Word := BitVec.ofNat 32 (bit r.halted + 2 * (r.haltReason % 8))

/-! ## Snapshots (R144, R243, R244) -/

/-- HANG_SNAP (R144). -/
def hangSnapWord (s : State) : Word :=
  let h := s.mtx.snap
  BitVec.ofNat 32 (h.enabled.toNat * 4096 + h.pastCutoff.toNat * 256 + h.aligned.toNat * 16
    + bit h.valid * 2 + bit h.capture)

/-- HANG_NUMBERn: a family that is not enabled reads 0 (R145). -/
def hangNumber (s : State) (n : Nat) : Word := if familyOn s n then (familyOf s n).hang else 0

/-- Code of a servo state (R253). -/
def servoCode : Servo → Nat
  | .disabled => 0 | .acquiring => 1 | .tracking => 2 | .timeHoldover => 3

/-- READY of the twin unit (R491). -/
def twinReady (s : State) : Bool :=
  s.chip.dataPlaneReady && !inHold s && !failoverAsserted s && s.twin.pair == .paired

/-- TWIN_HB is driven with its pulses (R493). -/
def twinHb (s : State) : Bool := s.twin.active && s.chip.dataPlaneReady

/-! ## Curator and bus matrix (R416, R417) -/

/-- RESTART_CAUSE (R417). -/
def restartCode : RestartCause → Nat
  | .powerOn => 0 | .watchdog => 1 | .lockstep => 2 | .request => 3 | .activate => 4
  | .confirmTimeout => 5

/-- BM_ERR_INFO (R416). -/
def busErrorWord (e : BusError) : Word :=
  BitVec.ofNat 32 (e.reason * 1024 + bit e.fetch * 512 + bit e.write * 256 + e.target * 16
    + e.master * 2 + bit e.valid)

/-! ## Internet checksums (R185, R192, R207) -/

/-- Ones' complement sum of 16-bit words. -/
def sum16 : Bytes → Nat
  | a :: b :: r => a.toNat * 256 + b.toNat + sum16 r
  | [a] => a.toNat * 256
  | [] => 0

/-- Fold carries of a ones' complement sum. -/
def fold16 (n : Nat) : Nat := let m := n % 65536 + n / 65536; m % 65536 + m / 65536

end Sys2Proof.Machine
end

