-- ==== Sys2Proof/Machine/Collector.lean ====
section
/-! DEFINITION. Collector.lean: the fault collector: sources and their default severities, what a
raise does to the collector (R425 to R432), and the posting of a reply. -/

namespace Sys2Proof.Machine

/-- Default severity of a source of a gallery, by class and index; none = reserved. -/
def gallerySeverity (cls idx : Nat) : Option Nat :=
  match cls with
  | 0x01 => if idx < 26 then some 1 else if idx < 29 then some 2 else none
  | 0x02 => if idx < 24 then some 1 else none
  | 0x03 => if idx < 20 then some 1 else none
  | 0x05 => if idx < 4 then some 1 else if idx = 13 then some 1 else if idx < 15 then some 0 else none
  | 0x06 => if idx < 2 then some 0 else if idx = 2 then some 1 else none
  | 0x0A => some 1
  | 0x0B => if idx < 8 then some 1 else if idx = 8 then some 0 else none
  | 0x0C => if idx < 12 then some 1 else none
  | _ => none

/-- Default severity of a source of the device level, by class and index; none = reserved. -/
def deviceSeverity (cls idx : Nat) : Option Nat :=
  match cls with
  | 0x04 => if idx < 5 then some 1 else if idx < 8 then some 0 else none
  | 0x06 => if idx = 0 then some 1 else none
  | 0x07 => if idx < 2 then some 1 else if idx < 4 then some 0 else none
  | 0x08 =>
    if idx < 7 then some 0 else if idx = 7 then some 1 else if idx = 8 then some 2
    else if idx < 15 then some 1 else if idx < 19 then some 0 else if idx = 19 then some 2
    else if idx = 20 then some 0 else none
  | 0x09 => if idx < 16 then some 1 else if idx < 18 then some 0 else none
  | 0x0C => if idx < 2 then some 1 else if idx < 6 then some 2 else none
  | 0x0D =>
    match idx with
    | 0 => some 3 | 1 => some 2 | 2 => some 1 | 3 => some 0 | 4 => some 1 | 5 => some 2 | _ => none
  | 0x0E =>
    match idx with
    | 0 => some 2 | 1 => some 0 | 2 => some 1 | 3 => some 0 | 4 => some 1 | 5 => some 0 | _ => none
  | 0x0F =>
    match idx with
    | 0 => some 2 | 1 => some 1 | 2 => some 1 | 3 => some 1 | 4 => some 2 | _ => none
  | 0x10 =>
    match idx with
    | 0 => some 1 | 1 => some 1 | 2 => some 1 | 3 => some 2 | 4 => some 1 | 5 => some 1
    | 6 => some 2 | _ => none
  | 0x11 =>
    match idx with
    | 0 => some 1 | 1 => some 3
    | 2 => some 2 | 3 => some 2 | 4 => some 2 | 5 => some 2 | 6 => some 2 | 7 => some 2 | 8 => some 2
    | 9 => some 2 | _ => none
  | 0x12 => if 1 ≤ idx ∧ idx ≤ 6 then some 3 else none
  | _ => none

/-- Default severity of a source; none = the ID is reserved (R423, R424 and the class chapters). -/
def defaultSeverity (id : Nat) : Option Nat :=
  if 65536 ≤ id then none
  else if faultLoc id < 16 then gallerySeverity (faultClass id) (faultIndex id)
  else if faultLoc id = 31 then deviceSeverity (faultClass id) (faultIndex id)
  else none

/-- Programmed severity of a source at reset: its default (R437). -/
def severityDefault (id : Nat) : Nat := (defaultSeverity id).getD 0

/-- Programmed severity of a source (R437). -/
def severityOf (s : State) (id : Nat) : Nat := tget severityDefault s.set.severities id

/-- Whether a raise at MAJOR or CRITICAL isolates the source's unit (R427 and the class chapters). -/
def isolates (id : Nat) : Bool :=
  let g := faultLoc id < 16
  let i := faultIndex id
  match faultClass id with
  | 0x01 => g
  | 0x02 => g && i < 16
  | 0x03 => g
  | 0x05 => g && i < 12
  | 0x06 => g
  | 0x09 => i < 16
  | 0x0A => g
  | 0x0B => g && i < 8
  | 0x0E => i == 3
  | _ => false

/-! ## Posting a reply (R360, R364) -/

/-- Put a reply among those that wait for the reply ring, or among those that have left. -/
def postReply (r : Reply) (s : State) : State :=
  match r.endpoint with
  | .pcie => { s with cmd := { s.cmd with waiting := s.cmd.waiting ++ [r] } }
  | .udp .. => { s with cmd := { s.cmd with left := s.cmd.left ++ [r] } }
  | .twin _ => { s with cmd := { s.cmd with left := s.cmd.left ++ [r] } }

/-- A completion reply that takes the place of a command's first reply header. -/
def completion (r : Reply) (a : Answer) : Reply :=
  { r with completion := true, replay := false, status := a.status, detail := a.detail, hang := a.hang,
           family := a.family, results := a.results }

/-! ## Twin role and swap (R494, R498) -/

/-- Cancel a staged swap; the twin unit then sends what its command is owed (R498). -/
def cancelSwap (s : State) : State :=
  match s.twin.swap with
  | none => s
  | some w => { s with twin := { s.twin with swap := none, cancelled := s.twin.cancelled ++ [w] } }

/-- READY in the partner's last TWIN_STATE (R491). -/
def partnerReady (s : State) : Bool :=
  match s.twin.partner with | some p => p.flags.getLsbD 0 | none => false

/-- An ACTIVE device whose FAILOVER_N is asserted becomes STANDBY when the partner is READY (R494). -/
def yieldRole (s : State) : State :=
  if s.twin.active && failoverAsserted s && partnerReady s then
    let s := cancelSwap s
    { s with twin := { s.twin with active := false } }
  else s

/-! ## Raising (R425 to R432) -/

/-- Effective severity of a raise now (R426, R429). -/
def effectiveSeverity (s : State) (id : Nat) : Nat :=
  if classSticky s (faultClass id) then min 3 (severityOf s id + 1) else severityOf s id

/-- The source's record after a raise. -/
def raisedRecord (s : State) (id : Nat) : FaultSource :=
  let f := faultOf s id
  let esc := classSticky s (faultClass id)
  let eff := effectiveSeverity s id
  { sticky := true
    events := sat32 f.events 1
    escalated := f.escalated || esc
    isolating := f.isolating || (decide (2 ≤ eff) && isolates id)
    maxSeverity := if f.sticky then max f.maxSeverity eff else eff
    critical := f.critical || eff == 3
    failover := f.failover || (eff == 3 && s.twin.pair == .paired) }

/-- A class with a CRITICAL raise not yet acknowledged enters the hold at the next one (R432). -/
def enterHold (s : State) (cls : Nat) : State :=
  if s.flt.sources.any (fun e => e.2.critical && faultClass e.1 == cls) && !s.flt.hold.contains cls then
    { s with flt := { s.flt with hold := s.flt.hold ++ [cls] } }
  else s

/-- Interrupts of a raise (R426). -/
def faultIrqs (eff : Nat) (s : State) : State :=
  if eff = 0 then s
  else if eff = 3 then raiseIrq irqCritical (raiseIrq irqFault s)
  else raiseIrq irqFault s

/-- A raise of a source, but for the isolation of its unit. -/
def raiseCore (id : Nat) (s : State) : State :=
  let eff := effectiveSeverity s id
  let rec' := raisedRecord s id
  let s := if eff = 3 then enterHold s (faultClass id) else s
  yieldRole (faultIrqs eff (putFault s id rec'))

/-- A raise of a device-level source, location 31, of a class that isolates nothing. -/
def note (cls idx : Nat) (s : State) : State := raiseCore (faultId cls 31 idx) s

end Sys2Proof.Machine
end

