-- ==== Sys2Proof/Machine/Cells.lean ====
section
/-! DEFINITION. Cells.lean: the cell pool and the egress queues: admission, refusal, discards and
what each counts (R217 to R233). -/

namespace Sys2Proof.Machine

/-- Cells of a frame of b stored bytes (R217). -/
def cellsOf (b : Nat) : Nat := (b + 127) / 128

/-- A frame as it is stored, with its launch time (R217, R218). -/
def storedFrame (b : Bytes) (launch : Word64) : QFrame :=
  { bytes := b.length, cells := cellsOf b.length, data := b, launch := launch }

/-- CELLS of a queue (R218): those of its linked frames, and those that wait for its sweep (R220). -/
def queueCells (q : Queue) : Nat := q.frames.foldl (fun n f => n + f.cells) 0 + q.stranded.length

/-- QUEUED of the device: the sum of CELLS over all queues (R231). -/
def queuedCells (s : State) : Nat := s.pkt.queues.foldl (fun n e => n + queueCells e.2) 0

/-- Reserved cells that a queue does not use (R221). -/
def unusedOf (q : Queue) : Nat := if q.cfg.enable then q.cfg.minCells - queueCells q else 0

/-- Unused reserved cells of the device; control queues reserve theirs at all times (R213, R221). -/
def unusedCells (s : State) : Nat :=
  let listed := s.pkt.queues.filter (fun e => decide (e.1 % 4096 < 4))
  s.pkt.queues.foldl (fun n e => n + unusedOf e.2) 0 + 256 * (64 - listed.length)

/-- RETIRED (R220, R232). -/
def CellPool.retired (p : CellPool) : Nat := p.gone.length

/-- FREE of R232: the free list and the retired cells (R231). -/
def freeCells (s : State) : Nat := s.pkt.pool.free + s.pkt.pool.retired

/-- What a writer meets when it asks for a frame's cells (R219, R221). -/
inductive Admission where
  | admitted | discarded | refused (shared : Bool)
  deriving DecidableEq, Repr

/-- Ask for c cells of queue q (R221). -/
def askCells (s : State) (q c : Nat) : Admission :=
  let r := queueOf s q
  let n := queueCells r
  if r.frozen || r.isolated then .discarded
  else if r.cfg.maxCells < n + c then .refused false
  else if n + c ≤ r.cfg.minCells then .admitted
  else if unusedCells s + c ≤ s.pkt.pool.free then .admitted
  else .refused true

/-- Launch time in units of 32 ticks, to the nearest (R218). -/
def roundLaunch (l : Word64) : Word64 := BitVec.ofNat 64 ((l.toNat + 16) / 32 * 32)

/-- Change a queue's counters. -/
def countQueue (q : Nat) (f : QueueCounters → QueueCounters) (s : State) : State :=
  let r := queueOf s q
  putQueue s q { r with counters := f r.counters }

/-- The next cells, at most c, that have never been handed out; a retired cell never is (R220). -/
def freshCells (p : CellPool) (c : Nat) : List Nat :=
  (((List.range (c + p.gone.length)).map (fun i => p.fresh + i)).filter
    (fun x => decide (x < 196608) && !p.gone.contains x)).take c

/-- The next c cells of the free list: those that have never been handed out first, then those given back
longest ago. (DESIGN CHOICE, log entry 152.) -/
def nextCells (p : CellPool) (c : Nat) : List Nat :=
  let x := freshCells p c
  x ++ p.spare.take (c - x.length)

/-- SHARED_LOW follows the free cells above u (R232). (DEDUCED, log entry 73.) -/
def noteLow (s : State) : State :=
  let p := s.pkt.pool
  putPool s { p with sharedLow := min p.sharedLow (p.free - unusedCells s) }

/-- Take cells from the free list (R221). -/
def takeCells (c : Nat) (s : State) : State :=
  let p := s.pkt.pool
  let x := freshCells p c
  noteLow (putPool s { p with
    free := p.free - c
    fresh := if x.length < c then 196608 else (x.getLast?.map (fun y => y + 1)).getD p.fresh
    spare := p.spare.drop (c - x.length) })

/-- Return the cells of a frame to the free list. -/
def giveCells (f : QFrame) (s : State) : State :=
  let p := s.pkt.pool
  putPool s { p with free := p.free + f.cells, spare := p.spare ++ f.at' }

/-- Cells of queue q are retired (R220). (DEDUCED, log entry 72.) -/
def retireCells (q : Nat) (cells : List Nat) (s : State) : State :=
  let p := s.pkt.pool
  putPool s { p with
    badCells := p.badCells.filter (fun e => !(e.1 == q && cells.contains e.2)), gone := p.gone ++ cells }

/-- The cells of a frame of queue q that are done with: they return to the free list, but those with an uncorrectable
link word, which stay behind for the sweep while the queue is frozen, and are retired at once where it is not
(R220). (DEDUCED, log entry 72.) -/
def discardCells (q : Nat) (f : QFrame) (s : State) : State :=
  let bad := f.at'.filter (fun c => s.pkt.pool.badCells.contains (q, c))
  let s := giveCells { f with cells := f.cells - bad.length, at' := f.at'.filter (fun c => !bad.contains c) } s
  if bad.isEmpty then s
  else if (queueOf s q).frozen then putQueue s q { queueOf s q with stranded := (queueOf s q).stranded ++ bad }
  else retireCells q bad s

/-- A frame that has its cells goes to the tail of its queue (R221). In mode ASAP the launch time is the moment of
linking (R225). -/
def appendFrame (q : Nat) (f : QFrame) (s : State) : State :=
  let r := queueOf s q
  let frames := r.frames ++ [{ f with launch := roundLaunch (if r.cfg.asap then s.time.count else f.launch) }]
  let r := { r with frames := frames }
  putQueue s q { r with counters :=
    { r.counters with framesIn := sat48 r.counters.framesIn 1, peakCells := max r.counters.peakCells (queueCells r) } }

/-- The cells that a frame gets when it is admitted now. -/
def withCells (s : State) (f : QFrame) : QFrame := { f with at' := nextCells s.pkt.pool f.cells }

/-- Admit a frame, write its cells and link it (R221). (DESIGN CHOICE, log entry 158.) -/
def linkFrame (q : Nat) (f : QFrame) (s : State) : State :=
  takeCells f.cells (appendFrame q (withCells s f) s)

/-- Admit a frame whose EOP cell is still to be written: its cells are off the free list and in flight (R221,
R231). -/
def admitFrame (f : QFrame) (s : State) : State × QFrame :=
  let t := takeCells f.cells s
  (putPool t { t.pkt.pool with inFlight := t.pkt.pool.inFlight + f.cells }, withCells s f)

/-- The writer of an admitted frame writes its EOP cell, which links it (R221). -/
def linkWritten (q : Nat) (f : QFrame) (s : State) : State :=
  appendFrame q f (putPool s { s.pkt.pool with inFlight := s.pkt.pool.inFlight - f.cells })

/-- Queue indices of R233. -/
def queueFault (q idx : Nat) : Nat := faultId 0x06 (q / 4096) idx

def countFrozenDrop (q : Nat) (s : State) : State :=
  countQueue q (fun c => { c with frozenDrop := sat48 c.frozenDrop 1 }) s

/-- Admission refused for lack of shared cells raises the device source, which isolates nothing (R233).
(DEDUCED, log entry 73.) -/
def noteShared (shared : Bool) (s : State) : State := if shared then note 0x06 0 s else s

/-! ## Writers that wait (R222) -/

/-- The frames of one writer that a control queue has refused; gate: of the take gate. -/
def stalledOf (r : Queue) (gate : Bool) : List QFrame := if gate then r.gateStalled else r.stalled

/-- The frames of a writer that wait from now on. The time of the first request is that of the frame in front. -/
def putStalled (gate : Bool) (q : Nat) (l : List QFrame) (first : Bool) (s : State) : State :=
  let r := queueOf s q
  let now := s.time.count
  if gate then putQueue s q { r with gateStalled := l, gateStalledAt := if first then now else r.gateStalledAt }
  else putQueue s q { r with stalled := l, stalledAt := if first then now else r.stalledAt }

/-- Offer the frames of one writer in order until one is refused, which waits with those behind it; asked: the first of
them has been refused before. -/
def retryStalled (gate : Bool) (q : Nat) : List QFrame → Bool → State → State
  | [], _, s => putStalled gate q [] false s
  | f :: r, asked, s =>
    match askCells s q f.cells with
    | .admitted => retryStalled gate q r false (linkFrame q f s)
    | .discarded => retryStalled gate q r false (countFrozenDrop q s)
    | .refused sh => noteShared sh (putStalled gate q (f :: r) (!asked) s)

/-- Both writers of a control queue ask again, the Curator first. (DESIGN CHOICE, log entry 190.) -/
def retryQueue (q : Nat) (s : State) : State :=
  let s := if (queueOf s q).stalled.isEmpty then s else retryStalled false q (queueOf s q).stalled true s
  if (queueOf s q).gateStalled.isEmpty then s else retryStalled true q (queueOf s q).gateStalled true s

/-- Admit held packets of a leg in order until one is refused; what stays held (R222). -/
def retryHeld (q : Nat) : List QFrame → State → State × List QFrame
  | [], s => (s, [])
  | f :: r, s =>
    match askCells s q f.cells with
    | .admitted => retryHeld q r (linkFrame q f s)
    | .discarded => retryHeld q r (countFrozenDrop q s)
    | .refused sh => (noteShared sh s, f :: r)

/-- A transmit flow's record. -/
def putTxFlow (s : State) (n : Nat) (v : TxFlow) : State :=
  { s with pkt := { s.pkt with txFlows := tput s.pkt.txFlows n v } }

/-- A leg's packet in writing is complete and linked (R221). -/
def finishLeg (l : TxLeg) (s : State) : State × TxLeg :=
  match l.writing with
  | none => (s, l)
  | some f => (linkWritten l.queue f s, { l with writing := none })

/-- The legs of a transmit flow. -/
def txLegs (f : TxFlow) : List TxLeg := f.legA :: f.legB.toList

/-- A transmit flow writes the EOP cells of its admitted packets (R221). (DESIGN CHOICE, log entry 158.) -/
def finishFlow (n : Nat) (s : State) : State :=
  match tfind s.pkt.txFlows n with
  | none => s
  | some f =>
    if (txLegs f).all (fun l => l.writing.isNone) then s
    else
      let (s, a) := finishLeg f.legA s
      match f.legB with
      | none => putTxFlow s n { f with legA := a }
      | some l =>
        let (s, b) := finishLeg l s
        putTxFlow s n { f with legA := a, legB := some b }

/-- Retry the held packets of one transmit flow. -/
def retryFlow (n : Nat) (s : State) : State :=
  match tfind s.pkt.txFlows n with
  | none => s
  | some f =>
    let (s, ha) := retryHeld f.legA.queue f.legA.held s
    match f.legB with
    | none =>
      putTxFlow s n { f with legA := { f.legA with held := ha } }
    | some b =>
      let (s, hb) := retryHeld b.queue b.held s
      putTxFlow s n { f with legA := { f.legA with held := ha }, legB := some { b with held := hb } }

/-- Every writer that waits asks again, after cells have been returned (R222, R228). -/
def retryAll (s : State) : State :=
  let qs := s.pkt.queues.filter (fun e => !e.2.stalled.isEmpty || !e.2.gateStalled.isEmpty)
  let s := qs.foldl (fun s e => retryQueue e.1 s) s
  let fs := s.pkt.txFlows.filter (fun e => !e.2.legA.held.isEmpty
    || (match e.2.legB with | some b => !b.held.isEmpty | none => false))
  fs.foldl (fun s e => retryFlow e.1 s) s

/-! ## Raises of class QUEUE (R233) -/

/-- The isolation of R233: every queue of the gallery whose counter raised the source.
(DEDUCED, log entry 110.) -/
def isolateQueues (id : Nat) (s : State) : State :=
  let qs := s.pkt.queues.filter
    (fun e => e.1 / 4096 == faultLoc id && e.2.blame.getLsbD (faultIndex id))
  -- Writers that wait for an isolated queue offer their frames to it, and these are discarded.
  retryAll (qs.foldl (fun s e => putQueue s e.1 { queueOf s e.1 with isolated := true }) s)

/-- Raise a QUEUE source. -/
def raiseQueue (id : Nat) (s : State) : State :=
  let iso := isolates id && decide (2 ≤ effectiveSeverity s id)
  let s := raiseCore id s
  if iso then isolateQueues id s else s

/-- Count on a queue and raise the gallery source of that counter (R233). -/
def blameQueue (q idx : Nat) (f : QueueCounters → QueueCounters) (s : State) : State :=
  let s := countQueue q f s
  let r := queueOf s q
  let s := putQueue s q { r with blame := r.blame ||| (1#3 <<< idx) }
  raiseQueue (queueFault q idx) s

/-- WRITE_LATE, HEAD_LATE and CTRL_DROP (R222, R226, R233). -/
def countWriteLate (q : Nat) (s : State) : State :=
  blameQueue q 0 (fun c => { c with writeLate := sat48 c.writeLate 1 }) s
def countHeadLate (q : Nat) (s : State) : State :=
  blameQueue q 1 (fun c => { c with headLate := sat48 c.headLate 1 }) s
def countCtrlDrop (q : Nat) (s : State) : State :=
  blameQueue q 2 (fun c => { c with ctrlDrop := sat48 c.ctrlDrop 1 }) s
/-- A frame offered by the Curator or the take gate: a refused one stalls, with those that the writer has behind it
(R222). -/
def offerControl (gate : Bool) (q : Nat) (f : QFrame) (s : State) : State :=
  let r := queueOf s q
  if r.frozen || r.isolated then countFrozenDrop q s
  else if !(stalledOf r gate).isEmpty then putStalled gate q (stalledOf r gate ++ [f]) false s
  else retryStalled gate q [f] false s

/-- Discard the head frame of a queue and return its cells. -/
def dropHead (q : Nat) (s : State) : State :=
  let r := queueOf s q
  match r.frames with
  | [] => s
  | f :: rest => discardCells q f (putQueue s q { r with frames := rest })

/-- Discard every linked frame of a queue and return their cells, each counted in FLUSHED (R220). -/
def flushQueue (q : Nat) (s : State) : State :=
  let r := queueOf s q
  let s := putQueue s q { r with frames := [], counters :=
    { r.counters with flushed := sat48 r.counters.flushed r.frames.length } }
  r.frames.foldl (fun s f => discardCells q f s) s

/-! ## Link words and descriptors (R218) -/

/-- The frame that holds a cell, its queue, and the cell behind it in the queue. -/
def cellOwner (s : State) (c : Nat) : Option (Nat × QFrame × Option Nat) :=
  s.pkt.queues.findSome? (fun e =>
    let chain := e.2.frames.flatMap (fun f => f.at')
    (e.2.frames.find? (fun f => f.at'.contains c)).map
      (fun f => (e.1, f, (chain.drop (chain.idxOf c + 1)).head?)))

/-- A cell is on the free list. -/
def cellFree (s : State) (c : Nat) : Bool :=
  (decide (s.pkt.pool.fresh ≤ c) || s.pkt.pool.spare.contains c) && !s.pkt.pool.gone.contains c

/-- The frame in flight that holds a cell, in transmission or in writing, with its queue; what lies behind its last
cell is not given (R218, R231). -/
def cellInFlight (s : State) (c : Nat) : Option (Nat × QFrame × Option Nat) :=
  let sending := s.pkt.ports.filterMap (fun e => e.2.sending)
  let writing := s.pkt.txFlows.flatMap (fun e =>
    (txLegs e.2).filterMap (fun l => l.writing.map (fun f => (l.queue, f))))
  ((sending ++ writing).find? (fun x => x.2.at'.contains c)).map
    (fun x => (x.1, x.2, (x.2.at'.drop (x.2.at'.idxOf c + 1)).head?))

/-- The link word of a cell: a retired cell, whose word is uncorrectable, and NEXT of a last cell show a free value.
(DESIGN CHOICE, log entry 152.) -/
def linkWord (s : State) (c : Nat) : Word64 :=
  match (cellOwner s c).or (cellInFlight s c) with
  | some (q, f, next) =>
    let i := f.at'.idxOf c
    let last := decide (i + 1 = f.at'.length)
    let sop := decide (i = 0)
    let len := if last then f.bytes - 128 * i else 0
    BitVec.ofNat 64 ((next.getD ((Config.free 18 c).toNat)) + len % 128 * 2 ^ 18 + bit sop * 2 ^ 25 + bit last * 2 ^ 26
      + bit f.ptpEvent * 2 ^ 27 + q * 2 ^ 28 + (if sop then f.launch.toNat / 32 % 2 ^ 19 else 0) * 2 ^ 45)
  | none => if cellFree s c then BitVec.ofNat 64 (2 ^ 44) else Config.free 64 c

/-- The descriptor of a queue. HEAD and TAIL of an empty queue are free values. (DESIGN CHOICE, log entry 152.) -/
def queueDescriptor (s : State) (q : Nat) : Word64 :=
  let r := queueOf s q
  let chain := r.frames.flatMap (fun f => f.at')
  let free := (Config.free 18 (196608 + q)).toNat
  BitVec.ofNat 64 (chain.head?.getD free + chain.getLast?.getD free * 2 ^ 18 + queueCells r % 2 ^ 17 * 2 ^ 36
    + bit r.frozen * 2 ^ 53)

/-- A word of the queue link RAM: 196,608 link words, then 65,536 descriptors. -/
def linkRamWord (s : State) (i : Nat) : Word64 :=
  if i < 196608 then linkWord s i else queueDescriptor s (i - 196608)

/-! ## Payload cells (R25) -/

/-- A byte of a frame changes where the frame holds cell c. -/
def changeByte (c i : Nat) (g : Byte → Byte) (f : QFrame) : QFrame :=
  if f.at'.contains c then
    let k := 128 * f.at'.idxOf c + i
    { f with data := f.data.zipIdx.map (fun x => if x.2 = k then g x.1 else x.1) }
  else f

/-- A byte of a payload cell changes, in whatever frame it holds: linked, in writing or in transmission. -/
def changeCell (c i : Nat) (g : Byte → Byte) (s : State) : State :=
  { s with pkt := { s.pkt with
      queues := s.pkt.queues.map (fun e => (e.1, { e.2 with frames := e.2.frames.map (changeByte c i g) }))
      ports := s.pkt.ports.map (fun e =>
        (e.1, { e.2 with sending := e.2.sending.map (fun x => (x.1, changeByte c i g x.2)) }))
      txFlows := s.pkt.txFlows.map (fun e => (e.1, { e.2 with
        legA := { e.2.legA with writing := e.2.legA.writing.map (changeByte c i g) }
        legB := e.2.legB.map (fun l => { l with writing := l.writing.map (changeByte c i g) }) })) } }

/-- The frame that holds a cell: linked in a queue, in transmission, or in writing. -/
def cellFrame (s : State) (c : Nat) : Option QFrame :=
  ((cellOwner s c).or (cellInFlight s c)).map (fun x => x.2.1)

/-- Byte i of payload cell c, where a frame holds it. -/
def cellByte (s : State) (c i : Nat) : Option Byte :=
  (cellFrame s c).bind (fun f => f.data[128 * f.at'.idxOf c + i]?)

/-- A packet offered by a packetizer leg: refused packets are held, four per leg, and the oldest of a full hold is
discarded, which is still to be counted (R222); one that is offered to a frozen or isolated queue is discarded (R219,
R233). -/
def offerHeld (q : Nat) (held : List QFrame) (f : QFrame) (s : State) : State × List QFrame × Bool :=
  if (queueOf s q).frozen || (queueOf s q).isolated then (countFrozenDrop q s, held, false)
  else if held.isEmpty then
    let (s, h) := retryHeld q [f] s
    (s, h, false)
  else if held.length < 4 then (s, held ++ [f], false)
  else (s, held.drop 1 ++ [f], true)

end Sys2Proof.Machine
end

