-- ==== Sys2Proof/Machine/Messages.lean ====
section
/-! DEFINITION. Messages.lean: packets and replies as bytes, the message channel's send side, and
the sending of a reply on the transport that delivered its command. -/

namespace Sys2Proof.Machine

/-! ## Packets and replies as bytes (R361, R364) -/

/-- The 32-byte header of a command packet (R361). -/
def packetHeader (op : BitVec 16) (p : Packet) : Bytes :=
  [p.version, p.cls] ++ leBytes 2 p.flags.toNat ++ leBytes 2 op.toNat ++ leBytes 2 p.session.toNat
    ++ leBytes 4 p.seq.toNat ++ leBytes 4 p.target.toNat ++ [p.family, p.rsvd17]
    ++ leBytes 2 p.paramLength.toNat ++ leBytes 12 p.rsvd20.toNat

/-- The bytes that the CRC covers, as sent (R361, R363). -/
def packetBody (op : BitVec 16) (p : Packet) : Bytes := packetHeader op p ++ p.params

/-- A whole packet. -/
def packetBytes (h : HostPacket) : Bytes :=
  packetBody h.opcode h.body ++ leBytes 4 h.body.crc.toNat

/-- Reply bytes without the CRC (R364). -/
def replyBody (r : Reply) : Bytes :=
  leBytes 1 1 ++ leBytes 1 r.cls ++ leBytes 2 (bit r.completion + 2 * bit r.replay)
    ++ leBytes 2 r.opcode ++ leBytes 2 r.session ++ leBytes 4 r.seq.toNat ++ leBytes 2 r.status
    ++ leBytes 2 r.detail ++ leBytes 4 r.hang.toNat ++ leBytes 1 r.family ++ leBytes 1 0
    ++ leBytes 2 r.results.length ++ leBytes 8 0 ++ r.results

/-- A whole reply. -/
def replyBytes (r : Reply) : Bytes := replyBody r ++ leBytes 4 (crc32c (replyBody r)).toNat

/-! ## Message channel, send side (R98) -/

/-- Cut a message into cells of at most 248 bytes; `n` bounds the number of cells (R98). -/
def cutCells (n msgType : Nat) (first : Bool) (data : Bytes) : List Cell :=
  match n with
  | 0 => []
  | n + 1 =>
    let c : Cell := { seq := 0, msgType := msgType, first := first,
                      last := decide (data.length ≤ 248), data := data.take 248 }
    if data.length ≤ 248 then [c] else c :: cutCells n msgType false (data.drop 248)

/-- Queue a message of at most 32 cells on a lane's message channel (R98). -/
def sendMessage (f msgType : Nat) (data : Bytes) (s : State) : State :=
  let l := linkOf s f
  putLink s f { l with sendQueue := l.sendQueue ++ cutCells 32 msgType true data }

/-- The lane that carries the messages of the pair: the lowest-numbered LOCKED lane of the set; while
none is LOCKED, messages wait at the lowest-numbered lane (R490). -/
def twinLane (s : State) : Option Nat :=
  let sorted := s.set.twinLanes.filter (fun f => (laneOf s f).state == .locked)
  let pick := fun (l : List Nat) => l.foldl
    (fun m f => match m with | none => some f | some x => some (min x f)) none
  match pick sorted with | some f => some f | none => pick s.set.twinLanes

/-- Send a message on the twin channel. -/
def sendTwin (msgType : Nat) (data : Bytes) (s : State) : State :=
  match twinLane s with | some f => sendMessage f msgType data s | none => s

/-! ## Replies (R192, R364) -/

/-- An address field holds an IPv4 address (R382). -/
def isIpv4 (ip : BitVec 128) : Bool := ip.extractLsb' 32 96 == 0

/-- An IPv4 header without its checksum, with it: protocol UDP, DF, from one address to another. -/
def ipv4Header (ident ttl : Nat) (src dst : Bytes) (n : Nat) : Bytes :=
  let head := fun (sum : Nat) =>
    [0x45, 0] ++ beBytes 2 (28 + n) ++ beBytes 2 ident ++ [0x40, 0, BitVec.ofNat 8 ttl, 17] ++ beBytes 2 sum ++ src ++ dst
  head (65535 - fold16 (sum16 (head 0)))

/-- The UDP checksum over addresses, header and payload, never sent as 0 (R192, R207). -/
def udpChecksum (src dst udp : Bytes) : Nat :=
  let c := 65535 - fold16 (sum16 (src ++ dst) + 17 + udp.length + sum16 udp)
  if c = 0 then 65535 else c

/-- A UDP frame that port n sends: checksum 0 on IPv4, computed on IPv6 (R192).
(DESIGN CHOICE, log entry 151.) -/
def udpFrame (s : State) (n : Nat) (mac : Bytes) (vlan : Option (BitVec 16)) (v6 : Bool) (dst : Bytes) (src to' : Nat)
    (b : Bytes) : Bytes :=
  let own := macCfg s n
  let ether := mac ++ leBytes 6 own.macAddr.toNat
    ++ (match vlan with | some t => [0x81, 0] ++ beBytes 2 t.toNat | none => [])
  let udp := fun (sum : Nat) => beBytes 2 src ++ beBytes 2 to' ++ beBytes 2 (8 + b.length) ++ beBytes 2 sum ++ b
  let ttl := Config.replyTtl.toNat
  if v6 then
    let own6 := leBytes 16 own.ipv6.toNat
    ether ++ [0x86, 0xDD, 0x60, 0, 0, 0] ++ beBytes 2 (8 + b.length) ++ [17, BitVec.ofNat 8 ttl] ++ own6 ++ dst
      ++ udp (udpChecksum own6 dst (udp 0))
  else
    ether ++ [0x08, 0] ++ ipv4Header (Config.replyIdent s.draws).toNat ttl (leBytes 4 own.ipv4.toNat) dst b.length
      ++ udp 0

/-- The frame of a command reply of port n to a command's source, from UDP port 48152 and with the tag of the command
(R192). (DESIGN CHOICE, log entry 151.) -/
def replyFrame (s : State) (n : Nat) (ip : BitVec 128) (udpPort : BitVec 16) (vlan : Option (BitVec 16))
    (mac : BitVec 48) (b : Bytes) : Bytes :=
  let v6 := !isIpv4 ip
  udpFrame s n (leBytes 6 mac.toNat) vlan v6 (leBytes (if v6 then 16 else 4) ip.toNat) 48152 udpPort.toNat b

/-- Control queue of a packet port (R213). (DEDUCED, log entry 21.) -/
def controlQueue (port : Nat) : Nat := 4096 * (port / 4) + port % 4

/-- Send a reply on the transport that delivered its command (R364): to the reply ring's buffer, in
a frame of the port's control queue (R192), or in a REPLY message (R99). (DEDUCED, log entry 21.) -/
def sendReply (r : Reply) (s : State) : State :=
  let s := postReply r s
  match r.endpoint with
  | .pcie => s
  | .udp port ip udpPort vlan mac =>
    offerControl (r.cls == 0) (controlQueue port.val)
      (storedFrame (replyFrame s port.val ip udpPort vlan mac (replyBytes r)) s.time.count) s
  | .twin _ => sendTwin 2 (replyBytes r) s

/-- Send the completion reply of a command (R364). -/
def sendCompletion (r : Reply) (a : Answer) (s : State) : State := sendReply (completion r a) s

/-- Send a completion where one is owed. -/
def complete (r : Option Reply) (a : Answer) (s : State) : State :=
  match r with | some r => sendCompletion r a s | none => s

/-! ## Streams (R364, R367, R368, R375, R376) -/

/-- One of a session's four streams. -/
def streamOf (x : Session) (cls : Nat) : Stream :=
  match cls with | 0 => x.take | 1 => x.control | 2 => x.bulk | _ => x.diag

def putStream (x : Session) (cls : Nat) (t : Stream) : Session :=
  match cls with
  | 0 => { x with take := t } | 1 => { x with control := t } | 2 => { x with bulk := t }
  | _ => { x with diag := t }

/-- Keep a reply's header among the last 16 of its stream (R368). -/
def cacheReply (r : Reply) (t : Stream) : Stream :=
  { t with cache := ({ r with results := [] } :: t.cache).take 16, replied := some r.seq }

/-- Send the replies at the front of a stream that are known (R364). -/
def flushOwed (n cls : Nat) : List (Word × Option Reply) → State → State
  | (_, some r) :: rest, s =>
    let x := sessionOf s n
    let t := cacheReply r (streamOf x cls)
    let s := putSession s n (putStream x cls { t with owed := rest })
    flushOwed n cls rest (sendReply r s)
  | _, s => s

/-- A command of a stream has been executed; its reply is sent once every earlier one of the stream
has been (R364). `none`: the reply follows a later event. -/
def oweReply (n cls : Nat) (seq : Word) (r : Option Reply) (s : State) : State :=
  let x := sessionOf s n
  let t := streamOf x cls
  let owed := t.owed ++ [(seq, r)]
  flushOwed n cls owed (putSession s n (putStream x cls { t with owed := owed }))

/-- The reply of a command whose reply followed a later event. A reply that is no longer owed, after
a session reset or a Curator restart, is dropped (R370, R376). -/
def fillReply (r : Reply) (s : State) : State :=
  if r.session = 0 ∨ r.mirrored = true then sendReply r s
  else
    let x := sessionOf s r.session
    let t := streamOf x r.cls
    if t.owed.any (fun e => e.1 == r.seq && e.2.isNone) then
      let owed := t.owed.map (fun e => if e.1 == r.seq && e.2.isNone then (e.1, some r) else e)
      flushOwed r.session r.cls owed (putSession s r.session (putStream x r.cls { t with owed := owed }))
    else s

/-- The first reply of a command from its header (R364). -/
def firstReply (r : Reply) (a : Answer) : Reply :=
  { r with completion := false, replay := false, status := a.status, detail := a.detail, hang := a.hang,
           family := a.family, results := a.results }

/-- Send the deferred first reply of a command. -/
def answerLater (r : Reply) (a : Answer) (s : State) : State := fillReply (firstReply r a) s

end Sys2Proof.Machine
end

