-- ==== Sys2Proof/Machine/FrontDesk.lean ====
section
/-! DEFINITION. FrontDesk.lean: how a command packet is checked, in the order of R373, answered,
consumed and mirrored. Every opcode is described by one `OpSpec`. -/

namespace Sys2Proof.Machine

/-- How an opcode reads its session (R365, R388). -/
inductive SessionRule where
  /-- An open session bound to the sender's endpoint, with its sequence. -/
  | bound
  /-- As `bound`, or session 0 without sequence checks (PING, IDENTIFY). -/
  | orNone
  /-- SESSION_OPEN and SESSION_RESET: they name a session and consume no sequence. -/
  | names
  deriving DecidableEq, Repr

/-- An opcode: its row of R384, its length rule (R382), its checks in the order of its chapter, and
its effect, which answers at once or, with `none`, at a later event. -/
structure OpSpec where
  code : BitVec 16
  cls : Nat
  auth : Bool := false
  rule : SessionRule := .bound
  lengthOk : Packet → Bool
  /-- Answered LOCKED in the present life-cycle state (check 7). -/
  lockedOut : Packet → State → Bool := fun _ _ => false
  checks : Packet → State → Check
  effect : Reply → Packet → State → State × Option Answer

/-- The header that every reply of a command carries (R364). -/
def replyHeader (code : BitVec 16) (p : Packet) : Reply :=
  { endpoint := p.endpoint, cls := p.cls.toNat, opcode := code.toNat, session := sess p, seq := p.seq,
    family := 0 }

/-! ## Checks 1 to 5 (R373) -/

/-- The outcome of checks 1 to 5. -/
inductive Gate where
  /-- Answered without consuming the sequence. -/
  | reject (a : Answer)
  /-- A duplicate, answered from the cache (R368). -/
  | replay (r : Reply)
  /-- Go on to check 6; `consume` advances the stream. -/
  | go (consume : Bool)
  /-- A command that the twin has forwarded: executed without session or sequence checks (R500). -/
  | mirrored (twinSeq : Word)
  deriving DecidableEq, Repr

/-- Checks 1 to 3: CRC, length, version and reserved bits (R373). -/
def formChecks (o : OpSpec) (p : Packet) : Check :=
  firstFail [
    need (crc32c (packetBody o.code p) == p.crc) badCrc,
    need (p.params.length == p.paramLength.toNat && o.lengthOk p) badLength,
    need (p.version == 1 && p.flags &&& 0xFFFC == 0 && p.rsvd17 == 0 && p.rsvd20 == 0) badHeader]

/-- A session number that exists (R365). -/
def isSession (n : Nat) : Bool := decide (1 ≤ n ∧ n ≤ 16)

/-- Check 4 (R365). -/
def sessionCheck (o : OpSpec) (p : Packet) (s : State) : Check :=
  let x := sessionOf s (sess p)
  let bound := isSession (sess p) && x.isOpen && x.endpoint == p.endpoint
  match o.rule with
  | .bound => need bound staleSession
  | .orNone => need (sess p == 0 || bound) staleSession
  | .names => need (isSession (sess p)) staleSession

/-- The cached reply of a duplicate (R368). -/
def cachedReply (t : Stream) (seq : Word) : Option Reply := t.cache.find? (fun r => r.seq == seq)

/-- BUSY under which a stream stands (R375). -/
def standingBusy (s : State) (t : Stream) : Option Nat :=
  match t.busy with
  | some (hint, until') => if countReached s.time.count until' then none else some hint
  | none => none

/-- Check 5 (R367, R368, R375). (DEDUCED, log entry 8.) -/
def sequenceGate (s : State) (t : Stream) (seq : Word) : Gate :=
  let back := (t.expected - seq).toNat
  if 1 ≤ back ∧ back ≤ 16 then
    match cachedReply t seq with
    | some r => .replay { r with replay := true, results := [] }
    | none => .go false
  else
    match standingBusy s t with
    | some hint => .reject (busy hint)
    | none => if seq = t.expected then .go true else .reject (outOfSequence t.expected)

/-- Checks 1 to 5. (DEDUCED, log entry 9.) -/
def frontGate (o : OpSpec) (p : Packet) (s : State) : Gate :=
  match p.endpoint with
  | .twin twinSeq => .mirrored twinSeq
  | _ =>
    match formChecks o p with
    | some a => .reject a
    | none =>
      match sessionCheck o p s with
      | some a => .reject a
      | none =>
        if o.rule = .names then .go false
        else if sess p = 0 then .go false
        else if 3 < p.cls.toNat then .reject (badOpcode 1)
        else sequenceGate s (streamOf (sessionOf s (sess p)) p.cls.toNat) p.seq

/-! ## Checks 6 to 8 -/

/-- Check 6: class of the opcode, and ring of the class (R356, R372). -/
def classCheck (o : OpSpec) (p : Packet) : Check :=
  firstFail [
    need (p.cls.toNat == o.cls) (badOpcode 1),
    need (p.endpoint != .pcie || p.ring.val == o.cls) (badOpcode 2)]

/-- Opcodes that the failover hold lets through (R381). -/
def holdAllows (code : Nat) : Bool :=
  decide ((0x1001 ≤ code ∧ code ≤ 0x1020) ∨ (0xA001 ≤ code ∧ code ≤ 0xA006))

/-- Check 7: privilege, failover hold, life cycle (R373). -/
def privilegeCheck (o : OpSpec) (p : Packet) (s : State) : Check :=
  firstFail [
    need (!o.auth || (sessionOf s (sess p)).authenticated) (denied 0),
    need (!inHold s || holdAllows o.code.toNat) (denied 2),
    need (!o.lockedOut p s) (locked (lifeState s))]

/-- Opcodes that MIRROR does not carry: session opcodes, privileged ones and TWIN_* (R500).
(DESIGN CHOICE, log entry 137.) -/
def mirrorable (o : OpSpec) : Bool :=
  let c := o.code.toNat
  !o.auth && decide (0x0100 ≤ c) && !decide (0xD000 ≤ c ∧ c < 0xE000)

/-- A MIRROR packet over 7,936 bytes, or of an opcode that is not mirrored, is BAD_PARAM (R500).
(DEDUCED, log entry 134.) -/
def mirrorCheck (o : OpSpec) (p : Packet) : Check :=
  need (!mirrorFlag p || (mirrorable o && decide (p.params.length + 36 ≤ 7936))) badHeader

/-- Checks 6 to 8, BUSY aside. -/
def opcodeChecks (o : OpSpec) (p : Packet) (s : State) : Check :=
  firstFail [privilegeCheck o p s, mirrorCheck o p, o.checks p s]

/-! ## BUSY (R375, R385) -/

/-- How many commands of an opcode wait in the work queue. -/
def queuedOf (s : State) (code : Nat) : Nat :=
  (s.cmd.workQueue.filter (fun h => h.opcode.toNat == code)).length

/-- The opcode's own limit is reached (R385). -/
def overLimit (o : OpSpec) (s : State) : Bool :=
  match o.code.toNat with
  | 0xB004 => decide (8 ≤ queuedOf s 0xB004)
  | 0x8003 => decide (16 ≤ queuedOf s 0x8003)
  | 0x9003 => decide (16 ≤ queuedOf s 0x9003)
  | 0xB002 => s.store.writes.any (fun w => match w.reply with | some r => r.opcode == 0xB002 | none => false)
  | 0xB006 => s.store.writes.any (fun w => match w.reply with | some r => r.opcode == 0xB006 | none => false)
  | _ => o.cls == 3 && decide (8 ≤ (s.cmd.workQueue.filter (fun h => h.body.cls == 3)).length)

/-- A BULK or DIAG command is answered BUSY (R375). (DEDUCED, log entry 7.) -/
def busyNow (o : OpSpec) (s : State) : Bool :=
  (o.cls == 2 || o.cls == 3) && (decide (64 < s.cmd.workQueue.length + 16) || overLimit o s)

/-- The BUSY hint, 1 to 65,535 µs: the Curator's estimate, a free value (R375).
(DESIGN CHOICE, log entry 10.) -/
def busyHint (s : State) : Nat × State :=
  let (n, s) := drawBelow 65535 s
  (n + 1, s)

/-- Answer BUSY: the stream stands under the hint until it has elapsed (594 ticks a µs).
(DESIGN CHOICE, log entry 10.) -/
def answerBusy (h : Reply) (p : Packet) (s : State) : State :=
  let (hint, s) := busyHint s
  let s :=
    if sess p = 0 then s
    else
      let x := sessionOf s (sess p)
      let t := streamOf x p.cls.toNat
      putSession s (sess p) (putStream x p.cls.toNat
        { t with busy := some (hint, s.time.count + BitVec.ofNat 64 (594 * hint)) })
  sendReply (firstReply h (busy hint)) s

/-! ## Execution -/

/-- Take a packet out of the queues in which it has waited (R161, R374). -/
def takeFromQueues (h : HostPacket) (s : State) : State :=
  { s with cmd := { s.cmd with workQueue := s.cmd.workQueue.erase h, takeQueue := s.cmd.takeQueue.erase h } }

/-- Consume the sequence of a stream (R367). -/
def consumeSeq (p : Packet) (s : State) : State :=
  let x := sessionOf s (sess p)
  let t := streamOf x p.cls.toNat
  putSession s (sess p) (putStream x p.cls.toNat
    { t with expected := t.expected + 1, taken := some p.seq, busy := none })

/-- Forward an accepted command to the partner; TWIN_SEQ takes the place of its sequence (R500).
(DEDUCED, log entry 128.) -/
def forwardMirror (o : OpSpec) (p : Packet) (a : Answer) (s : State) : State :=
  if s.twin.pair = .paired then
    let n := s.twin.txSeq + 1
    let q := { p with target := if p.target = 0 then a.hang else p.target, seq := n }
    let q := { q with crc := crc32c (packetBody o.code q) }
    let t := s.twin
    let m : Mirrored := { twinSeq := n, status := a.status, hang := a.hang }
    let t := { t with txSeq := n, mirrored := sat32 t.mirrored 1, awaiting := t.awaiting ++ [m] }
    let s := { s with twin := t }
    sendTwin 1 (packetBytes { opcode := o.code, body := q }) s
  else
    note 0x10 4 { s with twin := { s.twin with mirrorDropped := sat32 s.twin.mirrorDropped 1 } }

/-- An answer that means that the command has been accepted. -/
def isAccepted (a : Answer) : Bool := a.status == 0 || a.status == 1 || a.status == 0x0101

/-- Mirror a command whose own checks passed. -/
def mirrorAfter (o : OpSpec) (p : Packet) (a : Option Answer) (s : State) : State :=
  if mirrorFlag p then
    match a with
    | some a => if isAccepted a then forwardMirror o p a s else s
    | none => forwardMirror o p (done []) s
  else s

/-- Send the reply of an executed command: in its stream's order, or at once where it has none.
(DEDUCED, log entry 8.) -/
def answerCommand (o : OpSpec) (h : Reply) (p : Packet) (a : Option Answer) (s : State) : State :=
  if o.rule = .names ∨ sess p = 0 ∨ (sessionOf s (sess p)).isOpen = false then
    match a with | some a => sendReply (firstReply h a) s | none => s
  else oweReply (sess p) p.cls.toNat p.seq (a.map (firstReply h)) s

/-- Checks 6 to 8, then the effect, the mirror and the reply.
(DEDUCED, log entry 7; DEDUCED, log entry 8.) -/
def executeCommand (o : OpSpec) (consume : Bool) (p : Packet) (s : State) : State :=
  let h := replyHeader o.code p
  match classCheck o p with
  | some a => answerCommand o h p (some a) (if consume then consumeSeq p s else s)
  | none =>
    if busyNow o s then answerBusy h p s
    else
      let s := if consume then consumeSeq p s else s
      match opcodeChecks o p s with
      | some a => answerCommand o h p (some a) s
      | none =>
        let (s, a) := o.effect h p s
        answerCommand o h p a (mirrorAfter o p a s)

/-! ## Reading rings, trapped and twin commands (R356 to R361, R374) -/

/-- The opcodes of R384. -/
def isOpcode (c : Nat) : Bool :=
  let upTo := fun (base last : Nat) => decide (base + 1 ≤ c ∧ c ≤ base + last)
  upTo 0x0000 7 || upTo 0x1000 4 || c == 0x1011 || c == 0x1012 || c == 0x1020 || upTo 0x1100 4 || upTo 0x2000 5
    || upTo 0x2100 3 || upTo 0x3000 4 || upTo 0x4000 9 || upTo 0x5000 5 || upTo 0x6000 5 || upTo 0x7000 7
    || upTo 0x8000 6 || upTo 0x9000 5 || upTo 0xA000 6 || upTo 0xB000 9 || upTo 0xC000 4 || upTo 0xD000 4
    || upTo 0xE000 4

/-- How a packet of an opcode outside R384 is checked; it is never executed. -/
def unknownSpec (h : HostPacket) : OpSpec :=
  { code := h.opcode, cls := h.body.cls.toNat, lengthOk := fun _ => true, checks := fun _ _ => none
    effect := fun _ _ s => (s, none) }

/-- A packet of an opcode outside R384 is answered BAD_OPCODE, after checks 1 to 5 (R373). -/
def answerUnknown (h : HostPacket) (s : State) : State :=
  let o := unknownSpec h
  let head := replyHeader h.opcode h.body
  match frontGate o h.body s with
  | .reject a => sendReply (firstReply head a) s
  | .replay r => sendReply r s
  | .go consume =>
    answerCommand o head h.body (some (badOpcode 0)) (if consume then consumeSeq h.body s else s)
  | .mirrored _ => s

/-- Take a packet into the take gate, by its ring or, on other transports, its class; or into the work
queue. -/
def takeIn (h : HostPacket) (s : State) : State :=
  if !isOpcode h.opcode.toNat then answerUnknown h s
  else if (if h.body.endpoint = .pcie then h.body.ring.val == 0 else h.body.cls == 0) then
    { s with cmd := { s.cmd with takeQueue := s.cmd.takeQueue ++ [h] } }
  else { s with cmd := { s.cmd with workQueue := s.cmd.workQueue ++ [h] } }

/-- A place of the work queue is free (R374). -/
def workRoom (s : State) : Bool := decide (s.cmd.workQueue.length < 64)

/-- A place of the take gate's queue for UDP and twin packets is free (R161). -/
def gateRoom (s : State) : Bool :=
  decide ((s.cmd.takeQueue.filter (fun h => h.body.endpoint != .pcie)).length < 256)

def ringOf (s : State) (c : Nat) : Ring :=
  match c with | 0 => s.cmd.ring0 | 1 => s.cmd.ring1 | 2 => s.cmd.ring2 | _ => s.cmd.ring3

def putRing (s : State) (c : Nat) (r : Ring) : State :=
  match c with
  | 0 => { s with cmd := { s.cmd with ring0 := r } }
  | 1 => { s with cmd := { s.cmd with ring1 := r } }
  | 2 => { s with cmd := { s.cmd with ring2 := r } }
  | _ => { s with cmd := { s.cmd with ring3 := r } }

/-- A ring halts (R359). -/
def haltRing (c reason : Nat) (s : State) : State :=
  raiseIrq irqRingError (putRing s c { ringOf s c with halted := true, haltReason := reason })

/-- Bytes of a packet or reply of n bytes in its ring (R358). -/
def ringUnits (n : Nat) : Nat := (n + 63) / 64 * 64

/-- A SIZE that enables a ring (R357). (DEDUCED, log entry 12.) -/
def ringSizeOk (n : Nat) : Bool :=
  decide (4096 ≤ n ∧ n ≤ 1048576) && (List.range 9).any (fun k => n == 4096 * 2 ^ k)

/-- The device can read a packet from ring c now (R359, R360, R374, R376, R511).
(DEDUCED, log entry 11.) -/
def canReadRing (s : State) (c : Nat) : Bool :=
  let r := ringOf s c
  !r.halted && ringSizeOk r.size.toNat && !r.unread.isEmpty && decide (s.cmd.waiting.length < 256)
    && (if c = 0 then s.chip.dataPlaneReady else s.chip.curatorServing && workRoom s)

/-- Read one packet of ring c: HEAD goes past it, or the ring halts on it (R358, R359). -/
def readPacket (c : Nat) (s : State) : State :=
  let r := ringOf s c
  match r.unread with
  | [] => s
  | h :: rest =>
    let n := ringUnits (36 + h.body.paramLength.toNat)
    let size := r.size.toNat
    if 32768 < h.body.paramLength.toNat ∨ (r.tail.toNat + size - r.head.toNat) % size < n then haltRing c 2 s
    else
      takeIn h (putRing s c { r with head := BitVec.ofNat 32 ((r.head.toNat + n) % size), unread := rest })

/-- Read ring c, at most n packets, while it can be read. -/
def readRing (c : Nat) : Nat → State → State
  | 0, s => s
  | n + 1, s => if canReadRing s c then readRing c n (readPacket c s) else s

/-- No CONTROL command waits in ring 1 or in a trap queue (R374). (DEDUCED, log entry 11.) -/
def noControlWaits (s : State) : Bool :=
  !canReadRing s 1 && s.pkt.trapQueues.all (fun e => e.2.all (fun t => !t.command))

/-- Read rings 2 and 3 in turn, beginning with ring c (R374). (DEDUCED, log entry 11.) -/
def readBulk : Nat → Nat → State → State
  | 0, _, s => s
  | n + 1, c, s =>
    if canReadRing s c then readBulk n (5 - c) (readPacket c s)
    else if canReadRing s (5 - c) then readBulk n c (readPacket (5 - c) s)
    else s

/-- The device reads what it can of the four rings. (DEDUCED, log entry 11.) -/
def readRings (s : State) : State :=
  let s := readRing 0 (ringOf s 0).unread.length s
  let s := readRing 1 (ringOf s 1).unread.length s
  if noControlWaits s then readBulk ((ringOf s 2).unread.length + (ringOf s 3).unread.length) 2 s else s

/-- Class TAKE is served while the data plane runs; every other class while the Curator serves
(R162, R376, R511). -/
def serves (o : OpSpec) (s : State) : Bool :=
  if o.cls = 0 then s.chip.dataPlaneReady else s.chip.curatorServing

/-- A mirrored packet as it is executed here: its own mirroring and its completion do not go on.
(DEDUCED, log entry 128.) -/
def mirroredPacket (twinSeq : Word) (p : Packet) : Packet := { p with endpoint := .twin twinSeq, flags := 0, seq := twinSeq }

/-- Execute a mirrored command, without session or sequence checks, and reply (R500). -/
def executeMirrored (o : OpSpec) (twinSeq : Word) (p : Packet) (s : State) : State :=
  let q := mirroredPacket twinSeq p
  let h := { replyHeader o.code q with mirrored := true }
  match firstFail [formChecks o p, classCheck o q, opcodeChecks o q s] with
  | some a => sendReply (firstReply h a) s
  | none =>
    let (s, a) := o.effect h q s
    match a with | some a => sendReply (firstReply h a) s | none => s

/-- Checks 1 to 8 and what they lead to. -/
def handleCommand (o : OpSpec) (p : Packet) (s : State) : State :=
  match frontGate o p s with
  | .reject a => sendReply (firstReply (replyHeader o.code p) a) s
  | .replay r => sendReply r s
  | .go consume => executeCommand o consume p s
  | .mirrored twinSeq => executeMirrored o twinSeq p s

/-- A command packet reaches the take gate or the Curator (R373); one that the twin has forwarded waited in the take
gate's queue (R161, R500). While its server does not run it stays where it is (R376). Once it is handled, the rings are
read on. -/
def runHost (o : OpSpec) (p : Packet) (s : State) : State :=
  if !serves o s then s
  else readRings (handleCommand o p (takeFromQueues { opcode := o.code, body := p } s))

/-- A command whose length is fixed. -/
def fixedLength (n : Nat) (p : Packet) : Bool := p.params.length == n

/-- A command whose effect answers at once. -/
def atOnce (f : Packet → State → State × Answer) : Reply → Packet → State → State × Option Answer :=
  fun _ p s => let (s, a) := f p s; (s, some a)

end Sys2Proof.Machine
end

