-- ==== Sys2Proof/Machine/Keys.lean ====
section
/-! DEFINITION. Keys.lean: the root in use, the derived keys, the key slots and their checks, and
the store bank that holds them (R446 to R456, R464 to R471). -/

namespace Sys2Proof.Machine

/-- The root that this start has, confirmed or substituted (R446, R450). -/
def rootKey (s : State) : Option (BitVec 256) :=
  match s.strong.root with
  | .production k => some k
  | .test k => some k
  | _ => none

/-- This start uses the test root (R450). -/
def underTestRoot (s : State) : Bool := match s.strong.root with | .test _ => true | _ => false

/-- Bank a is newer than bank b (R467). -/
def newerSeq (a b : Word) : Bool := later a b

/-- The newest valid bank of the running start: of the debug store under the test root, else of the
production store (R467, R468, R471). -/
def currentBank (s : State) : Option Bank :=
  if underTestRoot s then
    (if s.store.debugNewB then s.store.debugB else s.store.debugA)
  else if s.store.noBank then none
  else if s.store.selectedB then s.store.bankB else s.store.bankA

/-- The predefined key of the debug record: slot 0 holds K_DBG with policy SESSION (R451). -/
def debugKey (s : State) : Bytes :=
  match rootKey s with | some k => Config.kdf k "DEBUG-SESSION" | none => []

/-- The slot records in use. -/
def slotRecords (s : State) : Tab KeySlot :=
  match currentBank s with
  | some b => b.keySlots.getD []
  | none => []

/-- Bytes 0 to 79 of a slot record, which the TAG covers (R455). -/
def slotBytes (n : Nat) (k : KeySlot) : Bytes :=
  leBytes 1 n ++ [0] ++ leBytes 2 k.policy.toNat ++ leBytes 2 k.wrapped.length ++ [0, 0]
    ++ k.wrapped ++ List.replicate (72 - k.wrapped.length) 0

/-- What a check of slot n finds: its state, and its policy and key when valid (R455). -/
def inspectSlot (s : State) (n : Nat) : SlotState × BitVec 16 × Bytes :=
  match rootKey s with
  | none => (.empty, 0, [])
  | some root =>
    match tfind (slotRecords s) n with
    | none => if underTestRoot s ∧ n = 0 then (.valid, 1, debugKey s) else (.empty, 0, [])
    | some k =>
      if Config.cmac (Config.kdf root "SLOT-TAG") (slotBytes n k) = k.tag then
        match Config.keyUnwrap (Config.kdf root "SLOT-WRAP") k.wrapped with
        | some key => (.valid, k.policy, key)
        | none => (.bad, k.policy, [])
      else (.bad, k.policy, [])

/-- The state of slot n at its last check. -/
def slotState (s : State) (n : Nat) : SlotState := tget (fun _ => .empty) s.strong.slotStates n

/-- Check slot n: its state is kept, and a slot found BAD raises the bad-slot source (R455). -/
def checkSlot (n : Nat) (s : State) : State :=
  let st := (inspectSlot s n).1
  let old := slotState s n
  let s := { s with strong := { s.strong with slotStates := tset (fun _ => .empty) s.strong.slotStates n st } }
  if st = .bad ∧ old ≠ .bad then note 0x0E 2 s else s

/-- Check slots 0 to n − 1. (DEDUCED, log entry 125.) -/
def checkSlots : Nat → State → State
  | 0, s => s
  | n + 1, s => checkSlot n (checkSlots n s)

/-- Use bits of a POLICY (R453). -/
def hasSession (p : BitVec 16) : Bool := p.getLsbD 0
def hasAttest (p : BitVec 16) : Bool := p.getLsbD 1
def hasWrap (p : BitVec 16) : Bool := p.getLsbD 2
/-- Slot whose key wrapped this key (R453). -/
def policyKek (p : BitVec 16) : Nat := (p.extractLsb' 8 5).toNat

/-- Bytes of a chunk of an image slot; the factory image is not held as chunks. -/
def chunkOf (s : State) (slot i : Nat) : Option Bytes := tfind s.store.chunks (slot * 6144 + i)

/-- A field of the catalogue of a slot's image, or none where the slot holds the image that the
device was shipped with (R472). -/
def catalogueField (s : State) (slot off n : Nat) : Option Nat :=
  (chunkOf s slot 0).map (fun b => field b off n)

/-- CATALOGUE_VERSION of the running image (R389, R472). -/
def catalogueVersion (s : State) : Nat :=
  (catalogueField s s.store.bootSlot 8 4).getD Config.shippedVersion.toNat

/-- Settings format of an image slot (R472). -/
def settingsFormat (s : State) (slot : Nat) : Nat :=
  (catalogueField s slot 16 2).getD Config.shippedSettingsFormat

/-- Security version of an image slot (R472). -/
def securityVersion (s : State) (slot : Nat) : Nat :=
  (catalogueField s slot 12 4).getD Config.shippedSecurityVersion

end Sys2Proof.Machine
end

