-- ==== Sys2Proof/Machine/Segments.lean ====
section
/-! DEFINITION. Segments.lean: container segments and what they carry: headers, line samples, audio
periods and ancillary records (R83 to R88). -/

namespace Sys2Proof.Machine

/-! ## Words and bits -/

/-- The bits of words, bit 0 first (R53). -/
def wordBits (ws : List Word64) : List Bool := ws.flatMap (fun w => bitsOf 64 w.toNat)

/-- n words from bits. -/
def bitWords : Nat → List Bool → List Word64
  | 0, _ => []
  | n + 1, b => BitVec.ofNat 64 (natOfBits (b.take 64)) :: bitWords n (b.drop 64)

/-- The bytes of words, least significant first, and back. -/
def wordBytes (ws : List Word64) : Bytes := ws.flatMap (fun w => leBytes 8 w.toNat)
def bytesWords : Nat → Bytes → List Word64
  | 0, _ => []
  | n + 1, b => BitVec.ofNat 64 (leNat (b.take 8)) :: bytesWords n (b.drop 8)

/-- Exactly n words: cut, or zeros added. -/
def padWords (n : Nat) (ws : List Word64) : List Word64 := (ws ++ List.replicate n 0).take n

/-- A list cut into pieces of n; at most `fuel` pieces. -/
def pieces {α : Type} (n : Nat) : Nat → List α → List (List α)
  | 0, _ => []
  | fuel + 1, xs => if xs.isEmpty then [] else xs.take n :: pieces n fuel (xs.drop n)

/-- Ten-bit words as bytes, most significant bit first, the last byte filled with zeros; and back (R195). -/
def packTens (ws : List (BitVec 10)) : Bytes :=
  let bits := ws.flatMap (fun w => (bitsOf 10 w.toNat).reverse)
  (pieces 8 bits.length bits).map (fun p =>
    BitVec.ofNat 8 (natOfBits (p ++ List.replicate (8 - p.length) false).reverse))
def unpackTens (b : Bytes) : List (BitVec 10) :=
  let bits := b.flatMap (fun x => (bitsOf 8 x.toNat).reverse)
  ((pieces 10 bits.length bits).filter (fun p => p.length == 10)).map (fun p => BitVec.ofNat 10 (natOfBits p.reverse))

/-! ## Segments (R83, R84) -/

/-- The fields of a segment header. -/
structure SegHeader where
  type : Nat := 0
  bond : Nat := 0
  member : Nat := 0
  words : Nat := 0
  field : Bool := false
  cont : Bool := false
  line : Nat := 0
  deriving DecidableEq, Repr

/-- The header word (R83). -/
def SegHeader.word (h : SegHeader) : Word64 :=
  BitVec.ofNat 64 (h.type + h.bond * 2 ^ 4 + h.member * 2 ^ 6 + h.words * 2 ^ 8 + bit h.field * 2 ^ 13
    + bit h.cont * 2 ^ 14 + h.line % 8192 * 2 ^ 16)

/-- Read a header word (R83). -/
def readSegHeader (w : Word64) : SegHeader :=
  { type := (w.extractLsb' 0 4).toNat, bond := (w.extractLsb' 4 2).toNat, member := (w.extractLsb' 6 2).toNat
    words := (w.extractLsb' 8 5).toNat, field := w.getLsbD 13, cont := w.getLsbD 14
    line := (w.extractLsb' 16 13).toNat }

/-- The 32 words of a segment with up to 31 data words. -/
def segment (h : SegHeader) (data : List Word64) : List Word64 :=
  ({ h with words := data.length } : SegHeader).word :: padWords 31 data

/-- Segments over any number of data words; CONT is set in all but the first where `chained`. -/
def segments (h : SegHeader) (chained : Bool) (data : List Word64) : List (List Word64) :=
  ((pieces 31 data.length data).zipIdx).map (fun p => segment { h with cont := chained && p.2 != 0 } p.1)

/-! ## Line samples (R85) -/

/-- Black of sample t of a line, in the order Cb, Y, Cr, Y (R91, R127). -/
def blackSample (t : Nat) : BitVec 10 := if t % 2 = 0 then 512 else 64

/-- A black line of n samples. -/
def blackLine (n : Nat) : List (BitVec 10) := (List.range n).map blackSample

/-- Samples of an active line of a format: two for each pixel. -/
def lineSampleCount (fmt : Nat) : Nat := 2 * formatWidth fmt

/-- Data words that a line of n samples fills. -/
def lineWordCount (n : Nat) : Nat := (10 * n + 63) / 64

/-- The data words of a line: samples least significant bit first. -/
def lineWords (xs : List (BitVec 10)) : List Word64 :=
  bitWords (lineWordCount xs.length) (xs.flatMap (fun x => bitsOf 10 x.toNat))

/-- Bits of words of which some are lost. -/
def seenBits (ws : List (Option Word64)) : List (Option Bool) :=
  ws.flatMap (fun w => match w with
    | some w => (bitsOf 64 w.toNat).map some
    | none => List.replicate 64 none)

/-- n samples of a line from sample t on; black where a bit is lost (R91). -/
def seenSamples : Nat → Nat → List (Option Bool) → List (BitVec 10)
  | 0, _, _ => []
  | n + 1, t, bs =>
    let own := bs.take 10
    (if own.length = 10 ∧ own.all Option.isSome then BitVec.ofNat 10 (natOfBits (own.map (fun b => b.getD false)))
      else blackSample t) :: seenSamples n (t + 1) (bs.drop 10)

/-! ## Audio periods (R86) -/

/-- The 8 data words of one period of 16 channels. -/
def audioWords (ch : List Word) : List Word64 :=
  (List.range 8).map (fun k => (ch.getD (2 * k + 1) 0) ++ (ch.getD (2 * k) 0))

/-- The 16 channels of one period. (DEDUCED, log entry 185.) -/
def readAudioWords (ws : List Word64) : List Word :=
  (List.range 8).flatMap (fun k =>
    let w := ws.getD k 0
    [w.extractLsb' 0 32, w.extractLsb' 32 32])

/-! ## Ancillary records (R87) -/

/-- Words of a record with n user data words, the header included. -/
def recordLength (n : Nat) : Nat := 1 + (n + 5) / 6

/-- A record's words: header, then six 10-bit words to a word. -/
def ancRecord (p : AncPacket) : List Word64 :=
  let h : Word64 := BitVec.ofNat 64 (p.did.toNat + p.sdid.toNat * 2 ^ 10 + p.data.length % 256 * 2 ^ 20
    + bit p.cStream * 2 ^ 28 + bit p.hanc * 2 ^ 29)
  h :: (pieces 6 p.data.length p.data).map (fun six =>
    BitVec.ofNat 64 (natOfBits (six.flatMap (fun x => bitsOf 10 x.toNat))))

/-- Words of the record that a header word begins. -/
def recordWords (h : Word64) : Nat := recordLength (h.extractLsb' 20 8).toNat

/-- Read a whole record of a line. -/
def readRecord (line : Nat) (ws : List Word64) : AncPacket :=
  let h := ws.headD 0
  let n := (h.extractLsb' 20 8).toNat
  let udw := (ws.drop 1).flatMap (fun w => (List.range 6).map (fun k => w.extractLsb' (10 * k) 10))
  { did := h.extractLsb' 0 8, sdid := h.extractLsb' 10 8, data := udw.take n, line := line
    cStream := h.getLsbD 28, hanc := h.getLsbD 29 }

/-- The whole records of a line's words, and the words of one that continues. -/
def readRecords (line : Nat) : Nat → List Word64 → List AncPacket × List Word64
  | 0, ws => ([], ws)
  | _ + 1, [] => ([], [])
  | fuel + 1, h :: rest =>
    let n := recordWords h
    if (h :: rest).length < n then ([], h :: rest)
    else
      let (ps, left) := readRecords line fuel ((h :: rest).drop n)
      (readRecord line ((h :: rest).take n) :: ps, left)

/-! ## Frame identity (R88) -/

/-- The two data words of a FRAME_START. -/
def frameStartWords (pid : Word) (family : Nat) (hang : Word) : List Word64 :=
  [BitVec.ofNat 64 (pid.toNat + family % 4 * 2 ^ 32), BitVec.ofNat 64 hang.toNat]

end Sys2Proof.Machine
end

