-- ==== Sys2Proof/Machine/Containers.lean ====
section
/-! DEFINITION. Containers.lean: bonds, the lanes that carry containers, pictures of formats, and lines that a container
destination queues (R4, R81 to R86, R90, R94, R165, R169). -/

namespace Sys2Proof.Machine

/-! ## Bonds (R165) -/

/-- The bond of which a number is a member: its base and size; itself and 1 when it is in none. -/
def bondIn (bond : Nat → Nat) (n : Nat) : Nat × Nat :=
  if bond (n - n % 4) = 4 then (n - n % 4, 4)
  else if bond (n - n % 2) = 2 then (n - n % 2, 2)
  else (n, 1)

def destBond (s : State) (d : Nat) : Nat × Nat := bondIn (fun k => (destCfg s k).bond) d
def sourceBond (s : State) (n : Nat) : Nat × Nat := bondIn (fun k => (sourceCfg s k).bond) n

/-! ## Lanes and containers (R4, R81, R94) -/

/-- Containers that a rate carries (R81). -/
def containersAt (rate : Nat) : Nat := match rate with | 3 => 5 | 2 => 2 | 1 => 1 | _ => 0

/-- The plane pair of a fabric lane: its number 8g + k, primary and secondary lane (R94). -/
def pairWith (s : State) (f : Nat) : Option (Nat × Nat × Nat) :=
  s.set.pairs.findSome? (fun e =>
    match e.2.lanes with
    | some (a, b) =>
      let g := e.1 / 8
      if f = 16 * g + a ∨ f = 16 * g + b then some (e.1, 16 * g + a, 16 * g + b) else none
    | none => none)

/-- A lane is LOCKED (R61). -/
def laneLocked (s : State) (l : Nat) : Bool := (laneOf s l).state == .locked

/-- The lanes that carry the containers of lane f: itself, or both of the pair whose primary it is. -/
def carriers (s : State) (f : Nat) : List Nat :=
  match pairWith s f with
  | some (_, a, b) => if f = a then [a, b] else [f]
  | none => [f]

/-- Containers of lane f that a LOCKED lane carries now (R81, R94). -/
def carriedContainers (s : State) (f : Nat) : Nat :=
  (((carriers s f).filter (laneLocked s)).map (fun g => containersAt (laneOf s g).rate)).foldl max 0

/-! ## Formats -/

/-- Total lines of a frame of a format. -/
def formatTotalLines (f : Nat) : Nat :=
  match (formatLines f).1 with
  | 486 => 525 | 576 => 625 | 720 => 750 | 1080 => 1125 | _ => 2250

/-- Ticks of a frame period of a format. -/
def frameTicks (f : Nat) : Nat :=
  let p := periodTicks ((formatRate f).getD 0)
  if formatDouble f then p / 2 else p

/-- Lines of a field, or of the frame for a progressive format (R83). -/
def fieldLines (f : Nat) : Nat :=
  let (n, scan) := formatLines f
  if scan = 0 then n else (n + 1) / 2

/-- Active lines of a format in order: of the second field or not, and number (R83). -/
def pictureLines (f : Nat) : List (Bool × Nat) :=
  let (n, scan) := formatLines f
  if scan = 0 then (List.range n).map (fun k => (false, k + 1))
  else (List.range ((n + 1) / 2)).map (fun k => (false, k + 1)) ++ (List.range (n / 2)).map (fun k => (true, k + 1))

/-- The black picture of a format (R127, R169). -/
def blackPicture (f : Nat) : List PicLine :=
  (pictureLines f).map (fun l => { second := l.1, line := l.2, samples := blackLine (lineSampleCount f) })

/-! ## Container destinations (R80 to R91) -/

def txOf (s : State) (d : Nat) : TxContainer := tget (fun _ => {}) s.fab.tx d
def putTx (s : State) (d : Nat) (v : TxContainer) : State :=
  { s with fab := { s.fab with tx := tset (fun _ => {}) s.fab.tx d v } }

/-- Container destination d is carried by a LOCKED lane (R81). -/
def carriesDest (s : State) (d : Nat) : Bool := d < 1280 && decide (d % 5 < carriedContainers s (d / 5))

/-- BOND code of a bond size (R83). -/
def bondCode (n : Nat) : Nat := if n = 4 then 2 else if n = 2 then 1 else 0

/-- The segment header fields that name a destination's place in its bond (R83, R90). -/
def destHeader (s : State) (d : Nat) : SegHeader :=
  let (b, k) := destBond s d
  { bond := bondCode k, member := d - b }

/-- Queue segments at a container destination. -/
def pushSegments (d : Nat) (gs : List (List Word64)) (s : State) : State :=
  let t := txOf s d
  putTx s d { t with queue := t.queue ++ gs }

/-- Queue a line of active picture, of those that the bond member carries; it is the line in progress of member 0 too
(R85, R86, R90). -/
def pushLine (d : Nat) (l : PicLine) (s : State) : State :=
  let (b, k) := destBond s d
  let s := putTx s b { txOf s b with line := l.line, second := l.second }
  if l.line % k = d - b then
    let h : SegHeader := { destHeader s d with type := 1, field := l.second, line := l.line }
    pushSegments d (segments h false (lineWords l.samples)) s
  else s

/-- The lines of a picture after a line of it, the one in progress. -/
def linesAfter (second : Bool) (line : Nat) (picture : List PicLine) : List PicLine :=
  if line = 0 then picture
  else ((picture.dropWhile (fun l => !(l.second == second && l.line == line))).drop 1)

/-- A container destination that applies BLACK sends black for the rest of the frame in progress; under MUTE it sends no
more of it (R91, R169). -/
def blackRest (d : Nat) (s : State) : State :=
  let t := txOf s d
  let at' := txOf s (destBond s d).1
  if !carriesDest s d || !t.started || (destCfg s d).fallback == 2 then s
  else (linesAfter at'.second at'.line (blackPicture (Config.formatOfPid t.pid))).foldl (fun s l => pushLine d l s) s

end Sys2Proof.Machine
end

