-- ==== Sys2Proof/Machine/MatrixOps.lean ====
section
/-! DEFINITION. MatrixOps.lean: what sources and destinations are, how a destination judges its
source, fallback and protection, staging entries, and take accounting (R163 to R175, R180). -/

namespace Sys2Proof.Machine

/-! ## Sources -/

/-- Video sources and destinations exist below these numbers (R15). -/
def videoSources : Nat := 1792
def videoDests : Nat := 2304
def audioChannels : Nat := 32768

/-- A video destination is a compositor layer; its head and its layer (R308). -/
def isLayerDest (d : Nat) : Bool := decide (1696 ≤ d ∧ d < 2080)
def destHead (d : Nat) : Nat := (d - 1696) / 12
def destLayer (d : Nat) : Nat := (d - 1696) % 12

/-- Family of a video destination: of an SDI output by SDI_OUT_CONFIG, of a compositor layer by
HEAD_CONFIG, of every other destination by DEST_CONFIG (R166, R308). -/
def destFamily (s : State) (d : Nat) : Nat :=
  if 1280 ≤ d ∧ d < 1440 then (sdiOutCfg s (d - 1280)).family
  else if isLayerDest d then (headOf s (destHead d)).cfg.family
  else (destCfg s d).family

/-- Record destination behind a playback source (R391). (DEDUCED, log entry 57.) -/
def playDest (s : State) (n : Nat) : Option Nat :=
  if 1760 ≤ n ∧ n < videoSources then (sourceCfg s n).playSlot.map (fun k => 2080 + k) else none

/-- Format of a source, where one is known. Playback has the format that its record slot carries. -/
def sourceFormat (s : State) (n : Nat) : Option Nat :=
  match playDest s n with
  | some d => match (destOf s .video d).active with | some m => (sourceOf s m).format | none => none
  | none => (sourceOf s n).format

/-- Family of a source (R168). -/
def sourceFamily (s : State) (n : Nat) : Nat :=
  match playDest s n with | some d => destFamily s d | none => (sourceOf s n).family

/-- Frames in a record slot, newest first (R19). -/
def recordOf (s : State) (k : Nat) : List MediaFrame := tget (fun _ => []) s.mtx.records k

/-- The frame that a playback source presents: the one recorded DELAY frames earlier (R391). -/
def playFrame (s : State) (n : Nat) : Option MediaFrame :=
  match playDest s n with
  | some d => (recordOf s (d - 2080))[(sourceCfg s n).delay - 1]?
  | none => none

/-- A source is usable of itself; playback is once the frame that it presents has been recorded.
(DEDUCED, log entry 57.) -/
def ownUsable (s : State) (n : Nat) : Bool :=
  match playDest s n with | some _ => (playFrame s n).isSome | none => (sourceOf s n).usable

/-! ## Bonds (R165) -/

/-- The members of the bond that holds source n, itself included. -/
def bondMembers (s : State) (n : Nat) : List Nat :=
  let (b, k) := sourceBond s n
  (List.range k).map (fun i => b + i)

/-- A source is usable; a bonded one is lost when any member is (R90). -/
def sourceUsable (s : State) (n : Nat) : Bool := (bondMembers s n).all (ownUsable s)

/-! ## Audio runs (R163) -/

/-- Run of a packet transmit slot: of its SDI flow, or of its AUDIO flow (R163). -/
def txSlotRun (s : State) (d : Nat) : Option (Nat × Nat) :=
  let g := (d - 1440) / 16
  let k := (d - 1440) % 16
  let pick := fun (kind : FlowKind) => s.pkt.txFlows.find?
    (fun e => e.1 / 1024 == g && e.2.slot == k && e.2.kind == kind)
  match pick .sdi with
  | some e => some (e.2.chBase, e.2.chCount)
  | none => (pick .audio).map (fun e => (e.2.chBase, e.2.chCount))

/-- Run of a packet receive slot (R163, R197). -/
def rxSlotRun (s : State) (n : Nat) : Option (Nat × Nat) :=
  let g := (n - 1440) / 16
  let k := (n - 1440) % 16
  let pick := fun (kind : FlowKind) => s.pkt.rxFlows.find?
    (fun e => e.1 / 1024 == g && e.2.slot == some k && e.2.kind == kind)
  match pick .sdi with
  | some e => some (e.2.chBase, e.2.chCount)
  | none => (pick .audio).map (fun e => (e.2.chBase, e.2.chCount))

/-- The run that a destination or source has by default (R163). -/
def defaultDestRun (s : State) (d : Nat) : Option (Nat × Nat) :=
  if 1440 ≤ d ∧ d < 1696 then txSlotRun s d else defaultRun d
def defaultSourceRun (s : State) (n : Nat) : Option (Nat × Nat) :=
  if 1440 ≤ n ∧ n < 1696 then rxSlotRun s n else defaultRun n

/-- A run of no channels is no run. -/
def normRun (r : Option (Nat × Nat)) : Option (Nat × Nat) := r.filter (fun x => x.2 != 0)

/-- The audio run of a video destination or source (R163, R391). (DEDUCED, log entry 58.) -/
def destAudio (s : State) (d : Nat) : Option (Nat × Nat) :=
  normRun (match (destCfg s d).run with | some r => some r | none => defaultDestRun s d)
/-- DEDUCED, log entry 58. -/
def sourceAudio (s : State) (n : Nat) : Option (Nat × Nat) :=
  normRun (match (sourceCfg s n).run with | some r => some r | none => defaultSourceRun s n)

/-- A run holds a channel. -/
def runHas (r : Option (Nat × Nat)) (c : Nat) : Bool :=
  match r with | some (b, n) => decide (b ≤ c ∧ c < b + n) | none => false

/-- Two runs share a channel. -/
def runsMeet (a b : Option (Nat × Nat)) : Bool :=
  match a, b with
  | some (x, n), some (y, m) => decide (x < y + m ∧ y < x + n)
  | _, _ => false

/-- Video destinations that can have a run besides by default: those configured and those of
transmit flows. (DEDUCED, log entry 58.) -/
def runCandidates (s : State) : List Nat :=
  s.set.dests.map (fun e => e.1)
    ++ s.pkt.txFlows.map (fun e => 1440 + 16 * (e.1 / 1024) + e.2.slot)

/-- The video destination with which an audio destination channel is associated (R149, R163). -/
def assocDest (s : State) (c : Nat) : Option Nat :=
  let dflt := if c < 20480 then [c / 16] else if c < 23040 then [1280 + (c - 20480) / 16] else []
  (dflt ++ runCandidates s).find? (fun d => runHas (destAudio s d) c)

/-- Audio moves of a run toward a source's run: the k-th channel to the k-th, the rest to none (R164). -/
def runMoves (s : State) (d : Nat) (src : Option Nat) : List (Nat × Option Nat) :=
  match destAudio s d with
  | none => []
  | some (b, n) =>
    let sr := match src with | some x => sourceAudio s x | none => none
    (List.range n).map (fun k =>
      (b + k, match sr with | some (y, m) => if k < m then some (y + k) else none | none => none))

/-! ## What a destination is -/

/-- The edge lane of an SDI source or destination is configured for Ethernet (R5, R45). -/
def laneIsEth (s : State) (e : Nat) : Bool :=
  let m := laneMode s (256 + e)
  m == 3 || m == 4

/-- A lane is a member, but not the base, of a quad-link output (R110). -/
def quadMemberOut (s : State) (e : Nat) : Bool :=
  let i := e % 10
  let base := e - i + (if i < 4 then 0 else 4)
  i < 8 && e != base && (sdiOutCfg s base).links == 4
/-- A lane is a member, but not the base, of a quad-link input (R110). -/
def quadMemberIn (s : State) (e : Nat) : Bool :=
  let i := e % 10
  let base := e - i + (if i < 4 then 0 else 4)
  i < 8 && e != base && (sdiInCfg s base).links == 4

/-- A fabric lane is the secondary of a plane pair (R94). -/
def isSecondary (s : State) (f : Nat) : Bool :=
  s.set.pairs.any (fun e => e.1 / 8 == f / 16 &&
    (match e.2.lanes with | some (_, b) => b == f % 16 | none => false))

/-- A video layer that is the second of a pair of scalers (R315). -/
def pairedAway (s : State) (h l : Nat) : Bool := l % 2 == 1 && (videoLayer s h (l - 1)).cfg.pair

/-- A destination that cannot take a selection (R5, R94, R110, R159, R315). -/
def cannotSelect (s : State) (d : Nat) : Bool :=
  if d < 1280 then isSecondary s (d / 5)
  else if d < 1440 then laneIsEth s (d - 1280) || quadMemberOut s (d - 1280)
  else isLayerDest d && pairedAway s (destHead d) (destLayer d)

/-- The fixed format of an SDI output, or none where it follows its source (R124). -/
def fixedFormat (s : State) (d : Nat) : Option Nat :=
  if 1280 ≤ d ∧ d < 1440 then
    let f := (sdiOutCfg s (d - 1280)).format
    if f = 0xFF then none else some f
  else none

/-- The FORMAT of the VIDEO or SDI flow of a packet transmit slot; of a member of a bond that of its base (R196, R206). -/
def slotFormat (s : State) (d : Nat) : Option Nat :=
  let b := (destBond s d).1
  if 1440 ≤ d ∧ d < 1696 then
    (s.pkt.txFlows.find? (fun e => e.1 / 1024 == (b - 1440) / 16 && e.2.slot == (b - 1440) % 16
      && (e.2.kind == .video || e.2.kind == .sdi))).map (fun e => e.2.format)
  else none

/-- The format that a destination has of its own, whatever it selects: a fixed SDI output's, that of a slot's flow, a
compositor layer's head's (R124, R206, R310). -/
def ownFormat (s : State) (d : Nat) : Option Nat :=
  if isLayerDest d then some (headOf s (destHead d)).cfg.format
  else match fixedFormat s d with | some f => some f | none => slotFormat s d

/-- The format of the last payload ID that a container destination sent (R169). -/
def lastSentFormat (s : State) (d : Nat) : Option Nat :=
  if d < 1280 ∧ (txOf s d).started then some (Config.formatOfPid (txOf s d).pid) else none

/-- The format that a destination carries now. -/
def destFormat (s : State) (d : Nat) : Option Nat :=
  match ownFormat s d with
  | some f => some f
  | none =>
    if 1280 ≤ d ∧ d < 1440 then some (sdiOutOf s (d - 1280)).current
    else match (match (destOf s .video d).active with | some n => sourceFormat s n | none => none) with
      | some f => some f
      | none => lastSentFormat s d

/-- The settings that a video destination has, or will have when the accepted ones that wait for its frame start
apply (R167). -/
def comingDest (s : State) (d : Nat) : DestCfg := ((destRun s d).pendingCfg).getD (destCfg s d)

/-- The state with accepted settings of destinations and sources in force: those that wait for a frame start, and
those among what a restate has staged that a test selects (R163, R165). (DEDUCED, log entry 155.) -/
def settingsView (test : SettingDue → Bool) (s : State) : State :=
  let dest := fun (d : Nat) (c : DestCfg) (t : State) =>
    { t with set := { t.set with dests := tset (fun _ => {}) t.set.dests d c } }
  let t := s.mtx.destRun.foldl (fun t e => match e.2.pendingCfg with | some c => dest e.1 c t | none => t) s
  (s.mtx.settings.filter test).foldl (fun t x => match x.change with
    | .dest d c => dest d c t
    | .source n c => { t with set := { t.set with sources := tset (fun _ => {}) t.set.sources n c } }
    | .lock .. => t) t

/-- RATE of a family. -/
def familyRate (s : State) (n : Nat) : Nat := (familyCfg s n).rate

/-- A format runs at half the rate of a family (R141). -/
def isHalf (s : State) (fam : Nat) (f : Option Nat) : Bool :=
  match f with | some f => halfRate f (familyRate s fam) | none => false

/-- A destination of half the family rate, as it is or as the take leaves it (R146, R153). -/
def halfDest (s : State) (d : Nat) (src : Option Nat) : Bool :=
  let fam := destFamily s d
  match ownFormat s d with
  | some f => isHalf s fam (some f)
  | none => isHalf s fam (destFormat s d) || (match src with | some n => isHalf s fam (sourceFormat s n) | none => false)

/-! ## Judging a source (R168, R170, R124, R126) -/

/-- A format's rate fits a destination: that of its own format, or where it has none its family's (R168, R310). -/
def rateFits (s : State) (d f : Nat) : Bool :=
  match ownFormat s d with
  | some g =>
    (isFormat f || !isLayerDest d) && formatRate f == formatRate g && (isLayerDest d || formatDouble f == formatDouble g)
  | none => fitsRate f (familyRate s (destFamily s d))

/-- The source is of another family than the destination, or of a rate that does not fit it (R168). -/
def familyMismatch (s : State) (d n : Nat) : Bool :=
  sourceUsable s n &&
    (sourceFamily s n != destFamily s d ||
      (match sourceFormat s n with | some f => !rateFits s d f | none => false))

/-- FORMAT_LOCK refuses the source's format (R170). -/
def lockRefuses (s : State) (d n : Nat) : Bool :=
  let c := destCfg s d
  c.formatLock && (match sourceFormat s n with | some f => !samePicture f c.lockFormat | none => false)

/-- An SDI output treats a source as lost: another format than its fixed one, a bonded essence, a source out of
range, or any source while the output is isolated (R124, R126, R136). -/
def sdiRefuses (s : State) (d n : Nat) : Bool :=
  if 1280 ≤ d ∧ d < 1440 then
    let o := sdiOutOf s (d - 1280)
    (match fixedFormat s d, sourceFormat s n with
      | some f, some g => !samePicture f g
      | _, _ => false) || (sourceBond s n).2 != 1 || o.outOf == some n || o.isolated
  else false

/-- The source carries a signal toward the matrices: not an Ethernet lane, not the secondary of a
plane pair (R5, R94, R110). -/
def noSignal (s : State) (n : Nat) : Bool :=
  if n < 1280 then isSecondary s (n / 5)
  else if n < 1440 then laneIsEth s (n - 1280) || quadMemberIn s (n - 1280)
  else false

/-- A compositor layer treats a source as lost: a bonded essence, or a timed source that started outside the window of
the layer frame (R165, R309, R310). -/
def layerRefuses (s : State) (d n : Nat) : Bool :=
  isLayerDest d &&
    ((sourceBond s n).2 != 1 || (videoLayer s (destHead d) (destLayer d)).outOf.contains n)

/-- Destination d treats source n as lost. -/
def lostAt (s : State) (d n : Nat) : Bool :=
  !sourceUsable s n || noSignal s n || familyMismatch s d n || (sourceUsable s n && lockRefuses s d n)
    || sdiRefuses s d n || layerRefuses s d n

/-- The source that a destination shows: its protection source after a switch to it, while its fallback is
PROTECT (R172, R173). -/
def shownSource (s : State) (d : Nat) : Option Nat :=
  let r := destRun s d
  if r.onProtection && (destCfg s d).fallback == 1 then r.protSource else (destOf s .video d).active

/-- The source that a destination shows is lost; none counts as lost (R169). -/
def shownLost (s : State) (d : Nat) : Bool :=
  match shownSource s d with | some n => lostAt s d n | none => true

/-- Count FAMILY_MISMATCH and FORMAT_REFUSED when a judgment begins (R168, R170). -/
def countJudgment (d : Nat) (s : State) : State :=
  let r := destRun s d
  match shownSource s d with
  | none => putDestRun s d { r with mismatch := false, refused := false, judged := none }
  | some n =>
    let mism := familyMismatch s d n
    let ref := sourceUsable s n && lockRefuses s d n
    let s := putDestRun s d { r with mismatch := mism, refused := ref, judged := some n }
    let again := r.judged == some n
    let s := if mism && !(again && r.mismatch) then
        { s with mtx := { s.mtx with familyMismatch := sat32 s.mtx.familyMismatch 1 } } else s
    if ref && !(again && r.refused) then
      note 0x04 7 { s with mtx := { s.mtx with formatRefused := sat32 s.mtx.formatRefused 1 } }
    else s

/-- A destination enters fallback, from now on in the frame in progress too; REPORT raises the fallback source (R166,
R169, R181).
(DEDUCED, log entry 52.) -/
def enterFallback (d : Nat) (s : State) : State :=
  let r := destRun s d
  if r.inFallback then s
  else
    let s := blackRest d (putDestRun s d { r with inFallback := true })
    if (destCfg s d).report then note 0x04 6 s else s

/-- Judge a destination at once: a lost source begins its fallback; a fallback ends only at a switch
point (R169). (DEDUCED, log entry 52.) -/
def judgeDest (d : Nat) (s : State) : State :=
  let s := countJudgment d s
  if shownLost s d then enterFallback d s else s

/-- Judge a destination at its switch point (R169). -/
def judgeAtSwitch (d : Nat) (s : State) : State :=
  let s := countJudgment d s
  if shownLost s d then enterFallback d s else putDestRun s d { destRun s d with inFallback := false }

/-- The video destinations that show a source. -/
def showing (s : State) (n : Nat) : List Nat :=
  (s.mtx.video.filter (fun e => shownSource s e.1 == some n)).map (fun e => e.1)
    ++ (s.mtx.destRun.filter (fun e => (tfind s.mtx.video e.1).isNone && shownSource s e.1 == some n)).map
      (fun e => e.1)

/-- Judge every destination that shows a source, or another member of its bond. -/
def judgeAll (n : Nat) (s : State) : State :=
  ((bondMembers s n).flatMap (showing s)).foldl (fun s d => judgeDest d s) s

/-- A source is lost to every destination at once (R92, R112, R169). -/
def loseSource (n : Nat) (s : State) : State :=
  judgeAll n (putSource s n { sourceOf s n with usable := false })

/-- A source becomes usable with its identity (R92, R112). -/
def gainSource (n fmt fam : Nat) (pid : Word) (s : State) : State :=
  let v := sourceOf s n
  judgeAll n (putSource s n
    { v with usable := true, format := some fmt, family := fam, pid := pid,
             usableSince := if v.usable then v.usableSince else s.time.count })

/-- A source's family or format changes while it stays usable (R168). -/
def retimeSource (n fam : Nat) (s : State) : State :=
  judgeAll n (putSource s n { sourceOf s n with family := fam })

/-! ## Take accounting (R180) -/

/-- Add to the four totals: those COUNTERS_READ returns and the Ledger's own (R180, R442). -/
def addTotals (f : TakeTotals → TakeTotals) (s : State) : State :=
  { s with mtx := { s.mtx with totals := f s.mtx.totals }, led := { s.led with takes := f s.led.takes } }

/-- The counts of one take enter the totals together. -/
def settleCount (c : TakeCount) (s : State) : State :=
  addTotals (fun t =>
    let t := { t with accepted := sat48 t.accepted 1 }
    if c.unstaged then { t with unstaged := sat48 t.unstaged 1 }
    else if c.late then { t with lateHung := sat48 t.lateHung 1 }
    else { t with hung := sat48 t.hung 1 }) s

/-- At the boundary of hang N of a family, its takes' counts enter the totals (R180). -/
def settleHang (fam : Nat) (hang : Word) (s : State) : State :=
  let due := s.mtx.counts.filter (fun c => c.family == fam && c.hang == hang)
  let s := { s with mtx := { s.mtx with
      counts := s.mtx.counts.filter (fun c => !(c.family == fam && c.hang == hang)) } }
  due.foldl (fun s c => settleCount c s) s

/-! ## Staging entries (R151, R156) -/

/-- Every entry of a matrix that is staged or loaded, with its destination. -/
def entriesOf (s : State) (m : Matrix) : List (Nat × Entry) :=
  (destsOf s m).flatMap (fun e => (e.2.staged ++ e.2.shadow.toList).map (fun x => (e.1, x)))

/-- Every entry that is staged or loaded. -/
def allEntries (s : State) : List Entry :=
  ((entriesOf s .video) ++ (entriesOf s .anc) ++ (entriesOf s .audio)).map (fun e => e.2)

/-- Takes that hang at hang N of a family (R155). -/
def takesAt (s : State) (fam : Nat) (hang : Word) : Nat :=
  (((allEntries s).filter (fun e => e.family == fam && e.aim == .hang hang)).map (fun e => e.take)).dedup.length

/-- A matrix and a destination of it. -/
abbrev Place := Matrix × Nat

/-- Takes that keep an entry for hang N of a family when new entries for it replace those of some destinations
(R155, R156). -/
def takesLeft (s : State) (fam : Nat) (hang : Word) (ps : List Place) : Nat :=
  let left := fun (m : Matrix) => ((entriesOf s m).filter (fun e =>
    e.2.family == fam && e.2.aim == .hang hang && !ps.contains (m, e.1))).map (fun e => e.2.take)
  (left .video ++ left .anc ++ left .audio).dedup.length

/-- Takes of one command that keep an entry: all but those that its later takes replace at every destination. -/
def takesKept : List (List Place) → Nat
  | [] => 0
  | ps :: rest => (if !ps.isEmpty && ps.all (fun p => rest.any (fun q => q.contains p)) then 0 else 1) + takesKept rest

/-- A take has lost an entry to an unstaging. When none is left it counts as unstaged: at its hang, or
at once for a HELD take (R180). -/
def unstageCount (e : Entry) (s : State) : State :=
  if (allEntries s).any (fun x => x.take == e.take) then s
  else
    match e.aim with
    | .held _ => addTotals (fun t => { t with accepted := sat48 t.accepted 1, unstaged := sat48 t.unstaged 1 }) s
    | .hang _ =>
      { s with mtx := { s.mtx with
          counts := s.mtx.counts.map (fun c => if c.take = e.take then { c with unstaged := true } else c) } }

/-- Whether an entry is replaced by a take with an aim, of a session (R156). -/
def replaces (aim : Aim) (fam session : Nat) (e : Entry) : Bool :=
  match aim with
  | .hang n => e.aim == .hang n && e.family == fam
  | .held t => e.aim == .held t && e.session == session

/-- A destination has a free or replaceable entry (R156). (DEDUCED, log entry 47.) -/
def hasRoom (v : Dest) (aim : Aim) (fam session : Nat) : Bool :=
  decide (v.staged.length < 2) || v.staged.any (replaces aim fam session)

/-- Stage an entry at a destination, replacing the one with the same aim (R156).
(DEDUCED, log entry 47.) -/
def stageEntry (m : Matrix) (d : Nat) (e : Entry) (s : State) : State :=
  let v := destOf s m d
  let old := v.staged.filter (replaces e.aim e.family e.session)
  let kept := v.staged.filter (fun x => !replaces e.aim e.family e.session x)
  let s := putDest s m d { v with staged := kept ++ [e] }
  old.foldl (fun s x => unstageCount x s) s

/-- Take the entries that a test selects out of a destination; their takes are counted (R158, R167).
(DEDUCED, log entry 47.) -/
def unstageWhere (m : Matrix) (d : Nat) (f : Entry → Bool) (s : State) : State :=
  let v := destOf s m d
  let gone := v.staged.filter f
  if gone.isEmpty then s
  else
    let s := putDest s m d { v with staged := v.staged.filter (fun e => !f e) }
    gone.foldl (fun s x => unstageCount x s) s

/-! ## Completion (R160) -/

/-- A command waits for an entry: the one that staged it, or the HANG_AT that released it. -/
def waitsFor (cmd : Nat) (e : Entry) : Bool := e.cmd == cmd || e.released == some cmd

/-- Completions of commands of which nothing is left to hang: HUNG when a part of the command has
hung; a command whose every entry was unstaged sends none. -/
def sendDue (s : State) : State :=
  let live := allEntries s
  let waits := fun (o : Owed) => live.any (waitsFor o.cmd) || s.mtx.settings.any (fun x => x.cmd == o.cmd)
  let due := s.mtx.owed.filter (fun o => !waits o)
  let s := { s with mtx := { s.mtx with owed := s.mtx.owed.filter waits } }
  due.foldl (fun s o =>
    if o.hung then sendCompletion o.reply (hungAt o.reply.hang o.reply.family) s else s) s

/-- An entry has hung: the commands that wait for it have hung at its hang.
(DEDUCED, log entry 49.) -/
def markHung (e : Entry) (s : State) : State :=
  let hang := match e.aim with | .hang n => n | .held _ => 0
  { s with mtx := { s.mtx with
      owed := s.mtx.owed.map (fun o =>
        if waitsFor o.cmd e && o.fixed then { o with hung := true }
        else if waitsFor o.cmd e then
          { o with hung := true, reply := { o.reply with hang := hang, family := e.family } }
        else o) } }

/-- Owe a completion to a command (R160). (DEDUCED, log entry 49.) -/
def oweCompletion (notify : Bool) (cmd : Nat) (h : Reply) (a : Answer) (s : State) : State :=
  if notify then
    { s with mtx := { s.mtx with owed := s.mtx.owed ++ [{ cmd := cmd, reply := firstReply h a }] } }
  else s

end Sys2Proof.Machine
end

