-- ==== Sys2Proof/Machine/EngineView.lean ====
section
/-! DEFINITION. EngineView.lean: what an engine is and which ports of R334 it holds, as the audio grid and
the hang read it (R288, R334, R343). -/

namespace Sys2Proof.Machine

/-- Kernel IDs of R340. -/
def kernelLabel : Nat := 0x01
def kernelMix : Nat := 0x02
def kernelFade : Nat := 0x03
def kernelLoudness : Nat := 0x04
def kernelProbe : Nat := 0x05
def kernelGenVideo : Nat := 0x06
def kernelGenTone : Nat := 0x07
def kernelAnc : Nat := 0x08
def kernelSpare : Nat := 0xFF

/-- The kernel that an engine runs: a loading engine keeps its old one running (R343). -/
def runningKernel (s : State) (p : Nat) : Option Nat :=
  let e := engineOf s p
  match e.state with
  | .running => some e.cfg.kernel
  | .loading => if e.live then some e.cfg.kernel else none
  | _ => none

/-- An engine runs a kernel. -/
def runsKernel (s : State) (p k : Nat) : Bool := runningKernel s p == some k

/-- The engine that holds the ports of number p (R334, R351). -/
def portHolder (s : State) (p : Nat) : Nat :=
  match s.eng.engines.find? (fun e => e.2.ports == p) with
  | some e => e.1
  | none => p

/-- Engines that run the FADE kernel. (DEDUCED, log entry 82.) -/
def fadeEngines (s : State) : List Nat := (List.range 128).filter (fun p => runsKernel s p kernelFade)

/-- Fade places: 256 per FADE engine (R288). -/
def fadeCapacity (s : State) : Nat := 256 * (fadeEngines s).length

/-- A fade that runs on a channel, on an engine. -/
def fadesOn (s : State) (c p : Nat) : Bool := s.aud.fades.any (fun e => e.1 == c && e.2.engine == p)

/-- Places of an engine that are held: by running fades and by reservations; a channel takes no second one (R288,
R289). -/
def placesHeld (s : State) (p : Nat) : Nat :=
  (s.aud.fades.filter (fun e => e.2.engine == p)).length
    + (s.aud.reservedFades.filter (fun e => e.2 == p && !fadesOn s e.1 p)).length

/-- A FADE engine with a free place: the lowest-numbered one. (DEDUCED, log entry 82.) -/
def freeFadeEngine (s : State) : Option Nat := (fadeEngines s).find? (fun p => decide (placesHeld s p < 256))

/-- The fades of an engine end at once: their channels carry the new source (R288). -/
def abortFades (p : Nat) (s : State) : State :=
  let n := (s.aud.fades.filter (fun e => e.2.engine == p)).length
  let a := s.aud
  let s := { s with aud := { a with
      fades := a.fades.filter (fun e => e.2.engine != p)
      reservedFades := a.reservedFades.filter (fun e => e.2 != p)
      fadeAborted := sat32 a.fadeAborted n } }
  if 0 < n then note 0x09 17 s else s

end Sys2Proof.Machine
end

