-- ==== Sys2Proof/Machine/Take.lean ====
section
/-! DEFINITION. Take.lean: the take gate: TAKE_VIDEO, TAKE_AUDIO, TAKE_ANC, TAKE_BUNDLE,
PROTECT_SET, HANG_AT and UNSTAGE (R151 to R160, R164, R172). -/

namespace Sys2Proof.Machine

/-! ## Entries of a take command (R390) -/

/-- One entry of a take command, as its bytes read. -/
structure TakeReq where
  /-- Matrix in which DEST and SOURCE number. -/
  mx : Matrix
  dest : Nat
  source : Option Nat
  tag : Nat
  kind : TakeKind := .take
  video : Bool := false
  anc : Bool := false
  audio : Bool := false
  fade : Nat := 0
  /-- Reserved bits are zero and the entry's own fields are in range. -/
  formOk : Bool
  deriving DecidableEq, Repr

/-- SWITCH and FADE: 0 with CUT, 2 to 32 ms with V_FADE (R285). -/
def switchOk (sw fade : Nat) : Bool := (sw == 0 && fade == 0) || (sw == 1 && 2 ≤ fade && fade ≤ 32)

def readVideo (b : Bytes) : TakeReq :=
  { mx := .video, dest := field b 0 2, source := numberOrNone (field b 2 2), tag := field b 4 2,
    video := true, formOk := field b 6 2 == 0 }

def readAnc (b : Bytes) : TakeReq :=
  { mx := .anc, dest := field b 0 2, source := numberOrNone (field b 2 2), tag := field b 4 2,
    anc := true, formOk := field b 6 2 == 0 }

def readAudio (b : Bytes) : TakeReq :=
  { mx := .audio, dest := field b 0 2, source := numberOrNone (field b 2 2), tag := field b 6 2,
    audio := true, fade := field b 5 1, formOk := switchOk (field b 4 1) (field b 5 1) }

def readBundle (b : Bytes) : TakeReq :=
  let m := field b 4 1
  let audio := m / 4 % 2 == 1
  { mx := .video, dest := field b 0 2, source := numberOrNone (field b 2 2), tag := field b 8 2,
    video := m % 2 == 1, anc := m / 2 % 2 == 1, audio := audio, fade := field b 6 1,
    formOk := decide (1 ≤ m ∧ m ≤ 7) && field b 7 1 == 0 && field b 10 2 == 0
      && (if audio then switchOk (field b 5 1) (field b 6 1) else field b 5 1 == 0 && field b 6 1 == 0) }

def readProtect (b : Bytes) : TakeReq :=
  { mx := .video, dest := field b 0 2, source := numberOrNone (field b 2 2), tag := field b 8 2,
    kind := .protect (field b 4 1 == 1) (field b 5 1 == 1) (field b 6 2), video := true,
    formOk := field b 4 1 ≤ 1 && field b 5 1 ≤ 1 && field b 6 2 ≤ 720 && field b 10 2 == 0 }

/-! ## What an entry moves (R164, R165) -/

/-- Numbers of a matrix. -/
def matrixDests : Matrix → Nat
  | .audio => audioChannels | _ => videoDests
def matrixSources : Matrix → Nat
  | .audio => audioChannels | _ => videoSources

/-- The members of a bond, each with the member of the source's bond (R165). -/
def bondMoves (s : State) (m : Matrix) (d : Nat) (src : Option Nat) : List (Matrix × Nat × Option Nat) :=
  (List.range (destBond s d).2).map (fun k => (m, d + k, src.map (fun n => n + k)))

/-- Every selection that an entry moves. -/
def movesOf (s : State) (r : TakeReq) : List (Matrix × Nat × Option Nat) :=
  match r.mx with
  | .audio => [(.audio, r.dest, r.source)]
  | _ =>
    (if r.video then bondMoves s .video r.dest r.source else [])
      ++ (if r.anc then bondMoves s .anc r.dest r.source else [])
      ++ (if r.audio then (runMoves s r.dest r.source).map (fun x => (Matrix.audio, x.1, x.2)) else [])

/-! ## Checks of an entry, in the order of the table of R159 -/

/-- A source number is in range; none is. -/
def sourceInRange (m : Matrix) (src : Option Nat) : Bool :=
  match src with | some n => decide (n < matrixSources m) | none => true

/-- Named by its base, on both sides (R165). -/
def namesBase (s : State) (r : TakeReq) : Bool :=
  r.mx == .audio ||
    ((destBond s r.dest).1 == r.dest &&
      (match r.source with | some n => (sourceBond s n).1 == n | none => true))

/-- BAD_PARAM of an entry; TAG is 0 unless TARGET is HELD (R159, R390). -/
def entryForm (s : State) (held : Bool) (r : TakeReq) : Bool :=
  decide (r.dest < matrixDests r.mx) && sourceInRange r.mx r.source && namesBase s r && r.formOk
    && (held || r.tag == 0)

/-- A destination is of the header's family and can take a selection; an audio channel can where the video
destination of its run can (R5, R94, R110, R159). (DEDUCED, log entry 154.) -/
def placeFits (s : State) (family : Nat → Nat) (fam : Nat) (p : Place) : Bool :=
  match (match p.1 with | .audio => assocDest s p.2 | _ => some p.2) with
  | some d => family d == fam && !cannotSelect s d
  | none => true

/-- Every destination that an entry moves, each member of a bond among them, is of the header's family and can take
a selection (R159, R165). -/
def entryFits (s : State) (family : Nat → Nat) (fam : Nat) (r : TakeReq) : Bool :=
  placeFits s family fam (r.mx, r.dest) && (movesOf s r).all (fun x => placeFits s family fam (x.1, x.2.1))

/-- FORMAT_MISMATCH: format lock and bonds (R159, R165, R170). -/
def entryFormat (s : State) (r : TakeReq) : Bool :=
  match r.mx, r.source with
  | .audio, _ => true
  | _, none => true
  | _, some n =>
    (destBond s r.dest).2 == (sourceBond s n).2 && (!r.video || !lockRefuses s r.dest n)

/-- No destination that the entry moves is locked by another session (R171). -/
def entryUnlocked (s : State) (session : Nat) (r : TakeReq) : Bool :=
  (movesOf s r).all (fun x =>
    match (destOf s x.1 x.2.1).lock with | some n => n == session | none => true)

/-! ## Staging a command (R153, R156) -/

/-- What the entries of one command have in common. -/
structure Staging where
  aim : Aim
  family : Nat
  session : Nat
  cmd : Nat
  late : Bool
  deriving DecidableEq, Repr

/-- The staging entry of one move. -/
def entryOf (g : Staging) (r : TakeReq) (take : Nat) (m : Matrix) (src : Option Nat) : Entry :=
  { kind := r.kind, source := src, aim := g.aim, family := g.family, session := g.session, take := take,
    cmd := g.cmd, tag := r.tag, fade := if m = .audio then r.fade else 0, late := g.late,
    withAudio := r.audio && r.mx != .audio }

/-- Stage the moves of one entry; none where a destination has no free entry (R156). -/
def stageMoves (g : Staging) (r : TakeReq) (take : Nat) :
    List (Matrix × Nat × Option Nat) → State → Option State
  | [], s => some s
  | (m, d, src) :: rest, s =>
    if hasRoom (destOf s m d) g.aim g.family g.session then
      stageMoves g r take rest (stageEntry m d (entryOf g r take m src) s)
    else none

/-- Count a take that hangs at a hang (R180); a HELD one is counted when it is released or removed. -/
def countTake (g : Staging) (take : Nat) (s : State) : State :=
  match g.aim with
  | .held _ => s
  | .hang n =>
    { s with mtx := { s.mtx with
        counts := s.mtx.counts ++ [{ take := take, family := g.family, hang := n, late := g.late }] } }

/-- Stage the entries of a command, each as one take; the index of the first without room (R153, R156). -/
def stageReqs (g : Staging) : Nat → List TakeReq → State → Except Nat State
  | _, [], s => .ok s
  | i, r :: rest, s =>
    let take := s.mtx.nextTake
    let g' := match g.aim with | .held _ => { g with aim := .held r.tag } | .hang _ => g
    match stageMoves g' r take (movesOf s r) { s with mtx := { s.mtx with nextTake := take + 1 } } with
    | some t => stageReqs g (i + 1) rest (countTake g' take t)
    | none => .error i

/-- The hang and lateness of a command's takes (R153). -/
def commandHang (s : State) (p : Packet) (reqs : List TakeReq) : Word × Bool :=
  let fam := p.family.toNat
  let half := reqs.any (fun r => r.mx != .audio && halfDest s r.dest (if r.video then r.source else none))
  applyTarget s fam half (readTarget s fam p.target)

/-- What the entries of a command have in common. -/
def stagingOf (s : State) (p : Packet) (reqs : List TakeReq) : Staging :=
  let r := commandHang s p reqs
  let held := readTarget s p.family.toNat p.target = .held
  { aim := if held then .held 0 else .hang r.1, family := p.family.toNat, session := sess p,
    cmd := s.mtx.nextCmd, late := !held && r.2 }

/-! ## Checks of a take command (R159) -/

/-- The session's own restate is open (R176). -/
def restating (s : State) (session : Nat) : Bool :=
  match s.mtx.restate with | some r => r.session == session | none => false

/-- The family that a restate gives a video destination by a collected DEST_CONFIG. -/
def restatedFamily (s : State) (d : Nat) : Nat :=
  match s.mtx.restate with
  | none => destFamily s d
  | some r =>
    match r.collected.reverse.find? (fun h => h.opcode == 0x1101 && field h.body.params 0 2 == d
        && field h.body.params 2 1 != 0xFF) with
    | some h => field h.body.params 2 1
    | none => destFamily s d

/-- Header and prefix (R159, step 1). -/
def takeHeader (p : Packet) (s : State) : Check :=
  let fam := p.family.toNat
  let t := readTarget s fam p.target
  firstFail [
    need (decide (fam < 4) && t != .tooFar && u16 p 0 != 0 && isZero p 2 2) badHeader,
    need (familyOn s fam) (conflict 0xFFFF),
    need (!restating s (sess p) || p.target == 0) (conflict 0xFFFF)]

/-- The command as a whole: hang capacity; the takes that its entries replace leave the hang (R155, R156, R159,
step 2). -/
def takeCapacity (reqs : List TakeReq) (p : Packet) (s : State) : Check :=
  match (stagingOf s p reqs).aim with
  | .held _ => none
  | .hang n =>
    let ps := reqs.map (fun r => (movesOf s r).map (fun x => (x.1, x.2.1)))
    need (decide (takesLeft s p.family.toNat n ps.flatten + takesKept ps ≤ 4096)) (noResource 0xFFFF)

/-- The entries, one status after the other (R159, step 3). -/
def takeEntries (reqs : List TakeReq) (p : Packet) (s : State) : Check :=
  let held := readTarget s p.family.toNat p.target == .held
  let fam := p.family.toNat
  let fits := entryFits s (if restating s (sess p) then restatedFamily s else destFamily s) fam
  firstFail [
    firstBad (fun i r => need (entryForm s held r) (badParam i)) 0 reqs,
    firstBad (fun i r => need (fits r) (conflict i)) 0 reqs,
    firstBad (fun i r => need (entryFormat s r) (formatMismatch i)) 0 reqs,
    firstBad (fun i r => need (entryUnlocked s (sess p) r) (denied i)) 0 reqs]

/-- No free staging entry (R159). -/
def takeRoom (reqs : List TakeReq) (p : Packet) (s : State) : Check :=
  match stageReqs (stagingOf s p reqs) 0 reqs s with
  | .ok _ => none
  | .error i => some (noResource i)

/-- The checks of a take command, in order (R159). A command of a restate is collected, not staged. -/
def checksTake (read : Bytes → TakeReq) (size : Nat) (p : Packet) (s : State) : Check :=
  let reqs := (entries p size).map read
  if restating s (sess p) then firstFail [takeHeader p s, takeEntries reqs p s]
  else firstFail [takeHeader p s, takeCapacity reqs p s, takeEntries reqs p s, takeRoom reqs p s]

/-- Collect a command of a restate (R176). -/
def collect (code : BitVec 16) (p : Packet) (s : State) : State :=
  match s.mtx.restate with
  | some r =>
    let r := { r with collected := r.collected ++ [{ opcode := code, body := p }] }
    { s with mtx := { s.mtx with restate := some r } }
  | none => s

/-- Stage a take command whose checks have passed, and answer it (R153, R160). -/
def stageCommand (notify : Bool) (h : Reply) (g : Staging) (reqs : List TakeReq) (s : State) :
    State × Answer :=
  let a := match g.aim with
    | .held _ => accepted 0xFFFF_FFFF g.family
    | .hang n => answerFor (n, g.late) g.family
  match stageReqs g 0 reqs s with
  | .ok t =>
    let t := { t with mtx := { t.mtx with nextCmd := t.mtx.nextCmd + 1 } }
    (oweCompletion notify g.cmd h a t, a)
  | .error i => (s, noResource i)

/-- The effect of a take command: staged, or collected in a restate (R153, R176). -/
def effectTake (code : BitVec 16) (read : Bytes → TakeReq) (size : Nat) (h : Reply) (p : Packet)
    (s : State) : State × Option Answer :=
  if restating s (sess p) then (collect code p s, some (accepted 0 p.family.toNat))
  else
    let reqs := (entries p size).map read
    let (t, a) := stageCommand (notifyHung p) h (stagingOf s p reqs) reqs s
    (t, some a)

/-- Length of a command with COUNT entries after four bytes (R382, R390). -/
def entryLength (size : Nat) (p : Packet) : Bool := p.params.length == 4 + size * u16 p 0

/-- A take command. -/
def specTake (code : BitVec 16) (read : Bytes → TakeReq) (size : Nat) : OpSpec :=
  { code := code, cls := 0, lengthOk := entryLength size, checks := checksTake read size
    effect := effectTake code read size }

def specTakeVideo : OpSpec := specTake 0x1001 readVideo 8
def specTakeAudio : OpSpec := specTake 0x1002 readAudio 8
def specTakeAnc : OpSpec := specTake 0x1003 readAnc 8
def specTakeBundle : OpSpec := specTake 0x1004 readBundle 12
def specProtectSet : OpSpec := specTake 0x1020 readProtect 12

/-- TAKE_VIDEO (R153). -/
def execTakeVideo (p : Packet) (s : State) : Host.Outcome State Fault Refusal := .next (runHost specTakeVideo p s)
/-- TAKE_AUDIO (R153, R285). -/
def execTakeAudio (p : Packet) (s : State) : Host.Outcome State Fault Refusal := .next (runHost specTakeAudio p s)
/-- TAKE_ANC (R153). -/
def execTakeAnc (p : Packet) (s : State) : Host.Outcome State Fault Refusal := .next (runHost specTakeAnc p s)
/-- TAKE_BUNDLE (R164). -/
def execTakeBundle (p : Packet) (s : State) : Host.Outcome State Fault Refusal := .next (runHost specTakeBundle p s)
/-- PROTECT_SET (R172). -/
def execProtectSet (p : Packet) (s : State) : Host.Outcome State Fault Refusal := .next (runHost specProtectSet p s)

/-! ## HANG_AT (R157) -/

/-- The family of a staged entry's destination: an audio channel's is that of its run's destination, outside every run
that of its take (R157, R158). -/
def entryFamily (s : State) (m : Matrix) (d : Nat) (e : Entry) : Nat :=
  match m with
  | .audio => match assocDest s d with | some v => destFamily s v | none => e.family
  | _ => destFamily s d

/-- The entries of a session that HANG_AT releases, each at its destination. -/
def heldBy (s : State) (session tag fam : Nat) (m : Matrix) (d : Nat) (e : Entry) : Bool :=
  e.aim == .held tag && e.session == session && entryFamily s m d e == fam

/-- Entries of a matrix that a test selects, with their destinations. -/
def stagedWhere (s : State) (m : Matrix) (f : Matrix → Nat → Entry → Bool) : List (Nat × Entry) :=
  (destsOf s m).flatMap (fun e => (e.2.staged.filter (f m e.1)).map (fun x => (e.1, x)))

/-- Take numbers of the entries that a test selects. -/
def takesWhere (s : State) (f : Matrix → Nat → Entry → Bool) : List Nat :=
  ((stagedWhere s .video f ++ stagedWhere s .anc f ++ stagedWhere s .audio f).map (fun e => e.2.take)).dedup

/-- The hang of a HANG_AT: rounded to even when it releases a half-rate destination (R153, R157). -/
def hangAtHang (s : State) (p : Packet) : Word × Bool :=
  let fam := p.family.toNat
  let f := heldBy s (sess p) (u16 p 0) fam
  let half := (stagedWhere s .video f).any (fun e => halfDest s e.1 e.2.source)
    || (stagedWhere s .anc f).any (fun e => halfDest s e.1 none)
  applyTarget s fam half (readTarget s fam p.target)

/-- DEDUCED, log entry 48. -/
def checksHangAt (p : Packet) (s : State) : Check :=
  let fam := p.family.toNat
  let f := heldBy s (sess p) (u16 p 0) fam
  let n := (takesWhere s f).length
  let at' := fun (m : Matrix) => (stagedWhere s m f).map (fun e => ((m, e.1) : Place))
  firstFail [
    need (decide (fam < 4)) badHeader,
    targetN s p fam,
    reserved p 2 2,
    need (n == 0 || familyOn s fam) (conflict 0),
    need (!restating s (sess p)) (conflict 0),
    need (n == 0 || takesLeft s fam (hangAtHang s p).1 (at' .video ++ at' .anc ++ at' .audio) + n ≤ 4096)
      (noResource 0)]

/-- Give the released entry of one destination its target; an entry with the same target is replaced
(R156, R157). -/
def releaseAt (m : Matrix) (d : Nat) (f : Entry → Bool) (fam : Nat) (hang : Word) (late : Bool) (cmd : Nat)
    (s : State) : State :=
  let v := destOf s m d
  match v.staged.find? f with
  | none => s
  | some e =>
    let e' := { e with aim := .hang hang, family := fam, late := late, released := some cmd }
    let same := fun (x : Entry) => x.aim == .hang hang && x.family == fam
    let s := putDest s m d { v with staged := (v.staged.filter (fun x => !f x && !same x)) ++ [e'] }
    (v.staged.filter same).foldl (fun s x => unstageCount x s) s

/-- Release every entry of a matrix. -/
def releaseAll (m : Matrix) (f : Matrix → Nat → Entry → Bool) (fam : Nat) (hang : Word) (late : Bool) (cmd : Nat)
    (s : State) : State :=
  ((stagedWhere s m f).map (fun e => e.1)).foldl (fun s d => releaseAt m d (f m d) fam hang late cmd s) s

/-- DEDUCED, log entry 48. -/
def effectHangAt (h : Reply) (p : Packet) (s : State) : State × Option Answer :=
  let fam := p.family.toNat
  let f := heldBy s (sess p) (u16 p 0) fam
  let takes := takesWhere s f
  if takes.isEmpty then (s, some (done (leBytes 4 0)))
  else
    let r := hangAtHang s p
    let cmd := s.mtx.nextCmd
    let a := { answerFor r fam with results := leBytes 4 takes.length }
    let s := releaseAll .audio f fam r.1 r.2 cmd
      (releaseAll .anc f fam r.1 r.2 cmd (releaseAll .video f fam r.1 r.2 cmd s))
    let counts := takes.map (fun t => ({ take := t, family := fam, hang := r.1, late := r.2 } : TakeCount))
    let s := { s with mtx := { s.mtx with nextCmd := cmd + 1, counts := s.mtx.counts ++ counts } }
    (oweCompletion (notifyHung p) cmd h a s, some a)

def specHangAt : OpSpec :=
  { code := 0x1011, cls := 0, lengthOk := fixedLength 4, checks := checksHangAt, effect := effectHangAt }

/-- HANG_AT (R157). -/
def execHangAt (p : Packet) (s : State) : Host.Outcome State Fault Refusal := .next (runHost specHangAt p s)

/-! ## UNSTAGE (R158) -/

/-- MATRIX code of R391. -/
def matrixCode : Nat → Matrix
  | 0 => .video | 1 => .anc | _ => .audio

/-- The target selection of an UNSTAGE (R158). -/
def unstageTarget (s : State) (p : Packet) (m : Matrix) (d : Nat) (e : Entry) : Bool :=
  if u8 p 8 = 1 then true
  else
    entryFamily s m d e == p.family.toNat &&
      (if p.target = 0xFFFF_FFFF then (match e.aim with | .held _ => true | .hang _ => false)
       else if p.target = 0 then e.aim == .hang (firstOpen s p.family.toNat)
       else e.aim == .hang p.target)

/-- The entries that an UNSTAGE selects at destination d of matrix m. -/
def unstagePick (s : State) (p : Packet) (m : Matrix) (d : Nat) (e : Entry) : Bool :=
  e.session == sess p && unstageTarget s p m d e &&
    (if u8 p 0 = 0 then e.tag == u16 p 2
     else m == matrixCode (u8 p 1) && decide (u16 p 4 ≤ d ∧ d ≤ u16 p 6))

def checksUnstage (p : Packet) (s : State) : Check :=
  let range := u8 p 0 == 1
  let limit := matrixDests (matrixCode (u8 p 1))
  firstFail [
    need (if u8 p 8 = 1 then p.target == 0 && p.family == 0 else decide (p.family.toNat < 4)) badHeader,
    fieldIn (u8 p 0) 0 1 0,
    fieldOk (if range then u8 p 1 ≤ 2 else u8 p 1 == 0) 1,
    fieldOk (!range || u16 p 4 < limit) 4,
    fieldOk (!range || (u16 p 4 ≤ u16 p 6 && u16 p 6 < limit)) 6,
    fieldIn (u8 p 8) 0 1 8,
    reserved p 9 3,
    need (!restating s (sess p)) (conflict 0)]

/-- Take the selected entries of one matrix out. -/
def unstageMatrix (p : Packet) (s0 : State) (m : Matrix) (s : State) : State :=
  ((destsOf s m).map (fun e => e.1)).foldl (fun s d => unstageWhere m d (unstagePick s0 p m d) s) s

/-- Takes with a loaded shadow that the UNSTAGE selects: too late (R158). -/
def tooLate (p : Packet) (s : State) : List Nat :=
  let of := fun (m : Matrix) => (destsOf s m).filterMap (fun e =>
    match e.2.shadow with
    | some x => if unstagePick s p m e.1 x then some x.take else none
    | none => none)
  (of .video ++ of .anc ++ of .audio).dedup

def effectUnstage (p : Packet) (s : State) : State × Answer :=
  let before := ((allEntries s).map (fun e => e.take)).dedup
  let late := (tooLate p s).length
  let t := unstageMatrix p s .audio (unstageMatrix p s .anc (unstageMatrix p s .video s))
  let after := ((allEntries t).map (fun e => e.take)).dedup
  let removed := (before.filter (fun x => !after.contains x)).length
  (sendDue t, done (leBytes 4 removed ++ leBytes 4 late))

def specUnstage : OpSpec :=
  { code := 0x1012, cls := 0, lengthOk := fixedLength 12, checks := checksUnstage
    effect := atOnce effectUnstage }

/-- UNSTAGE (R158). -/
def execUnstage (p : Packet) (s : State) : Host.Outcome State Fault Refusal := .next (runHost specUnstage p s)

end Sys2Proof.Machine
end

