-- ==== Sys2Proof/Machine/MatrixConfig.lean ====
section
/-! DEFINITION. MatrixConfig.lean: DEST_CONFIG, SOURCE_CONFIG, DEST_LOCK and HANG_REF_CONFIG
(R137 to R140, R163 to R171, R391). -/

namespace Sys2Proof.Machine

/-! ## DEST_CONFIG -/

/-- Kinds of destination or source on which a bond may be declared (R165). -/
def destBonds (d : Nat) : Bool := d < 1280 || (1440 ≤ d && d < 1696) || (2080 ≤ d && d < 2176)
def sourceBonds (n : Nat) : Bool := n < 1280 || (1440 ≤ n && n < 1696)

/-- BOND is 1, 2 or 4, and its base a multiple of it (R165). -/
def bondOk (may : Bool) (base b : Nat) : Bool := b == 1 || ((b == 2 || b == 4) && may && base % b == 0)

/-- A new bond overlaps no bond declared on the same side, and BOND 1 names no member that is not a
base (R165). -/
def bondFree (bond : Nat → Nat × Nat) (base b : Nat) : Bool :=
  (bond base).1 == base &&
    (b == 1 || (List.range b).all (fun k => (bond (base + k)).2 == 1 || (bond (base + k)).1 == base))

/-- AUDIO_BASE and AUDIO_COUNT read together (R391): none keeps the default run. -/
def readRun (dflt : Option (Nat × Nat)) (base count : Nat) : Option (Nat × Nat) :=
  if base = 0xFFFF then
    (if count = 0 then none else match dflt with | some (b, _) => some (b, count) | none => none)
  else some (base, count)

/-- The destination whose run holds a channel, d aside (R163). -/
def otherDest (s : State) (d c : Nat) : Bool :=
  let dflt := if c < 20480 then [c / 16] else if c < 23040 then [1280 + (c - 20480) / 16] else []
  (dflt ++ runCandidates s).any (fun x => x != d && runHas (destAudio s x) c)

/-- The source whose run holds a channel, n aside (R163). -/
def otherSource (s : State) (n c : Nat) : Bool :=
  let dflt := if c < 20480 then [c / 16] else if c < 23040 then [1280 + (c - 20480) / 16] else []
  let more := s.set.sources.map (fun e => e.1)
    ++ s.pkt.rxFlows.filterMap (fun e => e.2.slot.map (fun k => 1440 + 16 * (e.1 / 1024) + k))
  (dflt ++ more).any (fun x => x != n && runHas (sourceAudio s x) c)

/-- No channel of a run is in another run. -/
def runFree (other : Nat → Bool) (r : Option (Nat × Nat)) : Bool :=
  match r with | some (b, n) => (List.range n).all (fun k => !other (b + k)) | none => true

/-- One frame buffer of the Reserve (R27). -/
def frameBuffer : Nat := 21 * 1048576

/-- The settings that a DEST_CONFIG carries; FAMILY 0xFF keeps the one that has been accepted (R166, R167). -/
def readDestCfg (s : State) (p : Packet) : DestCfg :=
  let d := u16 p 0
  let old := comingDest s d
  { family := if u8 p 2 = 0xFF ∨ 1280 ≤ d ∧ d < 1440 ∨ isLayerDest d then old.family else u8 p 2
    fallback := u8 p 3
    formatLock := u8 p 4 == 1
    lockFormat := orDefault (u8 p 5) 0x21
    bond := orDefault (u8 p 6) 1
    report := u8 p 7 == 1
    run := readRun (defaultDestRun s d) (u16 p 8) (u8 p 10)
    depth := if u16 p 12 = 0 then 4 else u16 p 12 }

/-- The settings that a SOURCE_CONFIG carries. -/
def readSourceCfg (s : State) (p : Packet) : SourceCfg :=
  let n := u16 p 0
  { bond := orDefault (u8 p 2) 1
    run := readRun (defaultSourceRun s n) (u16 p 4) (u8 p 3)
    playSlot := if 1760 ≤ n ∧ n < videoSources then some (u8 p 6) else none
    delay := u16 p 8 }

/-- The state with the restated settings of sources and destinations in force, the last one of each, over a state
(R176). -/
def restatedOver (t0 s : State) (hs : List HostPacket) : State :=
  hs.foldl (fun t h =>
    match h.opcode.toNat with
    | 0x1101 => { t with set := { t.set with
        dests := tset (fun _ => {}) t.set.dests (u16 h.body 0) (readDestCfg s h.body) } }
    | 0x1102 => { t with set := { t.set with
        sources := tset (fun _ => {}) t.set.sources (u16 h.body 0) (readSourceCfg s h.body) } }
    | _ => t) t0

/-- The states whose runs a setting must not overlap: the one in force and the one that all accepted settings lead
to; of a restated setting, the one that the restate leads to (R163, R165, R176). (DEDUCED, log entry 155.) -/
def settingStates (s : State) (session : Nat) : State × State :=
  let v := settingsView (fun _ => true) s
  match s.mtx.restate with
  | some r => if r.session = session then (let w := restatedOver v s r.collected; (w, w)) else (s, v)
  | none => (s, v)

/-- The run that a setting gives. -/
def newDestRun (s : State) (d : Nat) (c : DestCfg) : Option (Nat × Nat) :=
  normRun (match c.run with | some r => some r | none => defaultDestRun s d)

/-- A playback of a record slot has a longer delay than a depth (R391). -/
def playedDeeper (s : State) (d depth : Nat) : Bool :=
  s.set.sources.any (fun e => e.2.playSlot == some (d - 2080) && 2080 ≤ d && depth < e.2.delay)

def checksDestConfig (p : Packet) (s : State) : Check :=
  let d := u16 p 0
  let isOut := 1280 ≤ d && d < 1440
  let isRec := 2080 ≤ d && d < 2176
  let c := readDestCfg s p
  let w := settingStates s (sess p)
  firstFail [
    noTarget p,
    fieldOk (d < videoDests) 0,
    fieldOk (u8 p 2 ≤ 3 || u8 p 2 == 0xFF) 2,
    fieldOk (u8 p 3 ≤ 2 && !(isOut && u8 p 3 == 2)) 3,
    fieldIn (u8 p 4) 0 1 4,
    fieldOk (isFormat c.lockFormat) 5,
    fieldOk (bondOk (destBonds d) d c.bond) 6,
    fieldIn (u8 p 7) 0 1 7,
    fieldOk (u16 p 8 == 0xFFFF || u16 p 8 + u8 p 10 ≤ audioChannels) 8,
    fieldOk (u8 p 10 ≤ 16 &&
      !(u16 p 8 == 0xFFFF && u8 p 10 != 0 && (defaultDestRun s d).isNone)) 10,
    reserved p 11 1,
    fieldOk (if isRec then u16 p 12 == 0 || (4 ≤ u16 p 12 && u16 p 12 ≤ 1024) else u16 p 12 == 0) 12,
    reserved p 14 2,
    need (!(isOut || isLayerDest d) || u8 p 2 == 0xFF || u8 p 2 == destFamily s d) (conflict 0),
    need (runFree (otherDest w.1 d) (newDestRun s d c) && runFree (otherDest w.2 d) (newDestRun s d c)) (conflict 0),
    need (bondFree (destBond w.2) d c.bond) (conflict 0),
    need (!playedDeeper s d c.depth) (conflict 0),
    need (decide ((c.depth - (destCfg s d).depth) * frameBuffer ≤ s.reserveFree)) (noResource 0)]

/-- Destinations whose entries a DEST_CONFIG of FAMILY or BOND unstages: the members of the old bond
and of the new one (R167). -/
def configMembers (s : State) (d : Nat) (c : DestCfg) : List Nat :=
  (List.range (max (max (destBond s d).2 (comingDest s d).bond) c.bond)).map (fun k => d + k)

/-- Channels of a run. -/
def runChannels (r : Option (Nat × Nat)) : List Nat :=
  match r with | some (b, n) => (List.range n).map (fun k => b + k) | none => []

/-- What a DEST_CONFIG unstages (R167). -/
def unstageForConfig (d : Nat) (c : DestCfg) (s : State) : State :=
  let old := comingDest s d
  let was := (runChannels (destAudio s d) ++ runChannels (newDestRun s d old)).dedup
  let now := runChannels (newDestRun s d c)
  let all := fun (_ : Entry) => true
  if c.family ≠ old.family ∨ c.bond ≠ old.bond then
    let s := (configMembers s d c).foldl (fun s k =>
      unstageWhere .anc k all (unstageWhere .video k all s)) s
    (was ++ now).foldl (fun s k => unstageWhere .audio k all s) s
  else if runChannels (newDestRun s d old) ≠ now then
    let moved := was.filter (fun k => !now.contains k) ++ now.filter (fun k => !was.contains k)
    let s := moved.foldl (fun s k => unstageWhere .audio k all s) s
    let s := (was ++ now).foldl (fun s k => unstageWhere .audio k (fun e => e.withAudio) s) s
    unstageWhere .anc d (fun e => e.withAudio) (unstageWhere .video d (fun e => e.withAudio) s)
  else s

/-- Apply the settings of a video destination. (DEDUCED, log entry 56.) -/
def setDestCfg (d : Nat) (c : DestCfg) (s : State) : State :=
  { s with set := { s.set with dests := tset (fun _ => {}) s.set.dests d c } }

/-- Apply settings that wait for the destination's frame start (R167). (DEDUCED, log entry 56.) -/
def applyPendingDest (d : Nat) (s : State) : State :=
  match (destRun s d).pendingCfg with
  | some c => judgeDest d (setDestCfg d c (putDestRun s d { destRun s d with pendingCfg := none }))
  | none => s

/-- The effect of a DEST_CONFIG's settings: FAMILY, BOND and the audio run from the next frame start
of the destination's family, the rest at once (R167). A family that does not run has no frame starts.
(DEDUCED, log entry 56.) -/
def applyDestCfg (d : Nat) (c : DestCfg) (s : State) : State :=
  let old := destCfg s d
  let s := sendDue (unstageForConfig d c s)
  let s := { s with reserveFree := s.reserveFree + old.depth * frameBuffer - c.depth * frameBuffer }
  let waits := (c.family ≠ old.family ∨ c.bond ≠ old.bond ∨ c.run ≠ old.run) ∧ familyOn s (destFamily s d)
  let s := if waits then
      setDestCfg d { c with family := old.family, bond := old.bond, run := old.run }
        (putDestRun s d { destRun s d with pendingCfg := some c })
    else setDestCfg d c (putDestRun s d { destRun s d with pendingCfg := none })
  judgeDest d s

def effectDestConfig (p : Packet) (s : State) : State × Answer :=
  if restating s (sess p) then (collect 0x1101 p s, done)
  else (applyDestCfg (u16 p 0) (readDestCfg s p) s, done)

def specDestConfig : OpSpec :=
  { code := 0x1101, cls := 1, lengthOk := fixedLength 16, checks := checksDestConfig
    effect := atOnce effectDestConfig }

/-- DEST_CONFIG (R166, R167, R391). -/
def execDestConfig (p : Packet) (s : State) : Host.Outcome State Fault Refusal :=
  .next (runHost specDestConfig p s)

/-! ## SOURCE_CONFIG -/

def checksSourceConfig (p : Packet) (s : State) : Check :=
  let n := u16 p 0
  let isPlay := 1760 ≤ n && n < videoSources
  let c := readSourceCfg s p
  let w := settingStates s (sess p)
  let run := normRun (match c.run with | some r => some r | none => defaultSourceRun s n)
  firstFail [
    noTarget p,
    fieldOk (n < videoSources) 0,
    fieldOk (bondOk (sourceBonds n) n c.bond) 2,
    fieldOk (u8 p 3 ≤ 16 &&
      !(u16 p 4 == 0xFFFF && u8 p 3 != 0 && (defaultSourceRun s n).isNone)) 3,
    fieldOk (u16 p 4 == 0xFFFF || u16 p 4 + u8 p 3 ≤ audioChannels) 4,
    fieldOk (if isPlay then u8 p 6 < 96 else u8 p 6 == 0) 6,
    reserved p 7 1,
    fieldOk (if isPlay then 1 ≤ c.delay && c.delay ≤ (destCfg s (2080 + u8 p 6)).depth else c.delay == 0) 8,
    reserved p 10 2,
    need (runFree (otherSource w.1 n) run && runFree (otherSource w.2 n) run) (conflict 0),
    need (bondFree (sourceBond w.2) n c.bond) (conflict 0)]

/-- Apply the settings of a video source; its destinations are judged again. -/
def applySourceCfg (n : Nat) (c : SourceCfg) (s : State) : State :=
  judgeAll n { s with set := { s.set with sources := tset (fun _ => {}) s.set.sources n c } }

def effectSourceConfig (p : Packet) (s : State) : State × Answer :=
  if restating s (sess p) then (collect 0x1102 p s, done)
  else (applySourceCfg (u16 p 0) (readSourceCfg s p) s, done)

def specSourceConfig : OpSpec :=
  { code := 0x1102, cls := 1, lengthOk := fixedLength 12, checks := checksSourceConfig
    effect := atOnce effectSourceConfig }

/-- SOURCE_CONFIG (R163, R165, R391). -/
def execSourceConfig (p : Packet) (s : State) : Host.Outcome State Fault Refusal :=
  .next (runHost specSourceConfig p s)

/-! ## DEST_LOCK -/

def checksDestLock (p : Packet) (s : State) : Check :=
  let m := matrixCode (u8 p 2)
  firstFail [
    noTarget p,
    fieldOk (u16 p 0 < matrixDests m) 0,
    fieldIn (u8 p 2) 0 2 2,
    fieldIn (u8 p 3) 0 1 3,
    need (match (destOf s m (u16 p 0)).lock with | some n => n == sess p | none => true) (denied 1)]

/-- Lock or unlock a destination for a session (R171). -/
def setLock (m : Matrix) (d : Nat) (l : Option Nat) (s : State) : State :=
  putDest s m d { destOf s m d with lock := l }

def effectDestLock (p : Packet) (s : State) : State × Answer :=
  if restating s (sess p) then (collect 0x1103 p s, done)
  else (setLock (matrixCode (u8 p 2)) (u16 p 0) (if u8 p 3 = 1 then some (sess p) else none) s, done)

def specDestLock : OpSpec :=
  { code := 0x1103, cls := 1, lengthOk := fixedLength 4, checks := checksDestLock
    effect := atOnce effectDestLock }

/-- DEST_LOCK (R171). -/
def execDestLock (p : Packet) (s : State) : Host.Outcome State Fault Refusal :=
  .next (runHost specDestLock p s)

/-! ## Settings that a restate has staged (R177) -/

/-- Make a setting. The entries that a DEST_CONFIG unstages are gone since the commit. -/
def applySetting (c : SettingChange) (s : State) : State :=
  match c with
  | .dest d c => judgeDest d (setDestCfg d c (putDestRun s d { destRun s d with pendingCfg := none }))
  | .source n c => applySourceCfg n c s
  | .lock m d l => setLock m d l s

/-- The settings of a family that are due at its boundary apply; the commands that wait for them have hung. -/
def applySettings (fam : Nat) (now : Word) (s : State) : State :=
  let test := fun (x : SettingDue) => x.family == fam && !later x.hang now
  let due := s.mtx.settings.filter test
  let s := { s with mtx := { s.mtx with
      settings := s.mtx.settings.filter (fun x => !test x)
      owed := s.mtx.owed.map (fun o => if due.any (fun x => x.cmd == o.cmd) then { o with hung := true } else o) } }
  due.foldl (fun s x => applySetting x.change s) s

/-! ## HANG_REF_CONFIG -/

/-- What holds a family in use (R137). -/
def familyInUse (s : State) (n : Nat) : Bool :=
  s.set.sdiIn.any (fun e => isSdi s e.1 && e.2.mode != 0 && e.2.family == n)
    || (n == 0 && (s.set.lanes.any (fun e => 256 ≤ e.1 && e.2.mode == 2 &&
          (sdiInCfg s (e.1 - 256)).mode != 0 && (sdiInCfg s (e.1 - 256)).family == 0)))
    || s.set.sdiOut.any (fun e => isSdi s e.1 && e.2.enable && e.2.family == n)
    || s.pkt.rxFlows.any (fun e => e.2.family == n) || s.pkt.txFlows.any (fun e => e.2.family == n)
    || s.comp.heads.any (fun e => e.2.cfg.enable && e.2.cfg.family == n)
    || s.eng.engines.any (fun e =>
          ((e.2.state == .running || (e.2.state == .loading && e.2.live)) && e.2.cfg.family == n)
          || (e.2.state == .loading &&
              (match e.2.switch with | some w => w.cfg.kernel != 0 && w.cfg.family == n | none => false)))
    || s.set.pulses.any (fun e => e.2.enable && e.2.family == n)
    || s.set.refs.any (fun e => e.2.fpEnable && e.2.fpFamily == n)
    || (familyOf s n).realign.isSome
    || s.mtx.video.any (fun e => destFamily s e.1 == n &&
          (e.2.active.isSome || e.2.shadow.isSome || !e.2.staged.isEmpty))
    || s.mtx.anc.any (fun e => destFamily s e.1 == n &&
          (e.2.active.isSome || e.2.shadow.isSome || !e.2.staged.isEmpty))
    || s.mtx.audio.any (fun e => (match assocDest s e.1 with
          | some d => destFamily s d == n && (e.2.active.isSome || e.2.shadow.isSome || !e.2.staged.isEmpty)
          | none => e.2.staged.any (fun x => x.family == n) || (match e.2.shadow with | some x => x.family == n | none => false)))
    || s.mtx.destRun.any (fun e => destFamily s e.1 == n && e.2.protSource.isSome)

def checksHangRefConfig (p : Packet) (s : State) : Check :=
  let n := u8 p 0
  let old := familyCfg s n
  firstFail [
    noTarget p,
    fieldIn n 0 3 0,
    fieldIn (u8 p 1) 0 1 1,
    fieldIn (u8 p 2) 0 7 2,
    reserved p 3 1,
    fieldOk (u16 p 4 == 0 || (200 ≤ u16 p 4 && u16 p 4 ≤ 2000)) 4,
    reserved p 6 2,
    need ((u8 p 1 == bit old.enable && u8 p 2 == old.rate) || !familyInUse s n) (conflict 0)]

/-- The running boundary of a family lies within 100 ns of the boundary that the active triple computes
for its number, and time is set (R140). -/
def isAligned (s : State) (rate : Nat) (boundary : Int) (hang : Word) : Bool :=
  let t := s.time.triple
  let want := boundaryRoot t rate (indexOfNumber t rate boundary hang)
  s.time.timeSet && decide (rootToUnits (Int.natAbs (boundary - want)) ≤ 100 * 65536)

/-- Set ALIGNED; while it is 0 the family's source is raised once (R140). -/
def setAligned (n : Nat) (first now : Bool) (s : State) : State :=
  let f := familyOf s n
  let s := putFamily s n { f with aligned := now }
  if !now && (first || f.aligned) then note 0x04 n s else s

/-- Place a family's boundaries and numbers under the active triple (R140). -/
def placeFamily (n : Nat) (s : State) : State :=
  let c := familyCfg s n
  let t := s.time.triple
  let i := hangIndexAt t c.rate (rootNow s)
  let b := boundaryRoot t c.rate i
  let hang := BitVec.ofInt 32 i
  let f := familyOf s n
  let s := putFamily s n
    { f with hang := hang, boundary := b, realign := none, newCutoff := none, aligned := false, stepped := false
             cutoffPassed := decide (b + periodRoot c.rate - 4752 * c.cutoff ≤ rootNow s) }
  setAligned n true (isAligned s c.rate b hang) s

/-- Apply the settings of a family: enabling places it; a new CUTOFF of a running family applies from
the first cutoff at least one hang period later (R137). (DEDUCED, log entry 53.) -/
def applyFamilyCfg (n : Nat) (c : FamilyCfg) (s : State) : State :=
  let old := familyCfg s n
  let put := fun (c : FamilyCfg) (s : State) =>
    { s with set := { s.set with families := tset familyCfgDefault s.set.families n c } }
  if old.enable && c.enable && old.rate == c.rate then
    if c.cutoff = old.cutoff then putFamily s n { familyOf s n with newCutoff := none }
    else putFamily s n { familyOf s n with newCutoff := some (c.cutoff, 1) }
  else if c.enable then placeFamily n (put c s)
  else
    let f := familyOf s n
    put c (putFamily s n { realigns := f.realigns, lastShift := f.lastShift, lastNumber := f.lastNumber })

def effectHangRefConfig (p : Packet) (s : State) : State × Answer :=
  (applyFamilyCfg (u8 p 0)
    { enable := u8 p 1 == 1, rate := u8 p 2, cutoff := orDefault (u16 p 4) 250 } s, done)

def specHangRefConfig : OpSpec :=
  { code := 0x1104, cls := 1, lengthOk := fixedLength 8, checks := checksHangRefConfig
    effect := atOnce effectHangRefConfig }

/-- HANG_REF_CONFIG (R137 to R140). -/
def execHangRefConfig (p : Packet) (s : State) : Host.Outcome State Fault Refusal :=
  .next (runHost specHangRefConfig p s)

end Sys2Proof.Machine
end

