-- ==== Sys2Proof/Machine/EtherCode.lean ====
section
/-! DEFINITION. EtherCode.lean: a frame as it leaves a packet port: preamble, SFD and FCS (R217, R219), and the
64b/66b code and RS-FEC of its lanes (R46, R182). -/

namespace Sys2Proof.Machine

/-! ## The frame on the wire (R217) -/

/-- Bytes as bits in transmission order: bit 0 of each byte first. -/
def byteBits (b : Bytes) : List Bool := b.flatMap (fun x => bitsOf 8 x.toNat)

/-- FCS of a frame. (PRESUMED, log entry 189.) -/
def frameCheck (b : Bytes) : Word := crc32 (byteBits b)

/-- Seven bytes of preamble and the SFD. (PRESUMED, log entry 189.) -/
def preamble : Bytes := List.replicate 7 0x55 ++ [0xD5]

/-- A whole frame as the port sends it: the port adds preamble, SFD and FCS (R217). -/
def wireFrame (b : Bytes) : Bytes := preamble ++ b ++ leBytes 4 (frameCheck b).toNat

/-- A frame that ends early with a complemented FCS (R219). -/
def spoiltFrame (b : Bytes) : Bytes := preamble ++ b ++ leBytes 4 (~~~ frameCheck b).toNat

/-! ## 64b/66b (R46) -/

/-- A block before the scrambler: whether it is a data block, and its eight bytes. -/
abbrev Block66 := Bool × Bytes

/-- The block that ends a frame, with its last bytes, at most seven, in front of the terminate character.
(PRESUMED, log entry 189.) -/
def lastBlock (b : Bytes) : Block66 :=
  let code : Byte := ([0x87, 0x99, 0xAA, 0xB4, 0xCC, 0xD2, 0xE1, 0xFF] : Bytes).getD b.length 0x87
  (false, (code :: b ++ List.replicate 7 0).take 8)

/-- Eight idle characters. (PRESUMED, log entry 189.) -/
def idleBlock : Block66 := (false, 0x1E :: List.replicate 7 0)

/-- Data blocks of a frame behind its start block, and the block that ends it; n bounds their number. -/
def dataBlocks : Nat → Bytes → List Block66
  | 0, _ => []
  | n + 1, b => if b.length < 8 then [lastBlock b] else (true, b.take 8) :: dataBlocks n (b.drop 8)

/-- The blocks of a frame with its preamble: the first byte of the preamble is the start character.
(PRESUMED, log entry 189.) -/
def frameBlocks (w : Bytes) : List Block66 :=
  (false, 0x78 :: (w.drop 1).take 7) :: dataBlocks (w.length / 8 + 1) (w.drop 8)

/-- One bit of the self-synchronous scrambler 1 + x³⁹ + x⁵⁸. (PRESUMED, log entry 189.) -/
def scramble58 : List Bool → BitVec 58 → List Bool × BitVec 58
  | [], k => ([], k)
  | b :: r, k =>
    let x := xor b (xor (k.getLsbD 38) (k.getLsbD 57))
    let (y, k) := scramble58 r ((k <<< 1) ||| (if x then 1 else 0))
    (x :: y, k)

/-- Blocks with their scrambled payload. -/
def scrambleBlocks : List Block66 → BitVec 58 → List (Bool × List Bool) × BitVec 58
  | [], k => ([], k)
  | (d, b) :: r, k =>
    let (x, k) := scramble58 (byteBits b) k
    let (y, k) := scrambleBlocks r k
    ((d, x) :: y, k)

/-- A block of 66 bits: the two bits in front are 01 of a data block and 10 of a control block. -/
def blockBits (b : Bool × List Bool) : List Bool := [!b.1, b.1] ++ b.2

/-! ## RS-FEC (R46, R182) -/

/-- Four blocks as 257 bits: a first bit of 1 for data blocks alone; else 0, one bit for each block, and the second
four bits of the first control block left out. The first five bits are added to bits 8 to 12.
(PRESUMED, log entry 189.) -/
def transcode (b : List (Bool × List Bool)) : List Bool :=
  let plain :=
    if b.all (fun x => x.1) then true :: b.flatMap (fun x => x.2)
    else
      let c := b.findIdx (fun x => !x.1)
      [false] ++ b.map (fun x => x.1)
        ++ (b.zipIdx.flatMap (fun x => if x.2 = c then x.1.2.take 4 ++ x.1.2.drop 8 else x.1.2))
  plain.zipIdx.map (fun x => if x.2 < 5 then xor x.1 (plain.getD (x.2 + 8) false) else x.1)

/-- A product in the field of 1,024 elements, over x¹⁰ + x³ + 1; n bits of b are left. -/
def fieldMul : Nat → BitVec 10 → BitVec 10 → BitVec 10
  | 0, _, _ => 0
  | n + 1, a, b =>
    (if b.getLsbD 0 then a else 0) ^^^
      fieldMul n (if a.getLsbD 9 then (a <<< 1) ^^^ 9 else a <<< 1) (b >>> 1)

/-- The generator polynomial with n roots, highest power first, without its leading 1; r is the next root. -/
def generatorPoly : Nat → BitVec 10 → List (BitVec 10) → List (BitVec 10)
  | 0, _, g => g
  | n + 1, r, g =>
    generatorPoly n (fieldMul 10 r 2) (List.zipWith (fun x c => x ^^^ fieldMul 10 c r) (g ++ [0]) (1 :: g))

/-- The 14 parity symbols of RS(528, 514). (PRESUMED, log entry 189.) -/
def parity (message : List (BitVec 10)) : List (BitVec 10) :=
  let g := generatorPoly 14 1 []
  message.foldl (fun (p : List (BitVec 10)) m =>
    let q := m ^^^ p.headD 0
    List.zipWith (fun x c => x ^^^ fieldMul 10 q c) (p.drop 1 ++ [0]) g) (List.replicate 14 0)

/-- Bits as symbols of 10 bits, the first bit the lowest; n bounds their number. -/
def symbolsOf : Nat → List Bool → List (BitVec 10)
  | 0, _ => []
  | n + 1, b => if b.isEmpty then [] else BitVec.ofNat 10 (natOfBits (b.take 10)) :: symbolsOf n (b.drop 10)

/-- The 528 symbols of each codeword of 80 blocks. -/
def codewords : Nat → List (Bool × List Bool) → List (BitVec 10)
  | 0, _ => []
  | n + 1, b =>
    let m := symbolsOf 514 ((List.range 20).flatMap (fun i => transcode ((b.drop (4 * i)).take 4)))
    m ++ parity m ++ codewords n (b.drop 80)

/-- The bits of symbols. -/
def symbolBits (x : List (BitVec 10)) : List Bool := x.flatMap (fun y => bitsOf 10 y.toNat)

/-- Idle blocks that fill the last codeword. -/
def fillCodeword (b : List Block66) : List Block66 := b ++ List.replicate ((80 - b.length % 80) % 80) idleBlock

/-- The bits on each lane of a port as frame w leaves it: without FEC the blocks in order; with RS-FEC whole codewords,
whose symbols go to the port's n lanes in turn. (PRESUMED, log entry 189.) -/
def portBits (fec : Bool) (n : Nat) (w : Bytes) (k : BitVec 58) : List (List Bool) × BitVec 58 :=
  if fec then
    let (x, k) := scrambleBlocks (fillCodeword (frameBlocks w)) k
    let y := codewords (x.length / 80) x
    ((List.range n).map (fun i => symbolBits ((y.zipIdx.filter (fun z => z.2 % n == i)).map (fun z => z.1))), k)
  else
    let (x, k) := scrambleBlocks (frameBlocks w) k
    ([x.flatMap blockBits], k)

end Sys2Proof.Machine
end

