-- ==== Sys2Proof/Machine/Ancillary.lean ====
section
/-! DEFINITION. Ancillary.lean: ancillary packets on an SDI interface: their kinds, parity, checksum, and the
audio data and control packets of ST 272 and ST 299 (R108, R130 to R133). The packet layouts are those of the
standards that the manual names. (PRESUMED, log entry 146.) -/

namespace Sys2Proof.Machine

/-! ## Kinds of packet (R130, R132) -/

/-- What a packet is to an SDI receiver; audio with its group, from 1. -/
inductive AncKind where
  | audioData (group : Nat)
  | audioExtended (group : Nat)
  | audioControl (group : Nat)
  | payloadId
  | edh
  | other
  deriving DecidableEq, Repr

/-- Kind of a packet on an SD interface (ST 272), or on a higher one (ST 299). (PRESUMED, log entry 146.) -/
def ancKind (sd : Bool) (p : AncPacket) : AncKind :=
  let d := p.did.toNat
  if d = 0x41 ∧ p.sdid = 1 then .payloadId
  else if sd then
    if d = 0xF4 then .edh
    else if 0xF9 ≤ d ∧ d % 2 = 1 then .audioData ((0xFF - d) / 2 + 1)
    else if 0xF8 ≤ d then .audioExtended ((0xFE - d) / 2 + 1)
    else if 0xEC ≤ d ∧ d ≤ 0xEF then .audioControl (0xEF - d + 1)
    else .other
  else if 0xE4 ≤ d ∧ d ≤ 0xE7 then .audioData (0xE7 - d + 1)
  else if 0xE0 ≤ d ∧ d ≤ 0xE3 then .audioControl (0xE3 - d + 1)
  else if 0xA4 ≤ d ∧ d ≤ 0xA7 then .audioData (0xA7 - d + 5)
  else if 0xA0 ≤ d ∧ d ≤ 0xA3 then .audioControl (0xA3 - d + 5)
  else .other

/-! ## Parity and checksum (R132, R133) -/

/-- Eight bits with even parity in bit 8 and its inverse in bit 9. -/
def withParity (v : Nat) : BitVec 10 :=
  let odd := decide (((bitsOf 8 v).filter id).length % 2 = 1)
  BitVec.ofNat 10 (v % 256 + (if odd then 256 else 512))

/-- Nine bits with the inverse of bit 8 in bit 9. -/
def withInverse (v : Nat) : BitVec 10 := BitVec.ofNat 10 (v % 512 + (if v / 256 % 2 = 1 then 0 else 512))

/-- The words of a packet on the interface: flag, DID, SDID, data count, user data and checksum.
(PRESUMED, log entry 146.) -/
def ancWords (p : AncPacket) : List (BitVec 10) :=
  let body := withParity p.did.toNat :: withParity p.sdid.toNat :: withParity p.data.length :: p.data
  let sum := (body.map (fun w => w.toNat % 512)).sum
  [0, 0x3FF, 0x3FF] ++ body ++ [withInverse sum]

/-! ## Audio samples (R86, R130) -/

/-- A sample word from its 24 bits, V, U, C and block start (R86). -/
def sampleWord (v : Nat) (vv u c z : Bool) : Word :=
  BitVec.ofNat 32 (v % 2 ^ 24 + bit vv * 2 ^ 24 + bit u * 2 ^ 25 + bit c * 2 ^ 26 + bit z * 2 ^ 27)

/-- Bits [h : l] of a packet word. -/
def udwBits (w : BitVec 10) (l n : Nat) : Nat := w.toNat / 2 ^ l % 2 ^ n

/-- Four user data words of ST 299 as a sample, and back: block start in bit 3 of the first, then the 24
bits, V, U and C. -/
def hdSample (ws : List (BitVec 10)) : Word :=
  let a := ws.getD 0 0; let b := ws.getD 1 0; let c := ws.getD 2 0; let d := ws.getD 3 0
  sampleWord (udwBits a 4 4 + udwBits b 0 8 * 16 + udwBits c 0 8 * 2 ^ 12 + udwBits d 0 4 * 2 ^ 20)
    (d.getLsbD 4) (d.getLsbD 5) (d.getLsbD 6) (a.getLsbD 3)
def hdSampleWords (w : Word) : List (BitVec 10) :=
  let v := w.toNat % 2 ^ 24
  let d := v / 2 ^ 20 + w.toNat / 2 ^ 24 % 8 * 16
  let ones := ((bitsOf 24 v).filter id).length + ((bitsOf 3 (w.toNat / 2 ^ 24)).filter id).length
    + bit (w.getLsbD 27)
  [withParity (v % 16 * 16 + bit (w.getLsbD 27) * 8), withParity (v / 16), withParity (v / 2 ^ 12),
    withParity (d + ones % 2 * 128)]

/-- Three user data words of ST 272 as a channel of its group and a sample of 20 bits, and back. -/
def sdSample (ws : List (BitVec 10)) : Nat × Word :=
  let a := ws.getD 0 0; let b := ws.getD 1 0; let c := ws.getD 2 0
  (udwBits a 1 2,
    sampleWord ((udwBits a 3 6 + udwBits b 0 9 * 64 + udwBits c 0 5 * 2 ^ 15) * 16)
      (c.getLsbD 5) (c.getLsbD 6) (c.getLsbD 7) (a.getLsbD 0))
def sdSampleWords (ch : Nat) (w : Word) : List (BitVec 10) :=
  let v := w.toNat % 2 ^ 24 / 16
  let a := bit (w.getLsbD 27) + ch * 2 + v % 64 * 8
  let b := v / 64 % 512
  let c := v / 2 ^ 15 + w.toNat / 2 ^ 24 % 8 * 32
  let ones := ((bitsOf 9 a ++ bitsOf 9 b ++ bitsOf 8 c).filter id).length
  [withInverse a, withInverse b, withInverse (c + ones % 2 * 256)]

/-- A quotient to the nearest, ties to even (R286). -/
def roundEven (n : Int) (d : Nat) : Int :=
  let q := n / d
  let r := n % d
  if 2 * r < d then q else if 2 * r > d then q + 1 else if q % 2 = 0 then q else q + 1

/-- Sample × gain; V, U, C and the block-start flag pass unscaled (R286). -/
def scaleWord (w : Word) (n d : Nat) : Word :=
  let v := roundEven ((w.extractLsb' 0 24).toInt * n) d
  w.extractLsb' 24 8 ++ BitVec.ofInt 24 v

/-- A sample rounded to 20 bits, to the nearest with ties to even, at most the largest value (R291). -/
def to20 (w : Word) : Word :=
  let v := min (roundEven ((w.extractLsb' 0 24).toInt) 16) (2 ^ 19 - 1)
  w.extractLsb' 24 8 ++ BitVec.ofInt 24 (v * 16)

/-- Samples that an audio data packet brings, by channel of its group 0 to 3, oldest first. -/
def packetSamples (sd : Bool) (p : AncPacket) : List (Nat × Word) :=
  if sd then (pieces 3 p.data.length p.data).map sdSample
  else (List.range 4).map (fun k => (k, hdSample ((p.data.drop (2 + 4 * k)).take 4)))

/-- The four low bits that an extended data packet adds: one word for two samples (ST 272). -/
def extendedBits (p : AncPacket) : List Nat := p.data.flatMap (fun w => [udwBits w 0 4, udwBits w 4 4])

/-- The low bits that the extended data packet of a group on the same line adds; none where that packet is bad (R130,
R131). -/
def lineLowBits (sd : Bool) (g : Nat) (line : List RxAnc) : Option (List Nat) :=
  match line.find? (fun y => ancKind sd y.packet == .audioExtended g) with
  | some y => if y.good then some (extendedBits y.packet) else none
  | none => some []

/-- The samples of an audio data packet with the low bits of its extended one, each with its channel of the group. -/
def wholeSamples (sd : Bool) (low : List Nat) (p : AncPacket) : List (Nat × Word) :=
  (packetSamples sd p).zipIdx.map (fun x => (x.1.1, x.1.2 + BitVec.ofNat 32 (low.getD x.2 0)))

/-- What a control packet declares of its group: asynchronous, and a rate other than 48 kHz; the RATE word is
the second on HD, the third on SD. -/
def declaredRate (sd : Bool) (p : AncPacket) : Bool × Bool :=
  let w := p.data.getD (if sd then 2 else 1) 0
  (w.getLsbD 0, udwBits w 1 3 != 0)

/-! ## Packets that an output builds (R130, R131, R291) -/

/-- Six words of BCH check over the 24 words before them: bit by bit, the remainder by
x⁶ + x⁵ + x³ + x² + x + 1 (ST 299-1). -/
def eccStep (r : Nat) (b : Bool) : Nat :=
  let top := xor (r / 32 % 2 == 1) b
  let r := r * 2 % 64
  if top then Nat.xor r 0b101111 else r
def eccWords (ws : List (BitVec 10)) : List (BitVec 10) :=
  let rs := (List.range 8).map (fun k => (ws.map (fun w => w.getLsbD k)).foldl eccStep 0)
  (List.range 6).map (fun i => withParity ((rs.zipIdx.map (fun x => x.1 / 2 ^ i % 2 * 2 ^ x.2)).sum))

/-- The audio data packet of ST 299 of a group for one sample of four channels; `clock` is the sample's
place in the line in words of a stream. (PRESUMED, log entry 146.) -/
def hdAudioPacket (group line clock : Nat) (ch : List Word) : AncPacket :=
  let did := if group ≤ 4 then 0xE8 - group else 0xAC - group
  let head := [withParity (clock % 256), withParity (clock / 256 % 32)]
    ++ (List.range 4).flatMap (fun k => hdSampleWords (ch.getD k 0))
  let ecc := eccWords ([0, 0x3FF, 0x3FF, withParity did, withParity 0, withParity 24] ++ head)
  { did := BitVec.ofNat 8 did, sdid := 0, data := head ++ ecc, line := line, cStream := true, hanc := true }

/-- The audio data packet of ST 272 of a group for some periods of four channels, and with 24-bit samples
its extended data packet. (PRESUMED, log entry 146.) -/
def sdAudioPackets (group line : Nat) (wide : Bool) (periods : List (List Word)) : List AncPacket :=
  let words := periods.flatMap (fun ch => (List.range 4).flatMap (fun k =>
    sdSampleWords k (if wide then ch.getD k 0 else to20 (ch.getD k 0))))
  let low := periods.flatMap (fun ch => (List.range 2).map (fun k =>
    withParity ((ch.getD (2 * k) 0).toNat % 16 + (ch.getD (2 * k + 1) 0).toNat % 16 * 16)))
  let make := fun (did : Nat) (data : List (BitVec 10)) =>
    ({ did := BitVec.ofNat 8 did, sdid := 0, data := data, line := line, cStream := false, hanc := true } : AncPacket)
  make (0x101 - 2 * group) words :: (if wide then [make (0x100 - 2 * group) low] else [])

/-- The control packet of a group: synchronous 48 kHz, four active channels, no delay. (PRESUMED, log entry 146.) -/
def audioControlPacket (sd : Bool) (group line : Nat) : AncPacket :=
  let data := if sd then [withInverse 0, withInverse 0, withInverse 0, withInverse 0xF] ++ List.replicate 14 (withInverse 0)
    else [withInverse 0, withInverse 0, withInverse 0xF] ++ List.replicate 8 (withInverse 0)
  { did := BitVec.ofNat 8 (if sd then 0xF0 - group else 0xE4 - group), sdid := 0, data := data, line := line
    cStream := false, hanc := true }

/-- The payload ID packet (ST 352): four bytes, byte 1 first. -/
def payloadIdPacket (pid : Word) (line : Nat) : AncPacket :=
  { did := 0x41, sdid := 1, data := (leBytes 4 pid.toNat).map (fun b => withParity b.toNat), line := line
    cStream := false, hanc := true }

end Sys2Proof.Machine
end

