-- ==== Sys2Proof/Machine/Essence.lean ====
section
/-! DEFINITION. Essence.lean: what sources bring to the matrices and how container destinations send it:
frames, lines, ancillary packets and audio (R15 to R20, R81 to R91, R150, R169). -/

namespace Sys2Proof.Machine

/-- Change a link's counters. (DEDUCED, log entry 36.) -/
def countLink (f : Nat) (g : LinkCounters → LinkCounters) (s : State) : State :=
  let l := linkOf s f
  putLink s f { l with counters := g l.counters }

/-! ## Records -/

def essenceOf (s : State) (n : Nat) : Essence := tget (fun _ => {}) s.mtx.essences n
def putEssence (s : State) (n : Nat) (v : Essence) : State :=
  { s with mtx := { s.mtx with essences := tset (fun _ => {}) s.mtx.essences n v } }
/-- Good samples of channel k of a source's run arrive and wait for the audio grid (R86, R131). -/
def presentSamples (n k : Nat) (ws : List Word) (s : State) : State :=
  let e := essenceOf s n
  let waiting := tget (fun _ => ([] : List Word)) e.audio k
  putEssence s n { e with
    audio := tset (fun _ => []) e.audio k (waiting ++ ws)
    lastAudio := tset (fun _ => 0) e.lastAudio k (ws.getLast?.getD (tget (fun _ => (0 : Word)) e.lastAudio k)) }

/-- The last good sample of a channel arrives n times more (R91, R131). -/
def repeatSample (n k times : Nat) (s : State) : State :=
  presentSamples n k (List.replicate times (tget (fun _ => (0 : Word)) (essenceOf s n).lastAudio k)) s

/-- Sample periods of a source's channels arrive. -/
def presentPeriods (n : Nat) (periods : List (List Word)) (s : State) : State :=
  (List.range 16).foldl (fun s k => presentSamples n k (periods.map (fun p => p.getD k 0)) s) s

/-! ## Hang of a frame (R88, R146, R150) -/

/-- The hang number of a family for a frame that begins now: that of the next boundary from 100 µs before
it on (R146, R150). -/
def frameHang (s : State) (fam : Nat) : Word :=
  let f := familyOf s fam
  if f.boundary + periodRoot (familyRate s fam) ≤ rootNow s + 475200 then nextNumber s fam f.hang else f.hang

/-- The hang that a destination's FRAME_START announces for a frame of source n: the one that a fabric
source of its family has announced, else its own family's (R88, R150). (DEDUCED, log entry 167.) -/
def sentHang (s : State) (d : Nat) (n : Option Nat) : Word :=
  let fam := destFamily s d
  match n with
  | some n => if n < 1280 ∧ (fabricSource s n).family = fam then (fabricSource s n).hang else frameHang s fam
  | none => frameHang s fam

/-! ## Container destinations (R80 to R91) -/

/-- Queue the FRAME_START of a frame (R88). -/
def pushFrameStart (d : Nat) (pid hang : Word) (s : State) : State :=
  let s := pushSegments d [segment { destHeader s d with type := 4 } (frameStartWords pid (destFamily s d) hang)] s
  putTx s d { txOf s d with started := true, pid := pid, line := 0, second := false, ancUsed := 0 }

/-- Segments of a frame of a format that a container sends besides ancillary data: VIDEO, AUDIO of member 0,
and FRAME_START (R89, R90). -/
def frameSegments (fmt bond member : Nat) : Nat :=
  let perLine := (lineWordCount (lineSampleCount fmt) + 30) / 31
  let lines := ((pictureLines fmt).filter (fun l => l.2 % bond == member)).length
  lines * perLine + (if member = 0 then (16000 * frameTicks fmt + 593999999) / 594000000 else 0) + 1

/-- Segments that a container has room for in a frame of a format, at a rate code (R59, R81, R89): 608, 1,520
or 3,040 in a calendar period. (DEDUCED, log entry 36.) -/
def frameRoom (rate fmt : Nat) : Nat :=
  let perPeriod := 3040 / containersAt rate
  frameTicks fmt * 100000 * perPeriod / (768 * 8904192 * 2 ^ (3 - rate))

/-- Highest rate of the LOCKED lanes that carry a destination. -/
def carrierRate (s : State) (d : Nat) : Nat :=
  (((carriers s (d / 5)).filter (laneLocked s)).map (fun g => (laneOf s g).rate)).foldl max 0

/-- Queue an ancillary packet: member 0 alone carries it, in segments of its own, and what the frame has no capacity
left for is dropped and counted (R87, R89, R90). (DEDUCED, log entry 36.) (DESIGN CHOICE, log entry 186.) -/
def pushAnc (d : Nat) (p : AncPacket) (s : State) : State :=
  let (b, k) := destBond s d
  let t := txOf s d
  if d ≠ b ∨ !t.started then s
  else
    let fmt := Config.formatOfPid t.pid
    let h : SegHeader := { destHeader s d with type := 3, field := t.second, line := p.line }
    let gs := segments h true (ancRecord p)
    if frameSegments fmt k 0 + t.ancUsed + gs.length ≤ frameRoom (carrierRate s d) fmt then
      let s := pushSegments d gs s
      putTx s d { txOf s d with ancUsed := t.ancUsed + gs.length }
    else countLink (d / 5) (fun c => { c with ancOverflow := sat32 c.ancOverflow 1 }) s

/-- Queue a sample period of the destination's 16 channels; three periods fill a segment (R86, R90). -/
def pushAudio (d : Nat) (ch : List Word) (s : State) : State :=
  let t := txOf s d
  if d ≠ (destBond s d).1 ∨ !t.started then s
  else
    let t := if t.audio.isEmpty then { t with audioLine := t.line, audioSecond := t.second } else t
    let waiting := t.audio ++ [ch]
    if waiting.length < 3 then putTx s d { t with audio := waiting }
    else
      let h : SegHeader := { destHeader s d with type := 2, field := t.audioSecond, line := t.audioLine }
      pushSegments d [segment h (waiting.flatMap audioWords)] (putTx s d { t with audio := [] })

/-- The frame that a container destination sends in its fallback, at a PP of its family: BLACK sends
FRAME_START and black VIDEO segments, MUTE sends FILL alone; none before it knows a format (R169).
(DEDUCED, log entry 167.) -/
def fallbackFrame (d : Nat) (s : State) : State :=
  let t := txOf s d
  if !carriesDest s d || !t.started || (destCfg s d).fallback == 2 then s
  else
    let s := pushFrameStart d t.pid (sentHang s d none) s
    (blackPicture (Config.formatOfPid t.pid)).foldl (fun s l => pushLine d l s) s

/-! ## Words of a container slot (R80, R83) -/

/-- The next word of a container at a word index: a segment begins at every multiple of 32, FILL where none
waits. -/
def takeWord (fill : List Word64) (idx : Nat) (t : TxContainer) : Word64 × TxContainer :=
  let t := if idx % 32 ≠ 0 then t
    else match t.queue with
      | g :: rest => { t with rest := g, queue := rest }
      | [] => { t with rest := fill }
  (t.rest.headD 0, { t with rest := t.rest.drop 1 })

/-- Change the k-th entry of a list. -/
def setAt {α : Type} : List α → Nat → α → List α
  | [], _, _ => []
  | _ :: r, 0, v => v :: r
  | x :: r, k + 1, v => x :: setAt r k v

/-- n words from word w on, dealt from m containers (R80). -/
def dealWords (fills : List (List Word64)) (m : Nat) : Nat → Nat → List TxContainer → List Word64 × List TxContainer
  | 0, _, ts => ([], ts)
  | n + 1, w, ts =>
    let c := w % m
    let (x, t) := takeWord (fills.getD c []) (w / m) (ts.getD c {})
    let (xs, ts) := dealWords fills m n (w + 1) (setAt ts c t)
    (x :: xs, ts)

/-- The 128 payload words of container slot j of lane a at m containers (R80, R83). -/
def formSlot (a m j : Nat) (s : State) : List Word64 × State :=
  let ds := (List.range m).map (fun c => 5 * a + c)
  let fills := ds.map (fun d => segment (destHeader s d) [])
  let (ws, ts) := dealWords fills m 128 (128 * j) (ds.map (txOf s))
  (ws, (ds.zip ts).foldl (fun s x => putTx s x.1 x.2) s)

/-! ## What a source presents (R15, R16, R18) -/

/-- Container destinations that send what source n presents: carried, showing it, and not in fallback. -/
def sendingContainers (s : State) (n : Nat) : List Nat :=
  (showing s n).filter (fun d => d < 1280 && carriesDest s d && !(destRun s d).inFallback)

/-- An ancillary source is usable: with its picture; that of a packet slot with an ANC flow alone always (R169,
R202). (DEDUCED, log entry 66.) -/
def ancUsable (s : State) (n : Nat) : Bool :=
  let has := fun (anc : Bool) => s.pkt.rxFlows.any (fun e =>
    (e.2.kind == .anc) == anc && e.2.kind != .audio && (e.2.slot.map (fun k => 1440 + 16 * (e.1 / 1024) + k)) == some n)
  sourceUsable s n || (has true && !has false)

/-- Carried container destinations whose ancillary selection is source n, while it is usable (R148, R169). -/
def ancContainers (s : State) (n : Nat) : List Nat :=
  if ancUsable s n then
    (s.mtx.anc.filter (fun e => e.2.active == some n && e.1 < 1280 && carriesDest s e.1)).map (fun e => e.1)
  else []

/-- A frame of source n begins: the frame before it is complete, and every container destination that shows
the source starts a frame with its payload ID, one that treats it as lost a frame of its fallback (R88, R92,
R146, R169). (DEDUCED, log entry 167.) -/
def beginFrame (n : Nat) (pid : Word) (s : State) : State :=
  let e := essenceOf s n
  let s := putEssence s n { e with
    now := { pid := pid }, done := e.now, beganAt := rootNow s, doneAt := e.beganAt }
  let held := (showing s n).filter (fun d => decide (d < 1280) && (destRun s d).inFallback)
  let s := held.foldl (fun s d => fallbackFrame d s) s
  (sendingContainers s n).foldl (fun s d => pushFrameStart d pid (sentHang s d (some n)) s) s

/-- A container destination switches to source n after the source's frame of the hang has begun: the whole frame comes
from it, with its FRAME_START (R146). -/
def resumeFrame (d n : Nat) (s : State) : State :=
  let f := (essenceOf s n).now
  let s := f.lines.foldl (fun s l => pushLine d l s) (pushFrameStart d f.pid (sentHang s d (some n)) s)
  if (ancContainers s n).contains d then f.anc.foldl (fun s p => pushAnc d p s) s else s

/-- A line of active picture of source n leaves for the matrices (R15, R85). (DESIGN CHOICE, log entry 143.) -/
def presentLine (n : Nat) (l : PicLine) (s : State) : State :=
  let e := essenceOf s n
  let s := putEssence s n { e with now := { e.now with lines := e.now.lines ++ [l] } }
  (sendingContainers s n).foldl (fun s d => pushLine d l s) s

/-- An ancillary packet of source n leaves for the ancillary matrix, with the line on which it was received
(R16, R87). -/
def presentAnc (n : Nat) (p : AncPacket) (s : State) : State :=
  let e := essenceOf s n
  let s := putEssence s n { e with now := { e.now with anc := e.now.anc ++ [p] } }
  (ancContainers s n).foldl (fun s d => pushAnc d p s) s

/-- A whole frame of source n is presented at once, its audio left aside. -/
def presentFrame (n : Nat) (f : MediaFrame) (s : State) : State :=
  let s := beginFrame n f.pid s
  let s := f.lines.foldl (fun s l => presentLine n l s) s
  f.anc.foldl (fun s p => presentAnc n p s) s

end Sys2Proof.Machine
end

