-- ==== Sys2Proof/Machine/Raster.lean ====
section
/-! DEFINITION. Raster.lean: the rasters of the SDI formats: where the active lines stand, and how an output
builds its lines from picture, ancillary packets and audio (R125, R127 to R133, R147). What the manual leaves
to the interface standards follows them. (PRESUMED, log entry 146.) -/

namespace Sys2Proof.Machine

/-! ## Geometry -/

/-- An SD format (ST 259). -/
def isSd (fmt : Nat) : Bool := fmt == 0x01 || fmt == 0x02

/-- Level B-DL formats (R107). -/
def isLevelB (fmt : Nat) : Bool := fmt == 0x38 || fmt == 0x39 || fmt == 0x3A

/-- Sub-images that one lane of a format carries: two links of Level B-DL, four of 6G and 12G. -/
def subImages (fmt : Nat) : Nat :=
  if isLevelB fmt then 2 else if (formatLines fmt).1 = 2160 ∧ !isQuad fmt then 4 else 1

/-- Lines of the raster of one link or sub-image. -/
def rasterLines (fmt : Nat) : Nat :=
  match (formatLines fmt).1 with | 486 => 525 | 576 => 625 | 720 => 750 | _ => 1125

/-- The raster is interlaced: two fields, also for psF and the links of Level B-DL. -/
def rasterInterlaced (fmt : Nat) : Bool := (formatLines fmt).2 != 0 || isLevelB fmt

/-- Active raster lines: first of field 1 and, of an interlaced raster, of field 2, with their number.
(PRESUMED, log entry 146.) -/
def activeBands (fmt : Nat) : List (Nat × Nat) :=
  match rasterLines fmt with
  | 525 => [(21, 243), (283, 243)]
  | 625 => [(23, 288), (336, 288)]
  | 750 => [(26, 720)]
  | _ => if rasterInterlaced fmt then [(21, 540), (584, 540)] else [(42, 1080)]

/-- Frames that one run through a raster carries: two for Level B-DL, whose links are interlaced. -/
def fieldsOfRaster (fmt : Nat) : Nat := if isLevelB fmt then 2 else 1

/-- The active line that a raster line carries: band and number from 1. -/
def bandLine (fmt line : Nat) : Option (Nat × Nat) :=
  (activeBands fmt).zipIdx.findSome? (fun b =>
    if b.1.1 ≤ line ∧ line < b.1.1 + b.1.2 then some (b.2, line - b.1.1 + 1) else none)

/-- Samples of an active line in one link or sub-image: two for each pixel. -/
def imageSamples (fmt : Nat) : Nat :=
  match rasterLines fmt with | 525 | 625 => 1440 | 750 => 2560 | _ => 3840

/-- Words of a whole line of one stream; SD has one stream, every other raster two. -/
def lineLength (fmt : Nat) : Nat :=
  match rasterLines fmt, (formatRate fmt).getD 0 with
  | 525, _ => 1716
  | 625, _ => 1728
  | 750, r => if r = 5 then 1980 else 1650
  | _, r => if r = 0 ∨ r = 1 then 2750 else if r = 2 ∨ r = 5 then 2640 else 2200

/-- F of a raster line: second field. -/
def fieldTwo (fmt line : Nat) : Bool :=
  match rasterLines fmt with
  | 525 => line < 4 || 266 ≤ line
  | 625 => 313 ≤ line
  | 750 => false
  | _ => rasterInterlaced fmt && 564 ≤ line

/-- Last line of the field of a raster line, and whether a line belongs to vertical blanking. -/
def fieldEnd (fmt line : Nat) : Nat :=
  if !rasterInterlaced fmt || fieldTwo fmt line && !(rasterLines fmt == 525 && line < 4) then rasterLines fmt
  else match rasterLines fmt with | 525 => if line < 4 then 3 else 265 | 625 => 312 | _ => 563
def isVanc (fmt line : Nat) : Bool := (bandLine fmt line).isNone

/-- The switching line of an output (R147). -/
def switchingLine (fmt : Nat) : Nat := match rasterLines fmt with | 525 => 10 | 625 => 6 | _ => 7

/-- The lines on which ST 352 is inserted (R129). -/
def pidLines (fmt : Nat) : List Nat :=
  match rasterLines fmt with
  | 525 => [13, 276]
  | 625 => [9, 322]
  | 750 => [10]
  | _ => if rasterInterlaced fmt then [10, 572] else [10]

/-! ## Pictures and sub-images (R107, R110) -/

/-- Take turns between lists, n samples at a time; two-sample interleave takes four words of two pixels. -/
def weave (n : Nat) : Nat → List (BitVec 10) → List (BitVec 10) → List (BitVec 10)
  | 0, _, _ => []
  | fuel + 1, a, b => if a.isEmpty && b.isEmpty then [] else a.take n ++ weave n fuel b (a.drop n)

/-- Every second piece of n samples, from the first or the second one on. -/
def unweave (n : Nat) (odd : Bool) (xs : List (BitVec 10)) : List (BitVec 10) :=
  (((pieces n xs.length xs).zipIdx).filter (fun p => decide (p.2 % 2 = 1) == odd)).flatMap (fun p => p.1)

/-- The picture lines that a raster line of all sub-images carries: 2160 lines by two-sample interleave,
Level B-DL two lines, else one. (PRESUMED, log entry 146.) -/
def picturesOf (fmt line : Nat) (images : List (List (BitVec 10))) : List PicLine :=
  match bandLine fmt line with
  | none => []
  | some (band, k) =>
    let im := fun (i : Nat) => images.getD i []
    if (formatLines fmt).1 = 2160 then
      [{ second := false, line := 2 * k - 1, samples := weave 4 7680 (im 0) (im 1) },
       { second := false, line := 2 * k, samples := weave 4 7680 (im 2) (im 3) }]
    else if isLevelB fmt then
      [{ second := false, line := 2 * k - 1, samples := im 0 }, { second := false, line := 2 * k, samples := im 1 }]
    else [{ second := band == 1, line := k, samples := im 0 }]

/-- The samples of one active raster line of one link or sub-image, from a picture; black where the picture
has no such line (R127). `field` is the picture of the field, for Level B-DL. -/
def imageLine (fmt sub band k : Nat) (picture : List PicLine) : List (BitVec 10) :=
  let black := blackLine (lineSampleCount fmt)
  let find := fun (second : Bool) (n : Nat) =>
    match picture.find? (fun l => l.second == second && l.line == n) with
    | some l => if l.samples.length = black.length then l.samples else black
    | none => black
  if (formatLines fmt).1 = 2160 then unweave 4 (sub % 2 == 1) (find false (2 * k - 1 + sub / 2))
  else if isLevelB fmt then find false (2 * k - 1 + sub)
  else find (band == 1) k

/-! ## Lines (R125) -/

/-- XYZ of a timing reference. -/
def trsXyz (f v h : Bool) : BitVec 10 :=
  BitVec.ofNat 10 (512 + bit f * 256 + bit v * 128 + bit h * 64 + bit (xor v h) * 32 + bit (xor f h) * 16
    + bit (xor f v) * 8 + bit (xor (xor f v) h) * 4)

/-- A timing reference. -/
def trsWords (f v h : Bool) : List (BitVec 10) := [0x3FF, 0, 0, trsXyz f v h]

/-- The line number words. -/
def lineNumberWords (n : Nat) : List (BitVec 10) := [withInverse (n % 128 * 4), BitVec.ofNat 10 (512 + n / 128 * 4)]

/-- Line CRC: x¹⁸ + x⁵ + x⁴ + 1, least significant bit first. -/
def crc18Bit (c : BitVec 18) (b : Bool) : BitVec 18 :=
  if xor (c.getLsbD 0) b then (c >>> 1) ^^^ 0x23000 else c >>> 1
def crc18 (ws : List (BitVec 10)) : BitVec 18 := (ws.flatMap (fun w => bitsOf 10 w.toNat)).foldl crc18Bit 0
def crcWords (c : BitVec 18) : List (BitVec 10) := [withInverse (c.toNat % 512), withInverse (c.toNat / 512)]

/-- Words filled up with blanking to a length. -/
def blank (n : Nat) (level : BitVec 10) (ws : List (BitVec 10)) : List (BitVec 10) :=
  (ws ++ List.replicate n level).take n

/-- SD blanking: 512 and 64 by turns. -/
def blankSd (n : Nat) (ws : List (BitVec 10)) : List (BitVec 10) :=
  ws ++ (List.range (n - ws.length)).map (fun k => blackSample (ws.length + k))

/-- Two streams as the interface sends them, C before Y. -/
def interleave : List (BitVec 10) → List (BitVec 10) → List (BitVec 10)
  | c :: cs, y :: ys => c :: y :: interleave cs ys
  | cs, ys => cs ++ ys

/-- Streams of an active line: C at the even places, Y at the odd ones. -/
def sampleStream (y : Bool) (xs : List (BitVec 10)) : List (BitVec 10) :=
  ((xs.zipIdx).filter (fun p => decide (p.2 % 2 = 1) == y)).map (fun p => p.1)

/-- Ancillary packets of a line and space: words of Y (or SD) and of C. -/
structure LineAnc where
  hancY : List AncPacket := []
  hancC : List AncPacket := []
  vancY : List AncPacket := []
  vancC : List AncPacket := []
  deriving DecidableEq, Repr

def packetWords (ps : List AncPacket) : List (BitVec 10) := ps.flatMap ancWords

/-- An SD line: EAV, HANC, SAV, active or VANC. -/
def sdLine (fmt line : Nat) (active : Option (List (BitVec 10))) (a : LineAnc) : List (BitVec 10) :=
  let f := fieldTwo fmt line
  let v := active.isNone
  trsWords f v true ++ blankSd (lineLength fmt - imageSamples fmt - 8) (packetWords a.hancY)
    ++ trsWords f v false ++ active.getD (blankSd (imageSamples fmt) (packetWords a.vancY))

/-- One stream of a line of a two-stream raster; the CRC covers the line before from its active part on, and
this line's EAV and line number. -/
def hdStream (fmt line : Nat) (v y : Bool) (hanc active before : List (BitVec 10)) : List (BitVec 10) :=
  let f := fieldTwo fmt line
  let head := trsWords f v true ++ lineNumberWords line
  head ++ crcWords (crc18 (before ++ head))
    ++ blank (lineLength fmt - imageSamples fmt / 2 - 12) (if y then 64 else 512) hanc
    ++ trsWords f v false ++ active

/-- The active part of one stream of a line: picture, or the VANC packets in blanking. -/
def activeStream (fmt : Nat) (y : Bool) (active : Option (List (BitVec 10))) (vanc : List AncPacket) :
    List (BitVec 10) :=
  match active with
  | some xs => sampleStream y xs
  | none => blank (imageSamples fmt / 2) (if y then 64 else 512) (packetWords vanc)

/-! ## Placement of packets (R131, R133) -/

/-- What has been placed on the lines of a raster. -/
abbrev Placed := Tab LineAnc

/-- Words that a space of a line holds in one stream. -/
def spaceRoom (fmt : Nat) (hanc : Bool) : Nat :=
  if isSd fmt then (if hanc then lineLength fmt - imageSamples fmt - 8 else imageSamples fmt)
  else if hanc then lineLength fmt - imageSamples fmt / 2 - 12 else imageSamples fmt / 2

/-- The packets that stand where a packet goes. -/
def standing (fmt : Nat) (p : AncPacket) (a : LineAnc) : List AncPacket :=
  if isSd fmt || !p.cStream then (if p.hanc then a.hancY else a.vancY) else if p.hanc then a.hancC else a.vancC

/-- Put a packet after those of its line, space and stream. -/
def putPacket (fmt line : Nat) (p : AncPacket) (t : Placed) : Placed :=
  let a := tget (fun _ => ({} : LineAnc)) t line
  let ps := standing fmt p a ++ [p]
  tset (fun _ => {}) t line
    (if isSd fmt || !p.cStream then (if p.hanc then { a with hancY := ps } else { a with vancY := ps })
     else if p.hanc then { a with hancC := ps } else { a with vancC := ps })

/-- A packet has room on a line. -/
def packetFits (fmt line : Nat) (p : AncPacket) (t : Placed) : Bool :=
  decide ((packetWords (standing fmt p (tget (fun _ => {}) t line))).length + (ancWords p).length
    ≤ spaceRoom fmt p.hanc)

/-- Put a packet on the first of some lines that has room; none where no line has. -/
def placeOn (fmt : Nat) (p : AncPacket) (t : Placed) : List Nat → Option Placed
  | [] => none
  | l :: r => if packetFits fmt l p t then some (putPacket fmt l p t) else placeOn fmt p t r

/-- A packet carries audio data (R130). -/
def isAudioData (fmt : Nat) (p : AncPacket) : Bool :=
  match ancKind (isSd fmt) p with | .audioData _ => p.hanc | .audioExtended _ => p.hanc | _ => false

/-- Lines on which a packet may be placed, in order: its own, and the later ones of its field; a VANC packet
only on VANC lines, and from the line of ST 352 or the one after the switching line it moves on; audio data never on
the line after the switching line (R131, R133). -/
def candidateLines (fmt : Nat) (p : AncPacket) : List Nat :=
  let quiet := switchingLine fmt + 1
  let barred := fun (l : Nat) => (pidLines fmt).contains l || l == quiet
  (List.range (fieldEnd fmt p.line + 1 - p.line)).map (fun k => p.line + k)
    |>.filter (fun l =>
      if isAudioData fmt p then l != quiet else p.hanc || (isVanc fmt l && !(l == p.line && barred l)))

/-- Place packets in their order on lines that the frame has; how many are dropped (R133). -/
def placePackets (fmt : Nat) (lines : List Nat) : List AncPacket → Placed → Placed × Nat
  | [], t => (t, 0)
  | p :: r, t =>
    match placeOn fmt p t ((candidateLines fmt p).filter lines.contains) with
    | some t => placePackets fmt lines r t
    | none => let (t, n) := placePackets fmt lines r t; (t, n + 1)

/-- The line of a frame on which sample k of n is embedded: that in which it falls, past the line after the switching
line (R131). (PRESUMED, log entry 146.) -/
def sampleLine (fmt : Nat) (lines : List Nat) (k n : Nat) : Nat :=
  let l := lines.getD (k * lines.length / n) 1
  if l = switchingLine fmt + 1 then l + 1 else l

/-- The enabled groups of an output, from 0 (R291). -/
def embeddedGroups (c : EmbedCfg) : List Nat := (List.range 4).filter (fun g => c.groupEn.getLsbD g)

/-- The four channels of a group in a sample period. -/
def groupChannels (g : Nat) (ch : List Word) : List Word := (ch.drop (4 * g)).take 4

/-- The audio control packets of a frame, for the enabled groups (R130, R291). -/
def controlPackets (fmt : Nat) (c : EmbedCfg) : List AncPacket :=
  if c.control then
    (if rasterInterlaced fmt then [0, (fieldEnd fmt 4)] else [0]).flatMap (fun base =>
      (embeddedGroups c).map (fun g => audioControlPacket (isSd fmt) (g + 1) (base + switchingLine fmt + 2)))
  else []

/-- The audio data packets of ST 299: one for each sample period and group (R130, R131). -/
def hdAudio (fmt : Nat) (c : EmbedCfg) (periods : List (List Word)) (lines : List Nat) : List AncPacket :=
  let n := periods.length
  periods.zipIdx.flatMap (fun x => (embeddedGroups c).map (fun g =>
    hdAudioPacket (g + 1) (sampleLine fmt lines x.2 n) (x.2 * lines.length % n * lineLength fmt / n)
      (groupChannels g x.1)))

/-- Sample periods of a group that fit into some words of an SD line: its data packet holds 12 words of each, an
extended one 2 more. -/
def sdShare (wide : Bool) (words : Nat) : Nat :=
  min 21 (if wide then (words - 14) / 14 else (words - 7) / 12)

/-- The audio data packets of one SD line: each group takes its samples that are due, as far as its share of the words
that are left holds them; the others wait for the next lines (R131). (PRESUMED, log entry 146.) -/
def sdLineAudio (wide : Bool) (line due : Nat) (periods : List (List Word)) :
    List Nat → Nat → Tab Nat → List AncPacket × Tab Nat
  | [], _, at' => ([], at')
  | g :: rest, words, at' =>
    let from' := tget (fun _ => 0) at' g
    let k := min (due - from') (sdShare wide (words / (rest.length + 1)))
    if k = 0 then sdLineAudio wide line due periods rest words at'
    else
      let ps := sdAudioPackets (g + 1) line wide (((periods.drop from').take k).map (groupChannels g))
      let (more, at') := sdLineAudio wide line due periods rest (words - (packetWords ps).length)
        (tset (fun _ => 0) at' g (from' + k))
      (ps ++ more, at')

/-- The audio data packets of ST 272 on the lines of a frame; the groups take turns in coming first (R130, R131). -/
def sdAudio (fmt : Nat) (c : EmbedCfg) (periods : List (List Word)) (t : Placed) : List Nat → Tab Nat → List AncPacket
  | [], _ => []
  | l :: rest, at' =>
    if l = switchingLine fmt + 1 then sdAudio fmt c periods t rest at'
    else
      let due := if rest.isEmpty then periods.length else (l * periods.length + rasterLines fmt - 1) / rasterLines fmt
      let room := spaceRoom fmt true - (packetWords (tget (fun _ => ({} : LineAnc)) t l).hancY).length
      let (ps, at') := sdLineAudio c.sdWidth l due periods ((embeddedGroups c).rotateLeft l) room at'
      ps ++ sdAudio fmt c periods t rest at'

/-- Audio data packets of a frame's sample periods, beside what has been placed (R130, R131, R291). -/
def embedAudio (fmt : Nat) (c : EmbedCfg) (periods : List (List Word)) (lines : List Nat) (t : Placed) : List AncPacket :=
  if isSd fmt then sdAudio fmt c periods t lines [] else hdAudio fmt c periods lines

/-! ## The frame (R125) -/

/-- The active part of a line of a link or sub-image, C and Y. -/
abbrev LineTail := List (BitVec 10) × List (BitVec 10)

/-- The lines of one link or sub-image, in order, each with whether it is a repeated one, which carries no packets;
`before` is the active part of the line before. -/
def rasterFrom (fmt sub : Nat) (picture : List PicLine) (t : Placed) :
    List (Nat × Bool) → LineTail → List RasterLine
  | [], _ => []
  | (l, again) :: r, before =>
    let active := (bandLine fmt l).map (fun x => imageLine fmt sub x.1 x.2 picture)
    let a := if again then {} else tget (fun _ => ({} : LineAnc)) t l
    if isSd fmt then
      { line := l, sub := sub, words := sdLine fmt l active a } :: rasterFrom fmt sub picture t r before
    else
      let c := activeStream fmt false active a.vancC
      let y := activeStream fmt true active a.vancY
      let words := interleave (hdStream fmt l active.isNone false (packetWords a.hancC) c before.1)
        (hdStream fmt l active.isNone true (packetWords a.hancY) y before.2)
      { line := l, sub := sub, words := words } :: rasterFrom fmt sub picture t r (c, y)

/-- The active part of the last line of a link or sub-image of a frame; blanking where a raster starts anew. (PRESUMED,
log entry 146.) -/
def lastTail (fmt sub : Nat) (frame : List RasterLine) : LineTail :=
  match (frame.filter (fun l => l.sub == sub)).getLast? with
  | some l =>
    let active := l.words.drop (l.words.length - imageSamples fmt)
    (sampleStream false active, sampleStream true active)
  | none => (List.replicate (imageSamples fmt / 2) 512, List.replicate (imageSamples fmt / 2) 64)

/-- The lines of a frame where the line at is omitted or repeated (R128). -/
def slipLine (slip : Option LineSlip) (at' : Nat) (lines : List (Nat × Bool)) : List (Nat × Bool) :=
  match slip with
  | none => lines
  | some .omitted => lines.filter (fun l => l.1 != at')
  | some .repeated => lines.flatMap (fun l => if l.1 = at' then [l, (l.1, true)] else [l])

/-- The lines of a frame that a realignment makes n lines longer, or below 0 shorter: its last line of vertical blanking
is repeated, or its last ones are cut; what they do not make up is cut from the end (R278). (DEDUCED, log entry 187.) -/
def stretchFrame (fmt : Nat) (n : Int) (lines : List (Nat × Bool)) : List (Nat × Bool) :=
  let blanking := (lines.filter (fun l => isVanc fmt l.1)).reverse
  let last := (blanking.headD (0, false)).1
  if 0 ≤ n then lines.flatMap (fun l => if l.1 = last then l :: List.replicate n.toNat (l.1, true) else [l])
  else (lines.filter (fun l => !(blanking.take n.natAbs).contains l)).take (lines.length - n.natAbs)

/-- The lines of the raster that a frame takes, from 1 on: all, or of Level B-DL those of its field. -/
def ownLines (fmt : Nat) (second : Bool) : List Nat :=
  ((List.range (rasterLines fmt)).map (fun k => k + 1)).filter (fun l => !isLevelB fmt || fieldTwo fmt l == second)

/-- The lines of a frame in order, with a slip and a change of length (R128, R278). -/
def frameLines (fmt : Nat) (second : Bool) (slip : Option LineSlip) (longer : Int) : List (Nat × Bool) :=
  stretchFrame fmt longer (slipLine slip (((activeBands fmt).headD (42, 0)).1 - 1)
    ((ownLines fmt second).map (fun l => (l, false))))

/-- The frame of an output: format, payload ID of each link or sub-image, picture, packets, embedded audio
settings and sample periods, its lines, and the frame before it (R125 to R133). Packets and audio leave on the first
link. How many packets are dropped. (DEDUCED, log entry 169.) -/
def frameRaster (fmt : Nat) (pids : List Word) (picture : List PicLine) (anc : List AncPacket) (emb : EmbedCfg)
    (periods : List (List Word)) (lines : List (Nat × Bool)) (before : List RasterLine) : List RasterLine × Nat :=
  let own := (lines.filter (fun l => !l.2)).map (fun l => l.1)
  let pidsOf := fun (w : Word) => (pidLines fmt).map (fun l => payloadIdPacket w l)
  let (fixed, _) := placePackets fmt own (pidsOf (pids.headD 0) ++ controlPackets fmt emb) []
  let (first, dropped) := placePackets fmt own (embedAudio fmt emb periods own fixed ++ anc) fixed
  (pids.zipIdx.flatMap (fun w =>
    let t := if w.2 = 0 then first else (placePackets fmt own (pidsOf w.1) []).1
    rasterFrom fmt w.2 picture t lines (lastTail fmt w.2 before)), dropped)

/-- Links or sub-images of an output's frame. -/
def outputImages (fmt : Nat) : Nat := if isQuad fmt then 4 else subImages fmt

/-- The words that link k of an output sends: its lines; the sub-images of one lane word by word in turn. -/
def linkWords (fmt k : Nat) (raster : List RasterLine) : List (BitVec 10) :=
  if isQuad fmt then (raster.filter (fun l => l.sub == k)).flatMap (fun l => l.words)
  else
    let images := (List.range (outputImages fmt)).map (fun i => raster.filter (fun l => l.sub == i))
    (images.headD []).zipIdx.flatMap (fun l =>
      let parts := images.map (fun im => (im.getD l.2 l.1).words)
      (List.range l.1.words.length).flatMap (fun j => parts.map (fun p => p.getD j 0)))

/-! ## Line code (R46) -/

/-- Scramble by x⁹ + x⁴ + 1, then NRZI: the levels of bits, and the scrambler and level after them. -/
def nrziBits : List Bool → BitVec 9 → Bool → List Bool × BitVec 9 × Bool
  | [], k, v => ([], k, v)
  | b :: r, k, v =>
    let x := xor (xor b (k.getLsbD 8)) (k.getLsbD 3)
    let v := xor v x
    let (out, k', v') := nrziBits r ((k <<< 1) ||| (if x then 1 else 0)) v
    (v :: out, k', v')

end Sys2Proof.Machine
end

