-- ==== Sys2Proof/Machine/SdiOps.lean ====
section
/-! DEFINITION. SdiOps.lean: what an SDI input and an SDI output do at a loss, a detection, an
isolation and a frame (R107 to R136). -/

namespace Sys2Proof.Machine

/-! ## Codes -/

def sdiSource (e : Nat) : Nat := 1280 + e
def sdiInFault (e : Nat) : Nat := faultId 0x03 (e / 10) (e % 10)
def sdiOutFault (e : Nat) : Nat := faultId 0x03 (e / 10) (10 + e % 10)

/-- Reasons of R114. -/
def whyNoSignal : Nat := 1
/-- DEDUCED, log entry 37. -/
def whyCdr : Nat := 2
def whyDetecting : Nat := 3
def whyFormatChange : Nat := 4
def whyUnsupported : Nat := 5
def whyFamily : Nat := 6
def whyWindowClass : Nat := 7
def whyOutOfWindow : Nat := 8
def whyLink : Nat := 9
def whyReconfig : Nat := 10
def whyIsolated : Nat := 11

/-- State code of R112. -/
def sdiStateCode : SdiState → Nat
  | .noSignal => 0 | .detecting => 1 | .usable => 2 | .outOfWindow => 3

/-- Frame period of a format in 594 × 2⁻¹⁶ ns. -/
def framePeriod594 (f : Nat) : Nat :=
  let p := periodUnits594 ((formatRate f).getD 0)
  if formatDouble f then p / 2 else p

/-- An offset lies within ±n lines of a format (R112, R116). -/
def withinLines (f n : Nat) (offset : Int) : Bool :=
  decide (offset.natAbs * 594 * formatTotalLines f ≤ n * framePeriod594 f)

/-- An offset in whole lines of a format (R116). -/
def offsetLines (f : Nat) (offset : Int) : Int :=
  Int.tdiv (offset * 594 * formatTotalLines f) (framePeriod594 f)

/-! ## Payload IDs (R115) -/

/-- The payload ID carried with a frame: as received, or built from the structure and PID_FILL.
(DESIGN CHOICE, log entry 44.) -/
def carriedPid (fill : BitVec 16) (fmt : Nat) (pid : Option Word) : Word :=
  match pid with
  | some w => w
  | none => (if fill = 0 then Config.pidFillDefault else fill) ++ Config.pidOfFormat fmt

/-- The payload ID that is sent on a link or sub-image of a format: interface bits of the format's own mapping, the
link number where there are several, the other bits as carried; built from the format where no source has been shown
(R127, R129). (PRESUMED, log entry 146.) -/
def imagePid (fmt : Nat) (last : Option Word) (sub : Nat) : Word :=
  let own := Config.pidOfFormat fmt
  let w := match last with
    | some w => w.extractLsb' 8 24 ++ own.extractLsb' 0 8
    | none => carriedPid 0 fmt none
  if 1 < outputImages fmt then BitVec.ofNat 2 sub ++ w.extractLsb' 0 30 else w

/-- Byte 1 of the payload IDs of the interfaces of R107: 525 and 625 lines on 270 Mb/s, 720 and 1,080 lines on 1.5G,
1,080 lines on 3G Level A and Level B-DL, 2,160 lines on 6G and 12G; and of quad-link 3G with two-sample interleave.
(PRESUMED, log entry 146.) -/
def knownPayloads (quad : Bool) : List (BitVec 8) := if quad then [0x97] else [0x81, 0x84, 0x85, 0x89, 0x8A, 0xC0, 0xCE]

/-- A payload ID that shows an interface outside R107 (Level B-DS, dual link, square division, 24G), samples of more
than 10 bits, or another sampling than 4:2:2 YCbCr (R108). -/
def pidUnsupported (quad : Bool) (pid : Option Word) : Bool :=
  match pid with
  | some w => !(knownPayloads quad).contains (w.extractLsb' 0 8) || w.extractLsb' 16 4 != 0
      || 2 ≤ (w.extractLsb' 24 2).toNat
  | none => false

/-! ## Inputs -/

/-- Change an input's counters. -/
def countSdiIn (e : Nat) (f : SdiInCounters → SdiInCounters) (s : State) : State :=
  let i := sdiInOf s e
  putSdiIn s e { i with counters := f i.counters }

/-- An input in FRAMESYNC mode with FS_LOSS = FREEZE and a frame to present (R122). -/
def freezes (s : State) (e : Nat) : Bool :=
  let c := sdiInCfg s e
  let i := sdiInOf s e
  c.mode == 2 && c.freeze && i.haveFrame && (sourceOf s (sdiSource e)).usable

/-- Detection restarts; what waited to be presented is gone. -/
def restartDetection (i : SdiIn) : SdiIn :=
  { i with last := none, same := 0, trsRun := 0, atLine := 0, window := [], writing := {}, quad := [], groups := [] }

/-! ## Audio of an input (R121, R122, R131) -/

/-- A channel of an SDI input is marked non-audio (R121, R287). -/
def sdiNonAudio (s : State) (e k : Nat) : Bool := s.aud.nonAudio.contains (20480 + 16 * e + k)

/-- Samples that fade in over 1 ms, 48 periods (R121). -/
def fadeIn (ws : List Word) : List Word := ws.zipIdx.map (fun w => scaleWord w.1 (min w.2 48) 48)

/-- Samples that fade out over 1 ms and end (R122). -/
def fadeAway (ws : List Word) : List Word := ((ws.take 48).zipIdx).map (fun w => scaleWord w.1 (48 - w.2) 48)

/-- The audio of a frozen input ends: each channel after a fade of 1 ms, a non-audio one at once (R121,
R122). -/
def freezeAudio (e : Nat) (s : State) : State :=
  let n := sdiSource e
  let v := essenceOf s n
  putEssence s n { v with audio := v.audio.filterMap (fun x =>
    let ws := if sdiNonAudio s e x.1 then [] else fadeAway x.2
    if ws.isEmpty then none else some (x.1, ws)) }

/-- A source is lost with all that it was bringing. -/
def loseEssence (n : Nat) (s : State) : State := loseSource n (putEssence s n {})

/-- The isolation of an input (R112, R136). -/
def isolateSdiIn (e : Nat) (s : State) : State :=
  let i := sdiInOf s e
  let freeze := freezes s e
  let left := i.state == .usable
  let next := match i.state with | .noSignal => SdiState.noSignal | _ => SdiState.detecting
  let s := putSdiIn s e { restartDetection i with isolated := true, state := next, reason := whyIsolated
                                                  usablePending := false, frozen := i.frozen || freeze }
  let s := if left then countSdiIn e (fun c => { c with losses := sat32 c.losses 1 }) s else s
  if freeze then freezeAudio e s else loseEssence (sdiSource e) s

/-- The isolation of an output: it sends black until FAULT_ACK (R136). -/
def isolateSdiOut (e : Nat) (s : State) : State :=
  judgeDest (1280 + e) (putSdiOut s e { sdiOutOf s e with isolated := true })

/-- Raise an SDI source (R135, R136). -/
def raiseSdi (id : Nat) (s : State) : State :=
  let iso := decide (2 ≤ effectiveSeverity s id)
  let s := raiseCore id s
  if iso then
    let i := faultIndex id
    let g := faultLoc id
    if i < 10 then isolateSdiIn (10 * g + i) s else isolateSdiOut (10 * g + (i - 10)) s
  else s

/-- An input leaves the state in which it is, by its signal (R112, R122). The source is lost, or
frozen; its fault source is raised when it leaves USABLE (R135). (DEDUCED, log entry 41.) -/
def dropSdiIn (e : Nat) (next : SdiState) (why : Nat) (s : State) : State :=
  let i := sdiInOf s e
  let left := i.state == .usable
  let linkGone := why == whyLink && i.state == .outOfWindow
  let freeze := freezes s e
  let s := putSdiIn s e { restartDetection i with state := next, usablePending := false
                                                  reason := if i.isolated then whyIsolated else why
                                                  frozen := i.frozen || freeze }
  let s := if freeze then freezeAudio e s else loseEssence (sdiSource e) s
  if left then
    raiseSdi (sdiInFault e) (countSdiIn e (fun c => { c with losses := sat32 c.losses 1 }) s)
  else if linkGone then raiseSdi (sdiInFault e) s
  else s

/-- A loss that a command causes: the source is lost, a frozen one included; nothing is raised
(R112, R122, R135). -/
def reconfigSdiIn (e : Nat) (next : SdiState) (s : State) : State :=
  let i := sdiInOf s e
  let left := i.state == .usable
  let s := putSdiIn s e { restartDetection i with
      state := next, usablePending := false, frozen := false, haveFrame := false, completed := 0
      stored := {}, shown := {}, seam := false
      reason := if i.isolated then whyIsolated else whyReconfig }
  let s := if left then countSdiIn e (fun c => { c with losses := sat32 c.losses 1 }) s else s
  loseEssence (sdiSource e) s

/-- FAULT_ACK of an input source (R112). -/
def ackSdiIn (e : Nat) (s : State) : State :=
  let i := sdiInOf s e
  if i.isolated then
    let i := { i with isolated := false, reason := if i.state = .noSignal then whyNoSignal else whyDetecting }
    putSdiIn s e (if i.state = .detecting then restartDetection i else i)
  else s

/-- FAULT_ACK of an output source (R136). -/
def ackSdiOut (e : Nat) (s : State) : State := putSdiOut s e { sdiOutOf s e with isolated := false }

/-- Base lane of the quad-link input that a lane belongs to, or the lane itself (R110). -/
def quadBaseIn (s : State) (e : Nat) : Nat :=
  if quadMemberIn s e then e - e % 10 + (if e % 10 < 4 then 0 else 4) else e

/-- A link of a quad-link input is no longer locked: the input is lost with reason LINK (R110, R135).
(DEDUCED, log entry 37; DEDUCED, log entry 45.) -/
def loseQuadLink (e : Nat) (s : State) : State :=
  let b := quadBaseIn s e
  if b ≠ e ∧ ((sdiInOf s b).state = .usable ∨ (sdiInOf s b).state = .outOfWindow) then
    dropSdiIn b .detecting whyLink s
  else s

/-- A lane in mode SDI has lost its signal: the CDR's lock is gone (R112, R110). The base lane of a
quad-link input goes to NO_SIGNAL with reason LINK; another lane of it takes the input with it.
(DEDUCED, log entry 37; DEDUCED, log entry 45.) -/
def sdiSignalGone (e : Nat) (why : Nat) (s : State) : State :=
  if quadMemberIn s e then
    let i := sdiInOf s e
    loseQuadLink e (putSdiIn s e { restartDetection i with
      state := .noSignal, reason := if i.isolated then whyIsolated else why })
  else dropSdiIn e .noSignal (if (sdiInCfg s e).links = 4 then whyLink else why) s

/-- Reserved pages of a gallery (R21). (DESIGN CHOICE, log entry 144.) -/
def lanePages (s : State) (e : Nat) : Nat :=
  let c := sdiInCfg s e
  if isSdi s e && c.mode == 1 then windowPages c.windowClass c.links else 0
def galleryPages (s : State) (g : Nat) : Nat :=
  (List.range 10).foldl (fun n k => n + lanePages s (10 * g + k)) 0

/-! ## Outputs -/

/-- A source whose arrival an SDI output judges: a TIMED SDI input or a fabric source (R126). -/
def isTimed (s : State) (n : Nat) : Bool :=
  n < 1280 || (n < 1440 && (sdiInCfg s (n - 1280)).mode == 0)

/-- Change an output's format: the raster restarts and FORMAT_SWITCH counts (R124). -/
def setOutFormat (e f : Nat) (s : State) : State :=
  let o := sdiOutOf s e
  if o.current = f then s
  else putSdiOut s e { o with current := f, raster := [], formatSwitch := sat32 o.formatSwitch 1 }

/-- The format in which an output with some links carries a picture: a single link carries the picture of a quad-link
format in the single-link format of its rate (R109, R110, R123). (DEDUCED, log entry 187.) -/
def ownMapping (links f : Nat) : Nat := if isQuad f ∧ links ≠ 4 then f - 0x10 else f

/-- The transmitters of n lanes from lane e on go to electrical idle (R45, R123). -/
def idleLanes (e n : Nat) (s : State) : State :=
  (List.range n).foldl (fun s k => putLane s (256 + (e + k)) { laneOf s (256 + (e + k)) with sent := [] }) s

/-- An output in FOLLOW takes the format of the usable source that it shows (R124). -/
def followFormat (e : Nat) (s : State) : State :=
  let d := 1280 + e
  let c := sdiOutCfg s e
  if c.format = 0xFF then
    match shownSource s d with
    | some n =>
      if lostAt s d n then s
      else match sourceFormat s n with | some f => setOutFormat e (ownMapping c.links f) s | none => s
    | none => s
  else setOutFormat e c.format s

/-- The payload ID of the last source that an output has shown (R127). -/
def keepPid (e : Nat) (s : State) : State :=
  let d := 1280 + e
  match shownSource s d with
  | some n => if lostAt s d n then s else putSdiOut s e { sdiOutOf s e with lastPid := some (sourceOf s n).pid }
  | none => s

/-- Apply output settings. An output that follows and has shown no source takes DEFAULT_FORMAT; lanes that are no longer its links
are idle (R123). -/
def setSdiOut (e : Nat) (c : SdiOutCfg) (s : State) : State :=
  let old := (sdiOutCfg s e).links
  let s := if old = 4 ∧ c.links ≠ 4 then idleLanes (e + 1) 3 s else s
  let s := { s with set := { s.set with sdiOut := tset (fun _ => {}) s.set.sdiOut e c } }
  let o := sdiOutOf s e
  let s := putSdiOut s e { o with pendingCfg := none }
  let s := if c.format = 0xFF ∧ o.lastPid = none then setOutFormat e (ownMapping c.links c.defaultFormat) s else s
  judgeDest (1280 + e) (followFormat e s)

end Sys2Proof.Machine
end

