-- ==== Sys2Proof/Machine/PortOps.lean ====
section
/-! DEFINITION. PortOps.lean: what a packet port does at a loss of link, an isolation and a drop
(R182 to R187, R194, R211, R212, R227). -/

namespace Sys2Proof.Machine

/-! ## Adaptation of a receiver (R66, R67) -/

def eqOf (s : State) (l : Nat) : EqCfg := tget (fun _ => {}) s.set.eq l

/-- ADAPT in effect on a lane: 0 CONTINUOUS, 1 ONCE, 2 FROZEN (R66). -/
def adaptMode (s : State) (l : Nat) : Nat :=
  (eqOf s l).adapt.getD (Config.adaptDefault l (laneMode s l) (laneOf s l).rate)

/-- The receiver of a lane reaches LOCKED: it adapts anew, unless ADAPT is FROZEN (R66, R67). -/
def restartAdaptation (l : Nat) (s : State) : State :=
  if adaptMode s l = 2 then s else putLane s l { laneOf s l with adaptFrozen := false, dfe := [] }

/-- n free taps. (DESIGN CHOICE, log entry 2.) -/
def drawTaps : Nat → State → List Int × State
  | 0, s => ([], s)
  | n + 1, s =>
    let (x, s) := draw 8 s
    let (r, s) := drawTaps n s
    (x.toInt :: r, s)

/-! ## Ports -/

/-- Change a port's counters. -/
def countPort (n : Nat) (f : PortCounters → PortCounters) (s : State) : State :=
  let p := portOf s n
  putPort s n { p with counters := f p.counters }

/-- A gallery's PACKET source of a port: base index 0 link, 4 trap, 8 PAUSE (R211). -/
def portFault (n base : Nat) : Nat := faultId 0x05 (n / 4) (base + n % 4)

/-- Edge lanes of a packet port, by lane index (R3, R45, R182). (DEDUCED, log entry 170.) -/
def portLanes (s : State) (n : Nat) : List Nat :=
  let e := 256 + 10 * (n / 4)
  if portIs100 s n then [e, e + 1, e + 2, e + 3] else [e + n % 4]

/-- A frame has left a port: its bytes, and what its lanes have sent of it (R46, R50, R217). -/
def sendWire (n : Nat) (w : Bytes) (s : State) : State :=
  let v := portOf s n
  let lanes := portLanes s n
  let (bits, k) := portBits (portIs100 s n || (macCfg s n).fec == 1) lanes.length w v.scrambler
  let s := putPort s n { v with wire := w, scrambler := k }
  (lanes.zip bits).foldl (fun s x =>
    putLane s x.1 { laneOf s x.1 with sent := x.2.map (fun b => bit (xor b (laneCfg s x.1).txInvert)) }) s

/-- A frame in transmission is cut off behind some of its bytes: TX_CUT, and its cells are returned (R184, R227). A
frame that the freezing of its queue ends has a complemented FCS (R219). (DEDUCED, log entry 71.) -/
def cutFrame (spoil : Bool) (n : Nat) (s : State) : State :=
  let p := portOf s n
  match p.sending with
  | none => s
  | some (q, f) =>
    let (k, s) := drawBelow (f.bytes + 1) s
    let sent := f.data.take k
    let s := sendWire n (if spoil then spoiltFrame sent else preamble ++ sent) (putPort s n { p with sending := none })
    let s := countQueue q (fun c => { c with txCut := sat48 c.txCut 1 }) s
    let pool := s.pkt.pool
    retryAll (discardCells q f (putPool s { pool with inFlight := pool.inFlight - f.cells }))

/-- The isolation of a port (R212): its transmitter sends idle. (DEDUCED, log entry 71.) -/
def isolatePort (n : Nat) (s : State) : State :=
  cutFrame false n (putPort s n { portOf s n with isolated := true })

/-- Raise a PACKET source (R211, R212). -/
def raisePacket (id : Nat) (s : State) : State :=
  let iso := decide (faultIndex id < 12 ∧ 2 ≤ effectiveSeverity s id)
  let s := raiseCore id s
  if iso then isolatePort (4 * faultLoc id + faultIndex id % 4) s else s

/-- A port has no link from now on (R184, R211). -/
def portLinkDown (n : Nat) (s : State) : State :=
  let p := portOf s n
  if p.link then
    let s := cutFrame false n (putPort s n { p with link := false })
    raisePacket (portFault n 0) (countPort n (fun c => { c with linkLoss := sat32 c.linkLoss 1 }) s)
  else s

/-- The port of an Ethernet edge lane (R3, R182). -/
def portOfLane (s : State) (e : Nat) : Nat :=
  let g := e / 10
  if (laneCfg s (256 + 10 * g)).mode = 4 then 4 * g else 4 * g + e % 10

/-- Add to a port's drop reason (R186, R187); the Ledger counts with its own totals (R442). -/
def countDropped (n reason : Nat) (s : State) : State :=
  let s := countPort n (fun c => { c with received := sat48 c.received 1
                                          dropped := tput c.dropped reason (sat48 ((tfind c.dropped reason).getD 0) 1) }) s
  let (r, f, t, d) := tget (fun _ => (0, 0, 0, 0)) s.led.packets n
  { s with led := { s.led with packets := tput s.led.packets n (r + 1, f, t, d + 1) } }

/-- Count a frame delivered to a flow leg (R187). -/
def countForwarded (n : Nat) (s : State) : State :=
  let s := countPort n (fun c => { c with received := sat48 c.received 1, forwarded := sat48 c.forwarded 1 }) s
  let (r, f, t, d) := tget (fun _ => (0, 0, 0, 0)) s.led.packets n
  { s with led := { s.led with packets := tput s.led.packets n (r + 1, f + 1, t, d) } }

/-- Count a trapped frame (R187). -/
def countTrapped (n : Nat) (s : State) : State :=
  let s := countPort n (fun c => { c with received := sat48 c.received 1, trapped := sat48 c.trapped 1 }) s
  let (r, f, t, d) := tget (fun _ => (0, 0, 0, 0)) s.led.packets n
  { s with led := { s.led with packets := tput s.led.packets n (r + 1, f, t + 1, d) } }

/-- Nanoseconds that the pause in progress has lasted since PAUSE_TIME last counted (R194). -/
def pausedNs (s : State) (n : Nat) : Nat :=
  let p := portOf s n
  if p.paused then (s.time.count - p.pauseStart).toNat * 1000 / 594 else 0

/-- End a pause (R194): PAUSE_TIME counts the time during which the timer was non-zero. -/
def endPause (n : Nat) (s : State) : State :=
  let p := portOf s n
  if p.paused then
    let ns := pausedNs s n
    let s := putPort s n { p with paused := false, pauseQuanta := 0 }
    countPort n (fun c => { c with pauseTime := sat32 c.pauseTime ns }) s
  else s

end Sys2Proof.Machine
end

