-- ==== Sys2Proof/Machine/Records.lean ====
section
/-! DEFINITION. Records.lean: the encoding of status records and the request that the status reads
share (R386, R387). -/

namespace Sys2Proof.Machine

/-! ## Items (R387) -/

def itemFlag (b : Bool) : Bytes := leBytes 1 (bit b)
def itemByte (n : Nat) : Bytes := leBytes 1 n
def itemHalf (n : Nat) : Bytes := leBytes 2 n
/-- A 32-bit counter, or another value of 4 bytes. -/
def itemCount (n : Nat) : Bytes := leBytes 4 n
/-- A 48-bit counter. -/
def itemWide (n : Nat) : Bytes := leBytes 8 n
def itemRaw (c : Word64) : Bytes := leBytes 8 c.toNat
def itemWord (w : Word) : Bytes := leBytes 4 w.toNat
def itemTime (t : Time) : Bytes := leBytes 8 t.sec ++ leBytes 4 t.ns ++ leBytes 2 t.frac ++ [0, 0]
/-- A duration or an offset in 2⁻¹⁶ ns. -/
def itemOffset (v : Int) : Bytes := leBytes 8 (ofSigned 8 v)
/-- Lines, or ppm in 0.01 ppm. -/
def itemSigned (v : Int) : Bytes := leBytes 4 (ofSigned 4 v)
/-- A temperature, or a level. -/
def itemShort (v : Int) : Bytes := leBytes 2 (ofSigned 2 v)

/-- A record: LENGTH, INDEX, the items, and zeros to a multiple of 8 bytes (R387).
(DEDUCED, log entry 23.) -/
def record (index : Nat) (items : Bytes) : Bytes :=
  let size := (4 + items.length + 7) / 8 * 8
  leBytes 2 size ++ leBytes 2 index ++ items ++ List.replicate (size - (4 + items.length)) 0

/-! ## Status reads (R386) -/

/-- What one index space of a status read holds. -/
structure StatusSpace where
  /-- Number of indices. -/
  size : Nat
  /-- The device record's items, where there is one. -/
  device : Option (State → Bytes) := none
  /-- Items of an indexed record. -/
  items : State → Nat → Bytes := fun _ _ => []
  /-- CLEAR of the device record, and of one index (R72). -/
  clearDevice : State → State := id
  clear : Nat → State → State := fun _ s => s

/-- Whole records from an index onward, within a budget of bytes (R386). (DEDUCED, log entry 23.) -/
def recordsFrom (f : Nat → Bytes) (first : Nat) : Nat → Nat → List Bytes
  | 0, _ => []
  | n + 1, room =>
    let r := record first (f first)
    if r.length ≤ room then r :: recordsFrom f (first + 1) n (room - r.length) else []

/-- Checks of a status read, for the space that GROUP selects (R386). -/
def checksStatus (space : Nat → Option StatusSpace) (p : Packet) (_ : State) : Check :=
  match space (u8 p 5) with
  | none => firstFail [noTarget p, fieldIn (u8 p 4) 0 1 4, some (badParam 5)]
  | some sp =>
    firstFail [
      noTarget p,
      fieldOk (u16 p 0 < sp.size || (u16 p 2 == 0 && u16 p 0 ≤ sp.size)) 0,
      fieldOk (u16 p 0 + u16 p 2 ≤ sp.size) 2,
      fieldIn (u8 p 4) 0 1 4,
      reserved p 6 2]

/-- Answer a status read, and clear what was returned (R72, R386). -/
def effectStatus (space : Nat → Option StatusSpace) (p : Packet) (s : State) : State × Answer :=
  match space (u8 p 5) with
  | none => (s, badParam 5)
  | some sp =>
    let head := match sp.device with | some d => record 0xFFFF (d s) | none => []
    let rs := recordsFrom (sp.items s) (u16 p 0) (u16 p 2) (32768 - head.length)
    let t := if u8 p 4 = 1 then
        (List.range rs.length).foldl (fun s k => sp.clear (u16 p 0 + k) s) (sp.clearDevice s)
      else s
    (t, done (head ++ rs.flatten) rs.length)

/-- A status read: class 3, 8 parameter bytes (R384, R386). -/
def specStatus (code : BitVec 16) (space : Nat → Option StatusSpace) : OpSpec :=
  { code := code, cls := 3, lengthOk := fixedLength 8, checks := checksStatus space
    effect := atOnce (effectStatus space) }

/-- The single space of a status read without groups. -/
def onlySpace (sp : StatusSpace) (group : Nat) : Option StatusSpace := if group = 0 then some sp else none

end Sys2Proof.Machine
end

