-- ==== Sys2Proof/Machine/Flows.lean ====
section
/-! DEFINITION. Flows.lean: MAC_CONFIG, TRAP_PATTERN_SET, PAUSE_POLICY, MAC_COUNTERS and the
receive and transmit flows (R183, R190, R193, R197, R206, R210, R393, R394). -/

namespace Sys2Proof.Machine

/-! ## Ports -/

/-- Opcodes on a port that does not exist are answered CONFLICT (R393). -/
def portThere (s : State) (n : Nat) : Check := need (portExists s n) (conflict 0)

/-- VIDs of a MAC_CONFIG. -/
def vlanEntry (p : Packet) (i : Nat) : Nat := u16 p (36 + 2 * i)

/-- A unicast MAC address, or none (R183). -/
def macOk (p : Packet) : Bool := u8 p 8 % 2 == 0

def checksMacConfig (p : Packet) (s : State) : Check :=
  let count := u8 p 3
  firstFail [
    noTarget p,
    fieldIn (u8 p 0) 0 63 0,
    fieldIn (u8 p 1) 0 1 1,
    fieldIn (u8 p 2) 0 2 2,
    fieldIn count 0 16 3,
    fieldIn (orDefault (u16 p 4) 9216) 1518 9216 4,
    reserved p 6 2,
    fieldOk (macOk p) 8,
    reserved p 14 2,
    firstBad (fun _ i => fieldOk (if i < count then vlanEntry p i < 4096 else vlanEntry p i == 0) (36 + 2 * i))
      0 (List.range 16),
    portThere s (u8 p 0)]

/-- The settings of a MAC_CONFIG. -/
def readMac (p : Packet) : MacCfg :=
  { macAddr := BitVec.ofNat 48 (field p.params 8 6)
    fec := u8 p 1
    maxFrame := orDefault (u16 p 4) 9216
    vlanMode := u8 p 2
    vlanList := (List.range (u8 p 3)).map (vlanEntry p)
    ipv4 := BitVec.ofNat 32 (u32 p 16)
    ipv6 := BitVec.ofNat 128 (field p.params 20 16) }

/-- The PCS of an ETH25 port restarts: no link, and its lane seeks block lock again (R183). -/
def restartPcs (n : Nat) (s : State) : State :=
  let l := 256 + 10 * (n / 4) + n % 4
  let s := portLinkDown n s
  if laneLocked s l then putLane s l { laneOf s l with state := .hunt } else s

/-- Apply a MAC_CONFIG: a change of FEC on an ETH25 port restarts its PCS (R183). -/
def effectMacConfig (p : Packet) (s : State) : State × Answer :=
  let n := u8 p 0
  let c := readMac p
  let restart := (macCfg s n).fec != c.fec && !portIs100 s n
  let s := { s with set := { s.set with mac := tset (fun _ => {}) s.set.mac n c } }
  (if restart then restartPcs n s else s, done)

def specMacConfig : OpSpec :=
  { code := 0x4001, cls := 1, lengthOk := fixedLength 68, checks := checksMacConfig
    effect := atOnce effectMacConfig }

/-- MAC_CONFIG (R183). -/
def execMacConfig (p : Packet) (s : State) : Host.Outcome State Fault Refusal :=
  .next (runHost specMacConfig p s)

/-- Bytes and values of the patterns P0 to P3: UDP to port 48152 on IPv4 and IPv6, untagged and with one tag (R191). -/
def commandBytes (i : Nat) : List (Nat × Nat) :=
  match i with
  | 0 => [(12, 0x08), (13, 0x00), (14, 0x45), (23, 17), (36, 0xBC), (37, 0x18)]
  | 1 => [(12, 0x86), (13, 0xDD), (20, 17), (56, 0xBC), (57, 0x18)]
  | 2 => [(12, 0x81), (13, 0x00), (16, 0x08), (17, 0x00), (18, 0x45), (27, 17), (40, 0xBC), (41, 0x18)]
  | 3 => [(12, 0x81), (13, 0x00), (16, 0x86), (17, 0xDD), (24, 17), (60, 0xBC), (61, 0x18)]
  | _ => []

/-- The pattern that the firmware installs at every start; P4 to P31 are OFF (R191). -/
def installedTrap (i : Nat) : TrapPattern :=
  let v := commandBytes i
  if v.isEmpty then {}
  else
    { mask := BitVec.ofNat 128 ((v.map (fun e => 2 ^ e.1)).sum), action := 1
      check := crc16 ((List.range 128).map (fun k => BitVec.ofNat 8 ((tfind v k).getD 0))) }

/-- Trap pattern of a port: as installed, until the host sets it (R190, R191). -/
def trapPattern (s : State) (n i : Nat) : TrapPattern :=
  tget (fun k => installedTrap (k % 32)) s.set.traps (32 * n + i)

def checksTrapPatternSet (p : Packet) (s : State) : Check :=
  firstFail [
    noTarget p,
    fieldIn (u8 p 0) 0 63 0,
    fieldIn (u8 p 1) 0 31 1,
    fieldIn (u8 p 2) 0 3 2,
    reserved p 3 1,
    reserved p 6 2,
    fieldOk (u8 p 2 == 0 || !isZero p 8 16) 8,
    portThere s (u8 p 0)]

def effectTrapPatternSet (p : Packet) (s : State) : State × Answer :=
  let t : TrapPattern :=
    { mask := BitVec.ofNat 128 (field p.params 8 16), check := BitVec.ofNat 16 (u16 p 4), action := u8 p 2 }
  ({ s with set := { s.set with
      traps := tset (fun k => installedTrap (k % 32)) s.set.traps (32 * u8 p 0 + u8 p 1) t } }, done)

def specTrapPatternSet : OpSpec :=
  { code := 0x4002, cls := 1, lengthOk := fixedLength 24, checks := checksTrapPatternSet
    effect := atOnce effectTrapPatternSet }

/-- TRAP_PATTERN_SET (R190). -/
def execTrapPatternSet (p : Packet) (s : State) : Host.Outcome State Fault Refusal :=
  .next (runHost specTrapPatternSet p s)

/-- A port honours PAUSE (R193). -/
def honours (s : State) (n : Nat) : Bool := tget (fun _ => false) s.set.honourPause n

def checksPausePolicy (p : Packet) (s : State) : Check :=
  firstFail [
    noTarget p, fieldIn (u8 p 0) 0 63 0, fieldIn (u8 p 1) 0 1 1, reserved p 2 2, portThere s (u8 p 0)]

def effectPausePolicy (p : Packet) (s : State) : State × Answer :=
  let n := u8 p 0
  let on := u8 p 1 == 1
  let s := { s with set := { s.set with honourPause := tset (fun _ => false) s.set.honourPause n on } }
  (if on then s else endPause n s, done)

def specPausePolicy : OpSpec :=
  { code := 0x4008, cls := 1, lengthOk := fixedLength 4, checks := checksPausePolicy
    effect := atOnce effectPausePolicy }

/-- PAUSE_POLICY (R193, R194). -/
def execPausePolicy (p : Packet) (s : State) : Host.Outcome State Fault Refusal :=
  .next (runHost specPausePolicy p s)

/-- MAC_COUNTERS of a port (R210, R387). Counters of frames are 48 bits wide.
(DEDUCED, log entry 70.) -/
def macItems (s : State) (n : Nat) : Bytes :=
  let c := (portOf s n).counters
  itemWide c.received ++ itemWide c.forwarded ++ itemWide c.trapped
    ++ ((List.range 14).map (fun r => itemWide ((tfind c.dropped r).getD 0))).flatten
    ++ itemCount c.rxBytes ++ itemWide c.txFrames ++ itemCount c.txBytes ++ itemWide c.txLinkDown
    ++ itemWide c.pauseRcvd ++ itemWide c.pauseHonoured ++ itemCount (sat32 c.pauseTime (pausedNs s n))
    ++ itemWide c.pfcIgnored ++ itemWide c.macCtrlUnknown
    ++ itemCount c.fecCorrected ++ itemCount c.fecUncorrected ++ itemCount c.linkLoss

def macSpace : StatusSpace :=
  { size := 64, items := macItems
    clear := fun n s => putPort s n { portOf s n with counters := {}, pauseStart := s.time.count } }

def specMacCounters : OpSpec := specStatus 0x4009 (onlySpace macSpace)

/-- MAC_COUNTERS (R210). -/
def execMacCounters (p : Packet) (s : State) : Host.Outcome State Fault Refusal :=
  .next (runHost specMacCounters p s)

/-! ## Sources of receive flows -/

/-- KIND codes (R197). -/
def flowKind (v : Nat) : FlowKind :=
  match v with | 0 => .video | 1 => .audio | 2 => .anc | _ => .sdi

def rxFlowOf (s : State) (n : Nat) : Option RxFlow := tfind s.pkt.rxFlows n
def putRxFlow (s : State) (n : Nat) (v : RxFlow) : State :=
  { s with pkt := { s.pkt with rxFlows := tput s.pkt.rxFlows n v } }

/-- Video source of a slot of a gallery (R15). -/
def slotSource (g k : Nat) : Nat := 1440 + 16 * g + k

/-- The bond that a picture code needs (R196). -/
def pictureBond (f : Nat) : Nat := if 0x70 ≤ f ∧ f ≤ 0x72 then 4 else if formatDouble f then 2 else 1

/-- The flow feeds the video source of its slot. -/
def feedsSource (f : RxFlow) : Bool := f.kind == .video || f.kind == .sdi

/-- Video sources that a flow feeds: its slot's, and the members of its picture's bond (R196). -/
def flowSources (n : Nat) (f : RxFlow) : List Nat :=
  match f.slot with
  | some k =>
    if feedsSource f then
      (List.range (if f.kind = .video then pictureBond f.format else 1)).map (fun i => slotSource (n / 1024) k + i)
    else []
  | none => []

/-- An AUDIO flow plays: it has brought samples, and no channel of it is silent (R201). -/
def audioPlays (f : RxFlow) : Bool := f.kind == .audio && !f.lastGood.isEmpty && f.silent.isEmpty

/-- A flow's source is lost; REPORT raises the flow-loss source (R200, R211). -/
def loseFlow (n : Nat) (f : RxFlow) (s : State) : State :=
  let anc := f.kind == .anc && f.slot.any (fun k => ancUsable s (slotSource (n / 1024) k))
  let was := audioPlays f || anc || (flowSources n f).any (fun x => (sourceOf s x).usable)
  let s := (flowSources n f).foldl (fun s x => loseSource x s) s
  if was && f.report then raisePacket (faultId 0x05 (n / 1024) 12) s else s

/-! ## FLOW_RX_ADD -/

/-- A leg record at an offset of the parameters (R393). -/
def readLeg (p : Packet) (o : Nat) : RxLeg :=
  { port := u8 p o
    vid := if u8 p (o + 1) = 1 then some (u16 p (o + 2)) else none
    ipv6 := u8 p (o + 4) == 6
    dstPort := u16 p (o + 6)
    dstIp := BitVec.ofNat 128 (field p.params (o + 8) 16)
    srcIp := BitVec.ofNat 128 (field p.params (o + 24) 16) }

/-- Legs of a FLOW_RX_ADD. -/
def readLegs (p : Packet) : List RxLeg :=
  readLeg p 20 :: (if u8 p 18 = 2 then [readLeg p 60] else [])

/-- Checks of a leg record. -/
def checkLeg (p : Packet) (o : Nat) : Check :=
  let v4 := u8 p (o + 4) == 4
  firstFail [
    fieldIn (u8 p o) 0 3 o,
    fieldIn (u8 p (o + 1)) 0 1 (o + 1),
    fieldOk (u8 p (o + 1) == 0 || (1 ≤ u16 p (o + 2) && u16 p (o + 2) ≤ 4094)) (o + 2),
    fieldOk (v4 || u8 p (o + 4) == 6) (o + 4),
    reserved p (o + 5) 1,
    fieldOk (!v4 || isZero p (o + 12) 12) (o + 8),
    fieldOk (!v4 || isZero p (o + 28) 12) (o + 24)]

/-- Every receive leg of a gallery, but those of flow n. -/
def galleryLegs (s : State) (g : Nat) : List RxLeg :=
  (s.pkt.rxFlows.filter (fun e => e.1 / 1024 == g)).flatMap (fun e => e.2.legA :: e.2.legB.toList)

/-- No two legs share a key (R197). -/
def legsFree (others legs : List RxLeg) : Bool :=
  legs.all (fun l => !others.contains l) && decide (legs.length = legs.dedup.length)

/-- Audio channels of a receive flow: a run of AS23040 to AS27135 (R197). -/
def runInside (base count : Nat) : Bool := decide (23040 ≤ base ∧ base + count ≤ 27136)

/-- Flow kinds that carry an audio run. -/
def carriesAudio (k : FlowKind) : Bool := k == .audio || k == .sdi

/-- An audio run meets that of another receive flow (R197). -/
def rxRunTaken (s : State) (base count : Nat) : Bool :=
  s.pkt.rxFlows.any (fun e => carriesAudio e.2.kind
    && runsMeet (some (base, count)) (some (e.2.chBase, e.2.chCount)))

/-- A run that a flow gives its slot shares no channel with another run, as the settings are or will be; a slot with a
run of its own keeps that (R163). -/
def flowRunFree (s : State) (own : Option (Nat × Nat)) (other : State → Nat → Nat → Bool) (slot : Nat)
    (run : Option (Nat × Nat)) : Bool :=
  own.isSome || (runFree (other s slot) (normRun run) && runFree (other (settingsView (fun _ => true) s) slot) (normRun run))

/-- A slot has a flow of one of some kinds. -/
def slotHas (s : State) (g : Nat) (k : Option Nat) (kinds : List FlowKind) : Bool :=
  s.pkt.rxFlows.any (fun e => e.1 / 1024 == g && e.2.slot == k && kinds.contains e.2.kind)

/-- Reserve space of a receive flow: 16 KiB per channel (R28, R197). -/
def flowSpace (kind : FlowKind) (count : Nat) : Nat := if carriesAudio kind then 16384 * count else 0

def lengthFlowRxAdd (p : Packet) : Bool :=
  match u8 p 18 with
  | 1 => fixedLength 60 p
  | 2 => fixedLength 100 p
  | _ => fixedLength 60 p || fixedLength 100 p

/-- The slot that a flow names. -/
def readSlot (kind : FlowKind) (v : Nat) : Option Nat := if kind = .audio ∧ v = 0xFF then none else some v

/-- Parameter checks of FLOW_RX_ADD (R197, R393). -/
def paramsFlowRxAdd (p : Packet) (s : State) : List Check :=
  let kind := flowKind (u8 p 2)
  let base := u16 p 4
  let count := u8 p 6
  let linked := kind == .audio && u8 p 3 != 0xFF
  [ noTarget p,
    fieldIn (u16 p 0) 0 16383 0,
    fieldIn (u8 p 2) 0 3 2,
    fieldOk (u8 p 3 < 16 || (kind == .audio && u8 p 3 == 0xFF)) 3,
    fieldOk (!carriesAudio kind || runInside base count) 4,
    fieldOk (match kind with
      | .audio => 1 ≤ count && count ≤ 64 && (!linked || count ≤ 16) | .sdi => count == 16 | _ => true) 6,
    fieldOk (!carriesAudio kind || !rxRunTaken s base count) 4,
    fieldOk (kind != .video || isPicture (u8 p 7)) 7,
    fieldIn (u8 p 8) 0 3 8,
    fieldIn (u8 p 9) 96 127 9,
    fieldIn (u8 p 10) 0 1 10,
    fieldIn (u8 p 11) 0 1 11,
    fieldOk (kind != .audio || linked || (6 ≤ orDefault (u16 p 12) 144 && orDefault (u16 p 12) 144 ≤ 3840)) 12,
    fieldIn (u8 p 16) 0 1 16,
    fieldIn (u8 p 17) 0 1 17,
    fieldIn (u8 p 18) 1 2 18,
    reserved p 19 1,
    checkLeg p 20,
    (if u8 p 18 = 2 then checkLeg p 60 else none) ]

/-- CONFLICT and NO_RESOURCE of FLOW_RX_ADD (R197). -/
def placesFlowRxAdd (p : Packet) (s : State) : List Check :=
  let n := u16 p 0
  let g := n / 1024
  let kind := flowKind (u8 p 2)
  let slot := readSlot kind (u8 p 3)
  let legs := readLegs p
  let bond := if kind = .video then pictureBond (u8 p 7) else 1
  [ need ((rxFlowOf s n).isNone) (conflict 0),
    need (legs.all (fun l => portExists s (4 * g + l.port))) (conflict 0),
    need (legsFree (galleryLegs s g) legs) (conflict 0),
    need (!(kind == .video || kind == .sdi) || !slotHas s g slot [.video, .sdi]) (conflict 0),
    need (!(kind == .anc) || !slotHas s g slot [.sdi]) (conflict 0),
    need (bond == 1 || sourceBond s (slotSource g (u8 p 3)) == (slotSource g (u8 p 3), bond)) (conflict 0),
    need (!carriesAudio kind || slot.isNone || slotHas s g slot [.sdi]
      || flowRunFree s (sourceCfg s (slotSource g (u8 p 3))).run otherSource (slotSource g (u8 p 3))
        (some (u16 p 4, u8 p 6))) (conflict 0),
    need (flowSpace kind (u8 p 6) ≤ s.reserveFree) (noResource 0) ]

/-- DEDUCED, log entry 62. -/
def checksFlowRxAdd (p : Packet) (s : State) : Check :=
  firstFail (paramsFlowRxAdd p s ++ placesFlowRxAdd p s)

/-- The flow that a FLOW_RX_ADD creates. -/
def readRxFlow (p : Packet) : RxFlow :=
  let kind := flowKind (u8 p 2)
  { kind := kind
    slot := readSlot kind (u8 p 3)
    chBase := u16 p 4
    chCount := u8 p 6
    format := u8 p 7
    family := u8 p 8
    pt := u8 p 9
    l16 := u8 p 10 == 1
    arrival := u8 p 11 == 1
    playout := orDefault (u16 p 12) 144
    pidFill := BitVec.ofNat 16 (u16 p 14)
    join := u8 p 16 == 1
    report := u8 p 17 == 1
    legA := readLeg p 20
    legB := if u8 p 18 = 2 then some (readLeg p 60) else none }

def effectFlowRxAdd (p : Packet) (s : State) : State × Answer :=
  let f := readRxFlow p
  let s := { s with reserveFree := s.reserveFree - flowSpace f.kind f.chCount }
  (putRxFlow s (u16 p 0) f, done)

def specFlowRxAdd : OpSpec :=
  { code := 0x4003, cls := 1, lengthOk := lengthFlowRxAdd, checks := checksFlowRxAdd
    effect := atOnce effectFlowRxAdd }

/-- FLOW_RX_ADD (R197). -/
def execFlowRxAdd (p : Packet) (s : State) : Host.Outcome State Fault Refusal :=
  .next (runHost specFlowRxAdd p s)

/-! ## FLOW_RX_DEL -/

def checksFlowDel (there : State → Nat → Bool) (p : Packet) (s : State) : Check :=
  firstFail [
    noTarget p, fieldIn (u16 p 0) 0 16383 0, reserved p 2 2, need (there s (u16 p 0)) (conflict 0)]

/-- Delete a receive flow: its source is lost at once and its Reserve space is released (R197). -/
def deleteRxFlow (n : Nat) (s : State) : State :=
  match rxFlowOf s n with
  | none => s
  | some f =>
    let s := loseFlow n f s
    let s := { s with pkt := { s.pkt with rxFlows := tdel s.pkt.rxFlows n } }
    { s with reserveFree := s.reserveFree + flowSpace f.kind f.chCount }

def specFlowRxDel : OpSpec :=
  { code := 0x4004, cls := 1, lengthOk := fixedLength 4
    checks := checksFlowDel (fun s n => (rxFlowOf s n).isSome)
    effect := atOnce (fun p s => (deleteRxFlow (u16 p 0) s, done)) }

/-- FLOW_RX_DEL (R197). -/
def execFlowRxDel (p : Packet) (s : State) : Host.Outcome State Fault Refusal :=
  .next (runHost specFlowRxDel p s)

/-! ## FLOW_TX_ADD -/

def txFlowOf (s : State) (n : Nat) : Option TxFlow := tfind s.pkt.txFlows n

/-- Length of a template with its padding (R394). -/
def padded (n : Nat) : Nat := (n + 3) / 4 * 4

def isTemplateLength (n : Nat) : Bool := n == 54 || n == 58 || n == 74 || n == 78

def lengthFlowTxAdd (p : Packet) : Bool :=
  let a := u8 p 20
  let b := u8 p 21
  if isTemplateLength a && (b == 0 || isTemplateLength b) then fixedLength (24 + padded a + padded b) p
  else [56, 60, 76, 80].any (fun x => [0, 56, 60, 76, 80].any (fun y => fixedLength (24 + x + y) p))

/-- A big-endian pair of bytes in a byte string. -/
def be16 (b : Bytes) (o : Nat) : Nat := beNat ((b.drop o).take 2)

/-- The layout of a template matches its length (R207): untagged or one VLAN tag, IPv4 without options
or IPv6 without extension headers, UDP. -/
def templateOk (t : Bytes) : Bool :=
  let v4 := fun (o : Nat) => be16 t (o - 2) == 0x0800 && field t o 1 == 0x45 && field t (o + 9) 1 == 17
  let v6 := fun (o : Nat) => be16 t (o - 2) == 0x86DD && field t o 1 / 16 == 6 && field t (o + 6) 1 == 17
  match t.length with
  | 54 => v4 14
  | 58 => be16 t 12 == 0x8100 && v4 18
  | 74 => v6 14
  | _ => be16 t 12 == 0x8100 && v6 18

/-- Template A and template B of a FLOW_TX_ADD. -/
def templateA (p : Packet) : Bytes := (p.params.drop 24).take (u8 p 20)
def templateB (p : Packet) : Bytes := (p.params.drop (24 + padded (u8 p 20))).take (u8 p 21)

/-- Samples and bytes of an audio packet (R206). -/
def audioPacketBytes (ptime encoding count : Nat) : Nat :=
  (if ptime = 0 then 48 else 6) * count * (if encoding = 0 then 3 else 2)

/-- Bytes of an SDI frame of a format up to 2.97 Gb/s: its raster, or its link rate over its nominal frame rate. -/
def sdiFrameBytes (f : Nat) : Nat :=
  if isSd f then lineLength f * rasterLines f * 10 / 8 else
  let fps := match formatRate f with
    | some 0 => 24 | some 1 => 24 | some 2 => 25 | some 3 => 30 | some 4 => 30 | some 5 => 50
    | some 6 => 60 | _ => 60
  (if f < 0x30 then 1485000000 else 2970000000) / 8 / fps

/-- Media bytes of one ST 2022-6 packet. -/
def sdiPayload : Nat := 1376

/-- The format of the VIDEO flow of a transmit slot (R206). -/
def txSlotVideo (s : State) (g slot : Nat) : Option Nat :=
  (s.pkt.txFlows.find? (fun e => e.1 / 1024 == g && e.2.slot == slot && e.2.kind == .video)).map (fun e => e.2.format)

/-- Fields of the frame of an ANC flow on a slot with a VIDEO flow of a format (R206). -/
def ancFields (f : Option Nat) : Nat := match f with | some x => if (formatLines x).2 = 1 then 2 else 1 | none => 1

/-- Packets per frame: K of R208; of an ANC flow with the format of its slot. -/
def packetsPerFrame (kind : FlowKind) (f : Option Nat) (payload anc : Nat) : Nat :=
  match kind with
  | .video => (formatLines (f.getD 0)).1 * ((formatWidth (f.getD 0) * 5 / 2 + payload - 1) / payload)
  | .sdi => (sdiFrameBytes (f.getD 0) + sdiPayload - 1) / sdiPayload
  | .anc => anc * ancFields f
  | .audio => 1

/-- Stored bytes of a flow's largest packet behind a template; for ANC, of an empty one. -/
def packetStored (kind : FlowKind) (template payload ptime encoding count : Nat) : Nat :=
  match kind with
  | .video => template + 8 + payload
  | .audio => template + audioPacketBytes ptime encoding count
  | .anc => template + 8
  | .sdi => template + 8 + sdiPayload

/-- Packets in 1,001 seconds: a whole number at every rate (R138). -/
def packetsPer1001 (kind : FlowKind) (rate k ptime : Nat) (dbl : Bool) : Nat :=
  match kind with
  | .audio => 1001 * (if ptime = 0 then 1000 else 8000)
  | _ => 594594000000 / periodTicks rate * k * (if dbl then 2 else 1)

/-- Nominal wire bits of one leg in 1,001 seconds, of a format or on the grid of a family (R206, R224). -/
def legBits (s : State) (kind : FlowKind) (f : Option Nat) (fam template payload ptime encoding count anc : Nat) : Nat :=
  let rate := match f with | some x => (formatRate x).getD 0 | none => familyRate s fam
  8 * (packetStored kind template payload ptime encoding count + 24)
    * packetsPer1001 kind rate (packetsPerFrame kind f payload anc) ptime (formatDouble (f.getD 0))

/-- The format whose frames a transmit flow sends: its own, of an ANC flow that of its slot's VIDEO flow (R206). -/
def sentFormat (s : State) (kind : FlowKind) (g slot f : Nat) : Option Nat :=
  match kind with | .anc => txSlotVideo s g slot | .audio => none | _ => some f

/-- Port of a queue. -/
def queuePort (s : State) (q : Nat) : Nat := 4 * (q / 4096) + (queueOf s q).cfg.port

/-- Nominal wire bits that the transmit flows send through a port in 1,001 seconds.
(DEDUCED, log entry 68.) -/
def portLoad (s : State) (n : Nat) : Nat :=
  s.pkt.txFlows.foldl (fun t e =>
    let f := e.2
    (txLegs f).foldl (fun t l =>
      if queuePort s l.queue = n then
        t + legBits s f.kind (sentFormat s f.kind (e.1 / 1024) f.slot f.format) f.family l.template.length f.payload f.ptime (bit f.l16) f.chCount f.ancPackets
      else t) t) 0

/-- Parameter checks of FLOW_TX_ADD (R206, R207, R394). (DEDUCED, log entry 68.) -/
def paramsFlowTxAdd (p : Packet) : List Check :=
  let kind := flowKind (u8 p 2)
  let count := u8 p 6
  let payload := orDefault (u16 p 14) 1200
  let a := u8 p 20
  let b := u8 p 21
  let padA := padded a - a
  let padB := padded b - b
  [ noTarget p,
    fieldIn (u16 p 0) 0 16383 0,
    fieldIn (u8 p 2) 0 3 2,
    fieldIn (u8 p 3) 0 15 3,
    fieldOk (!(kind == .audio || (kind == .sdi && count != 0)) || runInside (u16 p 4) count) 4,
    fieldOk (match kind with
      | .audio => 1 ≤ count && count ≤ (if u8 p 11 = 1 then 64 else 8) | .sdi => count ≤ 16 | _ => true) 6,
    fieldOk (match kind with
      | .video => isPicture (u8 p 7) | .sdi => isFormat (u8 p 7) && u8 p 7 < 0x40 | _ => true) 7,
    fieldIn (u8 p 8) 0 3 8,
    fieldIn (u8 p 9) 0 2 9,
    fieldIn (u8 p 10) 0 1 10,
    fieldIn (u8 p 11) 0 1 11,
    fieldIn (u8 p 12) 0 1 12,
    fieldIn (orDefault (u8 p 13) 2) 1 16 13,
    fieldOk (kind != .video || payload % (if u8 p 10 = 1 then 180 else 5) == 0) 14,
    fieldOk (b != 0 || u16 p 18 == 0) 18,
    fieldOk (isTemplateLength a) 20,
    fieldOk (b == 0 || isTemplateLength b) 21,
    reserved p 22 2,
    fieldOk (templateOk (templateA p)) 24,
    reserved p (24 + a) padA,
    fieldOk (b == 0 || templateOk (templateB p)) (24 + padded a),
    (if b = 0 then none else reserved p (24 + padded a + b) padB) ]

/-- Legs of a FLOW_TX_ADD: queue and template length. -/
def readTxLegs (p : Packet) : List (Nat × Nat) :=
  (u16 p 16, u8 p 20) :: (if u8 p 21 = 0 then [] else [(u16 p 18, u8 p 21)])

/-- A queue that a leg of gallery g may name (R206, R216). -/
def legQueueOk (s : State) (g q : Nat) : Bool :=
  q / 4096 == g && decide (4 ≤ q % 4096) && (queueOf s q).cfg.enable && portExists s (queuePort s q)

/-- CONFLICT, BAD_PARAM for size and NO_RESOURCE of FLOW_TX_ADD (R206, R216).
(DEDUCED, log entry 68.) -/
def placesFlowTxAdd (p : Packet) (s : State) : List Check :=
  let n := u16 p 0
  let g := n / 1024
  let kind := flowKind (u8 p 2)
  let legs := readTxLegs p
  let payload := orDefault (u16 p 14) 1200
  let size := fun (t : Nat) => packetStored kind t payload (u8 p 11) (u8 p 12) (u8 p 6) + 4
  let load := fun (t : Nat) =>
    legBits s kind (sentFormat s kind g (u8 p 3) (u8 p 7)) (u8 p 8) t payload (u8 p 11) (u8 p 12) (u8 p 6) (orDefault (u8 p 13) 2)
  let fits := fun (l : Nat × Nat) =>
    let q := queuePort s l.1
    let mine := legs.foldl (fun t x => if queuePort s x.1 = q then t + load x.2 else t) 0
    decide ((portLoad s q + mine) * 100 ≤ 95 * (portRate s q * 1000000 * 1001))
  [ fieldOk (legs.all (fun l => size l.2 ≤ (macCfg s (queuePort s l.1)).maxFrame)) (if kind = .video then 14 else 6),
    need ((txFlowOf s n).isNone) (conflict 0),
    need (!s.pkt.txFlows.any (fun e => e.1 / 1024 == g && e.2.slot == u8 p 3 && e.2.kind == kind)) (conflict 0),
    need (legs.all (fun l => legQueueOk s g l.1)) (conflict 0),
    need (!carriesAudio kind || s.pkt.txFlows.any (fun e => e.1 / 1024 == g && e.2.slot == u8 p 3 && e.2.kind == .sdi)
      || flowRunFree s (destCfg s (1440 + 16 * g + u8 p 3)).run otherDest (1440 + 16 * g + u8 p 3)
        (some (u16 p 4, u8 p 6))) (conflict 0),
    need (legs.all fits) (noResource 0) ]

def checksFlowTxAdd (p : Packet) (s : State) : Check :=
  firstFail (paramsFlowTxAdd p ++ placesFlowTxAdd p s)

/-- The flow that a FLOW_TX_ADD creates. -/
def readTxFlow (p : Packet) : TxFlow :=
  { kind := flowKind (u8 p 2)
    slot := u8 p 3
    chBase := u16 p 4
    chCount := u8 p 6
    format := u8 p 7
    family := u8 p 8
    profile := u8 p 9
    block := u8 p 10 == 1
    payload := orDefault (u16 p 14) 1200
    ptime := u8 p 11
    l16 := u8 p 12 == 1
    ancPackets := orDefault (u8 p 13) 2
    legA := { queue := u16 p 16, template := templateA p }
    legB := if u8 p 21 = 0 then none else some { queue := u16 p 18, template := templateB p } }

def specFlowTxAdd : OpSpec :=
  { code := 0x4005, cls := 1, lengthOk := lengthFlowTxAdd, checks := checksFlowTxAdd
    effect := atOnce (fun p s => (putTxFlow s (u16 p 0) (readTxFlow p), done)) }

/-- FLOW_TX_ADD (R206). -/
def execFlowTxAdd (p : Packet) (s : State) : Host.Outcome State Fault Refusal :=
  .next (runHost specFlowTxAdd p s)

/-! ## FLOW_TX_DEL -/

/-- A transmit flow ends: it is gone and its queues are emptied (R206). -/
def endTxFlow (n : Nat) (s : State) : State :=
  match txFlowOf s n with
  | none => s
  | some f =>
    let s := { s with pkt := { s.pkt with txFlows := tdel s.pkt.txFlows n } }
    let s := (txLegs f).foldl (fun s l => flushQueue l.queue s) s
    retryAll ((txLegs f).foldl (fun s l => (finishLeg l s).1) s)

/-- The flow stops at the next frame start of its family; at once where the family does not run. -/
def stopTxFlow (n : Nat) (s : State) : State :=
  match txFlowOf s n with
  | none => s
  | some f => if familyOn s f.family then putTxFlow s n { f with stopping := true } else endTxFlow n s

def specFlowTxDel : OpSpec :=
  { code := 0x4006, cls := 1, lengthOk := fixedLength 4
    checks := checksFlowDel (fun s n => (txFlowOf s n).isSome)
    effect := atOnce (fun p s => (stopTxFlow (u16 p 0) s, done)) }

/-- FLOW_TX_DEL (R206). -/
def execFlowTxDel (p : Packet) (s : State) : Host.Outcome State Fault Refusal :=
  .next (runHost specFlowTxDel p s)

end Sys2Proof.Machine
end

