-- ==== Sys2Proof/Machine/Ether.lean ====
section
/-! DEFINITION. Ether.lean: a received frame read step by step, for the classification of R185 and
for what the Curator answers (R185 to R192). -/

namespace Sys2Proof.Machine

/-! ## Layer 2 -/

/-- A byte of a frame. -/
def byteAt (b : Bytes) (o : Nat) : Nat := field b o 1

/-- Layer 2 of a frame. A tag with VID 0 counts as untagged (R183). -/
structure L2 where
  vid : Option Nat
  malformed : Bool
  etherType : Nat
  /-- Where the network header begins. -/
  off : Nat
  tagged : Bool
  deriving DecidableEq, Repr

/-- Read the tags: one 802.1Q tag is read; a second one or an 802.1ad tag is malformed (R185 step 5).
(PRESUMED, log entry 59.) -/
def readL2 (b : Bytes) : L2 :=
  let t := be16 b 12
  if t = 0x88A8 then { vid := none, malformed := true, etherType := t, off := 14, tagged := true }
  else if t = 0x8100 then
    let v := be16 b 14 % 4096
    let e := be16 b 16
    { vid := if v = 0 then none else some v, malformed := e == 0x8100 || e == 0x88A8, etherType := e
      off := 18, tagged := true }
  else { vid := none, malformed := false, etherType := t, off := 14, tagged := false }

/-- VLAN_MODE and VLAN_LIST let a frame in (R183). (PRESUMED, log entry 59.) -/
def vlanAdmits (c : MacCfg) (l : L2) : Bool :=
  match l.vid with
  | none => c.vlanMode != 1
  | some v => c.vlanMode != 0 && (c.vlanList.isEmpty || c.vlanList.contains v)

/-- A MAC address of a frame. -/
def macAt (b : Bytes) (o : Nat) : BitVec 48 := BitVec.ofNat 48 (field b o 6)

/-- The destination is broadcast, multicast or the port's own (R185 step 4). -/
def destAdmits (c : MacCfg) (b : Bytes) : Bool :=
  byteAt b 0 % 2 == 1 || (c.macAddr != 0 && macAt b 0 == c.macAddr)

/-! ## Layer 3 -/

/-- What the network layer of a frame shows. -/
structure L3 where
  malformed : Bool
  ipv6 : Bool
  /-- Protocol behind every header, and where its bytes begin and how many there are. -/
  proto : Nat
  off : Nat
  size : Nat
  /-- ICMPv6 directly or after one hop-by-hop header (R188). -/
  icmp6 : Bool
  deriving DecidableEq, Repr

/-- Read an IPv4 header at an offset (R185 step 6). (PRESUMED, log entry 59.) -/
def readV4 (b : Bytes) (o : Nat) : L3 :=
  let ihl := byteAt b o % 16
  let total := be16 b (o + 2)
  let frag := be16 b (o + 6) % 16384
  let head := (b.drop o).take (4 * ihl)
  { malformed := byteAt b o / 16 != 4 || ihl < 5 || head.length != 4 * ihl || fold16 (sum16 head) != 0xFFFF
      || decide (b.length < o + total) || decide (total < 4 * ihl) || frag != 0
    ipv6 := false
    proto := byteAt b (o + 9)
    off := o + 4 * ihl
    size := total - 4 * ihl
    icmp6 := false }

/-- Walk IPv6 extension headers: protocol, offset and bytes left; 44 is a fragment header.
(PRESUMED, log entry 59.) -/
def walkV6 (b : Bytes) : Nat → Nat → Nat → Nat → Nat × Nat × Nat
  | 0, h, o, n => (h, o, n)
  | k + 1, h, o, n =>
    if h = 0 ∨ h = 43 ∨ h = 60 then
      let len := 8 * (byteAt b (o + 1) + 1)
      walkV6 b k (byteAt b o) (o + len) (n - len)
    else (h, o, n)

/-- Read an IPv6 header at an offset (R185 step 6). -/
def readV6 (b : Bytes) (o : Nat) : L3 :=
  let size := be16 b (o + 4)
  let h := byteAt b (o + 6)
  let (proto, off, left) := walkV6 b 8 h (o + 40) size
  { malformed := byteAt b o / 16 != 6 || decide (b.length < o + 40 + size) || proto == 44
    ipv6 := true
    proto := proto
    off := off
    size := left
    icmp6 := h == 58 || (h == 0 && byteAt b (o + 40) == 58) }

/-- The network layer of a frame, where its EtherType is IPv4 or IPv6. (PRESUMED, log entry 59.) -/
def readL3 (b : Bytes) (l : L2) : Option L3 :=
  if l.etherType = 0x0800 then some (readV4 b l.off)
  else if l.etherType = 0x86DD then some (readV6 b l.off)
  else none

/-- Source and destination address of a frame's network header. -/
def srcIp (b : Bytes) (l : L2) (n : L3) : BitVec 128 :=
  BitVec.ofNat 128 (if n.ipv6 then field b (l.off + 8) 16 else field b (l.off + 12) 4)
def dstIp (b : Bytes) (l : L2) (n : L3) : BitVec 128 :=
  BitVec.ofNat 128 (if n.ipv6 then field b (l.off + 24) 16 else field b (l.off + 16) 4)

/-! ## Layer 4 -/

/-- Bytes of the addresses that the UDP pseudo header covers. -/
def addressBytes (b : Bytes) (l : L2) (n : L3) : Bytes :=
  if n.ipv6 then (b.drop (l.off + 8)).take 32 else (b.drop (l.off + 12)).take 8

/-- UDP: length and checksum (R185 step 8). -/
def udpMalformed (b : Bytes) (l : L2) (n : L3) : Bool :=
  let len := be16 b (n.off + 4)
  let sum := be16 b (n.off + 6)
  let bytes := (b.drop n.off).take len
  let good := fold16 (sum16 (addressBytes b l n) + 17 + len + sum16 bytes) == 0xFFFF
  decide (len < 8) || decide (n.size < len)
    || (if n.ipv6 then sum == 0 || !good else sum != 0 && !good)

/-- UDP payload of a frame. -/
def udpPayload (b : Bytes) (n : L3) : Bytes := (b.drop (n.off + 8)).take (be16 b (n.off + 4) - 8)

/-! ## Fixed classifiers (R188) -/

/-- A frame that is trapped to the Curator in any case. -/
def fixedTrap (b : Bytes) (l : L2) (n : Option L3) : Bool :=
  l.etherType == 0x0806 || l.etherType == 0x88F7 ||
    (match n with
    | none => false
    | some n =>
      (n.proto == 17 && (be16 b (n.off + 2) == 319 || be16 b (n.off + 2) == 320))
        || (!n.ipv6 && (n.proto == 1 || n.proto == 2)) || n.icmp6)

/-- Where a PTP message begins in a frame. -/
def ptpOffset (b : Bytes) (l : L2) (n : Option L3) : Option Nat :=
  if l.etherType = 0x88F7 then some l.off
  else
    match n with
    | none => none
    | some n =>
      if n.proto = 17 ∧ (be16 b (n.off + 2) = 319 ∨ be16 b (n.off + 2) = 320) then some (n.off + 8) else none

/-- messageType of a PTP message: 0 Sync, 1 Delay_Req, 2 Pdelay_Req and 3 Pdelay_Resp are event
messages. -/
def ptpType (b : Bytes) (o : Nat) : Nat := byteAt b o % 16

/-! ## Trap patterns (R190) -/

/-- Highest selected byte of a mask. -/
def maskTop (m : BitVec 128) : Nat := Nat.log2 m.toNat

/-- The bytes that a mask selects, zero elsewhere. -/
def maskedBytes (m : BitVec 128) (b : Bytes) : Bytes :=
  (List.range 128).map (fun i => if m.getLsbD i then b.getD i 0 else 0)

/-- A frame matches a pattern. -/
def patternMatches (t : TrapPattern) (b : Bytes) : Bool :=
  t.action != 0 && t.mask != 0 && decide (maskTop t.mask < b.length) && crc16 (maskedBytes t.mask b) == t.check

/-- ACTION of the lowest-numbered pattern that matches. -/
def trapAction (s : State) (port : Nat) (b : Bytes) : Option Nat :=
  ((List.range 32).map (trapPattern s port)).findSome?
    (fun t => if patternMatches t b then some t.action else none)

/-! ## Command packets (R192, R361) -/

/-- Read a command packet that arrived on an endpoint. Fewer than 36 bytes hold none. -/
def parsePacket (e : Endpoint) (b : Bytes) : Option HostPacket :=
  if b.length < 36 then none
  else
    some
      { opcode := BitVec.ofNat 16 (field b 4 2)
        body :=
          { endpoint := e
            ring := 0
            version := BitVec.ofNat 8 (field b 0 1)
            cls := BitVec.ofNat 8 (field b 1 1)
            flags := BitVec.ofNat 16 (field b 2 2)
            session := BitVec.ofNat 16 (field b 6 2)
            seq := BitVec.ofNat 32 (field b 8 4)
            target := BitVec.ofNat 32 (field b 12 4)
            family := BitVec.ofNat 8 (field b 16 1)
            rsvd17 := BitVec.ofNat 8 (field b 17 1)
            paramLength := BitVec.ofNat 16 (field b 18 2)
            rsvd20 := BitVec.ofNat 96 (field b 20 12)
            params := (b.drop 32).take (b.length - 36)
            crc := BitVec.ofNat 32 (field b (b.length - 4) 4) } }

/-- The command packet in the UDP payload of a frame of a port. (DEDUCED, log entry 61.) -/
def framePacket (port : Fin 64) (b : Bytes) : Option HostPacket :=
  let l := readL2 b
  match readL3 b l with
  | none => none
  | some n =>
    if n.proto = 17 then
      let tag := if l.tagged then some (BitVec.ofNat 16 (be16 b 14)) else none
      parsePacket (.udp port (srcIp b l n) (BitVec.ofNat 16 (be16 b n.off)) tag (macAt b 6)) (udpPayload b n)
    else none

end Sys2Proof.Machine
end

