-- ==== Sys2Proof/Machine/FlowRx.lean ====
section
/-! DEFINITION. FlowRx.lean: what a receive flow does with a packet, from its frame mapping to the
2022-7 merge, and its presentation (R198 to R205). -/

namespace Sys2Proof.Machine

/-! ## RTP -/

/-- RTP header length of a payload: CSRCs and the extension included. (PRESUMED, log entry 63.) -/
def rtpLength (u : Bytes) : Nat :=
  let n := 12 + 4 * (byteAt u 0 % 16)
  if byteAt u 0 / 16 % 2 = 1 then n + 4 + 4 * be16 u (n + 2) else n

/-- One sample row data of ST 2110-20: bytes, field, row, offset in pixels. -/
structure Srd where
  bytes : Nat
  field : Nat
  row : Nat
  offset : Nat
  deriving DecidableEq, Repr

/-- Read up to n SRD headers from an offset; `none` where the packet is too short for one.
(PRESUMED, log entry 63.) -/
def readSrds (u : Bytes) : Nat → Nat → Option (List Srd)
  | 0, _ => some []
  | n + 1, o =>
    if u.length < o + 6 then none
    else
      let r : Srd := { bytes := be16 u o, field := be16 u (o + 2) / 32768, row := be16 u (o + 2) % 32768
                       offset := be16 u (o + 4) % 32768 }
      if be16 u (o + 4) / 32768 = 1 then (readSrds u n (o + 6)).map (fun l => r :: l) else some [r]

/-- SRDs of a VIDEO packet, at most 3 (R195). -/
def packetSrds (u : Bytes) : Option (List Srd) := readSrds u 3 (rtpLength u + 2)

/-- A payload is long enough for the RTP and payload headers of a flow (R185 step 9). -/
def headersFit (k : FlowKind) (u : Bytes) : Bool :=
  decide (rtpLength u ≤ u.length) && decide (12 ≤ u.length) &&
    (match k with
    | .video => (packetSrds u).isSome
    | .audio => true
    | _ => decide (rtpLength u + 8 ≤ u.length))

/-- RTP fields: payload type, sequence number, timestamp. -/
def rtpPt (u : Bytes) : Nat := byteAt u 1 % 128
def rtpSeq (u : Bytes) : Nat := be16 u 2
def rtpTime (u : Bytes) : Word := BitVec.ofNat 32 (beNat ((u.drop 4).take 4))

/-- Extended sequence number; the RTP sequence number where the kind has no extension (R204). -/
def extendedSeq (k : FlowKind) (u : Bytes) : Nat :=
  match k with
  | .video | .anc => be16 u (rtpLength u) * 65536 + rtpSeq u
  | _ => rtpSeq u

/-! ## The frame grid (R141, R198) -/

/-- Period of a format's frames in ROOT cycles, on the family's grid. -/
def formatPeriod (f : Nat) : Nat :=
  let p := periodRoot ((formatRate f).getD 0)
  if formatDouble f then p / 2 else p

/-- Format whose frames a flow uses: its own, the one detected, or for ANC that of the VIDEO flow of its
slot; none = the grid of its family (R198, R202, R203). -/
def flowFormat (s : State) (n : Nat) (f : RxFlow) : Option Nat :=
  match f.kind with
  | .video => some f.format
  | .sdi => f.detected
  | .anc =>
    (s.pkt.rxFlows.find? (fun e => e.1 / 1024 == n / 1024 && e.2.slot == f.slot && e.2.kind == .video)).map
      (fun e => e.2.format)
  | .audio => none

/-- Frame period of a flow in ROOT cycles, and the total lines of its frame. -/
def flowPeriod (s : State) (n : Nat) (f : RxFlow) : Nat :=
  match flowFormat s n f with
  | some x => formatPeriod x
  | none => periodRoot (familyRate s f.family)
def flowLines (s : State) (n : Nat) (f : RxFlow) : Nat :=
  match flowFormat s n f with | some x => formatTotalLines x | none => 1125

/-- Half-rate flows start a frame at even hangs only (R141). -/
def flowHalf (s : State) (n : Nat) (f : RxFlow) : Bool := isHalf s f.family (flowFormat s n f)

/-- A frame start at or before the running boundary. -/
def frameAnchor (s : State) (n : Nat) (f : RxFlow) : Int :=
  let fam := familyOf s f.family
  if flowHalf s n f && fam.hang.getLsbD 0 then fam.boundary - periodRoot (familyRate s f.family)
  else fam.boundary

/-- The latest frame start at or before a ROOT cycle. -/
def startBefore (s : State) (n : Nat) (f : RxFlow) (root : Int) : Int :=
  let a := frameAnchor s n f
  let p : Int := flowPeriod s n f
  a + (root - a) / p * p

/-- The frame start nearest to a ROOT cycle. -/
def startNearest (s : State) (n : Nat) (f : RxFlow) (root : Int) : Int :=
  let p : Int := flowPeriod s n f
  startBefore s n f (root + p / 2)

/-! ## Media clocks (R198, R201) -/

/-- Media clock of a kind, in Hz. -/
def mediaClock (k : FlowKind) : Nat :=
  match k with | .sdi => 27000000 | .audio => 48000 | _ => 90000

/-- Media clock count of device time at a ROOT cycle, from the PTP epoch. -/
def mediaCountAt (t : Triple) (hz : Nat) (root : Int) : Int := unitsAtRoot t root * hz / 65536000000000

/-- The media clock count nearest to an instant that a timestamp spells modulo 2³². -/
def nearestCount (now : Int) (stamp : Word) : Int :=
  let d := ((stamp.toNat : Int) - now) % 2 ^ 32
  now + (if d < 2 ^ 31 then d else d - 2 ^ 32)

/-- ROOT cycle of a media clock count under the active triple. -/
def rootOfCount (t : Triple) (hz : Nat) (n : Int) : Int :=
  8 * (t.c0.toNat : Int) + (n * 65536000000000 - (Time.units t.t0 : Int) * hz) * 2 ^ 35 / (hz * t.rate)

/-- The frame start to which a timestamp maps (R198). -/
def mapFrame (s : State) (n : Nat) (f : RxFlow) (stamp : Word) : Int :=
  let now := rootNow s
  if f.arrival || !s.time.timeSet then startBefore s n f now
  else
    let hz := mediaClock f.kind
    startNearest s n f (rootOfCount s.time.triple hz (nearestCount (mediaCountAt s.time.triple hz now) stamp))

/-! ## The window (R199) -/

/-- Outcomes of R199. -/
inductive Arrival where
  | onTime | early | late
  deriving DecidableEq, Repr

/-- Where an arrival lies for a packet that carries active line y of the frame of start F.
(DEDUCED, log entry 64.) -/
def judgeArrival (s : State) (n : Nat) (f : RxFlow) (start : Int) (y : Nat) : Arrival :=
  let p : Int := flowPeriod s n f
  let lines : Int := flowLines s n f
  let age := (rootNow s - start) * lines
  if age < 16 * p then .early
  else if p * lines + 16 * p + (y - 1 : Nat) * p < age then .late
  else .onTime

/-- Active line that a packet carries: of a VIDEO packet that of its first SRD, the second field's lines
after the first's; of an SDI packet by its place in the frame. (DEDUCED, log entry 65.) -/
def packetLine (f : RxFlow) (u : Bytes) (first : Nat) : Nat :=
  match f.kind with
  | .video =>
    let r := ((packetSrds u).getD []).headD { bytes := 0, field := 0, row := 0, offset := 0 }
    1 + r.row + r.field * (((formatLines f.format).1 + 1) / 2)
  | .sdi =>
    let i := (rtpSeq u + 65536 - first % 65536) % 65536
    match f.detected with
    | some x => 1 + i * sdiPayload * formatTotalLines x / sdiFrameBytes x
    | none => 1
  | _ => 1

/-- Row and offset lie inside FORMAT (R200). -/
def geometryOk (f : RxFlow) (u : Bytes) : Bool :=
  let lines := pictureLines f.format
  f.kind != .video || ((packetSrds u).getD []).all
    (fun r => lines.contains (r.field == 1, r.row + 1) && decide (r.offset < formatWidth f.format))

/-! ## Merge (R204, R205) -/

/-- Ticks for which accepted packets are remembered: longer than any window, shorter than any wrap of
a 16-bit sequence number. (DEDUCED, log entry 64.) -/
def mergeMemory : Nat := 59400000

/-- Forget packets that can have no copy in the window any more. -/
def recentNow (s : State) (f : RxFlow) : List (Nat × Word64 × Bool) :=
  f.recent.filter (fun e => decide ((s.time.count - e.2.1).toNat < mergeMemory))

/-- Skews of the last second. -/
def skewsNow (s : State) (l : List (Word64 × Int)) : List (Word64 × Int) :=
  l.filter (fun e => decide ((s.time.count - e.1).toNat < 594000000))

/-- LEG_SKEW in microseconds: mean over the last second of leg B minus leg A (R205). -/
def legSkew (s : State) (f : RxFlow) : Int :=
  let l := skewsNow s f.skews
  if l.isEmpty then 0 else (l.foldl (fun t e => t + e.2) 0) / (594 * l.length)

/-- A copy of a packet already accepted: DUPLICATE, and its skew when it came on the other leg.
(DEDUCED, log entry 64.) -/
def duplicateOf (s : State) (f : RxFlow) (legB : Bool) (old : Nat × Word64 × Bool) : RxFlow :=
  let diff : Int := ((s.time.count - old.2.1).toNat : Int)
  let skews := if old.2.2 = legB then f.skews else (s.time.count, if legB then diff else -diff) :: skewsNow s f.skews
  { f with counters := { f.counters with duplicate := sat48 f.counters.duplicate 1 }, skews := skews }

/-- Accept a packet from a leg (R204). (DEDUCED, log entry 64.) -/
def acceptFrom (s : State) (f : RxFlow) (legB : Bool) (seq : Nat) : RxFlow :=
  let c := f.counters
  { f with
      recent := (seq, s.time.count, legB) :: recentNow s f
      counters := if legB then { c with usedB := sat48 c.usedB 1 } else { c with usedA := sat48 c.usedA 1 } }

/-! ## What packets carry -/

/-- SDI formats by the MAP, FRAME, FRATE and SAMPLE fields of the ST 2022-6 payload header: MAP 1 is Level B-DL, SAMPLE 0
unknown and 1 4:2:2 with 10 bits.
(PRESUMED, log entry 63.) -/
def headerFormat (u : Bytes) : Option Nat :=
  let o := rtpLength u
  let frame := byteAt u (o + 4) % 16 * 16 + byteAt u (o + 5) / 16
  let rate := byteAt u (o + 5) % 16 * 16 + byteAt u (o + 6) / 16
  let map := byteAt u (o + 4) / 16
  if 1 < byteAt u (o + 6) % 16 ∨ 1 < map then none
  else if map = 1 then
    match frame, rate with
    | 0x21, 0x12 => some 0x38 | 0x21, 0x11 => some 0x39 | 0x21, 0x10 => some 0x3A | _, _ => none
  else match frame, rate with
  | 0x10, 0x17 => some 0x01 | 0x11, 0x18 => some 0x02
  | 0x30, 0x12 => some 0x10 | 0x30, 0x11 => some 0x11 | 0x30, 0x10 => some 0x12
  | 0x20, 0x18 => some 0x20 | 0x20, 0x17 => some 0x21 | 0x20, 0x16 => some 0x22
  | 0x22, 0x1B => some 0x23 | 0x22, 0x1A => some 0x24 | 0x22, 0x18 => some 0x25
  | 0x22, 0x17 => some 0x26 | 0x22, 0x16 => some 0x27
  | 0x21, 0x1B => some 0x28 | 0x21, 0x1A => some 0x29 | 0x21, 0x18 => some 0x2A
  | 0x21, 0x17 => some 0x2B | 0x21, 0x16 => some 0x2C
  | 0x21, 0x12 => some 0x30 | 0x21, 0x11 => some 0x31 | 0x21, 0x10 => some 0x32
  | _, _ => none

/-- The sample row data of a VIDEO packet with their bytes (R195). -/
def srdData (u : Bytes) : List (Srd × Bytes) :=
  let rs := (packetSrds u).getD []
  (rs.foldl (fun (out, o) r => (out ++ [(r, (u.drop o).take r.bytes)], o + r.bytes))
    (([] : List (Srd × Bytes)), rtpLength u + 2 + 6 * rs.length)).1

/-- Runs of samples that a VIDEO packet brings: row, first sample, samples; two for each pixel of the offset. -/
def packetRuns (u : Bytes) : List (Nat × Nat × List (BitVec 10)) :=
  (srdData u).map (fun x => (x.1.field * 65536 + x.1.row, 2 * x.1.offset, unpackTens x.2))

/-- The ancillary packets of an ST 2110-40 payload, at most n of them; C in the first bit, then the line, the
horizontal place and the stream. (PRESUMED, log entry 146.) -/
def readAncMedia : Nat → Bytes → List AncPacket
  | 0, _ => []
  | n + 1, b =>
    if b.length < 8 then []
    else
      let tens := unpackTens (b.drop 4)
      let word := fun (k : Nat) => tens.getD k 0
      let count := (word 2).toNat % 256
      let head := beNat (b.take 4)
      let p : AncPacket :=
        { did := (word 0).setWidth 8, sdid := (word 1).setWidth 8, data := (tens.drop 3).take count
          line := head / 2 ^ 20 % 2048, cStream := head / 2 ^ 31 == 1, hanc := head / 2 ^ 8 % 4096 == 0xFFE }
      p :: readAncMedia n (b.drop (4 + 4 * ((10 * (count + 4) + 31) / 32)))

/-- The packets of an ANC flow's payload, but those that R132 removes (R195). -/
def packetAnc (sd : Bool) (u : Bytes) : List AncPacket :=
  let o := rtpLength u
  (readAncMedia (byteAt u (o + 4)) (u.drop (o + 8))).filter (fun p => ancKind sd p == .other)

/-! ## Frames in reception (R198, R199) -/

/-- A frame's first packet maps it, and reports TIME_UNSET (R198). A frame of an SDI flow begins behind the packet
with the marker of the one before, where that is known, and shows its format; another one than before begins its
detection anew (R203). (DEDUCED, log entry 64.) -/
def enterFrame (s : State) (n : Nat) (f : RxFlow) (u : Bytes) : RxFlow × Int × Nat :=
  let stamp := rtpTime u
  match f.maps.find? (fun m => m.1 == stamp) with
  | some (_, start, first) => (f, start, first)
  | none =>
    let f := if f.kind = .sdi ∧ headerFormat u ≠ f.detected then { f with detected := headerFormat u, same := 0 } else f
    let start := mapFrame s n f stamp
    let first := match f.lastMarker with
      | some m => if (rtpSeq u + 65536 - m) % 65536 ≤ 1024 then (m + 1) % 65536 else rtpSeq u
      | none => rtpSeq u
    ({ f with maps := (stamp, start, first) :: f.maps.take 3, timeUnset := f.arrival || !s.time.timeSet }, start, first)

/-- Change the buffer of the frame that starts at F. -/
def changeBuffer (start : Int) (g : RxBuffer → RxBuffer) (f : RxFlow) : RxFlow :=
  if f.buffers.any (fun b => b.start == start) then
    { f with buffers := f.buffers.map (fun b => if b.start == start then g b else b) }
  else { f with buffers := f.buffers ++ [g { start := start }] }

/-- An ANC flow's slot carries an SD picture, of which EDH packets are no ancillary data (R132, R202). -/
def flowSd (s : State) (n : Nat) (f : RxFlow) : Bool := isSd ((flowFormat s n f).getD 0)

/-- Write an accepted packet into the buffer of its frame (R199, R202, R203). -/
def writePacket (sd : Bool) (f : RxFlow) (u : Bytes) (start : Int) (first : Nat) : RxFlow :=
  changeBuffer start (fun b =>
    let b := { b with packets := b.packets + 1 }
    match f.kind with
    | .video => { b with rows := b.rows ++ packetRuns u }
    | .anc => { b with anc := b.anc ++ packetAnc sd u }
    | .sdi => { b with stream := tput b.stream ((rtpSeq u + 65536 - first) % 65536) (u.drop (rtpLength u + 8)) }
    | .audio => b) f

/-- Bytes that wait in the arrival margin of a slot. -/
def marginBytes (f : RxFlow) : Nat := (f.margin.map (fun m => m.2.2.length)).sum

/-- Packets of the margin whose frame's buffer is free now, at F + 16 lines, are written (R199). -/
def admitMargin (s : State) (n : Nat) (f : RxFlow) : RxFlow :=
  let p : Int := flowPeriod s n f
  let lines : Int := flowLines s n f
  let open' := fun (m : Int × Nat × Bytes) => decide (16 * p ≤ (rootNow s - m.1) * lines)
  (f.margin.filter open').foldl (fun f m => writePacket (flowSd s n f) f m.2.2 m.1 m.2.1)
    { f with margin := f.margin.filter (fun m => !open' m) }

/-- A packet of a VIDEO, ANC or SDI flow (R198 to R204). -/
def framePacketRx (s : State) (n : Nat) (f : RxFlow) (legB : Bool) (u : Bytes) : RxFlow :=
  if !geometryOk f u then
    { f with counters := { f.counters with geometryErr := sat48 f.counters.geometryErr 1 } }
  else
    let (f, start, first) := enterFrame s n f u
    let f := if f.kind = .sdi ∧ byteAt u 1 / 128 = 1 then { f with lastMarker := some (rtpSeq u) } else f
    let late := { f with counters := { f.counters with late := sat48 f.counters.late 1 } }
    let seq := extendedSeq f.kind u
    let merged := fun (g : RxFlow → RxFlow) =>
      match (recentNow s f).find? (fun e => e.1 == seq) with
      | some old => duplicateOf s f legB old
      | none => g (acceptFrom s f legB seq)
    match judgeArrival s n f start (packetLine f u first) with
    | .late => late
    | .onTime => merged (fun f => writePacket (flowSd s n f) f u start first)
    | .early =>
      if f.kind = .anc then merged (fun f => writePacket (flowSd s n f) f u start first)
      else if marginBytes f + u.length ≤ 524288 then
        merged (fun f => { f with margin := f.margin ++ [(start, first, u)] })
      else { f with counters := { f.counters with early := sat48 f.counters.early 1 } }

/-! ## The interface stream of an SDI flow (R111, R203) -/

/-- Word j of a frame's stream; none where no packet brought it. -/
def streamWord (t : Tab Bytes) (j : Nat) : Option (BitVec 10) :=
  let bits := (List.range 10).map (fun k =>
    let b := 10 * j + k
    (tfind t (b / 8 / sdiPayload)).map (fun d => decide (byteAt d (b / 8 % sdiPayload) / 2 ^ (7 - b % 8) % 2 = 1)))
  if bits.all Option.isSome then some (BitVec.ofNat 10 (natOfBits (bits.map (fun b => b.getD false)).reverse))
  else none

/-- Words of a raster line in one link or sub-image. -/
def imageWords (fmt : Nat) : Nat := if isSd fmt then lineLength fmt else 2 * lineLength fmt

/-- Raster line y of one sub-image of a frame's stream. -/
def streamLine (fmt sub y : Nat) (t : Tab Bytes) : List (Option (BitVec 10)) :=
  let w := imageWords fmt
  (List.range w).map (fun k => streamWord t ((w * (y - 1) + k) * subImages fmt + sub))

/-- EAV and SAV stand where the format has them (R111). -/
def refsGood (fmt y : Nat) (ws : List (Option (BitVec 10))) : Bool :=
  let both := fun (xs : List (BitVec 10)) => (if isSd fmt then xs else interleave xs xs).map some
  let eav := both (trsWords (fieldTwo fmt y) (isVanc fmt y) true)
  let sav := both (trsWords (fieldTwo fmt y) (isVanc fmt y) false)
  ws.take eav.length == eav && (ws.drop (imageWords fmt - imageSamples fmt - sav.length)).take sav.length == sav

/-- The active part of a line; black where no packet brought a sample (R199). -/
def activePart (fmt : Nat) (ws : List (Option (BitVec 10))) : List (BitVec 10) :=
  ((ws.drop (imageWords fmt - imageSamples fmt)).zipIdx).map (fun x => x.1.getD (blackSample x.2))

/-- The ancillary packets among words, each whether its parity and checksum hold. -/
def findAnc (line : Nat) (cStream hanc : Bool) : Nat → List (BitVec 10) → List RxAnc
  | 0, _ => []
  | n + 1, ws =>
    match ws with
    | a :: b :: c :: did :: sdid :: count :: rest =>
      if a = 0 ∧ b = 0x3FF ∧ c = 0x3FF then
        let k := count.toNat % 256
        let p : AncPacket := { did := did.setWidth 8, sdid := sdid.setWidth 8, data := rest.take k, line := line
                               cStream := cStream, hanc := hanc }
        { packet := p, good := ancWords p == ws.take (7 + k) } :: findAnc line cStream hanc n (rest.drop (k + 1))
      else findAnc line cStream hanc n (b :: c :: did :: sdid :: count :: rest)
    | _ => []

/-- The ancillary packets of a raster line: HANC, and VANC where the line has no picture. -/
def lineAnc (fmt y : Nat) (ws : List (Option (BitVec 10))) : List RxAnc :=
  let words := ws.map (fun w => w.getD 0x200)
  let head := imageWords fmt - imageSamples fmt
  let hanc := words.take head
  let vanc := if isVanc fmt y then words.drop head else []
  let find := fun (c h : Bool) (xs : List (BitVec 10)) => findAnc y c h xs.length xs
  if isSd fmt then find false true hanc ++ find false false vanc
  else find false true (sampleStream true hanc) ++ find true true (sampleStream false hanc)
    ++ find false false (sampleStream true vanc) ++ find true false (sampleStream false vanc)

/-- Raster lines that a frame's stream has: of Level B-DL those of one field, which carry a picture. -/
def streamLines (fmt : Nat) : Nat := if isLevelB fmt then 562 else rasterLines fmt

/-- No three lines in a row lack their timing references: the structure is that of the format (R111).
(PRESUMED, log entry 63.) -/
def structureHolds (fmt : Nat) (t : Tab Bytes) : Bool :=
  ((List.range (streamLines fmt)).foldl (fun (run, ok) k =>
    let run := if refsGood fmt (k + 1) (streamLine fmt 0 (k + 1) t) then 0 else run + 1
    (run, ok && decide (run < 3))) ((0 : Nat), true)).2

/-- The payload ID that a frame's stream carries (R115). (PRESUMED, log entry 63.) -/
def streamPid (fmt : Nat) (t : Tab Bytes) : Option Word :=
  (pidLines fmt).findSome? (fun y =>
    ((lineAnc fmt y (streamLine fmt 0 y t)).find? (fun x => x.good && ancKind (isSd fmt) x.packet == .payloadId)).map
      (fun x => BitVec.ofNat 32 ((x.packet.data.take 4).foldr (fun w v => w.toNat % 256 + 256 * v) 0)))

/-! ## Audio packets (R201) -/

/-- Play delay of an AUDIO flow in samples. -/
def playDelay (s : State) (n : Nat) (f : RxFlow) : Nat :=
  match f.slot with
  | none => f.playout
  | some k =>
    let g := n / 1024
    match s.pkt.rxFlows.find? (fun e => e.1 / 1024 == g && e.2.slot == some k && feedsSource e.2) with
    | some e =>
      let p := flowPeriod s e.1 e.2
      let l := flowLines s e.1 e.2
      (2 * 48000 * (p * l + 16 * p) + 4752000000 * l) / (2 * 4752000000 * l)
    | none => f.playout

/-- One audio sample of a payload as a 24-bit word. -/
def audioWord (l16 : Bool) (d : Bytes) (i : Nat) : Word :=
  if l16 then BitVec.ofNat 32 (be16 d (2 * i) * 256)
  else BitVec.ofNat 32 (beNat ((d.drop (3 * i)).take 3))

/-- The samples of a payload, one list of channel words per sample time. -/
def audioSamples (f : RxFlow) (u : Bytes) : List (List Word) :=
  let d := u.drop (rtpLength u)
  let size := f.chCount * (if f.l16 then 2 else 3)
  (List.range (d.length / size)).map (fun k =>
    (List.range f.chCount).map (fun c => audioWord f.l16 d (k * f.chCount + c)))

/-- Place samples from a play index on; those whose play time has passed count in LATE.
(DEDUCED, log entry 67.) -/
def placeSamples (now : Int) (count : Nat) : Int → List (List Word) → RxFlow → RxFlow
  | _, [], f => f
  | i, w :: r, f =>
    let f := if i ≤ now then
        { f with counters := { f.counters with late := sat48 f.counters.late count } }
      else { f with samples := tput f.samples i.toNat w }
    placeSamples now count (i + 1) r f

/-- A packet of an AUDIO flow (R201, R204). -/
def audioPacketRx (s : State) (n : Nat) (f : RxFlow) (legB : Bool) (u : Bytes) : RxFlow :=
  let now := mediaCountAt s.time.triple 48000 (rootNow s)
  let start := nearestCount now (rtpTime u) + playDelay s n f
  let words := audioSamples f u
  let seq := extendedSeq f.kind u
  if decide (start + words.length ≤ now + 1) then placeSamples now f.chCount start words f
  else
    match (recentNow s f).find? (fun e => e.1 == seq) with
    | some old => duplicateOf s f legB old
    | none => placeSamples now f.chCount start words (acceptFrom s f legB seq)

/-! ## Lines of the presented frame (R199, R203) -/

/-- Lines of a flow's frame that leave one by one: active lines, or raster lines of an SDI flow. -/
def flowLineCount (f : RxFlow) : Nat :=
  match f.kind with
  | .video => (pictureLines f.format).length
  | .sdi => match f.detected with | some x => streamLines x | none => 0
  | _ => 0

/-- The buffer of the frame that is presented. -/
def shownBuffer (f : RxFlow) : Option RxBuffer :=
  f.shownAt.bind (fun t => f.buffers.find? (fun b => b.start == t))

/-- The flow's sources carry its frames. -/
def flowPresents (s : State) (n : Nat) (f : RxFlow) : Bool :=
  !(flowSources n f).isEmpty && (flowSources n f).all (fun x => (sourceOf s x).usable)

/-- The samples of a row that packets brought; none where none did. -/
def rowSamples (count key : Nat) (b : RxBuffer) : List (Option (BitVec 10)) :=
  ((b.rows.filter (fun r => r.1 == key)).foldl (fun xs r =>
    xs.take r.2.1 ++ r.2.2.map some ++ xs.drop (r.2.1 + r.2.2.length)) (List.replicate count none)).take count

/-- A line of a flow's frame leaves with samples that no packet brought (R199). -/
def countIncomplete (n : Nat) (f : RxFlow) (missing : Bool) (s : State) : State :=
  if missing then
    putRxFlow s n { f with counters := { f.counters with linesIncomplete := sat32 f.counters.linesIncomplete 1 } }
  else s

/-- Active line y of a VIDEO flow leaves, black where no packet brought a sample; a bonded picture's by the member
that carries it (R90, R196, R199). (DEDUCED, log entry 65.) -/
def releaseRow (n y : Nat) (f : RxFlow) (b : RxBuffer) (s : State) : State :=
  let (second, line) := (pictureLines f.format).getD (y - 1) (false, 1)
  let xs := rowSamples (lineSampleCount f.format) (bit second * 65536 + (line - 1)) b
  let s := countIncomplete n f (xs.any Option.isNone) s
  if flowPresents s n f then
    let src := (flowSources n f).headD 0 + line % pictureBond f.format
    presentLine src { second := second, line := line, samples := xs.zipIdx.map (fun x => x.1.getD (blackSample x.2)) } s
  else s

/-- An ancillary packet of an SDI flow's line: audio into its run, the rest into the ancillary source (R130 to R132,
R203). -/
def flowPacket (n src : Nat) (sd : Bool) (line : List RxAnc) (s : State) (x : RxAnc) : State :=
  match rxFlowOf s n with
  | none => s
  | some f =>
    match ancKind sd x.packet with
    | .audioData g =>
      if 4 < g ∨ tget (fun _ => 0) f.groups g = 2 then s
      else match x.good, lineLowBits sd g line with
        | true, some low =>
          (wholeSamples sd low x.packet).foldl (fun s w => presentSamples src (4 * (g - 1) + w.1) [w.2] s) s
        | _, _ => (List.range 4).foldl (fun s k =>
          repeatSample src (4 * (g - 1) + k) (if sd then x.packet.data.length / 12 else 1) s) s
    | .audioControl g =>
      if x.good && decide (g ≤ 4) then
        let (async, other) := declaredRate sd x.packet
        putRxFlow s n { f with groups := tset (fun _ => 0) f.groups g (if other then 2 else bit async) }
      else s
    | .other => if x.good then presentAnc src x.packet s else s
    | _ => s

/-- Raster line y of an SDI flow leaves; a line of active picture with samples missing counts (R199, R203). -/
def releaseRaster (n y fmt : Nat) (f : RxFlow) (b : RxBuffer) (s : State) : State :=
  let missing := (List.range (subImages fmt)).any (fun sub =>
    ((streamLine fmt sub y b.stream).drop (imageWords fmt - imageSamples fmt)).any Option.isNone)
  let s := countIncomplete n f (!isVanc fmt y && missing) s
  if flowPresents s n f then
    let src := (flowSources n f).headD 0
    let ws := fun (sub : Nat) => streamLine fmt sub y b.stream
    let images := (List.range (subImages fmt)).map (fun sub => activePart fmt (ws sub))
    let s := (picturesOf fmt y images).foldl (fun s l => presentLine src l s) s
    let line := lineAnc fmt y (ws 0)
    line.foldl (fun s x => flowPacket n src (isSd fmt) line s x) s
  else s

/-- Line y of the presented frame leaves. -/
def releaseLine (n : Nat) (s : State) (y : Nat) : State :=
  match rxFlowOf s n with
  | none => s
  | some f =>
    let s := putRxFlow s n { f with shownLines := y }
    let f := { f with shownLines := y }
    match shownBuffer f with
    | none => s
    | some b =>
      match f.kind, f.detected with
      | .video, _ => releaseRow n y f b s
      | .sdi, some fmt => releaseRaster n y fmt f b s
      | _, _ => s

/-- Lines up to the y-th leave. -/
def releaseTo (n y : Nat) (s : State) : State :=
  match rxFlowOf s n with
  | none => s
  | some f =>
    let y := min y (flowLineCount f)
    ((List.range (y - f.shownLines)).map (fun k => f.shownLines + k + 1)).foldl (fun s y => releaseLine n s y) s

/-- Lines of the presented frame whose time is over: packets for them would be late (R199). -/
def linesDue (s : State) (n : Nat) (f : RxFlow) : Nat :=
  match f.shownAt with
  | none => 0
  | some t =>
    let p : Int := flowPeriod s n f
    let a := (rootNow s - t - p) * flowLines s n f - 16 * p
    if a ≤ 0 then 0 else ((a + p - 1) / p).toNat

/-! ## Presentation (R198 to R203) -/

/-- The presentation of a frame ends: its last lines leave; an SDI flow counts the frames with the same structure and
payload ID, and a change ends its source (R112, R203). (PRESUMED, log entry 63.) -/
def settleShown (n : Nat) (s : State) : State :=
  match rxFlowOf (releaseTo n 1125000 s) n with
  | none => s
  | some f =>
    let s := releaseTo n 1125000 s
    match f.kind, f.detected, shownBuffer f with
    | .sdi, some fmt, some b =>
      let holds := structureHolds fmt b.stream
      let pid := streamPid fmt b.stream
      let same := if !holds then 0 else if pid = f.pid then min 2 (f.same + 1) else 1
      let f := { f with same := same, pid := pid, shownAt := none }
      let s := putRxFlow s n f
      if same < 2 then loseFlow n f s else s
    | _, _, _ => putRxFlow s n { f with shownAt := none }

/-- Two instants name the same frame start of a grid. -/
def sameFrame (p : Int) (a b : Int) : Bool := decide (2 * (a - b).natAbs < p)

/-- An SDI flow has had its stable detect: two frames in a row of one structure and payload ID, of a format that is
supported and whose rate fits the family (R108, R112, R203). -/
def sdiDetected (s : State) (f : RxFlow) : Bool :=
  decide (2 ≤ f.same) && !pidUnsupported false f.pid
    && (match f.detected with | some x => fitsRate x (familyRate s f.family) | none => false)

/-- A frame of a VIDEO or SDI flow begins to be presented: at the second of two in a row with packets its source is
usable, at one without packets it is lost (R200). -/
def presentPicture (n : Nat) (f : RxFlow) (had : Bool) (s : State) : State :=
  if !had then loseFlow n f s
  else if f.goodFrames < 2 || (f.kind == .sdi && !sdiDetected s f) then s
  else
    let fmt := (flowFormat s n f).getD 0
    let pid := carriedPid (if f.kind = .sdi then 0 else f.pidFill) fmt (if f.kind = .sdi then f.pid else none)
    let s := (flowSources n f).foldl (fun s x => gainSource x fmt f.family pid s) s
    (flowSources n f).foldl (fun s x => beginFrame x pid s) s

/-- The packets of an ANC flow's frame join the frame that its slot's source presents; a slot without a VIDEO flow has
only them (R202). (DEDUCED, log entry 66.) -/
def presentAncillary (n : Nat) (f : RxFlow) (b : Option RxBuffer) (s : State) : State :=
  match f.slot with
  | none => s
  | some k =>
    let src := slotSource (n / 1024) k
    let e := essenceOf s src
    let s := if slotHas s (n / 1024) (some k) [.video, .sdi] then s
      else putEssence s src { e with now := {}, done := e.now }
    (match b with | some b => b.anc | none => []).foldl (fun s p => presentAnc src p s) s

/-- The frame that starts at F is presented (R198 to R200, R202). -/
def presentAt (n : Nat) (start : Int) (s : State) : State :=
  let s := settleShown n s
  match rxFlowOf s n with
  | none => s
  | some f =>
    let p : Int := flowPeriod s n f
    let b := f.buffers.find? (fun b => sameFrame p b.start start)
    let had := match b with | some b => decide (0 < b.packets) | none => false
    let f := { f with
        shownAt := some ((b.map (fun b => b.start)).getD start), shownLines := 0
        goodFrames := if had then min 2 (f.goodFrames + 1) else 0
        buffers := f.buffers.filter (fun b => decide (-p < 2 * (b.start - start))) }
    let s := putRxFlow s n (admitMargin s n f)
    if f.kind = .anc then presentAncillary n f b s else presentPicture n f had s

/-- A flow carries, or accompanies on its slot, a double-rate picture (R196, R202). -/
def flowDouble (s : State) (n : Nat) (f : RxFlow) : Bool := formatDouble ((flowFormat s n f).getD 0)

/-- A double-rate flow's frame of the boundary is presented a period of its format and 16 lines later, before the PP
(R196, R198). (DEDUCED, log entry 66.) -/
def midpointDue (s : State) (n : Nat) (f : RxFlow) : Bool :=
  let t := (familyOf s f.family).boundary
  let p : Int := flowPeriod s n f
  flowDouble s n f && familyOn s f.family
    && !(match f.shownAt with | some x => sameFrame p x t | none => false)
    && decide (p * flowLines s n f + 16 * p ≤ (rootNow s - t) * flowLines s n f)

/-- What time alone does to a receive flow: its margin empties, lines leave, and a midpoint's presentation begins.
(DEDUCED, log entry 66.) -/
def flowTick (n : Nat) (s : State) : State :=
  match rxFlowOf s n with
  | none => s
  | some f =>
    let s := putRxFlow s n (admitMargin s n f)
    let s := releaseTo n (linesDue s n f) s
    if midpointDue s n f then presentAt n (familyOf s f.family).boundary s else s

/-- A packet is delivered to a leg of a flow: the leg is UP (R205). (DEDUCED, log entry 66.) -/
def deliver (n : Nat) (legB : Bool) (u : Bytes) (s : State) : State :=
  let s := flowTick n s
  match rxFlowOf s n with
  | none => s
  | some f =>
    let f := if legB then { f with legBUp := true } else { f with legAUp := true }
    putRxFlow s n (if f.kind = .audio then audioPacketRx s n f legB u else framePacketRx s n f legB u)

/-- A flow at a presentation point of its family: the frame that started a period of its format before is presented; of
a double-rate flow first the one before it, where that has not been presented yet (R141, R198).
(DEDUCED, log entry 66.) -/
def presentFlow (n : Nat) (s : State) : State :=
  match rxFlowOf s n with
  | none => s
  | some f =>
    let fam := familyOf s f.family
    let p : Int := flowPeriod s n f
    if f.kind = .audio || (flowHalf s n f && fam.hang.getLsbD 0) then s
    else
      let missed := flowDouble s n f
        && !(match f.shownAt with | some x => sameFrame p x (fam.boundary - 2 * p) | none => false)
      let s := if missed then presentAt n (fam.boundary - 2 * p) s else s
      presentAt n (fam.boundary - p) s

end Sys2Proof.Machine
end

