-- ==== Sys2Proof/Machine/Tdm.lean ====
section
/-! DEFINITION. Tdm.lean: the TDM ports: frames, slot masks, zero crossings, underrun, isolation and
restart (R292 to R306). -/

namespace Sys2Proof.Machine

/-! ## The bit clock (R295) -/

/-- Frame length in ROOT cycles. -/
def tdmFrame (c : TdmCfg) : Nat := if c.fs96 then 49500 else 99000

/-- DIV in 32.32 fixed point: 2³² × C / (32 × SLOTS) to the nearest. -/
def tdmDiv (c : TdmCfg) : Nat := (2 ^ 32 * tdmFrame c * 2 + 32 * c.slots) / (2 * (32 * c.slots))

/-- ROOT cycle, after the frame start, of the launching edge of bit period n. -/
def launchEdge (c : TdmCfg) (n : Nat) : Nat := n * tdmDiv c / 2 ^ 32

/-- ROOT cycle of the sampling edge of bit period n. -/
def sampleEdge (c : TdmCfg) (n : Nat) : Nat := (n * tdmDiv c + tdmDiv c / 2) / 2 ^ 32

/-! ## Slots and channels (R8, R293, R294) -/

/-- A mask of all ones up to SLOTS (R300). -/
def onesTo (n : Nat) : BitVec 32 := BitVec.ofNat 32 (2 ^ n - 1)

/-- Frames of a port per grid period. -/
def framesPer (c : TdmCfg) : Nat := if c.fs96 then 2 else 1

/-- Channel index of slot t in frame j of a grid period. -/
def slotChannel (c : TdmCfg) (p t j : Nat) : Nat := 27136 + 32 * p + (if c.fs96 then 2 * t + j else t)

/-- The bits that a transmit slot sends for a sample word, and the sample that a receive slot takes. -/
def slotWord (w : Word) : Word := w <<< 8
def slotSample (w : Word) : Word := w >>> 8

/-! ## The balls (R292, R293, R295) -/

/-- DOUT in a slot that is off (R292). -/
def offDrive (c : TdmCfg) : Option Word := if c.txOffHiZ then none else some 0

/-- FSYNC is active in bit period n of a frame (R293). -/
def fsyncActive (c : TdmCfg) (n : Nat) : Bool :=
  let total := 32 * c.slots
  let k := (n + bit c.dataDelay) % total
  if c.lr then decide (2 * k < total) else k == 0

/-- Level of FSYNC in each bit period of a frame (R292, R293). -/
def frameSync (c : TdmCfg) : List Bool :=
  (List.range (32 * c.slots)).map (fun n => xor (fsyncActive c n) c.fsyncPolarity)

/-- Level of BCLK in bit period n of a frame, at a ROOT cycle behind the frame start: launch on its falling edge and
sample on its rising edge, or the reverse (R292, R295). -/
def bclkLevel (c : TdmCfg) (n cycle : Nat) : Bool := xor (decide (sampleEdge c n ≤ cycle)) c.bclkPolarity

/-- What the balls of a port show in bit period n of its last frame, at a ROOT cycle behind the frame start: BCLK, FSYNC,
and DOUT, none for high impedance. A stopped port drives them low; one that an isolation or a restart stops drives DOUT as
in slots that are off (R292, R293, R304). -/
def tdmBalls (s : State) (p n cycle : Nat) : Bool × Bool × Option Bool :=
  let v := tdmOf s p
  let last := v.dout.length - (tdmCfg s p).slots
  (v.state == .running && bclkLevel (tdmCfg s p) n cycle, v.fsync.getD n false,
    (v.dout.getD (last + n / 32) (some 0)).map (fun w => w.getLsbD (31 - n % 32)))

/-! ## Faults and isolation (R303, R306) -/

def tdmFault (p : Nat) : Nat := faultId 0x09 31 p

/-- A port stops: slots off, FIFOs empty and aligned, flags clear (R304 step 2). -/
def stopTdm (v : TdmPort) (next : TdmState) (dout : List (Option Word)) : TdmPort :=
  { v with state := next, underrun := false, overrun := false, txOn := 0, rxOn := 0, txWaiting := []
           rxWaiting := [], txFifo := [], txWrite := 0, txRead := 0, rxFifo := [], rxWrite := 0, rxRead := 0
           dout := dout, fsync := [], din := [] }

/-- DOUT of a port that is stopped as in step 2 of R304: every slot is off. -/
def allOff (c : TdmCfg) : List (Option Word) := List.replicate c.slots (offDrive c)

/-- The isolation of a port (R304, R306). -/
def isolateTdm (p : Nat) (s : State) : State :=
  putTdm s p (stopTdm (tdmOf s p) .isolated (allOff (tdmCfg s p)))

/-- The earliest start of a port after an event: 1 ms later (R298). (DEDUCED, log entry 81.) -/
def startAfter (s : State) : Int := rootNow s + 4752000

/-- Raise an AUDIO source (R306). -/
def raiseAudio (id : Nat) (s : State) : State :=
  let iso := decide (faultIndex id < 16 ∧ 2 ≤ effectiveSeverity s id)
  let s := raiseCore id s
  if iso then isolateTdm (faultIndex id) s else s

/-- After FAULT_ACK an isolated port starts under R298, where it is enabled. -/
def ackTdm (p : Nat) (s : State) : State :=
  let v := tdmOf s p
  if v.state = .isolated then
    let on := (tdmCfg s p).enable
    putTdm s p { v with
      state := if on then .waitingStart else .stopped, dout := if on then v.dout else [], startFrom := startAfter s }
  else s

/-- Words of a FIFO: two frames (R303). -/
def fifoSize (c : TdmCfg) : Nat := 2 * c.slots

/-- A pointer of a FIFO that has fallen back by a word. -/
def fallBack (c : TdmCfg) (k : Nat) : Nat := (k + fifoSize c - 1) % fifoSize c

/-- The transmit writer misses a word, and the reader passes it: UNDERRUN, without the raise (R303, R306). (DEDUCED, log
entry 84.) -/
def tdmUnderrun (p : Nat) (s : State) : State :=
  let v := tdmOf s p
  putTdm s p { v with
    underrun := true, underruns := sat32 v.underruns 1, txWrite := fallBack (tdmCfg s p) v.txWrite }

/-- The receive reader misses a word, and the writer passes it: OVERRUN, without the raise (R303). (DEDUCED, log entry
84.) -/
def tdmOverrun (p : Nat) (s : State) : State :=
  let v := tdmOf s p
  putTdm s p { v with
    overrun := true, overruns := sat32 v.overruns 1, rxRead := fallBack (tdmCfg s p) v.rxRead }

/-- A matrix side misses its deadline on a running port (R303). -/
def tdmMissed (p : Nat) (transmit : Bool) (s : State) : State :=
  if (tdmOf s p).state = .running then
    raiseAudio (tdmFault p) (if transmit then tdmUnderrun p s else tdmOverrun p s)
  else s

/-! ## Zero crossings (R301) -/

/-- Sign of a 24-bit sample, with 0 counted as positive. -/
def isNegative (w : Word) : Bool := w.getLsbD 23

/-- A zero crossing at a sample, after the sample before it. -/
def crosses (w previous : Word) : Bool := w.extractLsb' 0 24 == 0 || isNegative w != isNegative previous

/-- Slots of a mask change: those that differ from their state wait, until ZC_TIMEOUT is over at a grid period, those that
no longer do stop. -/
def startWaits (on mask : BitVec 32) (due : Nat) (last : Nat → Word) (old : List SlotWait) : List SlotWait :=
  (List.range 32).filterMap (fun t =>
    let target := mask.getLsbD t
    if target = on.getLsbD t then none
    else
      match old.find? (fun w => w.slot == t && w.target == target) with
      | some w => some w
      | none => some { slot := t, target := target, previous := last t, due := due })

/-- Set bit t of a mask. -/
def putBit (m : BitVec 32) (t : Nat) (b : Bool) : BitVec 32 :=
  if b then m ||| (1#32 <<< t) else m &&& ~~~(1#32 <<< t)

/-- One sample period of the waiting slots: those whose sample crosses zero, or that change at once, take
their target. -/
def runWaits (sample : Nat → Word) (atOnce : Nat → Bool) (on : BitVec 32) (ws : List SlotWait) :
    BitVec 32 × List SlotWait :=
  let turns := fun (w : SlotWait) => crosses (sample w.slot) w.previous || atOnce w.slot
  ((ws.filter turns).foldl (fun m w => putBit m w.slot w.target) on,
    (ws.filter (fun w => !turns w)).map (fun w => { w with previous := sample w.slot }))

/-- Grid period at which a wait that begins now is over: ZC_TIMEOUT later (R292, R301). (DEDUCED, log entry 80.) -/
def waitDue (s : State) (p : Nat) : Nat := s.aud.period + 48 * (tdmCfg s p).zcTimeout

/-- A waiting slot has met no crossing within ZC_TIMEOUT: it changes (R301). -/
def timeoutWait (p : Nat) (transmit : Bool) (t : Nat) (s : State) : State :=
  let v := tdmOf s p
  let ws := if transmit then v.txWaiting else v.rxWaiting
  match ws.find? (fun w => w.slot == t && decide (w.due ≤ s.aud.period)) with
  | none => s
  | some w =>
    let rest := ws.filter (fun w => w.slot != t)
    let v := { v with zcTimeouts := sat32 v.zcTimeouts 1 }
    let v := if transmit then
        { v with txWaiting := rest, txOn := putBit v.txOn t w.target, txZcSlots := putBit v.txZcSlots t true }
      else
        { v with rxWaiting := rest, rxOn := putBit v.rxOn t w.target, rxZcSlots := putBit v.rxZcSlots t true }
    raiseAudio (faultId 0x09 31 16) (putTdm s p v)

/-! ## Start (R298) -/

/-- Media sample of the grid boundary that starts the running period: to the nearest count (R283). -/
def mediaSample (s : State) : Int :=
  (2 * unitsAtRoot s.time.triple (99000 * s.aud.period) * 48000 + 65536000000000) / (2 * 65536000000000)

/-- The running grid boundary is a boundary of a port's group (R298). (DEDUCED, log entry 81.) -/
def atGroupBoundary (s : State) (p : Nat) : Bool :=
  match (tdmCfg s p).group with
  | none => true
  | some g => !(groupCfg s g).mediaAlign || mediaSample s % (groupCfg s g).align == 0

/-- Start group settings apply at the next group boundary under them (R299).
(DEDUCED, log entry 81.) -/
def applyGroups (s : State) : State :=
  s.aud.pendingGroups.foldl (fun s e =>
    if !e.2.mediaAlign || mediaSample s % e.2.align == 0 then
      { s with
        set := { s.set with groups := tset (fun _ => {}) s.set.groups e.1 e.2 }
        aud := { s.aud with pendingGroups := tdel s.aud.pendingGroups e.1 } }
    else s) s

/-- The sample of a transmit slot before the next frame's, from the matrix (R301). -/
def lastOut (s : State) (p t : Nat) : Word :=
  let c := tdmCfg s p
  tget (fun _ => (0 : Word)) s.aud.outputsBefore (slotChannel c p t (framesPer c - 1))

/-- A waiting port starts with the slots of its masks on; after a restart they turn on under R301, and the
restart counts and is answered (R298, R304). (DEDUCED, log entry 80.) -/
def startTdm (p : Nat) (s : State) : State :=
  let v := tdmOf s p
  if v.state = .waitingStart ∧ atGroupBoundary s p = true ∧ v.startFrom ≤ 99000 * s.aud.period then
    let again := v.restartPending
    let due := waitDue s p
    let s := putTdm s p { v with
      state := .running, restartPending := false, restartReplies := [], dout := []
      restarts := sat32 v.restarts (bit again)
      txOn := if again then 0 else v.txMask, rxOn := if again then 0 else v.rxMask
      txWaiting := if again then startWaits 0 v.txMask due (lastOut s p) [] else []
      rxWaiting := if again then startWaits 0 v.rxMask due (fun _ => 0) [] else [] }
    v.restartReplies.foldl (fun s r => answerLater r done s) s
  else s

/-! ## Frames (R293, R294, R300 to R304) -/

/-- A changed configuration applies at a frame boundary: the port stops and starts again, but an isolated one stays so
(R292, R306). (DEDUCED, log entry 81.) (DEDUCED, log entry 80.) -/
def reconfigTdm (p : Nat) (c : TdmCfg) (s : State) : State :=
  let v := tdmOf s p
  let old := tdmCfg s p
  let s := { s with set := { s.set with tdm := tset (fun _ => {}) s.set.tdm p c } }
  let w := if v.state = .isolated then { v with pendingCfg := none }
    else { stopTdm v (if c.enable then .waitingStart else .stopped) [] with pendingCfg := none, startFrom := startAfter s }
  putTdm s p (if c.slots = old.slots ∧ c.fs96 = old.fs96 then w
    else { w with txMask := onesTo c.slots, rxMask := onesTo c.slots })

/-- What waits for a frame boundary: a changed configuration, a restart, the masks (R292, R300, R304).
(DEDUCED, log entry 81.) -/
def tdmBoundary (p : Nat) (s : State) : State :=
  let s := match (tdmOf s p).pendingCfg with | none => s | some c => reconfigTdm p c s
  let v := tdmOf s p
  let s := if v.restartPending && v.state == .running then
      putTdm s p { stopTdm v .waitingStart (allOff (tdmCfg s p)) with startFrom := startAfter s }
    else s
  let v := tdmOf s p
  match v.pendingMasks with
  | none => s
  | some (tx, rx) =>
    let v := { v with pendingMasks := none, txMask := tx, rxMask := rx }
    if v.state = .running then
      let due := waitDue s p
      putTdm s p { v with
        txWaiting := startWaits v.txOn tx due (lastOut s p) v.txWaiting
        rxWaiting := startWaits v.rxOn rx due (fun t => slotSample (v.din.getD t 0)) v.rxWaiting }
    else putTdm s p v

/-- The on slots of a mask, in order. -/
def onSlots (m : BitVec 32) : List Nat := (List.range 32).filter (fun t => m.getLsbD t)

/-- Number of on slots. -/
def countOn (m : BitVec 32) : Nat := (onSlots m).length

/-- Words written into a FIFO from a place on. -/
def fifoWrite (size at' : Nat) (ws : List Word) (m : List Word) : List Word :=
  ws.zipIdx.foldl (fun m w => m.set ((at' + w.2) % size) w.1) (m ++ List.replicate (size - m.length) 0)

/-- n words read from a FIFO from a place on. -/
def fifoRead (size at' n : Nat) (m : List Word) : List Word :=
  (List.range n).map (fun i => m.getD ((at' + i) % size) 0)

/-- The word of each slot: of those that are on the words in order. -/
def spreadWords (c : TdmCfg) (slots : List Nat) (words : List Word) : List (Option Word) :=
  (List.range c.slots).map (fun t => (slots.findIdx? (fun x => x == t)).map (fun i => words.getD i 0))

/-- Frame j of a period on the transmit side: the matrix writes the samples of the slots that are on, of the period
before, and the port reads as many words; slots that are off follow TX_OFF_DRIVE (R292, R294, R303). -/
def frameOut (s : State) (p j : Nat) (v : TdmPort) : TdmPort :=
  let c := tdmCfg s p
  let size := fifoSize c
  let slots := onSlots v.txOn
  let m := fifoWrite size v.txWrite
    (slots.map (fun t => tget (fun _ => (0 : Word)) s.aud.outputs (slotChannel c p t j))) v.txFifo
  let words := (fifoRead size v.txRead slots.length m).map slotWord
  { v with
    txFifo := m, txWrite := (v.txWrite + slots.length) % size, txRead := (v.txRead + slots.length) % size
    dout := v.dout ++ (spreadWords c slots words).map (fun w => if w.isSome then w else offDrive c) }

/-- Frame j of a period on the receive side, with its words: the port writes the samples of the slots that are on, and the
matrix reads as many; the slots that are off carry silence (R293, R303). -/
def frameIn (c : TdmCfg) (din : List Word) (v : TdmPort) : TdmPort × List Word :=
  let size := fifoSize c
  let slots := onSlots v.rxOn
  let m := fifoWrite size v.rxWrite (slots.map (fun t => slotSample (din.getD t 0))) v.rxFifo
  let words := fifoRead size v.rxRead slots.length m
  ({ v with
      rxFifo := m, rxWrite := (v.rxWrite + slots.length) % size, rxRead := (v.rxRead + slots.length) % size
      din := din.take c.slots },
    (spreadWords c slots words).map (fun w => w.getD 0))

/-- Add to the Ledger's TDM totals of a direction (R302, R442). -/
def countWords (k n : Nat) (s : State) : State :=
  let (w, r, o) := tget (fun _ => (0, 0, 0)) s.led.tdm k
  { s with led := { s.led with tdm := tput s.led.tdm k (w + n, r + n, o + n) } }

/-- A destination channel is marked non-audio: its source is (R287, R301). -/
def channelNonAudio (s : State) (c : Nat) : Bool :=
  match (destOf s .audio c).active with | some x => s.aud.nonAudio.contains x | none => false

/-- Frame j of a period of a running port with the words received on DIN: waiting slots meet its samples, and it is sent
and received; what comes back are the samples received as (channel, word) (R293, R294, R301). -/
def tdmFrameRun (p j : Nat) (din : List Word) (s : State) : State × List (Nat × Word) :=
  let c := tdmCfg s p
  let v := tdmOf s p
  let sample := fun (t : Nat) => tget (fun _ => (0 : Word)) s.aud.outputs (slotChannel c p t j)
  let (txOn, txW) := runWaits sample (fun t => channelNonAudio s (slotChannel c p t j)) v.txOn v.txWaiting
  let (rxOn, rxW) := runWaits (fun t => slotSample (din.getD t 0)) (fun _ => false) v.rxOn v.rxWaiting
  let v := frameOut s p j { v with
    txOn := txOn, txWaiting := txW, rxOn := rxOn, rxWaiting := rxW, frames := sat48 v.frames 1
    fsync := frameSync c }
  let (v, got) := frameIn c din v
  let s := countWords (2 * p) (countOn txOn) (putTdm s p v)
  (countWords (2 * p + 1) (countOn rxOn) s, got.zipIdx.map (fun w => (slotChannel c p w.2 j, w.1)))

/-- One grid period of a running port with the words received on DIN: one frame, or two at 96 kHz (R294). (DEDUCED, log
entry 84.) -/
def tdmPeriod (p : Nat) (din : List Word) (s : State) : State × List (Nat × Word) :=
  let c := tdmCfg s p
  let s := putTdm s p { tdmOf s p with dout := [] }
  (List.range (framesPer c)).foldl (fun (s, got) j =>
    let (s, x) := tdmFrameRun p j ((din.drop (c.slots * j)).take c.slots) s
    (s, got ++ x)) (s, [])

end Sys2Proof.Machine
end

