-- ==== Sys2Proof/Machine/AudioGrid.lean ====
section
/-! DEFINITION. AudioGrid.lean: one period of the audio matrix: sources, switches, fades, outputs and the
TDM frames (R149, R201, R281 to R289, R293, R294). -/

namespace Sys2Proof.Machine

/-! ## Audio sample memory (R17, R282) -/

/-- Place of a source channel's word of a period. -/
def memoryKey (c k : Nat) : Nat := 32 * c + k % 32

/-- Word of a source channel in a period. -/
def sourceWord (s : State) (c k : Nat) : Word := tget (fun _ => (0 : Word)) s.aud.memory (memoryKey c k)

/-- A sample word in the layout of R281: zero in [31:28]. -/
def carriedWord (w : Word) : Word := w &&& 0x0FFFFFFF

/-- Write a source channel's word of a period (R281). (DEDUCED, log entry 83.) -/
def writeSource (k : Nat) (s : State) (e : Nat × Word) : State :=
  { s with aud := { s.aud with memory := tset (fun _ => (0 : Word)) s.aud.memory (memoryKey e.1 k) (carriedWord e.2) } }

/-! ## Fades (R286, R289) -/

/-- Periods of the first half: until the gain has fallen from its start to 0. -/
def fadeOut (f : Fade) : Nat := (f.half * f.startNum + f.startDen - 1) / f.startDen

/-- Gain of a fade at its step as a fraction, and whether the new source is heard. -/
def fadeGain (f : Fade) : Nat × Nat × Bool :=
  if f.step < fadeOut f then (f.startNum * f.half - f.step * f.startDen, f.startDen * f.half, false)
  else (f.step - fadeOut f, f.half, true)

/-- A fade has ended (R286). -/
def fadeOver (f : Fade) : Bool := decide (fadeOut f + f.half ≤ f.step)

/-- The fade of a V_FADE that hangs on a channel; while another runs, the sound heard then is what fades
out, from its gain (R289). -/
def newFade (running : Option Fade) (engine : Nat) (old new : Option Nat) (ms : Nat) : Fade :=
  match running with
  | none => { old := old, new := new, half := 24 * ms, engine := engine }
  | some f =>
    let (n, d, second) := fadeGain f
    { old := if second then f.new else f.old, new := new, half := 24 * ms, startNum := n, startDen := d
      engine := f.engine }

/-! ## Switches (R149, R286, R287, R289) -/

/-- A source marks its channel non-audio (R287). -/
def sourceNonAudio (s : State) (x : Option Nat) : Bool :=
  match x with | some c => s.aud.nonAudio.contains c | none => false

/-- The fade with which a loaded take switches a channel; none for a CUT. -/
def takeFade (s : State) (c : Nat) (old : Option Nat) (e : Entry) : Option Fade :=
  let running := tfind s.aud.fades c
  if e.fade = 0 || sourceNonAudio s old || sourceNonAudio s e.source then none
  else
    match running, tfind s.aud.reservedFades c with
    | some f, _ => some (newFade (some f) f.engine old e.source e.fade)
    | none, some p => some (newFade none p old e.source e.fade)
    | none, none => none

/-- A channel whose loaded take is ready switches. -/
def switchChannel (c : Nat) (s : State) : State :=
  let v := destOf s .audio c
  match v.shadow with
  | none => s
  | some e =>
    if v.ready then
      let f := takeFade s c v.active e
      let a := s.aud
      let s := { s with aud := { a with
        fades := match f with | some f => tput a.fades c f | none => tdel a.fades c
        reservedFades := tdel a.reservedFades c } }
      markHung e (putDest s .audio c { v with active := e.source, shadow := none, ready := false })
    else s

/-- Every channel that is ready. -/
def switchChannels (s : State) : State :=
  sendDue (s.mtx.audio.foldl (fun s e => switchChannel e.1 s) s)

/-! ## Sources of the period -/

/-- One sample time of an AUDIO flow at a 48 kHz index (R201). (DEDUCED, log entry 67.) -/
def playFlow (i : Nat) (f : RxFlow) : RxFlow × List Word :=
  let rest := f.samples.filter (fun e => decide (i < e.1))
  match tfind f.samples i with
  | some ws => ({ f with samples := rest, lastGood := ws, silent := [] }, ws)
  | none =>
    let heard := f.chCount - f.silent.length
    ({ f with samples := rest
              counters := { f.counters with samplesRepeated := sat32 f.counters.samplesRepeated heard } },
      (List.range f.chCount).map (fun c => if f.silent.contains c then 0 else f.lastGood.getD c 0))

/-- The samples of every AUDIO flow in a period. -/
def playFlows (s : State) : State × List (Nat × Word) :=
  let i := (mediaCountAt s.time.triple 48000 (99000 * s.aud.period)).toNat
  s.pkt.rxFlows.foldl (fun (s, out) e =>
    if e.2.kind = .audio then
      let (f, ws) := playFlow i e.2
      (putRxFlow s e.1 f, out ++ (ws.zipIdx.filter (fun w => !f.silent.contains w.2)).map (fun w => (f.chBase + w.2, w.1)))
    else (s, out)) (s, [])

/-- Groups of an SDI input that are de-embedded (R290). -/
def deembedGroups (s : State) (e : Nat) : BitVec 4 := tget (fun _ => (0xF : BitVec 4)) s.set.deembed e

/-- First source channel and number of channels into which a source brings samples: of a fabric or SDI source
its own 16 (R7), of every other source its run (R163). -/
def sourceChannels (s : State) (n : Nat) : Nat × Nat :=
  if n < 1280 then (16 * n, 16) else if n < 1440 then (20480 + 16 * (n - 1280), 16)
  else (sourceAudio s n).getD (0, 0)

/-- Channel k of SDI input e is silent: its group is disabled (R290). -/
def groupOff (s : State) (e k : Nat) : Bool := !(deembedGroups s e).getLsbD (k / 4)

/-- The frame that a frame synchronizer writes will be complete in r sample periods: its lines that are still to come
take no longer (R120, R121). (DEDUCED, log entry 148.) -/
def completesWithin (i : SdiIn) (r : Nat) : Bool :=
  let fmt := i.detected.getD 0
  let lines := rasterLines fmt / fieldsOfRaster fmt
  let gone := if isLevelB fmt ∧ 563 < i.atLine then i.atLine - 563 else i.atLine
  decide ((lines - gone) * framePeriod594 fmt ≤ r * 811008000000 * lines)

/-- A repeat or a drop comes at the PP that is r sample periods away: not exactly one frame will be complete (R120, R121).
(DEDUCED, log entry 148.) -/
def seamAhead (i : SdiIn) (r : Nat) : Bool := i.completed + bit (completesWithin i r) != 1

/-- The gain in 48ths of a channel of a frame synchronizer with r samples left of its frame: it falls over the
last 1 ms before a repeat or a drop; a non-audio channel keeps it (R121). (DEDUCED, log entry 148.) -/
def seamGain (s : State) (e k r : Nat) : Nat :=
  let i := sdiInOf s e
  if (sdiInCfg s e).mode = 2 ∧ i.state = .usable ∧ r < 48 ∧ seamAhead i r ∧ !sdiNonAudio s e k then r else 48

/-- Channel k of an SDI source belongs to an asynchronous group that is de-embedded (R131). -/
def asyncChannel (s : State) (n k : Nat) : Bool :=
  decide (1280 ≤ n ∧ n < 1440) && tget (fun _ => 0) (sdiInOf s (n - 1280)).groups (k / 4 + 1) == 1
    && !groupOff s (n - 1280) k

/-- The ring of an asynchronous channel slips: of more samples than its 32 words hold one is dropped; none where the
input's frames bring the samples (R17, R121, R131). (DEDUCED, log entry 188.) -/
def ringDrops (s : State) (n k : Nat) (waiting : List Word) : Bool :=
  asyncChannel s n k && (sdiInCfg s (n - 1280)).mode != 2 && decide (32 < waiting.length)

/-- The ring of an asynchronous channel slips: its last sample is repeated where none waits (R131). -/
def ringRepeats (s : State) (n k : Nat) (waiting : List Word) : Bool :=
  asyncChannel s n k && waiting.isEmpty && (tfind (essenceOf s n).lastAudio k).isSome

/-- The next sample of a channel of a fabric or SDI source, and the samples that wait after it: the oldest that
waits; where the ring of an asynchronous group repeats a sample, the last one again (R86, R121, R131).
(DEDUCED, log entry 83.) (DEDUCED, log entry 188.) -/
def nextSample (s : State) (n k : Nat) (waiting : List Word) : Option Word × List Word :=
  let sdi := decide (1280 ≤ n ∧ n < 1440)
  match waiting with
  | w :: rest =>
    let w := if sdi then
        let g := seamGain s (n - 1280) k waiting.length
        if g = 48 then w else scaleWord w g 48
      else w
    (if sdi && groupOff s (n - 1280) k then none else some w, rest)
  | [] =>
    if ringRepeats s n k [] then (tfind (essenceOf s n).lastAudio k, []) else (none, [])

/-- A sample of an asynchronous group has been dropped or repeated (R131). -/
def countSlip (n : Nat) (slipped : Bool) (s : State) : State :=
  if slipped then countSdiIn (n - 1280) (fun c => { c with audioAsync := sat32 c.audioAsync 1 }) s else s

/-- The samples of a period of every fabric and SDI source, and of every source whose essences carry audio. -/
def playEssences (s : State) : State × List (Nat × Word) :=
  s.mtx.essences.foldl (fun (s, out) e =>
    let (base, n) := sourceChannels s e.1
    (List.range n).foldl (fun (s, out) k =>
      let v := essenceOf s e.1
      let waiting := tget (fun _ => []) v.audio k
      let drops := ringDrops s e.1 k waiting
      let s := countSlip e.1 (drops || ringRepeats s e.1 k waiting) s
      let (w, rest) := nextSample s e.1 k (if drops then waiting.drop 1 else waiting)
      (putEssence s e.1 { v with audio := tset (fun _ => []) v.audio k rest },
        match w with | some w => out ++ [(base + k, w)] | none => out)) (s, out)) (s, [])

/-- The words of the period that running engines have ready for their sources; an engine that does not run carries
silence (R334, R341). -/
def playEngines (s : State) : State × List (Nat × Word) :=
  let k := s.aud.period
  s.eng.engines.foldl (fun (s, out) e =>
    let v := engineOf s e.1
    if v.ready.isEmpty then (s, out)
    else
      let now := match v.ready.find? (fun r => r.1 == k) with
        | some (_, ws) => if (runningKernel s e.1).isSome then ws.zipIdx.map (fun w => (27648 + 16 * v.ports + w.2, w.1)) else []
        | none => []
      (putEngine s e.1 { v with ready := v.ready.filter (fun r => decide (k < r.1)) }, out ++ now)) (s, [])

/-- MIX and LOUDNESS take the period of their audio inputs, of which an invocation reads 24 (R334, R340). -/
def hearEngines (s : State) : State :=
  let word := fun (c : Nat) => tget (fun _ => (0 : Word)) s.aud.outputs c
  { s with eng := { s.eng with engines := s.eng.engines.map (fun e =>
      let v := e.2
      let heard := fun (base n : Nat) => v.heard ++ [(List.range n).map (fun i => word (base + i))]
      let take := fun (base n : Nat) => (e.1, { v with heard := (heard base n).drop (v.heard.length + 1 - 24) })
      match runningKernel s e.1 with
      | some k =>
        if k = kernelMix then take (27648 + 32 * v.ports) 32
        else if k = kernelLoudness then take (31744 + 8 * v.ports) 8
        else e
      | none => e) } }

/-- The word that a source channel carries of what was delivered: of the tone sources alone. Fabric, SDI, flow, TDM and
engine channels are not delivered from outside: their words have come with their essences.
(DEDUCED, log entry 83.) -/
def deliveredWord (c : Nat) (w : Word) : Option Word :=
  if c < 29696 then none else some w

/-- Channel status: place in the block and the non-audio bit; a block of 192 frames is complete at its last
(R281, R287). -/
def trackStatus (s : State) (e : Nat × Word) : State :=
  let (c, w) := e
  let a := s.aud
  let place := if w.getLsbD 27 then some 0 else (tfind a.csBlocks c).map (fun x => x.1 + 1)
  match place with
  | none => s
  | some n =>
    let bad := if n = 1 then w.getLsbD 26 else ((tfind a.csBlocks c).getD (0, false)).2
    if n = 191 then
      let rest := a.nonAudio.filter (fun x => x != c)
      { s with aud := { a with csBlocks := tdel a.csBlocks c, nonAudio := if bad then rest ++ [c] else rest } }
    else { s with aud := { a with csBlocks := tput a.csBlocks c (n, bad) } }

/-- A channel that nothing delivers carries silence, and silence carries no channel-status block: one in progress ends
(R281). (DEDUCED, log entry 83.) -/
def endBlocks (words : List (Nat × Word)) (s : State) : State :=
  { s with aud := { s.aud with csBlocks := s.aud.csBlocks.filter (fun e => words.any (fun w => w.1 == e.1)) } }

/-- Clear the memory of a period: a channel that nothing delivers carries silence. -/
def clearPeriod (k : Nat) (keep : Nat → Bool) (s : State) : State :=
  { s with aud := { s.aud with memory := s.aud.memory.filter (fun e => e.1 % 32 != k % 32 || keep (e.1 / 32)) } }

/-- TDM source channels: their words come one period after their frame (R294). -/
def isTdmChannel (c : Nat) : Bool := decide (27136 ≤ c ∧ c < 27648)

/-! ## Outputs -/

/-- Alignment delay of the video of a source channel in whole sample periods, at most 29: that of a WINDOW
input is 16 lines less its offset (R119, R175). -/
def alignPeriods (s : State) (c : Nat) : Nat :=
  if 20480 ≤ c ∧ c < 23040 then
    let e := (c - 20480) / 16
    let i := sdiInOf s e
    if (sdiInCfg s e).mode = 1 ∧ i.state = .usable then
      let fmt := i.detected.getD 0x21
      let delay : Int := ((16 * framePeriod594 fmt / (594 * formatTotalLines fmt) : Nat) : Int) - i.offset
      -- a sample period lasts 20,833 1/3 ns, of 65,536 units each
      min 29 ((delay * 6 + 4096000000) / 8192000000).toNat
    else 0
  else 0

/-- The word that a destination channel carries in a period: of period k − 2 of its source, further back by the
alignment delay of the source's video, and faded where a fade runs (R175, R282, R286). -/
def outputWord (s : State) (c k : Nat) : Word :=
  let word := fun (x : Option Nat) => match x with | some n => sourceWord s n (k + 30 - alignPeriods s n) | none => 0
  match tfind s.aud.fades c with
  | some f =>
    let (n, d, second) := fadeGain f
    if fadeOver f then word f.new else scaleWord (word (if second then f.new else f.old)) n d
  | none => word (destOf s .audio c).active

/-- The outputs of a period. -/
def allOutputs (s : State) (k : Nat) : Tab Word :=
  s.mtx.audio.foldl (fun t e => tset (fun _ => (0 : Word)) t e.1 (outputWord s e.1 k)) []

/-- Every running fade goes on by a period; those at their end give their places back. -/
def stepFades (s : State) : State :=
  let fs := s.aud.fades.map (fun e => (e.1, { e.2 with step := e.2.step + 1 }))
  { s with aud := { s.aud with fades := fs.filter (fun e => !fadeOver e.2) } }

/-- The 16 channels from a first one on, as they leave in this period. -/
def sixteen (s : State) (base : Nat) : List Word :=
  (List.range 16).map (fun k => tget (fun _ => (0 : Word)) s.aud.outputs (base + k))

/-- The period of the record destinations' runs, which waits for their next frame (R391). -/
def recordPeriod (s : State) : State :=
  { s with mtx := { s.mtx with recordAudio := s.mtx.recordAudio.map (fun e =>
      match destAudio s (2080 + e.1) with
      | some (b, n) => (e.1, e.2 ++ [(sixteen s b).take n])
      | none => e) } }

/-- The period of the AUDIO and SDI transmit flows; a packet of an AUDIO flow begins at a multiple of its packet time
(R206, R208). -/
def sendPeriod (k : Nat) (s : State) : State :=
  s.pkt.txFlows.foldl (fun s e =>
    let f := e.2
    let n := if f.ptime = 0 then 48 else 6
    let aligned := decide (mediaCountAt s.time.triple 48000 (99000 * k) % n = 0)
    let ch := (List.range f.chCount).map (fun i => tget (fun _ => (0 : Word)) s.aud.outputs (f.chBase + i))
    if f.kind = .sdi ∨ (f.kind = .audio ∧ (!f.samples.isEmpty || aligned) = true) then
      putTxFlow s e.1 { f with samples := f.samples ++ [ch], samplesAt := if f.samples.isEmpty then k else f.samplesAt }
    else s) s

/-- The period of the running SDI outputs and of the container destinations that send (R86, R131). -/
def embedOutputs (s : State) : State :=
  let s := (s.sdi.outputs.map (fun e => e.1)).foldl (fun s e =>
    let o := sdiOutOf s e
    if o.running then putSdiOut s e { o with audio := o.audio ++ [sixteen s (20480 + 16 * e)] } else s) s
  (s.fab.tx.map (fun e => e.1)).foldl (fun s d =>
    if carriesDest s d then pushAudio d (sixteen s (16 * d)) s else s) s

/-! ## The period (R282) -/

/-- De-embedder settings that wait for the period (R290). (DEDUCED, log entry 85.) -/
def applyDeembed (s : State) : State :=
  s.sdi.pendingDeembed.foldl (fun s e =>
    { s with set := { s.set with deembed := tset (fun _ => (0xF : BitVec 4)) s.set.deembed e.1 e.2 }
             sdi := { s.sdi with pendingDeembed := tdel s.sdi.pendingDeembed e.1 } }) s

/-- Frames of every running TDM port; what they receive enters the sources in the next period. -/
def tdmFrames (k : Nat) (din : List (Fin 16 × List Word)) (s : State) : State :=
  (List.range 16).foldl (fun s p =>
    let s := tdmBoundary p s
    if (tdmOf s p).state = .running then
      let words := match din.find? (fun e => e.1.val == p) with | some e => e.2 | none => []
      let (s, got) := tdmPeriod p words s
      got.foldl (fun s e => writeSource (k + 1) s e) s
    else s) s

/-- Period k begins (R282). (DEDUCED, log entry 83.) -/
def gridPeriod (sources : List (Nat × Word)) (din : List (Fin 16 × List Word)) (s : State) : State :=
  let k := s.aud.period
  let s := tdmFrames k din (applyDeembed (applyGroups s))
  let s := clearPeriod k isTdmChannel s
  let s := (s.pkt.rxFlows.map (fun e => e.1)).foldl (fun s n => flowTick n s) s
  let (s, played) := playFlows s
  let given := sources.filterMap (fun e => (deliveredWord e.1 e.2).map (fun w => (e.1, w)))
  let (s, come) := playEssences s
  let (s, made) := playEngines s
  let words := given ++ played ++ made ++ come
  let s := endBlocks words (words.foldl trackStatus (words.foldl (writeSource k) s))
  let s := switchChannels s
  let s := { s with aud := { s.aud with outputsBefore := s.aud.outputs, outputs := allOutputs s k } }
  let s := hearEngines (sendPeriod k (recordPeriod (embedOutputs (stepFades s))))
  let s := clearPeriod (k + 1) (fun c => isTdmChannel c && decide (tdmRunning s c)) s
  -- Every word of the audio sample memory's period has been written: no inversion is left (R439).
  { s with aud := { s.aud with period := k + 1 }
           flt := { s.flt with invert := tdel s.flt.invert (faultId 0x0C 31 1) } }
where
  /-- The TDM port of a channel runs. -/
  tdmRunning (s : State) (c : Nat) : Bool := (tdmOf s ((c - 27136) / 32)).state == .running

/-- AUDIO_GRID_PERIOD (R282): the words that the sources deliver, and the bits received on the DIN balls. -/
def execAudioGridPeriod (sources : List (Fin 32768 × Word)) (din : List (Fin 16 × List Word)) (s : State) :
    Host.Outcome State Fault Refusal :=
  .next (if s.chip.rootLocked then gridPeriod (sources.map (fun e => (e.1.val, e.2))) din s else s)

/-- ZC_TIMEOUT (R301). -/
def execZcTimeout (port : Fin 16) (transmit : Bool) (slot : Fin 32) (s : State) :
    Host.Outcome State Fault Refusal :=
  .next (timeoutWait port.val transmit slot.val s)

/-- TDM_PORT_START (R298, R304). -/
def execTdmPortStart (port : Fin 16) (s : State) : Host.Outcome State Fault Refusal :=
  .next (startTdm port.val s)

end Sys2Proof.Machine
end

