-- ==== Sys2Proof/Machine/AudioConfig.lean ====
section
/-! DEFINITION. AudioConfig.lean: the audio commands and AUDIO_STATUS (R290 to R292, R298 to R305,
R396). -/

namespace Sys2Proof.Machine

/-! ## Embedded audio (R290, R291) -/

/-- The lane of an embedded-audio command is in mode SDI. -/
def laneSdi (s : State) (e : Nat) : Check := need (isSdi s e) (conflict 0)

def checksEmbed (p : Packet) (s : State) : Check :=
  firstFail [
    noTarget p, fieldIn (u8 p 0) 0 159 0, fieldIn (u8 p 1) 0 15 1, fieldIn (u8 p 3) 0 1 3, fieldIn (u8 p 4) 0 1 4
    , reserved p 5 3, laneSdi s (u8 p 0)]

/-- The settings apply from the next output frame start (R291). -/
def effectEmbed (p : Packet) (s : State) : State × Answer :=
  let c : EmbedCfg :=
    { groupEn := BitVec.ofNat 4 (u8 p 1), csMode := BitVec.ofNat 8 (u8 p 2), control := u8 p 3 == 1
      sdWidth := u8 p 4 == 1 }
  ({ s with sdi := { s.sdi with pendingEmbed := tput s.sdi.pendingEmbed (u8 p 0) c } }, done)

def specEmbed : OpSpec :=
  { code := 0x7001, cls := 1, lengthOk := fixedLength 8, checks := checksEmbed, effect := atOnce effectEmbed }

/-- AUDIO_EMBED_CONFIG (R291). -/
def execAudioEmbedConfig (p : Packet) (s : State) : Host.Outcome State Fault Refusal :=
  .next (runHost specEmbed p s)

def checksDeembed (p : Packet) (s : State) : Check :=
  firstFail [
    noTarget p, fieldIn (u8 p 0) 0 159 0, fieldIn (u8 p 1) 0 15 1, reserved p 2 2, laneSdi s (u8 p 0),
    need (!quadMemberIn s (u8 p 0)) (conflict 0)]

/-- The mask applies from the next grid period (R290). -/
def effectDeembed (p : Packet) (s : State) : State × Answer :=
  ({ s with sdi := { s.sdi with
      pendingDeembed := tput s.sdi.pendingDeembed (u8 p 0) (BitVec.ofNat 4 (u8 p 1)) } }, done)

def specDeembed : OpSpec :=
  { code := 0x7002, cls := 1, lengthOk := fixedLength 4, checks := checksDeembed, effect := atOnce effectDeembed }

/-- AUDIO_DEEMBED_CONFIG (R290). -/
def execAudioDeembedConfig (p : Packet) (s : State) : Host.Outcome State Fault Refusal :=
  .next (runHost specDeembed p s)

/-! ## TDM_PORT_CONFIG (R292) -/

def readTdm (p : Packet) : TdmCfg :=
  { enable := u8 p 1 == 1, fs96 := u8 p 2 == 1, slots := orDefault (u8 p 3) 8, lr := u8 p 4 == 1
    dataDelay := u8 p 5 == 1, bclkPolarity := u8 p 6 == 1, fsyncPolarity := u8 p 7 == 1
    txOffHiZ := u8 p 8 == 1, zcTimeout := orDefault (u8 p 9) 10
    group := if u8 p 10 = 0xFF then none else some (u8 p 10) }

def checksTdmPort (p : Packet) (_ : State) : Check :=
  let c := readTdm p
  firstFail [
    noTarget p,
    fieldIn (u8 p 0) 0 15 0,
    fieldIn (u8 p 1) 0 1 1,
    fieldIn (u8 p 2) 0 1 2,
    fieldOk (1 ≤ c.slots && c.slots ≤ (if c.fs96 then 16 else 32) && (!c.lr || c.slots % 2 == 0)) 3,
    fieldIn (u8 p 4) 0 1 4,
    fieldIn (u8 p 5) 0 1 5,
    fieldIn (u8 p 6) 0 1 6,
    fieldIn (u8 p 7) 0 1 7,
    fieldIn (u8 p 8) 0 1 8,
    fieldIn c.zcTimeout 1 100 9,
    fieldOk (u8 p 10 ≤ 7 || u8 p 10 == 0xFF) 10,
    reserved p 11 1]

/-- Settings that apply from the next frame without a stop (R292). -/
def sameFrames (a b : TdmCfg) : Bool := { a with zcTimeout := 0, txOffHiZ := false } == { b with zcTimeout := 0, txOffHiZ := false }

/-- Apply a TDM_PORT_CONFIG: a running port stops at its next frame boundary; a port that does not run takes
its settings at once (R292, R298). (DEDUCED, log entry 80.) -/
def applyTdm (n : Nat) (c : TdmCfg) (s : State) : State :=
  let old := tdmCfg s n
  let v := tdmOf s n
  -- Masks that wait were checked against other SLOTS (R300).
  let coming := v.pendingCfg.getD old
  let v := if c.slots = coming.slots ∧ c.fs96 = coming.fs96 then v else { v with pendingMasks := none }
  let put := fun (s : State) => { s with set := { s.set with tdm := tset (fun _ => {}) s.set.tdm n c } }
  if sameFrames old c then put (putTdm s n { v with pendingCfg := none })
  else if v.state = .running then putTdm s n { v with pendingCfg := some c }
  else
    let v := if v.state = .isolated then v
      else { v with state := if c.enable then .waitingStart else .stopped, dout := [], startFrom := startAfter s }
    let v := { v with pendingCfg := none }
    put (putTdm s n (if c.slots = old.slots ∧ c.fs96 = old.fs96 then v
      else { v with txMask := onesTo c.slots, rxMask := onesTo c.slots }))

def specTdmPort : OpSpec :=
  { code := 0x7003, cls := 1, lengthOk := fixedLength 12, checks := checksTdmPort
    effect := atOnce (fun p s => (applyTdm (u8 p 0) (readTdm p) s, done)) }

/-- TDM_PORT_CONFIG (R292). -/
def execTdmPortConfig (p : Packet) (s : State) : Host.Outcome State Fault Refusal :=
  .next (runHost specTdmPort p s)

/-! ## TDM_START_GROUP (R298, R299) -/

def readGroup (p : Packet) : GroupCfg := { mediaAlign := u8 p 1 == 1, align := orDefault (u16 p 2) 48 }

def checksGroup (p : Packet) (_ : State) : Check :=
  firstFail [
    noTarget p, fieldIn (u8 p 0) 0 7 0, fieldIn (u8 p 1) 0 1 1, fieldIn (orDefault (u16 p 2) 48) 1 48000 2]

def effectGroup (p : Packet) (s : State) : State × Answer :=
  ({ s with aud := { s.aud with pendingGroups := tput s.aud.pendingGroups (u8 p 0) (readGroup p) } }, done)

def specGroup : OpSpec :=
  { code := 0x7004, cls := 1, lengthOk := fixedLength 4, checks := checksGroup, effect := atOnce effectGroup }

/-- TDM_START_GROUP (R298, R299). -/
def execTdmStartGroup (p : Packet) (s : State) : Host.Outcome State Fault Refusal :=
  .next (runHost specGroup p s)

/-! ## TDM_SLOT_MASK (R300) -/

/-- The bits at or above SLOTS are zero; at 96 kHz SLOTS is at most 16. -/
def maskOk (c : TdmCfg) (m : Nat) : Bool := decide (m < 2 ^ c.slots)

/-- The settings that a port has, or will have at its next frame boundary. -/
def comingTdm (s : State) (n : Nat) : TdmCfg := ((tdmOf s n).pendingCfg).getD (tdmCfg s n)

/-- DEDUCED, log entry 80. -/
def checksSlotMask (p : Packet) (s : State) : Check :=
  firstFail [
    noTarget p, fieldIn (u8 p 0) 0 15 0, reserved p 1 3,
    fieldOk (maskOk (comingTdm s (u8 p 0)) (u32 p 4)) 4, fieldOk (maskOk (comingTdm s (u8 p 0)) (u32 p 8)) 8]

def effectSlotMask (p : Packet) (s : State) : State × Answer :=
  let n := u8 p 0
  (putTdm s n { tdmOf s n with pendingMasks := some (w32 p 4, w32 p 8) }, done)

def specSlotMask : OpSpec :=
  { code := 0x7005, cls := 1, lengthOk := fixedLength 12, checks := checksSlotMask, effect := atOnce effectSlotMask }

/-- TDM_SLOT_MASK (R300). -/
def execTdmSlotMask (p : Packet) (s : State) : Host.Outcome State Fault Refusal :=
  .next (runHost specSlotMask p s)

/-! ## TDM_RESTART (R304) -/

def checksRestart (p : Packet) (s : State) : Check :=
  let v := tdmOf s (u8 p 0)
  firstFail [
    noTarget p, fieldIn (u8 p 0) 0 15 0, reserved p 1 3,
    need (v.state != .stopped && v.state != .isolated) (conflict 0)]

/-- The port stops at its next frame boundary; the reply follows once it runs again. -/
def effectRestart (h : Reply) (p : Packet) (s : State) : State × Option Answer :=
  let n := u8 p 0
  let v := tdmOf s n
  (putTdm s n { v with restartPending := true, restartReplies := v.restartReplies ++ [h] }, none)

def specRestart : OpSpec :=
  { code := 0x7006, cls := 1, lengthOk := fixedLength 4, checks := checksRestart, effect := effectRestart }

/-- TDM_RESTART (R304). -/
def execTdmRestart (p : Packet) (s : State) : Host.Outcome State Fault Refusal :=
  .next (runHost specRestart p s)

/-! ## AUDIO_STATUS (R283, R305) -/

def tdmStateCode : TdmState → Nat
  | .stopped => 0 | .waitingStart => 1 | .running => 2 | .isolated => 3

/-- Mask of the slots that wait. -/
def waitMask (ws : List SlotWait) : BitVec 32 := ws.foldl (fun m w => putBit m w.slot true) 0

/-- Items of a port (R305). -/
def tdmItems (s : State) (n : Nat) : Bytes :=
  let v := tdmOf s n
  itemByte (tdmStateCode v.state) ++ itemFlag v.underrun ++ itemFlag v.overrun ++ itemFlag v.pendingMasks.isSome
    ++ itemWord (waitMask v.txWaiting) ++ itemWord (waitMask v.rxWaiting) ++ itemWord v.txZcSlots
    ++ itemWord v.rxZcSlots ++ itemWide v.frames ++ itemCount v.underruns ++ itemCount v.overruns
    ++ itemCount v.zcTimeouts ++ itemCount v.restarts

/-- The grid residual in 2⁻¹⁶ ns (R283). (DEDUCED, log entry 84.) -/
def gridResidual (s : State) : Int :=
  unitsAtRoot s.time.triple (99000 * s.aud.period) - mediaSample s * 65536000000000 / 48000

/-- Device items (R305). (DEDUCED, log entry 82.) -/
def audioItems (s : State) : Bytes :=
  itemOffset (gridResidual s) ++ itemCount s.aud.fades.length ++ itemCount (fadeCapacity s)
    ++ itemCount s.aud.fadeDowngraded ++ itemCount s.aud.fadeAborted

def clearTdm (n : Nat) (s : State) : State :=
  if n < 16 then
    putTdm s n { tdmOf s n with
      frames := 0, underruns := 0, overruns := 0, zcTimeouts := 0, restarts := 0, txZcSlots := 0, rxZcSlots := 0 }
  else s

def audioSpace : StatusSpace :=
  { size := 24, device := some audioItems
    items := fun s n => if n < 16 then tdmItems s n
      else itemFlag ((groupCfg s (n - 16)).mediaAlign && !s.time.timeSet)
    clear := clearTdm
    clearDevice := fun s => { s with aud := { s.aud with fadeDowngraded := 0, fadeAborted := 0 } } }

def specAudioStatus : OpSpec := specStatus 0x7007 (onlySpace audioSpace)

/-- AUDIO_STATUS (R305). -/
def execAudioStatus (p : Packet) (s : State) : Host.Outcome State Fault Refusal :=
  .next (runHost specAudioStatus p s)

end Sys2Proof.Machine
end

