-- ==== Sys2Proof/Machine/RefOps.lean ====
section
/-! DEFINITION. RefOps.lean: the reference unit: monitors, qualification, the loop, its history, and
the frame pulses (R258 to R280). -/

namespace Sys2Proof.Machine

/-- Change the reference unit. -/
def putRef (s : State) (r : Reference) : State := { s with ref := r }

/-- The history is valid after 60 s in LOCKED (R267). -/
def historyValid (s : State) : Bool := decide (60 ≤ s.ref.historySeconds)

/-- TRUSTWORTHY (R269). -/
def trustworthy (s : State) : Bool := s.ref.loop != .lost && s.ref.xoGood

/-- Code of a loop state, in the order of R265. -/
def loopCode : Loop → Nat
  | .freeRun => 0 | .acquiring => 1 | .locked => 2 | .holdover => 3 | .lost => 4

/-- Holdover frequency in 0.01 ppm: the mean of the history (R267). -/
def holdoverFrequency (s : State) : Int :=
  if s.ref.history.isEmpty then 0 else (s.ref.history.foldl (fun t x => t + x) 0) / s.ref.history.length

/-- A candidate can be followed: enabled and qualified (R265). -/
def refUsable (s : State) (c : Nat) : Bool := (refCfg s c).enable && (candidateOf s c).qualified

/-- A candidate is the forced one. -/
def isForced (s : State) (c : Nat) : Bool :=
  match s.ref.refsel with | some v => v.val == c | none => false

/-- What the loop's phase detector reads of a candidate now, in 2⁻¹⁶ ns: of VREF_PTP, master time against device time
(R268, R271). (DESIGN CHOICE, log entry 150.) -/
def phaseOf (s : State) (c : Nat) : Int := if c = 4 then -s.ref.ptpOffset else Config.refPhase c s.time.count

/-- Entry to ACQUIRING on a candidate: the phase of the new reference against ROOT's feedback becomes the phase
target, so that the output phase does not move and no offset of the last reference is carried over (R33, R268).
(DESIGN CHOICE, log entry 150.) -/
def acquire (c : Nat) (s : State) : State :=
  putRef s { s.ref with loop := .acquiring, phaseTarget := phaseOf s c, phaseError := 0 }

/-- The frequency to which the loop pulls ROOT, in 0.01 ppm against XO_IN: that of the forced reference, the
holdover frequency, or nominal; without XO_IN the last one is held where no reference is followed (R265, R267,
R273). -/
def targetFrequency (s : State) : Int :=
  let r := s.ref
  match r.loop, r.refsel with
  | .acquiring, some c => ((candidateOf s c.val).reading).getD r.frequency
  | .locked, some c => ((candidateOf s c.val).reading).getD r.frequency
  | .holdover, _ => if r.xoGood then holdoverFrequency s else r.frequency
  | _, _ => if r.xoGood then 0 else r.frequency

/-- The phase error of the loop, read against its phase target while it follows a reference (R266, R268, R271). -/
def phaseNow (s : State) : Int :=
  match s.ref.loop, s.ref.refsel with
  | .acquiring, some c => phaseOf s c.val - s.ref.phaseTarget
  | .locked, some c => phaseOf s c.val - s.ref.phaseTarget
  | _, _ => s.ref.phaseError

/-- What the loop adds to its target to remove a phase error in a second, in 0.01 ppm: the part of it that BANDWIDTH
passes; nothing where it follows no reference (R264, R271). (DESIGN CHOICE, log entry 150.) -/
def phasePull (s : State) (phase : Int) : Int :=
  if s.ref.loop = .acquiring ∨ s.ref.loop = .locked then
    phase * (min 1000 (628 * s.set.dpll.bandwidth) : Nat) / (10000 * 65536)
  else 0

/-- A second of the loop: ROOT's frequency moves toward its target, by FREQ_SLEW at most in every state, and the
phase error is read (R264, R266, R268). (DESIGN CHOICE, log entry 150.) -/
def stepLoop (s : State) : State :=
  let r := s.ref
  let slew : Int := s.set.dpll.freqSlew
  let phase := phaseNow s
  let step := max (-slew) (min slew (targetFrequency s + phasePull s phase - r.frequency))
  putRef s { r with frequency := r.frequency + step, phaseError := phase }

/-- The loop enters HOLDOVER, or LOST where the history is not valid (R265, R280).
(DEDUCED, log entry 77.) -/
def loopUnusable (s : State) : State :=
  let r := s.ref
  if historyValid s then
    note 0x08 7 (putRef s { r with loop := .holdover, holdoverEntries := sat32 r.holdoverEntries 1 })
  else note 0x08 8 (putRef s { r with loop := .lost, lostEntries := sat32 r.lostEntries 1 })

/-- The forced reference becomes unusable (R265). -/
def forcedUnusable (s : State) : State :=
  match s.ref.loop with
  | .acquiring => loopUnusable s
  | .locked => loopUnusable s
  | _ => s

/-- A candidate is disqualified, for a reason of R279: 1 activity, 2 frequency, 3 reconfigured
(R263, R280). -/
def disqualify (c why : Nat) (s : State) : State :=
  let v := candidateOf s c
  if v.qualified then
    let s := putCandidate s c { v with qualified := false, lastReason := why, gates := 0 }
    let s := raiseCore (faultId 0x08 31 c) s
    if isForced s c then forcedUnusable s else s
  else putCandidate s c { v with gates := 0 }

/-- A candidate qualifies, VREF_PTP while the servo is TRACKING; a loop in HOLDOVER or LOST acquires the forced one (R263,
R265, R271). -/
def qualify (c : Nat) (s : State) : State :=
  let v := candidateOf s c
  if v.qualified || (c == 4 && s.time.servo != .tracking) then s
  else
    let s := putCandidate s c { v with qualified := true }
    if isForced s c && (s.ref.loop == .holdover || s.ref.loop == .lost) then acquire c s else s

/-- Activity loss of an enabled candidate; a glitch counts also of one that is not active (R261, R263). (DEDUCED, log
entry 78.) -/
def loseActivity (c : Nat) (glitch : Bool) (s : State) : State :=
  let v := candidateOf s c
  if (refCfg s c).enable && v.active then
    let s := putCandidate s c { v with
      active := false, losses := sat32 v.losses 1, glitches := sat32 v.glitches (bit glitch) }
    disqualify c 1 s
  else if (refCfg s c).enable && glitch then putCandidate s c { v with glitches := sat32 v.glitches 1 }
  else s

/-- Activity regained: the gate in progress gives no reading, and the ACCEPT_TIME gates count afresh. The events of
VREF_PTP are measurements in TRACKING (R261 to R263). -/
def regainActivity (c : Nat) (s : State) : State :=
  let v := candidateOf s c
  if (refCfg s c).enable && !v.active && (c != 4 || s.time.servo == .tracking) then
    putCandidate s c { v with active := true, partGate := true, gates := 0 }
  else s

/-- A fabric lane leaves LOCKED: a loss at once of the recovered clocks taken from it (R261). -/
def laneClockLost (f : Nat) (s : State) : State :=
  [5, 6].foldl (fun s c => if (refCfg s c).fabLane = f then loseActivity c false s else s) s

/-! ## Frequency gates (R262, R263, R272) -/

/-- The mean of the servo's measurements that fall in the gate (R262). -/
def ptpReading (s : State) : Option Int :=
  let x := s.ref.ptpReadings
  if x.isEmpty then none else some (x.foldl (fun t y => t + y) 0 / x.length)

/-- The reading of a candidate in a gate: only of an enabled one that was active in all of it; of VREF_PTP by the servo's
measurements (R262). -/
def gateReading (s : State) (readings : List (Option Int)) (c : Nat) : Option Int :=
  let v := candidateOf s c
  if (refCfg s c).enable && v.active && !v.partGate then (if c = 4 then ptpReading s else readings.getD c none) else none

/-- One candidate at the end of a gate. -/
def gateCandidate (readings : List (Option Int)) (c : Nat) (s : State) : State :=
  let v := candidateOf s c
  let cfg := refCfg s c
  match gateReading s readings c with
  | none => putCandidate s c { v with gates := 0 }
  | some r =>
    let v := { v with reading := some r, gates := if r.natAbs ≤ cfg.accept then v.gates + 1 else 0 }
    let s := putCandidate s c v
    if cfg.reject < r.natAbs then
      let s := if v.qualified then putCandidate s c { v with freqDisqualify := sat32 v.freqDisqualify 1 } else s
      disqualify c 2 s
    else if cfg.acceptTime ≤ v.gates then qualify c s
    else s

/-- The pair whose lower member is a candidate, at the end of a gate (R272). -/
def gatePair (readings : List (Option Int)) (c : Nat) (s : State) : State :=
  match (refCfg s c).partner with
  | none => s
  | some d =>
    if d ≤ c then s
    else
      match gateReading s readings c, gateReading s readings d with
      | some a, some b =>
        let v := candidateOf s c
        if (refCfg s c).pairLimit < (a - b).natAbs then
          let n := v.overGates + 1
          let s := putCandidate s c { v with
            pairDiff := a - b, overGates := n, underGates := 0, pairAlarm := v.pairAlarm || decide (3 ≤ n) }
          if n = 3 ∧ v.pairAlarm = false then raiseCore (faultId 0x08 31 (9 + c)) s else s
        else
          let n := v.underGates + 1
          putCandidate s c { v with
            pairDiff := a - b, overGates := 0, underGates := n, pairAlarm := v.pairAlarm && decide (n < 10) }
      | _, _ => s

/-- The next gate begins: every candidate is active in all of it so far. -/
def nextGate (s : State) : State :=
  (List.range 7).foldl (fun s c => putCandidate s c { candidateOf s c with partGate := false })
    (putRef s { s.ref with ptpReadings := [] })

/-- ROOT's mean offset against XO_IN in a gate: the reading lies between the frequencies at its ends, to the resolution
(R262, R267). (DEDUCED, log entry 78.) -/
def rootReading (a b offset : Int) : Int := max (min a b - 1) (min (max a b + 1) offset)

/-- ROOT's offset is read, and in LOCKED it enters the history (R267). -/
def noteRoot (offset : Int) (s : State) : State :=
  let r := s.ref
  putRef s { r with
    rootOffset := offset
    historySeconds := if r.loop = .locked then r.historySeconds + 1 else r.historySeconds
    history := if r.loop = .locked then (offset :: r.history).take 60 else r.history }

/-- A frequency gate ends: the candidates and the pairs are judged, and the loop has run for a second (R262, R264, R267,
R272). While FREQ_VALID is 0 there are no readings, and the loop runs on (R273). -/
def endGate (readings : List (Option Int)) (offset : Int) (s : State) : State :=
  if !s.ref.freqValid then nextGate (stepLoop s)
  else
    let before := s.ref.frequency
    let s := (List.range 7).foldl (fun s c => gateCandidate readings c s)
      (noteRoot (rootReading before (stepLoop s).ref.frequency offset) s)
    nextGate (stepLoop ((List.range 6).foldl (fun s c => gatePair readings c s) s))

/-! ## REFSEL (R259, R265) -/

/-- The loop meets an adopted value of REFSEL (R265). (DEDUCED, log entry 77.) -/
def loopRefsel (v : Nat) (s : State) : State :=
  if v = 7 then putRef s { s.ref with loop := .freeRun }
  else
    match s.ref.loop with
    | .freeRun => if refUsable s v then acquire v s else loopUnusable s
    | .holdover | .lost =>
      if refUsable s v then acquire v (putRef s { s.ref with switches := sat32 s.ref.switches 1 }) else s
    | _ =>
      if refUsable s v then acquire v (putRef s { s.ref with switches := sat32 s.ref.switches 1 })
      else loopUnusable s

/-- A value of REFSEL is adopted; a change raises the REFSEL source (R259, R265).
(DEDUCED, log entry 77.) -/
def adoptRefsel (v : Fin 8) (s : State) : State :=
  match s.ref.refsel with
  | some u =>
    if u = v then s
    else loopRefsel v.val (note 0x08 20 (putRef s { s.ref with refsel := some v }))
  | none => loopRefsel v.val (putRef s { s.ref with refsel := some v })

/-! ## XO_IN (R273) -/

def loseXo (s : State) : State :=
  if s.ref.xoGood then
    note 0x08 19 (putRef s { s.ref with
      xoGood := false, freqValid := false
      candidates := tmapAll (fun _ => {}) (fun _ v => { v with gates := 0, partGate := true }) s.ref.candidates })
  else s

def restoreXo (s : State) : State := putRef s { s.ref with xoGood := true }

def returnFreqValid (s : State) : State :=
  if s.ref.xoGood then putRef s { s.ref with freqValid := true } else s

/-! ## Frame pulses (R275, R276) -/

/-- The boundary of a family that is nearest to an edge: before the running one, at it, or after it; the next one lies
where a computed realignment moves it, and all later ones follow one period apart (R275, R277). -/
def nearestBoundary (s : State) (fam : Nat) (edge : Int) : Int :=
  let f := familyOf s fam
  let p : Int := periodRoot (familyRate s fam)
  let shift := match f.realign with
    | some { target := m, computed := some (d, _), .. } => if m = f.hang + 1 then d else 0
    | _ => 0
  let near := fun (base : Int) => base + (edge - base + p / 2) / p * p
  let next := f.boundary + p + shift
  let before := min f.boundary (near f.boundary)
  let after := max next (near next)
  if (edge - before).natAbs ≤ (edge - after).natAbs then before else after

/-- FP_OFFSET of an edge in ROOT cycles: the edge minus the nearest boundary, reduced to the range of FP_DIVIDE periods
(R275). -/
def fpOffset (s : State) (fam divide : Nat) (edge : Int) : Int :=
  let p : Int := divide * periodRoot (familyRate s fam)
  let d := (edge - nearestBoundary s fam edge) % p
  if 2 * d < p then d else d - p

/-- A REFFP edge (R275). -/
def fpEdge (n : Nat) (edge : Int) (s : State) : State :=
  let c := refCfg s n
  if c.fpEnable && familyOn s c.fpFamily then
    let v := candidateOf s n
    let off := fpOffset s c.fpFamily c.fpDivide edge
    let s := putCandidate s n { v with fpOffset := off, fpSeen := true }
    let moved := rootToUnits ((off - v.fpOffset).natAbs : Int)
    if v.fpSeen && decide (100 * 65536 < moved) then note 0x08 (15 + n) s else s
  else s

/-- No REFFP edge within 1.5 × FP_DIVIDE periods (R275). -/
def fpTimeout (n : Nat) (s : State) : State :=
  if (refCfg s n).fpEnable then note 0x08 (15 + n) s else s

def pulseCfg (s : State) (n : Nat) : PulseCfg := tget (fun _ => {}) s.set.pulses n
def putPulseCfg (s : State) (n : Nat) (c : PulseCfg) : State :=
  { s with set := { s.set with pulses := tset (fun _ => {}) s.set.pulses n c } }

/-- Boundary N meets the DIVIDE and PHASE of an output (R276). -/
def pulseMeets (c : PulseCfg) (hang : Word) : Bool := hang.toNat % c.divide == c.phase

/-- A pending setting of an output applies at its boundary (R276). -/
def applyPulse (fam n : Nat) (s : State) : State :=
  match tfind s.ref.pendingPulse n with
  | none => s
  | some (target, c) =>
    let hang := (familyOf s fam).hang
    if c.family = fam ∧ notEarlier hang target ∧ pulseMeets c hang then
      let now := pulseCfg s n
      let s := { s with ref := { s.ref with pendingPulse := tdel s.ref.pendingPulse n } }
      putPulseCfg s n { now with family := c.family, divide := c.divide, phase := c.phase, offset := c.offset }
    else s

/-- The pulse of an output at a boundary in ROOT cycles, by its settings, in 1/4,752 ns: ROOT runs at 4,752 MHz (R31,
R276). -/
def pulseAt (c : PulseCfg) (boundary : Int) : FpPulse :=
  let start := boundary * 1000 + c.offset * 4752
  { on := c.enable, start := start, stop := start + 10 * c.width * 4752, activeLow := c.activeLow }

/-- An output at a boundary of a family: its pending setting, then its pulse; ENABLE, WIDTH and POLARITY apply from the
pulse on (R276). -/
def pulseOutput (fam n : Nat) (s : State) : State :=
  let s := applyPulse fam n s
  let c := pulseCfg s n
  let f := familyOf s fam
  if c.family == fam && pulseMeets c f.hang then
    let k := (tfind s.ref.pulses n).getD 0 + bit c.enable
    { s with ref := { s.ref with
        pulses := tput s.ref.pulses n k, fpOut := tput s.ref.fpOut n (pulseAt c f.boundary) } }
  else s

/-- Level of an output now: low while it is disabled (R276). -/
def pulseLevel (s : State) (n : Nat) : Bool :=
  match tfind s.ref.fpOut n with
  | some x => x.on && xor x.activeLow (decide (x.start ≤ rootNow s * 1000 ∧ rootNow s * 1000 < x.stop))
  | none => false

/-- The four FPOUTs at a boundary of a family. -/
def pulseOutputs (fam : Nat) (s : State) : State :=
  (List.range 4).foldl (fun s n => pulseOutput fam n s) s

end Sys2Proof.Machine
end

