-- ==== Sys2Proof/Machine/LaneOps.lean ====
section
/-! DEFINITION. LaneOps.lean: lane counters, loss of lock, DOWN, lane PLLs and the PRBS checker
(R45 to R74). -/

namespace Sys2Proof.Machine

/-- Change a lane's counters. (DEDUCED, log entry 36.) -/
def countLane (l : Nat) (f : LaneCounters → LaneCounters) (s : State) : State :=
  let v := laneOf s l
  putLane s l { v with counters := f v.counters }

/-- The LANE source of a lane (R73). -/
def laneFault (l : Nat) : Nat := faultId 0x01 (galleryOfLane l) (laneIndex l)
/-- The FABRIC source of a fabric lane, and of plane pair k of a gallery (R106). -/
def linkFault (f : Nat) : Nat := faultId 0x02 (f / 16) (f % 16)
def pairFault (g k : Nat) : Nat := faultId 0x02 g (16 + k)

/-- Source n is lost with what it had in progress (R92). -/
def loseContainer (n : Nat) (s : State) : State :=
  let s := putFabricSource s n { fabricSource s n with starts := 0, good := false, line := none, ancPart := [] }
  loseSource n (putEssence s n {})

/-- Lose the sources that a lane carries as lane f (R92). -/
def loseContainers (f : Nat) (s : State) : State :=
  (List.range 5).foldl (fun s c => loseContainer (5 * f + c) s) s

/-- Lose the sources that no LOCKED lane carries any more as containers of lane a (R81, R92), and forget
what their destinations were sending. -/
def loseUncarried (a : Nat) (s : State) : State :=
  let m := carriedContainers s a
  ((List.range 5).filter (fun c => m ≤ c)).foldl (fun s c => putTx (loseContainer (5 * a + c) s) (5 * a + c) {}) s

/-- The reference of pair k's schedule leaves LOCKED: the schedule goes on from the other lane, offset by
the skew last measured (R95). -/
def moveReference (k a f other : Nat) (s : State) : State :=
  let v := pairOf s k
  match v.schedule with
  | some x =>
    if v.reference = f then
      let skew := if f = a then v.skew else -v.skew
      putPair s k { v with reference := other, schedule := some { x with offset := x.offset - skew } }
    else s
  | none => s

/-- Both lanes of pair k have left LOCKED: nothing of its receiver's timing stands (R95). -/
def clearPair (k : Nat) (s : State) : State :=
  putPair s k { pairOf s k with
    schedule := none, primary := [], secondary := [], released := none, txBlocks := [], rateSplit := false
    slotSplit := false, disagreements := 0 }

/-! ## Messages of the pair (R490) -/

/-- Cells of whole messages of the pair among cells. -/
def twinCells (cs : List Cell) : List Cell :=
  (cs.dropWhile (fun c => !c.first)).filter (fun c => c.msgType == 1 || c.msgType == 2 || c.msgType == 4)

/-- The unacknowledged messages of the pair on lane f are sent again on lane g. What lane f has sent
stays among its retry entries; the partner discards what it accepts twice.
(DEDUCED, log entry 136.) -/
def moveTwin (f g : Nat) (s : State) : State :=
  let a := linkOf s f
  let b := linkOf s g
  let s := putLink s g { b with sendQueue := b.sendQueue ++ twinCells (a.retry ++ a.sendQueue) }
  putLink s f { a with sendQueue := a.sendQueue.filter (fun c => c.msgType == 0 || c.msgType == 3) }

/-- The messages that wait on lanes that are not LOCKED go to the LOCKED lane that carries messages.
(DEDUCED, log entry 136.) -/
def gatherTwin (s : State) : State :=
  match twinLane s with
  | none => s
  | some g =>
    if laneLocked s g then
      (s.set.twinLanes.filter (fun f => f != g && !laneLocked s f)).foldl (fun s f => moveTwin f g s) s
    else s

/-- A fabric lane leaves LOCKED (R92, R95, R97): its sources are lost, those of a plane pair when
both lanes have left LOCKED. -/
def leaveLock (f : Nat) (next : LaneState) (s : State) : State :=
  let was := laneLocked s f
  let carried := was && twinLane s == some f
  let s := putLane s f { laneOf s f with state := next, goodRun := 0, recent := [] }
  if !was then s
  else
    let s := if carried then gatherTwin s else s
    let l := linkOf s f
    let s := laneClockLost f (putLink s f { l with
      rxPos := none, rxCandidate := none, rxLong := false, rxLag := 0, rxEnd := none })
    match pairWith s f with
    | none => loseUncarried f (putLink s f { linkOf s f with segments := [] })
    | some (k, a, b) =>
      let other := if f = a then b else a
      if laneLocked s other then
        raiseCore (pairFault (k / 8) (k % 8)) (loseUncarried a (moveReference k a f other s))
      else loseUncarried a (clearPair k (putLink s a { linkOf s a with segments := [] }))

/-! ## DOWN (R51, R62, R74) -/

/-- The signal that a lane carries stops, as its mode has it. -/
def stopLane (l : Nat) (next : LaneState) (s : State) : State :=
  if l < 256 then
    let s := leaveLock l next s
    if next = .down then putLane s l { laneOf s l with sent := [] } else s
  else
    let e := l - 256
    let mode := laneMode s l
    let s := putLane s l { laneOf s l with state := next, goodRun := 0, sent := [] }
    if mode = 2 then
      let s := putSdiOut s e { sdiOutOf s e with running := false }
      sdiSignalGone e whyCdr s
    else if mode = 3 ∨ mode = 4 then portLinkDown (portOfLane s e) s
    else s

/-- A lane goes to DOWN: its transmitter to electrical idle (R62, R74). A lane that is DISABLED
has nothing to stop. (DEDUCED, log entry 37.) -/
def downLane (l : Nat) (s : State) : State :=
  if (laneOf s l).state = .down ∨ laneMode s l = 0 then s else stopLane l .down s

/-- A lane uses a reference, by its configured mode (R46, R74). (DESIGN CHOICE, log entry 28.) -/
def usesRef (s : State) (r : LaneRef) (l : Nat) : Bool :=
  let mode := laneMode s l
  match r with
  | .a => mode == 1 || mode == 3 || mode == 4 || (mode == 5 && (l < 256 || Config.edgeTestRef l == 0))
  | .b => mode == 2 || (mode == 5 && 256 ≤ l && Config.edgeTestRef l == 1)
  | .c => mode == 2 || (mode == 5 && 256 ≤ l && 2 ≤ Config.edgeTestRef l)

/-- Lanes of a gallery. -/
def galleryLanes (g : Nat) : List Nat :=
  (List.range 16).map (fun k => 16 * g + k) ++ (List.range 10).map (fun k => 256 + 10 * g + k)

/-- The references in the order of indices 26 to 28 of R73. -/
def refOfIndex (i : Nat) : LaneRef := if i = 26 then .a else if i = 27 then .b else .c

/-- Raise a LANE source (R73, R74, R427). -/
def raiseLane (id : Nat) (s : State) : State :=
  let iso := decide (2 ≤ effectiveSeverity s id)
  let s := raiseCore id s
  let i := faultIndex id
  let g := faultLoc id
  if !iso then s
  else if i < 16 then downLane (16 * g + i) s
  else if i < 26 then downLane (256 + 10 * g + (i - 16)) s
  else ((galleryLanes g).filter (usesRef s (refOfIndex i))).foldl (fun s l => downLane l s) s

/-- The lane-receive FIFO of a lane filled: counted, and the lane's LANE source raised (R38, R74).
(DEDUCED, log entry 36.) -/
def fifoOverflow (l : Nat) (s : State) : State :=
  raiseLane (laneFault l) (countLane l (fun c => { c with fifoOverflow := sat32 c.fifoOverflow 1 }) s)

/-- Raise a FABRIC source; a link-protocol source takes its lane to DOWN (R106, R427). -/
def raiseFabric (id : Nat) (s : State) : State :=
  let iso := decide (faultIndex id < 16 ∧ 2 ≤ effectiveSeverity s id)
  let s := raiseCore id s
  if iso then downLane (16 * faultLoc id + faultIndex id) s else s

/-- A source no longer isolates its unit (R427). -/
def clearIsolating (id : Nat) (s : State) : State :=
  let f := faultOf s id
  if f.isolating then putFault s id { f with isolating := false } else s

/-- LANE_CONFIG or LANE_BRINGUP of a lane ends what its sources isolate; a PLL source isolates until no
lane of its reference is in DOWN (R427). (DEDUCED, log entry 38.) -/
def endLaneIsolation (l : Nat) (s : State) : State :=
  let g := galleryOfLane l
  let s := clearIsolating (laneFault l) s
  let s := if l < 256 then clearIsolating (linkFault l) s else s
  [26, 27, 28].foldl (fun s i =>
    if (galleryLanes g).any (fun k => usesRef s (refOfIndex i) k && (laneOf s k).state == .down) then s
    else clearIsolating (faultId 0x01 g i) s) s

/-! ## Entering LOCKED (R62, R64, R100) -/

/-- A lane comes up in LOCKED at its rate (R55, R61, R64, R100). What was sent and not acknowledged
is due again. (DEDUCED, log entry 30.) -/
def enterLocked (f : Nat) (s : State) : State :=
  let v := laneOf s f
  let reduced := decide (v.rate < (laneCfg s f).rate)
  let s := putLane s f { v with state := .locked, goodRun := 0, recent := [], reducedRate := reduced }
  let s := restartAdaptation f s
  let l := linkOf s f
  let s := putLink s f { l with
      rxPos := none, rxCandidate := none, rxLong := false, rxLag := 0, rxEnd := none, sendCredits := 64, inFlight := 0, rxOccupancy := 0
      resend := l.retry.length, lastLimit := l.lastAck + 64, rewinds := 0 }
  let first := s.set.twinLanes.contains f && (s.set.twinLanes.filter (fun g => laneLocked s g)).length == 1
  let s := if first then gatherTwin s else s
  let s := match pairWith s f with
    | some (k, a, b) =>
      if laneLocked s (if f = a then b else a) then s else raiseCore (pairFault (k / 8) (k % 8)) s
    | none => s
  if reduced then raiseLane (laneFault f) s else s

/-! ## PRBS (R68, R69) -/

/-- Length and second tap of a pattern. -/
def prbsTaps (code : Nat) : Nat × Nat :=
  match code with | 0 => (7, 6) | 1 => (15, 14) | 2 => (23, 18) | _ => (31, 28)

/-- The next bit of a pattern after the bits of a window, newest first. -/
def prbsNext (code : Nat) (w : List Bool) : Bool :=
  let (n, m) := prbsTaps code
  xor (w.getD (n - 1) false) (w.getD (m - 1) false)

/-- Add to two counters that stop together (R69, R71). -/
def addPair (bits errors n m : Nat) : Nat × Nat :=
  if bits = 2 ^ 48 - 1 then (bits, errors) else (sat48 bits n, sat48 errors m)

/-- The checker loads its sequence again. -/
def prbsReload (p : Prbs) : Prbs :=
  { p with window := [], clean := 0, sync := false, windowBits := 0, windowErrors := 0 }

/-- What one bit does to a checker in SYNC: a mismatch counts; more than 64 in a window of 1,024 bits
lose SYNC. -/
def prbsSynced (p : Prbs) (c : LaneCounters) (next : Bool) (bad : Nat) : Prbs × LaneCounters :=
  let (b, e) := addPair c.prbsBits c.prbsErrors 1 bad
  let c := { c with prbsBits := b, prbsErrors := e }
  let errors := p.windowErrors + bad
  if 64 < errors then (prbsReload p, { c with syncLoss := sat32 c.syncLoss 1 })
  else
    let full := p.windowBits + 1 = 1024
    ({ p with window := (next :: p.window).take 31
              windowBits := if full then 0 else p.windowBits + 1
              windowErrors := if full then 0 else errors }, c)

/-- One received bit at the checker of a pattern (R69). (DEDUCED, log entry 31.) -/
def prbsBit (code : Nat) (inv : Bool) (pc : Prbs × LaneCounters) (b : Bool) : Prbs × LaneCounters :=
  let (p, c) := pc
  let b := xor b inv
  if p.window.length < (prbsTaps code).1 then ({ p with window := b :: p.window }, c)
  else
    let next := prbsNext code p.window
    if p.sync then prbsSynced p c next (bit (xor b next))
    else if b ≠ next then (prbsReload p, c)
    else
      let clean := p.clean + 1
      ({ p with window := (next :: p.window).take 31, clean := clean, sync := decide (1024 ≤ clean) }, c)

/-- Received bits at the checker. (DEDUCED, log entry 31; DESIGN CHOICE, log entry 139.) -/
def prbsRun (code : Nat) (inv : Bool) (bits : List Bool) (pc : Prbs × LaneCounters) : Prbs × LaneCounters :=
  if code = 4 then pc else bits.foldl (prbsBit code inv) pc

/-! ## Transmitted levels and patterns (R47, R50, R68) -/

/-- Levels of PAM4 symbols, two bits each, the earlier the more significant: 00, 01, 11, 10 (R47). -/
def pam4Levels : List Bool → List Nat
  | a :: b :: r => (match a, b with | false, false => 0 | false, true => 1 | true, true => 2 | true, false => 3)
    :: pam4Levels r
  | [a] => [if a then 3 else 0]
  | [] => []

/-- The symbols of a bit stream on the line at a rate code, after the transmit polarity (R46, R47, R50).
(DEDUCED, log entry 180.) -/
def lineLevels (rate : Nat) (inv : Bool) (bits : List Bool) : List Nat :=
  let bits := bits.map (fun b => xor b inv)
  if rate = 3 then pam4Levels bits else bits.map bit

/-- One bit of a pattern generator; one inserted error in every 1,024 bits while any is due (R68).
(DESIGN CHOICE, log entry 172.) -/
def generatorBit (code : Nat) (inv : Bool) (p : Prbs) (g : BitVec 31) : Bool × Prbs :=
  let (n, m) := prbsTaps code
  let b := xor (g.getLsbD (n - 1)) (g.getLsbD (m - 1))
  let err := decide (0 < p.insert ∧ p.genBits = 1023)
  (xor (xor b inv) err,
    { p with
        gen := some ((g <<< 1) ||| (if b then 1 else 0)), genBits := (p.genBits + 1) % 1024
        insert := if err then p.insert - 1 else p.insert })

/-- n bits of the pattern generator of lane l; from its start where it has not run. (DESIGN CHOICE, log entry 172.) -/
def generatorBits (l code : Nat) (inv : Bool) : Nat → Prbs → List Bool × Prbs
  | 0, p => ([], p)
  | n + 1, p =>
    let (b, p) := generatorBit code inv p (p.gen.getD (Config.prbsStart l ||| 1))
    let (r, p) := generatorBits l code inv n p
    (b :: r, p)

/-- The transmitter of lane l sends n bits of a pattern raw; code 4 sends electrical idle (R62, R68).
(DESIGN CHOICE, log entry 172.) -/
def sendPattern (l code : Nat) (inv : Bool) (n : Nat) (s : State) : State :=
  let v := laneOf s l
  if code = 4 then putLane s l { v with sent := [] }
  else
    let (bits, p) := generatorBits l code inv n v.prbs
    putLane s l { v with prbs := p, sent := lineLevels v.rate (laneCfg s l).txInvert bits }

/-- Bits of one millisecond at a rate code (R46). -/
def bitsPerMs (rate : Nat) : Nat := 7031250 * 2 ^ rate

/-- A lane's receiver inverts what it receives: by its setting and by what it found while hunting (R50). -/
def rxInverts (s : State) (l : Nat) : Bool := xor (laneCfg s l).rxInvert (laneOf s l).polarityAuto

/-- One received bit of a stage's PRBS31 (R62): SYNC within 1 ms, errors in the 9 ms after it.
(DEDUCED, log entry 161.) -/
def stageBit (v : Lane) (b : Bool) : Lane :=
  let (p, c) := prbsBit 3 false (v.prbs, v.counters) b
  let n := v.stageBits + 1
  let early := decide (n ≤ bitsPerMs v.rate)
  { v with
      prbs := p, counters := c, stageBits := n
      stageSync := v.stageSync || (early && p.sync)
      stageErrors := if early then v.stageErrors else v.stageErrors + (c.prbsErrors - v.counters.prbsErrors) + bit (!p.sync) }

end Sys2Proof.Machine
end

