-- ==== Sys2Proof/Machine/Blocks.lean ====
section
/-! DEFINITION. Blocks.lean: the fabric line code and the block: stuffing, scrambling, CRC, the
calendar and block headers (R52 to R63, R75 to R80). -/

namespace Sys2Proof.Machine

/-! ## Destuffing (R57) -/

/-- The receiver's destuffing of one block. -/
structure Destuff where
  /-- Bits kept, newest first. -/
  kept : List Bool := []
  count : Nat := 0
  last : Bool := false
  run : Nat := 0
  /-- The next bit is a stuff bit. -/
  drop : Bool := false
  stuffs : Nat := 0
  violations : Nat := 0
  deriving DecidableEq, Repr

/-- One received bit (R57). -/
def destuffBit (d : Destuff) (b : Bool) : Destuff :=
  if d.drop then
    { d with drop := false, last := b, run := 1, stuffs := d.stuffs + 1
             violations := if b = d.last then d.violations + 1 else d.violations }
  else if d.count = 8256 then d
  else
    let run := if 0 < d.run ∧ b = d.last then d.run + 1 else 1
    { d with kept := b :: d.kept, count := d.count + 1, last := b, run := run, drop := decide (run = 20) }

/-- Destuff the bits after a comma. -/
def destuff (bits : List Bool) : Destuff := bits.foldl destuffBit {}

/-! ## Stuffing (R56) -/

/-- Run, last bit and stuff bits of the transmitter. -/
def stuffBit (x : Nat × Bool × Nat) (b : Bool) : Nat × Bool × Nat :=
  let (run, last, n) := x
  let run := if 0 < run ∧ b = last then run + 1 else 1
  if run = 20 then (1, !b, n + 1) else (run, b, n)

/-- Stuff bits of scrambled bits (R56). -/
def stuffCount (bits : List Bool) : Nat := (bits.foldl stuffBit (0, false, 0)).2.2

/-- The stream with its stuff bits, from a run and its bit on: after the 20th identical bit one of the
opposite value (R56). -/
def stuffed : List Bool → Nat × Bool → List Bool
  | [], _ => []
  | b :: r, (run, last) =>
    let run := if 0 < run ∧ b = last then run + 1 else 1
    if run = 20 then b :: (!b) :: stuffed r (1, !b) else b :: stuffed r (run, b)

/-- n alternating bits from a first one on. -/
def alternating : Nat → Bool → List Bool
  | 0, _ => []
  | n + 1, b => b :: alternating n (!b)

/-- The comma (R52). -/
def commaBits : List Bool := List.replicate 24 true ++ List.replicate 24 false

/-- The bits of a block slot around scrambled bits: comma, stuffed bits and alternating fill; a slot with
more than 128 stuff bits grows to the next even number of bits (R52, R56, R58). -/
def slotBits (bits : List Bool) : List Bool :=
  let body := stuffed bits (0, false)
  let n := stuffCount bits
  commaBits ++ body ++ alternating (if n ≤ 128 then 128 - n else n % 2) (!(body.getLast?.getD false))

/-! ## Scrambling (R54) -/

/-- The next bit of the key sequence: k(n − 31) XOR k(n − 28), bit 0 of the state the newest. -/
def keyBit (k : BitVec 31) : Bool := xor (k.getLsbD 30) (k.getLsbD 27)

/-- The key sequence one bit on. -/
def keyStep (k : BitVec 31) : BitVec 31 := (k <<< 1) ||| (if keyBit k then 1 else 0)

/-- n bits on. -/
def keyAdvance : Nat → BitVec 31 → BitVec 31
  | 0, k => k
  | n + 1, k => keyAdvance n (keyStep k)

/-- Scramble or descramble bits. -/
def scramble : List Bool → BitVec 31 → List Bool × BitVec 31
  | [], k => ([], k)
  | b :: r, k =>
    let (t, k') := scramble r (keyStep k)
    (xor b (keyBit k) :: t, k')

/-- The key after loading its sequence from 31 bits, the oldest first (R60). -/
def keyLoad (bits : List Bool) : BitVec 31 := BitVec.ofNat 31 (natOfBits bits.reverse)

/-! ## The calendar (R77, R80) -/

def isIdleSlot (slot : Nat) : Bool := slot == 191 || slot == 383 || slot == 575 || slot == 767
def isMessageSlot (slot : Nat) : Bool := slot == 95 || slot == 287 || slot == 479 || slot == 671
def isContainerSlot (slot : Nat) : Bool := !isIdleSlot slot && !isMessageSlot slot

/-- Number of a container slot among the container slots (R80). -/
def containerIndex (slot : Nat) : Nat := slot - (slot + 1) / 96

/-- The slot after a slot, with its calendar period (R75, R76). -/
def nextSlot (p : Nat × Nat) : Nat × Nat :=
  if p.1 = 767 then (0, (p.2 + 1) % 256) else (p.1 + 1, p.2)

/-- Position of a slot in the cycle of 256 periods. -/
def slotPos (p : Nat × Nat) : Nat := p.2 * 768 + p.1
/-- Slots from one position to another. (DEDUCED, log entry 163.) -/
def slotsBetween (a b : Nat × Nat) : Nat := (slotPos b + 196608 - slotPos a) % 196608

/-! ## Headers (R75) -/

/-- A block header. -/
def blockHeader (type slot cal plane : Nat) (paired : Bool) : Word :=
  BitVec.ofNat 32 (type + slot * 16 + cal * 2 ^ 14 + plane * 2 ^ 22 + bit paired * 2 ^ 23)

def headerType (h : Nat) : Nat := h % 16
def headerSlot (h : Nat) : Nat := h / 16 % 1024
def headerCal (h : Nat) : Nat := h / 2 ^ 14 % 256
def headerPaired (h : Nat) : Bool := h / 2 ^ 23 % 2 == 1
def headerReserved (h : Nat) : Nat := h / 2 ^ 24

/-! ## A received block -/

/-- What one block slot has brought (R57, R61). -/
structure Block where
  comma : Bool
  /-- All 8,256 bits have come, and the receive FIFO has kept them (R38). -/
  full : Bool
  stuffs : Nat
  violations : Nat
  crcOk : Bool
  crc : Word
  header : Nat
  payload : List Bool
  deriving DecidableEq, Repr

/-- A block is good: comma in place, no stuff violation, CRC passed (R60, R61). -/
def Block.good (b : Block) : Bool := b.comma && b.violations == 0 && b.crcOk

/-- A slot as a receiver with an inversion sees it (R50). -/
def seenSlot (inv : Bool) (r : RxSlot) : RxSlot :=
  let flip := fun (c : Comma) => match c with
    | .plain => if inv then .complemented else .plain
    | .complemented => if inv then .plain else .complemented
    | .missing => .missing
  { r with comma := flip r.comma, late := flip r.late, bits := r.bits.map (fun b => xor b inv) }

/-- Read a block slot under a key; the key after it (R53, R54, R57). After a block with more than 128 stuff
bits the comma may stand directly after that block's last bit (R58). -/
def readBlock (r : RxSlot) (afterLong : Bool) (key : BitVec 31) : Block × BitVec 31 :=
  let d := destuff r.bits
  let (bits, k) := scramble d.kept.reverse key
  let full := d.count == 8256 && !r.overflow
  let crc := crc32 (bits.take 8224)
  ({ comma := r.comma == .plain || (afterLong && r.late == .plain), full := full, stuffs := d.stuffs, violations := d.violations
     crcOk := full && bitsOf 32 crc.toNat == bits.drop 8224, crc := crc
     header := natOfBits (bits.take 32), payload := (bits.drop 32).take 8192 },
   if d.count = 8256 then k else keyAdvance 8256 key)

/-- Mismatches of a payload that should be zero. -/
def payloadErrors (b : Block) : Nat := (b.payload.filter id).length

/-! ## The seed of block lock (R60) -/

/-- What a hunting receiver finds in a slot: the key after an accepted idle block, and whether the
comma was complemented. (DEDUCED, log entry 145.) -/
def seedOf (r : RxSlot) : Option (BitVec 31 × Bool) :=
  match r.comma with
  | .missing => none
  | c =>
    let inv := c == .complemented
    let d := destuff (r.bits.map (fun b => xor b inv))
    if d.count = 8256 then
      let payload := (d.kept.reverse.drop 32).take 8192
      let key := keyLoad (payload.take 31)
      let (rest, k) := scramble (payload.drop 31) key
      if (rest.filter id).length ≤ 16 then some (keyAdvance 32 k, inv) else none
    else none

end Sys2Proof.Machine
end

