-- ==== Sys2Proof/Machine/Fences.lean ====
section
/-! DEFINITION. Fences.lean: vitrines, the fence table, and the cancelling of display lists (R324, R347
to R349). -/

namespace Sys2Proof.Machine

/-! ## Vitrines (R324) -/

/-- Head, layer and vitrine of a VIT number: VIT = (4h + l − 12) × 16 + v. -/
def vitHead (vit : Nat) : Nat := vit / 64
def vitLayer (vit : Nat) : Nat := 12 + vit / 16 % 4
def vitIndex (vit : Nat) : Nat := vit % 16

/-- Settings of the graphic layer of a vitrine that is allocated. -/
def vitrineOf (s : State) (vit : Nat) : Option GraphicLayerCfg :=
  let g := graphicLayer s (vitHead vit) (vitLayer vit)
  if vit < 2048 ∧ g.space.isSome ∧ vitIndex vit < g.cfg.vitrines then some g.cfg else none

/-! ## Fences (R347, R349) -/

/-- Fences that the table keeps. -/
def fenceTable : Nat := 1048576

/-- What the table knows of a fence ID. -/
inductive FenceView where
  | pending | signalled | cancelled | retired
  /-- An ID that has not been issued. -/
  | unknown
  deriving DecidableEq, Repr

/-- State of a fence. IDs count up from 1 modulo 2³², and skip 0 (R347). -/
def fenceView (s : State) (id : Nat) : FenceView :=
  match s.eng.fences.find? (fun e => e.1 == id) with
  | some (_, .pending) => .pending
  | some (_, .signalled) => .signalled
  | some (_, .cancelled) => .cancelled
  | none =>
    if 1 ≤ id ∧ (id < s.eng.nextFence ∨ (2 ^ 32 ≤ s.eng.issued + 1 ∧ id < 2 ^ 32)) then .retired else .unknown

/-- A fence counts as signalled at a flip point (R326, R349). -/
def fenceReady (s : State) (id : Nat) : Bool :=
  id == 0 || fenceView s id == .signalled || fenceView s id == .retired

/-- The ID after an ID. -/
def nextFenceId (n : Nat) : Nat := if n + 1 < 2 ^ 32 then n + 1 else 1

/-- Issue n fences, each pending: their IDs in order. -/
def issueFences : Nat → State → List Nat × State
  | 0, s => ([], s)
  | n + 1, s =>
    let id := s.eng.nextFence
    let e := s.eng
    let s := { s with eng := { e with
        nextFence := nextFenceId id
        fences := ((id, FenceState.pending) :: e.fences).take fenceTable
        issued := e.issued + 1
        pending := e.pending + 1 } }
    let (ids, s) := issueFences n s
    (id :: ids, s)

/-- Give a pending fence its final state; one that has one keeps it. -/
def settleFence (v : FenceState) (id : Nat) (s : State) : State :=
  if fenceView s id = .pending then
    let e := s.eng
    { s with eng := { e with
        fences := e.fences.map (fun x => if x.1 = id then (id, v) else x)
        pending := e.pending - 1
        signalled := e.signalled + bit (v == .signalled)
        cancelled := e.cancelled + bit (v == .cancelled) } }
  else s

/-! ## Cancelling lists (R348) -/

/-- Cancel the fences of a list. -/
def cancelFences (l : DisplayList) (s : State) : State := l.fences.foldl (fun s f => settleFence .cancelled f s) s

/-- Cancel the lists of an engine that a test selects, the running one among them. -/
def cancelLists (p : Nat) (f : DisplayList → Bool) (s : State) : State :=
  let e := engineOf s p
  let gone := e.queue.filter f
  let frontGone := match e.queue with | l :: _ => f l | [] => false
  let s := putEngine s p { e with
      queue := e.queue.filter (fun l => !f l)
      listRunning := e.listRunning && !frontGone
      listsCancelled := sat32 e.listsCancelled gone.length }
  gone.foldl (fun s l => cancelFences l s) s

/-- Cancel every list whose target is a vitrine of a layer (R348). -/
def cancelLayerLists (h l : Nat) (s : State) : State :=
  (s.eng.engines.map (fun e => e.1)).foldl
    (fun s p => cancelLists p (fun x => vitHead x.vit == h && vitLayer x.vit == l) s) s

end Sys2Proof.Machine
end

