-- ==== Sys2Proof/Machine/Comp.lean ====
section
/-! DEFINITION. Comp.lean: the geometry of heads and layers, their tiles and space, staged changes and
flips, and the COMP sources (R307 to R332). -/

namespace Sys2Proof.Machine

/-! ## Heads (R307) -/

/-- Formats that a head takes (R307). -/
def headFormat (f : Nat) : Bool :=
  decide ((0x10 ≤ f ∧ f ≤ 0x12) ∨ (0x28 ≤ f ∧ f ≤ 0x2C) ∨ (0x30 ≤ f ∧ f ≤ 0x32) ∨ (0x40 ≤ f ∧ f ≤ 0x44)
    ∨ (0x50 ≤ f ∧ f ≤ 0x52))

def headCfg (s : State) (h : Nat) : HeadCfg := (headOf s h).cfg
def headFamily (s : State) (h : Nat) : Nat := (headCfg s h).family

/-- The head runs at half its family's rate (R323). -/
def headHalf (s : State) (h : Nat) : Bool := isHalf s (headFamily s h) (some (headCfg s h).format)

/-- Hang periods in one frame of a head. -/
def headStep (s : State) (h : Nat) : Nat := if headHalf s h then 2 else 1

/-- The heads of a family that have been configured. -/
def headsOf (s : State) (fam : Nat) : List Nat :=
  (List.range 32).filter (fun h => headFamily s h == fam)

/-- The source of a head, and the destination of a layer (R308). -/
def headSource (h : Nat) : Nat := 1696 + h
def layerDest (h l : Nat) : Nat := 1696 + 12 * h + l

/-! ## Windows and scalers (R314, R315) -/

/-- Visible extent of a window in one direction. -/
def visible (pos : Int) (size raster : Nat) : Nat := (min (pos + size) (raster : Int) - max pos 0).toNat

/-- W′ and H′ of a layer on a raster. -/
def visibleW (f : Nat) (x : Int) (w : Nat) : Nat := visible x w (formatWidth f)
def visibleH (f : Nat) (y : Int) (h : Nat) : Nat := visible y h (formatLines f).1

/-- A source's picture as the scaler sees it: an interlaced one is its first field (R310). -/
def scaledLines (f : Nat) : Nat := let (n, scan) := formatLines f; if scan = 1 then n / 2 else n

/-- The crop of one direction, clipped to the source: zero size = to the edge. -/
def cropSize (pos size source : Nat) : Nat := if size = 0 then source - pos else min size (source - pos)

/-- Crop of a layer in the pixels and lines that the scaler reads. -/
def cropOf (c : VideoLayerCfg) (src : Nat) : Nat × Nat :=
  let half := (formatLines src).2 == 1
  let lines := fun (n : Nat) => if half then n / 2 else n
  (cropSize c.cropX c.cropW (formatWidth src), cropSize (lines c.cropY) (lines c.cropH) (scaledLines src))

/-- A quotient in 16.16, rounded to nearest. -/
def ratio16 (a b : Nat) : Nat := (2 * a * 65536 + b) / (2 * b)

/-- H_STEP and V_STEP that a layer uses with a source (R314). -/
def stepsOf (c : VideoLayerCfg) (src : Nat) : Nat × Nat :=
  if c.ratio then (c.hStep, c.vStep)
  else let (w, h) := cropOf c src; (ratio16 w c.w, ratio16 h c.h)

def stepOk (n : Nat) : Bool := decide (0x4000 ≤ n ∧ n ≤ 0x100000)

/-- Line width L (R315). -/
def lineWidth (head : Nat) (c : VideoLayerCfg) (src : Nat) : Nat :=
  if c.ratio then ((cropOf c src).1 * 65536 + c.hStep - 1) / c.hStep else visibleW head c.x c.w

/-- L exceeds its limit. -/
def lineTooWide (head : Nat) (c : VideoLayerCfg) (src : Nat) : Bool :=
  let l := lineWidth head c src
  decide (4096 < l) || (!c.pair && decide (2048 < l))

/-- Why a layer does not fit a source: 0 = it fits, 1 = line width, 2 = step (R316, R331). -/
def unfitReason (head : Nat) (c : VideoLayerCfg) (src : Nat) : Nat :=
  let (a, b) := stepsOf c src
  if lineTooWide head c src then 1 else if stepOk a && stepOk b then 0 else 2

/-! ## Tiles (R317, R318) -/

/-- Tiles of a layer's region: two slots per tile position. -/
def layerTiles (head : Nat) (c : VideoLayerCfg) : Nat :=
  if c.enable then
    2 * ((visibleW head c.x c.w + 63) / 64) * ((visibleH head c.y c.h + 7) / 8)
  else 0

/-- Two settings have the same region. -/
def sameRegion (a b : VideoLayerCfg) : Bool :=
  a.enable == b.enable && a.x == b.x && a.y == b.y && a.w == b.w && a.h == b.h

/-- The layer that a staged change names. -/
def changedLayer : CompChange → Option Nat
  | .video l _ => some l
  | .graphic l _ _ => some l
  | _ => none

/-- Staged settings of a layer of a head with their hangs, in the order in which they were staged. -/
def videoChanges (cs : List CompStaged) (h l : Nat) : List (Word × VideoLayerCfg) :=
  cs.filterMap (fun c => match c.change with
    | .video k v => if c.head = h ∧ k = l then some (c.hang, v) else none
    | _ => none)
def graphicChanges (cs : List CompStaged) (h l : Nat) : List (Word × GraphicLayerCfg) :=
  cs.filterMap (fun c => match c.change with
    | .graphic k v _ => if c.head = h ∧ k = l then some (c.hang, v) else none
    | _ => none)

/-- What is in force at hang n: of the staged settings for that hang or an earlier one those of the latest, the last
staged of equals; without one the running ones (R323). -/
def inForce {α : Type} (run : α) (changes : List (Word × α)) (n : Word) : α :=
  match changes.foldl (fun (best : Option (Word × α)) c =>
      if later c.1 n then best
      else match best with
        | some b => if later b.1 c.1 then best else some c
        | none => some c) none with
  | some b => b.2
  | none => run

/-- The settings of a layer at hang n, by a list of staged changes. -/
def videoInForce (s : State) (cs : List CompStaged) (h l : Nat) (n : Word) : VideoLayerCfg :=
  inForce (videoLayer s h l).cfg (videoChanges cs h l) n
def graphicInForce (s : State) (cs : List CompStaged) (h l : Nat) (n : Word) : GraphicLayerCfg :=
  inForce (graphicLayer s h l).cfg (graphicChanges cs h l) n

/-- The hangs at which new settings of layer l for hang n meet other settings of the head: n, and the hangs of changes
staged for later, up to a later change of the layer itself. (DEDUCED, log entry 89.) -/
def hangsInForce (cs : List CompStaged) (h l : Nat) (n : Word) : List Word :=
  let own := (cs.filter (fun c => c.head == h && changedLayer c.change == some l && later c.hang n)).map (fun c => c.hang)
  n :: (cs.filter (fun c => c.head == h && (changedLayer c.change).isSome && later c.hang n
    && own.all (fun u => later u c.hang))).map (fun c => c.hang)

/-- Tiles of a head's layers at hang n: a region that changes is held with the one before it through one frame
(R317). -/
def tilesAt (s : State) (cs : List CompStaged) (h : Nat) (n : Word) : Nat :=
  let f := (headCfg s h).format
  (List.range 12).foldl (fun k l =>
    let now := videoInForce s cs h l n
    let old := videoInForce s cs h l (n - BitVec.ofNat 32 (headStep s h))
    k + layerTiles f now + (if sameRegion old now then 0 else layerTiles f old)) 0

/-- Tiles that a head's layers hold now. -/
def tilesHeld (s : State) (h : Nat) : Nat :=
  let f := (headCfg s h).format
  (List.range 12).foldl (fun k l =>
    let v := videoLayer s h l
    k + layerTiles f v.cfg + (match v.before with | some c => layerTiles f c | none => 0)) 0

/-- Most tiles that a head's layers hold from now on, by a list of staged changes. -/
def headTiles (s : State) (h : Nat) (cs : List CompStaged) : Nat :=
  (cs.filter (fun c => c.head == h)).foldl (fun n c => max n (tilesAt s cs h c.hang)) (tilesHeld s h)

/-- Extension units that a number of tiles needs (R317). -/
def extensionUnits (tiles : Nat) : Nat := (tiles - 18432 + 4095) / 4096

/-- One extension unit: 5 MiB. -/
def extensionUnit : Nat := 5 * 1048576

/-- Give a head n extension units. -/
def setExtension (h n : Nat) (s : State) : State :=
  let v := headOf s h
  { putHead s h { v with extension := n } with
      reserveFree := s.reserveFree + v.extension * extensionUnit - n * extensionUnit }

/-- Pixels per frame of a head's enabled layers at hang n. -/
def framePixels (s : State) (cs : List CompStaged) (h : Nat) (n : Word) : Nat :=
  let f := (headCfg s h).format
  (List.range 12).foldl (fun k l =>
    let v := videoInForce s cs h l n
    if v.enable then k + visibleW f v.x v.w * visibleH f v.y v.h else k) 0

/-- The pixel rate at hang n is within 497,664,000 per second (R318). -/
def pixelsFit (s : State) (cs : List CompStaged) (h : Nat) (n : Word) : Bool :=
  decide (framePixels s cs h n * 4752000000 ≤ 497664000 * periodRoot ((formatRate (headCfg s h).format).getD 7))

/-! ## Vitrine space (R324, R325) -/

/-- Bytes of one vitrine. -/
def vitrineBytes (c : GraphicLayerCfg) : Nat := (c.w * c.h * 4 + 4095) / 4096 * 4096

/-- Place n vitrines of a size, each in the pool where it fits, else in the free region. -/
def placeVitrines (size : Nat) : Nat → Nat × Nat → Nat × Nat → Option (Nat × Nat)
  | 0, _, got => some got
  | n + 1, (pool, free), (a, b) =>
    if size ≤ pool then placeVitrines size n (pool - size, free) (a + size, b)
    else if size ≤ free then placeVitrines size n (pool, free - size) (a, b + size)
    else none

/-- The space that new vitrines take: in the pool and in the free region; none where neither holds
them. -/
def vitrineSpace (s : State) (c : GraphicLayerCfg) : Option (Nat × Nat) :=
  placeVitrines (vitrineBytes c) c.vitrines (s.graphicFree, s.reserveFree) (0, 0)

/-- DEDUCED, log entry 90. -/
def takeSpace (x : Nat × Nat) (s : State) : State :=
  { s with graphicFree := s.graphicFree - x.1, reserveFree := s.reserveFree - x.2 }
def returnSpace (x : Option (Nat × Nat)) (s : State) : State :=
  match x with
  | some (a, b) => { s with graphicFree := s.graphicFree + a, reserveFree := s.reserveFree + b }
  | none => s

/-- A change of settings allocates a layer's vitrines anew (R325). -/
def reallocates (old new : GraphicLayerCfg) : Bool :=
  new.enable &&
    (!old.enable || old.w != new.w || old.h != new.h || old.rgb10 != new.rgb10 || old.vitrines != new.vitrines)

/-! ## COMP sources (R332) -/

/-- Source of layer l of head h. -/
def compFault (h l : Nat) : Nat := faultId 0x0A (h / 2) (h % 2 * 16 + l)

/-- A layer is isolated: standby fill, or transparent, until FAULT_ACK. (DEDUCED, log entry 93.) -/
def isolateLayer (h l : Nat) (on : Bool) (s : State) : State :=
  if l < 12 then putVideoLayer s h l { videoLayer s h l with isolated := on }
  else putGraphicLayer s h l { graphicLayer s h l with isolated := on }

/-- Head and layer of a COMP source. -/
def compHead (id : Nat) : Nat := 2 * faultLoc id + faultIndex id / 16
def compLayer (id : Nat) : Nat := faultIndex id % 16

/-- Raise a COMP source; at MAJOR or CRITICAL its layer is isolated. -/
def raiseComp (id : Nat) (s : State) : State :=
  let iso := decide (2 ≤ effectiveSeverity s id)
  let s := raiseCore id s
  if iso then isolateLayer (compHead id) (compLayer id) true s else s

/-! ## Flips (R326 to R329) -/

/-- A flip names a layer. -/
def flipNames (h l : Nat) (f : Flip) : Bool := f.entries.any (fun e => e.head == h && e.layer == l)

/-- A flip or a group of the layer is pending. -/
def flipPending (s : State) (h l : Nat) : Bool := s.comp.flips.any (flipNames h l)

/-- Change the counters of the layer of an entry. -/
def countEntry (f : GraphicLayer → GraphicLayer) (e : FlipEntry) (s : State) : State :=
  putGraphicLayer s e.head e.layer (f (graphicLayer s e.head e.layer))

/-- Cancel the flips that a test selects, each whole (R328, R329). (DEDUCED, log entry 90.) -/
def cancelFlips (test : Flip → Bool) (s : State) : State :=
  let gone := s.comp.flips.filter test
  let s := { s with comp := { s.comp with flips := s.comp.flips.filter (fun f => !test f) } }
  gone.foldl (fun s f =>
    let s := f.entries.foldl (fun s e =>
      countEntry (fun g => { g with flipsCancelled := sat32 g.flipsCancelled 1 }) e s) s
    complete f.reply (failed 0xFFFF) s) s

end Sys2Proof.Machine
end

