-- ==== Sys2Proof/Machine/CompConfig.lean ====
section
/-! DEFINITION. CompConfig.lean: HEAD_CONFIG, LAYER_CONFIG, LUT_LOAD, FLIP, FLIP_GROUP and HEAD_STATUS
(R307 to R331, R397, R398). -/

namespace Sys2Proof.Machine

/-! ## Staging (R323) -/

/-- Hang applied of a compositor command on heads of a family, and whether it is late.
(DEDUCED, log entry 86.) -/
def compHang (p : Packet) (s : State) (fam : Nat) (half : Bool) : Word × Bool :=
  applyTarget s fam half (readTarget s fam p.target)

/-- FAMILY of the header is a family, and TARGET is readable in the family of the head (R154, R323).
(DEDUCED, log entry 86.) -/
def compHeader (p : Packet) (s : State) (fam : Nat) : Check :=
  firstFail [need (decide (p.family.toNat ≤ 3)) badHeader, targetN s p fam]

/-- The reply that a completion will follow, where one is asked for. -/
def completes (p : Packet) (h : Reply) (a : Answer) : Option Reply :=
  if notifyHung p then some (firstReply h a) else none

/-- Stage a change. -/
def stageComp (c : CompStaged) (s : State) : State :=
  { s with comp := { s.comp with staged := s.comp.staged ++ [c] } }

/-- A 10-bit field, or BAD_PARAM with its offset. -/
def tenBits (p : Packet) (off : Nat) : Check := fieldIn (u16 p off) 0 1023 off

/-! ## HEAD_CONFIG (R307) -/

def readHead (p : Packet) : HeadCfg :=
  { enable := u8 p 1 == 1, format := orDefault (u8 p 2) 0x30, family := u8 p 3, outColorimetry := u8 p 4
    outTransfer := u8 p 5, postLut := u8 p 6, backY := u16 p 8, backCb := u16 p 10, backCr := u16 p 12 }

/-- A layer of the head is enabled, or will be. -/
def layersOn (s : State) (h : Nat) : Bool :=
  (List.range 12).any (fun l =>
      (videoLayer s h l).cfg.enable || (videoChanges s.comp.staged h l).any (fun c => c.2.enable))
    || (List.range 4).any (fun l =>
      (graphicLayer s h (12 + l)).cfg.enable || (graphicChanges s.comp.staged h (12 + l)).any (fun c => c.2.enable))

def checksHeadConfig (p : Packet) (s : State) : Check :=
  let c := readHead p
  let old := headCfg s (u8 p 0)
  firstFail [
    need (decide (p.family.toNat ≤ 3)) badHeader,
    targetN s p c.family,
    fieldIn (u8 p 0) 0 31 0,
    fieldIn (u8 p 1) 0 1 1,
    fieldOk (headFormat c.format) 2,
    fieldIn (u8 p 3) 0 3 3,
    fieldIn (u8 p 4) 0 1 4,
    fieldIn (u8 p 5) 0 2 5,
    fieldIn (u8 p 6) 0 3 6,
    reserved p 7 1,
    tenBits p 8, tenBits p 10, tenBits p 12,
    reserved p 14 2,
    need (fitsRate c.format (familyRate s c.family)) (conflict 0),
    need ((c.format == old.format && c.family == old.family) || !layersOn s (u8 p 0)) (conflict 0)]

/-- ENABLE, FORMAT and FAMILY apply at once: a head that is off, or of another picture, loses its source;
disabling cancels its flips (R307, R308, R329). (DEDUCED, log entry 92.) -/
def applyHead (h : Nat) (c : HeadCfg) (s : State) : State :=
  let v := headOf s h
  let now := { v.cfg with enable := c.enable, format := c.format, family := c.family }
  let gone := !c.enable || c.format != v.cfg.format || c.family != v.cfg.family
  let s := putHead s h { v with cfg := now, showing := v.showing && !gone }
  let s := if gone then loseSource (headSource h) s else s
  if c.enable then s else cancelFlips (fun f => f.entries.any (fun e => e.head == h)) s

def effectHeadConfig (r : Reply) (p : Packet) (s : State) : State × Option Answer :=
  let h := u8 p 0
  let c := readHead p
  let s := applyHead h c s
  let at' := compHang p s c.family (headHalf s h)
  let a := answerFor at' c.family
  (stageComp { head := h, hang := at'.1, change := .head c, reply := completes p r a } s, some a)

def specHeadConfig : OpSpec :=
  { code := 0x8001, cls := 1, lengthOk := fixedLength 16, checks := checksHeadConfig, effect := effectHeadConfig }

/-- HEAD_CONFIG (R307). -/
def execHeadConfig (p : Packet) (s : State) : Host.Outcome State Fault Refusal :=
  .next (runHost specHeadConfig p s)

/-! ## LAYER_CONFIG (R313, R324, R397) -/

def readVideoLayer (p : Packet) : VideoLayerCfg :=
  { enable := u8 p 2 == 1, visible := u8 p 3 == 1, x := i16 p 4, y := i16 p 6
    w := orDefault (u16 p 8) 1920, h := orDefault (u16 p 10) 1080
    cropX := u16 p 12, cropY := u16 p 14, cropW := u16 p 16, cropH := u16 p 18
    ratio := u8 p 28 == 1, hStep := orDefault (u32 p 20) 0x10000, vStep := orDefault (u32 p 24) 0x10000
    pair := u8 p 29 == 1, filter := u8 p 30, hold := u8 p 31 == 1
    fillY := u16 p 32, fillCb := u16 p 34, fillCr := u16 p 36, holdLimit := u16 p 38
    z := u8 p 40, alpha := u16 p 42, keyLayer := if u8 p 41 = 0xFF then none else some (u8 p 41)
    keyLow := u16 p 44, keyHigh := u16 p 46, inColorimetry := u8 p 48, preLut := u8 p 49, matrix := u8 p 50 }

def readGraphicLayer (p : Packet) : GraphicLayerCfg :=
  { enable := u8 p 2 == 1, x := i16 p 4, y := i16 p 6
    w := orDefault (u16 p 8) 1920, h := orDefault (u16 p 10) 1080, rgb10 := u8 p 12 == 1
    vitrines := orDefault (u8 p 13) 2, z := u8 p 40, alpha := u16 p 42, inColorimetry := orDefault (u8 p 48) 1
    preLut := u8 p 49, matrix := u8 p 50 }

/-- A change of a layer of head h as it would be staged, and the staged changes with it. -/
def layerStaged (p : Packet) (s : State) (c : CompChange) : CompStaged :=
  let h := u8 p 0
  { head := h, hang := (compHang p s (headFamily s h) (headHalf s h)).1, change := c, reply := none }
def withStaged (p : Packet) (s : State) (c : CompChange) : List CompStaged := s.comp.staged ++ [layerStaged p s c]

/-- A test holds at every hang at which new settings of a layer are in force. (DEDUCED, log entry 89.) -/
def whileInForce (p : Packet) (s : State) (test : Word → Bool) : Bool :=
  let h := u8 p 0
  (hangsInForce s.comp.staged h (u8 p 1) (compHang p s (headFamily s h) (headHalf s h)).1).all test

/-- Z of layer l of a head at hang n. -/
def zInForce (s : State) (h l : Nat) (n : Word) : Nat :=
  if l < 12 then (videoInForce s s.comp.staged h l n).z else (graphicInForce s s.comp.staged h l n).z

/-- No other layer of the head has this Z at hang n (R311). (DEDUCED, log entry 89.) -/
def zFree (s : State) (h l z : Nat) (n : Word) : Bool :=
  (List.range 16).all (fun k => k == l || zInForce s h k n != z)

/-- KEY_LAYER names another video layer of the head that is enabled at hang n (R312). (DEDUCED, log entry 89.) -/
def keyOk (s : State) (h l : Nat) (c : VideoLayerCfg) (n : Word) : Bool :=
  match c.keyLayer with
  | some k => decide (k < 12) && k != l && (videoInForce s s.comp.staged h k n).enable
  | none => true

/-- PAIR joins a layer with one that is not enabled at hang n, and no layer is configured while the one before it is
paired (R315). -/
def pairOk (s : State) (h l : Nat) (c : VideoLayerCfg) (n : Word) : Bool :=
  (!c.pair || !(videoInForce s s.comp.staged h (l + 1) n).enable)
    && (l % 2 == 0 || !(videoInForce s s.comp.staged h (l - 1) n).pair)

/-- Format of the source that a layer has now (R315). -/
def layerSourceFormat (s : State) (h l : Nat) : Option Nat :=
  (shownSource s (layerDest h l)).bind (sourceFormat s)

/-- R315 for the source's current format; a source with no known format passes.
(DEDUCED, log entry 89.) -/
def scalerChecks (s : State) (h l : Nat) (c : VideoLayerCfg) : Check :=
  match layerSourceFormat s h l with
  | none => none
  | some f =>
    let (a, b) := stepsOf c f
    firstFail [
      need (!lineTooWide (headCfg s h).format c f) (lineBuffer l),
      fieldOk (stepOk a) 20,
      fieldOk (stepOk b) 24]

/-- DEDUCED, log entry 89. -/
def checksVideoLayer (p : Packet) (s : State) : Check :=
  let h := u8 p 0
  let l := u8 p 1
  let c := readVideoLayer p
  let cs := withStaged p s (.video l c)
  let units := extensionUnits (headTiles s h cs)
  let held := (headOf s h).extension
  firstFail [
    fieldIn (u8 p 2) 0 1 2,
    fieldIn (u8 p 3) 0 1 3,
    fieldOk (stepOk c.hStep) 20,
    fieldOk (stepOk c.vStep) 24,
    fieldIn (u8 p 28) 0 1 28,
    fieldOk (u8 p 29 == 0 || (u8 p 29 == 1 && l % 2 == 0)) 29,
    fieldIn (u8 p 30) 0 1 30,
    fieldIn (u8 p 31) 0 1 31,
    tenBits p 32, tenBits p 34, tenBits p 36,
    fieldIn (u8 p 40) 0 15 40,
    fieldOk (whileInForce p s (keyOk s h l c)) 41,
    tenBits p 42,
    fieldOk (u16 p 44 ≤ 1023 && (c.keyLayer.isNone || c.keyLow < c.keyHigh)) 44,
    tenBits p 46,
    fieldIn (u8 p 48) 0 2 48,
    fieldIn (u8 p 49) 0 4 49,
    fieldIn (u8 p 50) 0 4 50,
    reserved p 51 1,
    need (whileInForce p s (zFree s h l c.z)) (conflict 0),
    scalerChecks s h l c,
    need (whileInForce p s (pairOk s h l c)) (conflict 0),
    need (!pairedAway s h l) (conflict 0),
    need (decide ((units - held) * extensionUnit ≤ s.reserveFree)) (noResource 0),
    need (!c.enable || whileInForce p s (pixelsFit s cs h)) (noResource 0)]

/-- The settings of a graphic layer that a command's new ones follow: those in force at its hang.
(DEDUCED, log entry 90.) -/
def graphicBefore (p : Packet) (s : State) (h l : Nat) : GraphicLayerCfg :=
  graphicInForce s s.comp.staged h l (compHang p s (headFamily s h) (headHalf s h)).1

def checksGraphicLayer (p : Packet) (s : State) : Check :=
  let h := u8 p 0
  let l := u8 p 1
  let c := readGraphicLayer p
  let old := graphicBefore p s h l
  let f := (headCfg s h).format
  firstFail [
    fieldIn (u8 p 2) 0 1 2,
    reserved p 3 1,
    fieldIn c.w 1 (formatWidth f) 8,
    fieldIn c.h 1 (formatLines f).1 10,
    fieldIn (u8 p 12) 0 1 12,
    fieldIn c.vitrines 1 16 13,
    reserved p 14 2, reserved p 16 2, reserved p 18 2, reserved p 20 4, reserved p 24 4,
    reserved p 28 1, reserved p 29 1, reserved p 30 1, reserved p 31 1, reserved p 32 6, reserved p 38 2,
    fieldIn (u8 p 40) 0 15 40,
    reserved p 41 1,
    tenBits p 42,
    reserved p 44 2, reserved p 46 2,
    fieldIn c.inColorimetry 1 2 48,
    fieldIn (u8 p 49) 0 3 49,
    fieldIn (u8 p 50) 0 3 50,
    reserved p 51 1,
    need (whileInForce p s (zFree s h l c.z)) (conflict 0),
    need (!reallocates old c || !flipPending s h l) (conflict 0),
    need (!reallocates old c || (vitrineSpace s c).isSome) (noResource 0)]

def checksLayerConfig (p : Packet) (s : State) : Check :=
  let h := u8 p 0
  firstFail [
    compHeader p s (headFamily s h),
    fieldIn (u8 p 0) 0 31 0,
    fieldIn (u8 p 1) 0 15 1,
    if u8 p 1 < 12 then checksVideoLayer p s else checksGraphicLayer p s]

/-- The change of a video layer; the extension units that it needs are taken at once (R317). -/
def stageVideo (p : Packet) (s : State) : CompChange × State :=
  let h := u8 p 0
  let c := readVideoLayer p
  let units := extensionUnits (headTiles s h (withStaged p s (.video (u8 p 1) c)))
  (.video (u8 p 1) c, setExtension h (max units (headOf s h).extension) s)

/-- The change of a graphic layer; space for new vitrines is taken at once, and disabling cancels the
flips that name the layer (R324, R325, R329). (DEDUCED, log entry 90.) -/
def stageGraphic (p : Packet) (s : State) : CompChange × State :=
  let h := u8 p 0
  let l := u8 p 1
  let c := readGraphicLayer p
  let space := if reallocates (graphicBefore p s h l) c then vitrineSpace s c else none
  let s := takeSpace (space.getD (0, 0)) s
  (.graphic l c space, if c.enable then s else cancelFlips (flipNames h l) s)

def effectLayerConfig (r : Reply) (p : Packet) (s : State) : State × Option Answer :=
  let h := u8 p 0
  let fam := headFamily s h
  let (change, s) := if u8 p 1 < 12 then stageVideo p s else stageGraphic p s
  let at' := compHang p s fam (headHalf s h)
  let a := answerFor at' fam
  (stageComp { head := h, hang := at'.1, change := change, reply := completes p r a } s, some a)

def specLayerConfig : OpSpec :=
  { code := 0x8002, cls := 1, lengthOk := fixedLength 52, checks := checksLayerConfig, effect := effectLayerConfig }

/-- LAYER_CONFIG (R313, R324). -/
def execLayerConfig (p : Packet) (s : State) : Host.Outcome State Fault Refusal :=
  .next (runHost specLayerConfig p s)

/-! ## LUT_LOAD (R322) -/

/-- Entries of a table of 16-bit words. -/
def tableWords (p : Packet) : List (BitVec 16) :=
  (entriesFrom (p.params.drop 4) 2 ((p.params.length - 4) / 2)).map (fun b => BitVec.ofNat 16 (leNat b))

/-- Bytes of the table of a TARGET. -/
def tableBytes (t : Nat) : Nat := if t < 16 then 6144 else if t < 32 then 18 else 24576

/-- PARAM_LENGTH by TARGET; with TARGET out of range, any of the three (R382). -/
def lutLength (p : Packet) : Bool :=
  if u8 p 1 ≤ 32 then p.params.length == 4 + tableBytes (u8 p 1)
  else p.params.length == 6148 || p.params.length == 22 || p.params.length == 24580

def checksLut (p : Packet) (s : State) : Check :=
  let t := u8 p 1
  firstFail [
    compHeader p s (headFamily s (u8 p 0)),
    fieldIn (u8 p 0) 0 31 0,
    fieldIn t 0 32 1,
    reserved p 2 2,
    if 16 ≤ t ∧ t < 32 then none
    else firstBad (fun i w => need (w.extractLsb' 12 4 == 0#4) (badParam (4 + 2 * i))) 0 (tableWords p)]

/-- A second load for the same target and hang replaces the first (R322). -/
def sameLoad (h t : Nat) (n : Word) (c : CompStaged) : Bool :=
  c.head == h && c.hang == n && (match c.change with | .table k _ => k == t | _ => false)

/-- DEDUCED, log entry 90. -/
def effectLut (r : Reply) (p : Packet) (s : State) : State × Option Answer :=
  let h := u8 p 0
  let t := u8 p 1
  let fam := headFamily s h
  let at' := compHang p s fam (headHalf s h)
  let a := answerFor at' fam
  let s := { s with comp := { s.comp with staged := s.comp.staged.filter (fun c => !sameLoad h t at'.1 c) } }
  (stageComp { head := h, hang := at'.1, change := .table t (tableWords p), reply := completes p r a } s, some a)

def specLutLoad : OpSpec :=
  { code := 0x8003, cls := 2, lengthOk := lutLength, checks := checksLut, effect := effectLut }

/-- LUT_LOAD (R322). -/
def execLutLoad (p : Packet) (s : State) : Host.Outcome State Fault Refusal :=
  .next (runHost specLutLoad p s)

/-! ## FLIP and FLIP_GROUP (R326 to R329) -/

/-- A vitrine below the VITRINES that its layer has at hang n. -/
def vitrineExists (s : State) (n : Word) (e : FlipEntry) : Bool :=
  decide (e.vitrine < (graphicInForce s s.comp.staged e.head e.layer n).vitrines)

/-- A pending group names the layer. -/
def groupPending (s : State) (h l : Nat) : Bool := s.comp.flips.any (fun f => f.group && flipNames h l f)

def flipEntry (p : Packet) : FlipEntry :=
  { head := u8 p 0, layer := u8 p 1, vitrine := u8 p 2, fence := u32 p 4 }

/-- DEDUCED, log entry 86. -/
def checksFlip (p : Packet) (s : State) : Check :=
  let e := flipEntry p
  firstFail [
    compHeader p s (headFamily s e.head),
    fieldIn e.head 0 31 0,
    fieldIn e.layer 12 15 1,
    fieldOk (vitrineExists s (compHang p s (headFamily s e.head) (headHalf s e.head)).1 e) 2,
    need (!groupPending s e.head e.layer) (conflict 0)]

/-- The new flip takes the place of a pending flip of the layer. -/
def effectFlip (r : Reply) (p : Packet) (s : State) : State × Option Answer :=
  let e := flipEntry p
  let fam := headFamily s e.head
  let at' := compHang p s fam (headHalf s e.head)
  let a := answerFor at' fam
  let s := cancelFlips (flipNames e.head e.layer) s
  let f : Flip :=
    { group := false, family := fam, target := at'.1
      deadline := if u8 p 3 = 255 then none else some (u8 p 3)
      entries := [e], reply := completes p r a }
  ({ s with comp := { s.comp with flips := s.comp.flips ++ [f] } }, some a)

def specFlip : OpSpec :=
  { code := 0x8004, cls := 1, lengthOk := fixedLength 8, checks := checksFlip, effect := effectFlip }

/-- FLIP (R326). -/
def execFlip (p : Packet) (s : State) : Host.Outcome State Fault Refusal :=
  .next (runHost specFlip p s)

/-- Entries of a FLIP_GROUP (R398). -/
def groupBytes (p : Packet) : List Bytes := entriesFrom (p.params.drop 4) 8 (u8 p 0)
def groupEntry (b : Bytes) : FlipEntry :=
  { head := field b 0 1, layer := field b 1 1, vitrine := field b 2 1, fence := field b 4 4 }
def groupEntries (p : Packet) : List FlipEntry := (groupBytes p).map groupEntry

/-- Ranges of entry i, and no layer named by an entry before it. -/
def entryRange (s : State) (n : Word) (all : List FlipEntry) (i : Nat) (b : Bytes) : Check :=
  let e := groupEntry b
  let off := 4 + 8 * i
  firstFail [
    fieldIn e.head 0 31 off,
    fieldOk (12 ≤ e.layer && e.layer ≤ 15 &&
      !(all.take i).any (fun x => x.head == e.head && x.layer == e.layer)) (off + 1),
    fieldOk (vitrineExists s n e) (off + 2),
    fieldOk (field b 3 1 == 0) (off + 3)]

/-- Family of a group: that of its first head. -/
def groupFamily (s : State) (es : List FlipEntry) : Nat :=
  match es with | e :: _ => headFamily s e.head | [] => 0

/-- A group rounds to even when it names a head of half the family rate (R323). -/
def groupHalf (s : State) (es : List FlipEntry) : Bool := es.any (fun e => headHalf s e.head)

/-- DEDUCED, log entry 91. -/
def checksFlipGroup (p : Packet) (s : State) : Check :=
  let es := groupEntries p
  let fam := groupFamily s es
  firstFail [
    compHeader p s fam,
    fieldIn (u8 p 0) 1 64 0,
    reserved p 2 2,
    firstBad (entryRange s (compHang p s fam (groupHalf s es)).1 es) 0 (groupBytes p),
    firstBad (fun i e => need (headFamily s e.head == fam) (conflict i)) 0 es,
    firstBad (fun i e => need (!flipPending s e.head e.layer) (conflict i)) 0 es]

def effectFlipGroup (r : Reply) (p : Packet) (s : State) : State × Option Answer :=
  let es := groupEntries p
  let fam := groupFamily s es
  let at' := compHang p s fam (groupHalf s es)
  let a := answerFor at' fam
  let f : Flip :=
    { group := true, family := fam, target := at'.1, deadline := some (u8 p 1), entries := es
      reply := completes p r a }
  ({ s with comp := { s.comp with flips := s.comp.flips ++ [f] } }, some a)

def specFlipGroup : OpSpec :=
  { code := 0x8005, cls := 1, lengthOk := fun p => p.params.length == 4 + 8 * u8 p 0, checks := checksFlipGroup
    effect := effectFlipGroup }

/-- FLIP_GROUP (R327). -/
def execFlipGroup (p : Packet) (s : State) : Host.Outcome State Fault Refusal :=
  .next (runHost specFlipGroup p s)

/-! ## HEAD_STATUS (R331) -/

/-- Bytes of a layer's vitrines. -/
def spaceBytes (g : GraphicLayer) : Nat := match g.space with | some (a, b) => a + b | none => 0

/-- DEDUCED, log entry 94. -/
def videoItems (s : State) (h l : Nat) : Bytes :=
  let v := videoLayer s h l
  itemFlag (!shownLost s (layerDest h l)) ++ itemByte v.unfit ++ itemByte (if v.isolated then 3 else v.shown)
    ++ itemCount v.mistimed ++ itemWide v.tilesIncomplete ++ itemCount v.framesStandby ++ itemCount v.framesHeld
    ++ itemCount v.unfitEvents

/-- Target of the flip of a layer that is pending, 0 where none is. -/
def pendingTarget (s : State) (h l : Nat) : Word :=
  match s.comp.flips.find? (flipNames h l) with | some f => f.target | none => 0

/-- DEDUCED, log entry 94. -/
def graphicItems (s : State) (h l : Nat) : Bytes :=
  let g := graphicLayer s h l
  itemByte g.displayed ++ itemWord (pendingTarget s h l) ++ itemCount g.flips ++ itemCount g.flipsWaited
    ++ itemCount g.flipsAbandoned ++ itemCount g.flipsCancelled

/-- DEDUCED, log entry 94. -/
def headItems (s : State) (h : Nat) : Bytes :=
  let v := headOf s h
  itemFlag v.cfg.enable ++ itemByte v.cfg.format ++ itemCount (tilesHeld s h) ++ itemCount v.extension
    ++ itemCount ((List.range 4).foldl (fun n k => n + spaceBytes (graphicLayer s h (12 + k))) 0)
    ++ ((List.range 12).map (videoItems s h)).flatten
    ++ ((List.range 4).map (fun k => graphicItems s h (12 + k))).flatten

def clearVideoLayer (h l : Nat) (s : State) : State :=
  putVideoLayer s h l { videoLayer s h l with
    mistimed := 0, tilesIncomplete := 0, framesStandby := 0, framesHeld := 0, unfitEvents := 0 }
def clearGraphicLayer (h l : Nat) (s : State) : State :=
  putGraphicLayer s h l { graphicLayer s h l with
    flips := 0, flipsWaited := 0, flipsAbandoned := 0, flipsCancelled := 0 }

def clearHead (h : Nat) (s : State) : State :=
  let s := (List.range 12).foldl (fun s l => clearVideoLayer h l s) s
  (List.range 4).foldl (fun s k => clearGraphicLayer h (12 + k) s) s

def headSpace : StatusSpace := { size := 32, items := headItems, clear := clearHead }

def specHeadStatus : OpSpec := specStatus 0x8006 (onlySpace headSpace)

/-- HEAD_STATUS (R331). -/
def execHeadStatus (p : Packet) (s : State) : Host.Outcome State Fault Refusal :=
  .next (runHost specHeadStatus p s)

end Sys2Proof.Machine
end

