-- ==== Sys2Proof/Machine/Scaler.lean ====
section
/-! DEFINITION. Scaler.lean: a video layer's scaler and its tile slots: source positions and filters, when a tile is
complete, what a slot holds and which slot a frame shows (R310, R314, R317, R319). -/

namespace Sys2Proof.Machine

/-! ## The scaler (R314) -/

/-- A number rounded to the nearest integer. -/
def roundRat (v : Rat) : Int := Rat.floor (v + 1 / 2)

/-- Source position of an output pixel or line in 2⁻¹⁷ of a source sample: CROP + (x + 0.5) × STEP − 0.5, with CROP in
halves of a sample. -/
def sourcePos (crop2 step x : Nat) : Int :=
  (crop2 : Int) * 2 ^ 16 + (2 * x + 1) * step - 2 ^ 16

/-- The source sample of a position and the filter phase: the fraction rounded to the nearest 1/64, which may carry to
the next sample. -/
def filterPlace (pos : Int) : Int × Nat :=
  let n := (pos + 2 ^ 10) / 2 ^ 11
  (n / 64, (n % 64).toNat)

/-- The tap that stands at the position itself, and the number of taps. (PRESUMED, log entry 177.) -/
def filterShape (vertical : Bool) : Nat × Nat := if vertical then (2, 6) else (3, 8)

/-- The sample of tap k, between the first and last sample of the crop: taps outside repeat the edge sample. -/
def tapSample (vertical : Bool) (first last : Nat) (pos : Int) (k : Nat) : Nat :=
  let i := (filterPlace pos).1 + (k : Int) - ((filterShape vertical).1 : Int)
  (max (first : Int) (min (last : Int) i)).toNat

/-- One scaled sample of a line or column. -/
def scaleSample (filter : Nat) (vertical : Bool) (first last : Nat) (pos : Int) (px : Nat → Rat) : Rat :=
  (List.range (filterShape vertical).2).foldl (fun (a : Rat) (k : Nat) =>
    a + (Config.filterTap filter vertical (filterPlace pos).2 k : Rat) / 2 ^ 15
      * px (tapSample vertical first last pos k)) 0

/-- First line of a layer's crop in the lines that the scaler reads. -/
def cropTop (c : VideoLayerCfg) (fmt : Nat) : Nat := if (formatLines fmt).2 = 1 then c.cropY / 2 else c.cropY

/-- Under RATIO the scaled crop starts at the window's top-left corner; a pixel of the window may lie beyond it. -/
def coveredX (c : VideoLayerCfg) (fmt x : Nat) : Bool :=
  !c.ratio || decide (x < ((cropOf c fmt).1 * 65536 + c.hStep - 1) / c.hStep)
def coveredY (c : VideoLayerCfg) (fmt y : Nat) : Bool :=
  !c.ratio || decide (y < ((cropOf c fmt).2 * 65536 + c.vStep - 1) / c.vStep)

/-! ## A slot's pixels (R310, R319) -/

/-- Field and number of the line that the scaler reads as line r of a source: of an interlaced source its first field
alone. -/
def scalerLine (fmt r : Nat) : Bool × Nat :=
  if (formatLines fmt).2 = 2 then (r % 2 == 1, r / 2 + 1) else (false, r + 1)

/-- Line r of a slot's source frame, where it came. -/
def slotLine (lines : List PicLine) (fmt r : Nat) : Option PicLine :=
  let (second, line) := scalerLine fmt r
  lines.find? (fun l => l.second == second && l.line == line)

/-- Word k of a line of a slot's source frame. -/
def pictureWord (t : TileSlot) (r k : Nat) : Rat :=
  match slotLine t.lines t.format r with
  | some l => ((l.samples.getD k (blackSample k)).toNat : Nat)
  | none => ((blackSample k).toNat : Nat)

/-- Position of window line y in the lines that the scaler reads. -/
def linePos (c : VideoLayerCfg) (fmt y : Nat) : Int := sourcePos (2 * cropTop c fmt) (stepsOf c fmt).2 y
/-- Last line of the crop. -/
def cropEnd (c : VideoLayerCfg) (fmt : Nat) : Nat := cropTop c fmt + (cropOf c fmt).2 - 1

/-- A scaled value of a slot at pixel x, y of the window: of words stride · i + offset of its source lines, in a crop
of samples `first` to `last` that starts at half samples `crop2`. (DESIGN CHOICE, log entry 95.) -/
def slotValue (t : TileSlot) (crop2 first last x y stride offset : Nat) : Nat :=
  let c := t.cfg
  let row := fun (r : Nat) => scaleSample c.filter false first last (sourcePos crop2 (stepsOf c t.format).1 x)
    (fun i => pictureWord t r (stride * i + offset))
  let value := scaleSample c.filter true (cropTop c t.format) (cropEnd c t.format) (linePos c t.format y) row
  (min 1023 (max 0 (roundRat value))).toNat

/-- Sample of a slot at pixel x, y of the window; chroma is scaled at half resolution with the same positions and
brought up again (R314, R321). (DESIGN CHOICE, log entry 95.) -/
def tileSample (t : TileSlot) (x y : Nat) : Nat × Nat × Nat :=
  let c := t.cfg
  let last := c.cropX + (cropOf c t.format).1 - 1
  let chroma := fun (offset : Nat) =>
    Config.chromaUp ((List.range ((c.w + 1) / 2)).map
      (fun k => slotValue t c.cropX (c.cropX / 2) (last / 2) k y 4 offset)) x
  (slotValue t (2 * c.cropX) c.cropX last x y 2 1, chroma 0, chroma 2)

/-! ## Tile rows (R317, R319) -/

/-- First line of a layer's visible window in lines of the window. -/
def windowTop (c : VideoLayerCfg) : Nat := (max c.y 0 - c.y).toNat

/-- Tile rows and columns of a layer's visible window. -/
def tileRows (head : Nat) (c : VideoLayerCfg) : Nat := (visibleH head c.y c.h + 7) / 8
def tileColumns (head : Nat) (c : VideoLayerCfg) : Nat := (visibleW head c.x c.w + 63) / 64

/-- The tile row of a raster line. -/
def tileRowAt (c : VideoLayerCfg) (y : Nat) : Nat := ((y : Int) - max c.y 0).toNat / 8

/-- Every source line that the tiles of row j need has come, so that each of their pixels has been written.
(DESIGN CHOICE, log entry 88.) -/
def rowComplete (head : Nat) (c : VideoLayerCfg) (fmt : Nat) (lines : List PicLine) (j : Nat) : Bool :=
  (List.range 8).all (fun i =>
    let y := windowTop c + 8 * j + i
    decide (visibleH head c.y c.h ≤ 8 * j + i) || !coveredY c fmt y
      || (List.range 6).all (fun k =>
        (slotLine lines fmt (tapSample true (cropTop c fmt) (cropEnd c fmt) (linePos c fmt y) k)).isSome))

/-- The writer takes the slot that does not hold the newest complete tile. (DESIGN CHOICE, log entry 88.) -/
def writeSlot (t : TileSlot) (slots : List TileSlot) : List TileSlot := t :: (slots.filter (fun x => x.complete)).take 1

/-- The slot that the frame of hang m shows of a tile position; none = STANDBY_FILL. -/
def shownSlot (c : VideoLayerCfg) (m : Word) (step : Nat) (slots : List TileSlot) : Option TileSlot :=
  match slots.find? (fun t => t.complete && t.tag == m) with
  | some t => some t
  | none =>
    if c.hold then
      slots.find? (fun t => t.complete && (c.holdLimit == 0 || decide ((m - t.tag).toNat ≤ c.holdLimit * step)))
    else none

/-- The slot that a layer shows in its tile row j at hang m: none while it is unfit or isolated (R316, R332). -/
def rowSlot (v : VideoLayer) (m : Word) (step j : Nat) : Option TileSlot :=
  if v.unfit ≠ 0 ∨ v.isolated then none else shownSlot v.cfg m step (tget (fun _ => []) v.tiles j)

/-- What the frame of hang m shows of a layer: 1 with fill in any tile, else 2 with any held tile, else 0.
(DESIGN CHOICE, log entry 88.) -/
def layerShows (head : Nat) (v : VideoLayer) (m : Word) (step : Nat) : Nat :=
  let rows := (List.range (tileRows head v.cfg)).map (rowSlot v m step)
  if v.unfit ≠ 0 ∨ v.isolated ∨ rows.any (fun t => t.isNone) then 1
  else if rows.any (fun t => match t with | some t => t.tag != m | none => false) then 2
  else 0

end Sys2Proof.Machine
end

