-- ==== Sys2Proof/Machine/CompRun.lean ====
section
/-! DEFINITION. CompRun.lean: what the compositor does at a presentation point and a flip point (R308, R309, R316, R317, R319, R323 to R330). -/

namespace Sys2Proof.Machine

/-! ## Applying what is staged (R323) -/

/-- A hang has been reached: it is not later than the present one (R12). -/
def hangDue (now h : Word) : Bool := !later h now

/-- The head starts a frame at boundary `now` (R141). -/
def headFrameAt (s : State) (h : Nat) (now : Word) : Bool := !(headHalf s h && now.getLsbD 0)

/-- The payload ID of a head's output (R307). (DEDUCED, log entry 92.) -/
def headPid (c : HeadCfg) : Word := Config.headPid c.format c.outColorimetry c.outTransfer

/-- Offer a head's picture as its source (R308). (DEDUCED, log entry 92.) -/
def offerHead (h : Nat) (s : State) : State :=
  let c := headCfg s h
  gainSource (headSource h) c.format c.family (headPid c) s

/-- The colour settings of a HEAD_CONFIG. -/
def applyColours (h : Nat) (c : HeadCfg) (s : State) : State :=
  let v := headOf s h
  let now := { c with enable := v.cfg.enable, format := v.cfg.format, family := v.cfg.family }
  let s := putHead s h { v with cfg := now }
  if v.showing then offerHead h s else s

/-- New settings of a video layer; a region that changes is held with the old one through one frame, and holds no
earlier complete tile (R317, R319). -/
def applyVideo (h l : Nat) (c : VideoLayerCfg) (s : State) : State :=
  let v := videoLayer s h l
  let v' := if sameRegion v.cfg c then { v with cfg := c }
    else { v with cfg := c, before := some (v.before.getD v.cfg), tiles := [], frame := none }
  putVideoLayer s h l (if c.enable then v' else { v' with unfit := 0, outOf := [] })

/-- New settings of a graphic layer: its old vitrines are released where new ones were allocated or the
layer is disabled, and lists that target them are cancelled (R325, R348). -/
def applyGraphic (h l : Nat) (c : GraphicLayerCfg) (space : Option (Nat × Nat)) (s : State) : State :=
  let g := graphicLayer s h l
  if space.isSome ∨ !c.enable then
    let s := returnSpace g.space (cancelLayerLists h l s)
    let s := if space.isSome then
        { s with eng := { s.eng with paint := .zero (4 * h + l - 12) :: s.eng.paint } } else s
    putGraphicLayer s h l { graphicLayer s h l with cfg := c, space := space, displayed := 0 }
  else putGraphicLayer s h l { g with cfg := c }

/-- Make one staged change. -/
def applyChange (h : Nat) (c : CompChange) (s : State) : State :=
  match c with
  | .head c => applyColours h c s
  | .video l c => applyVideo h l c s
  | .graphic l c space => applyGraphic h l c space s
  | .table t words => { s with comp := { s.comp with tables := tput s.comp.tables (33 * h + t) words } }

/-- A change of a video layer. -/
def isVideoChange : CompChange → Bool
  | .video _ _ => true | _ => false

/-- A change in its place among others by hang, behind those of the same hang. -/
def insertChange (c : CompStaged) : List CompStaged → List CompStaged
  | [] => [c]
  | d :: r => if later d.hang c.hang then c :: d :: r else d :: insertChange c r

/-- Apply the staged changes that a test selects, by hang and then in the order in which they were staged, and complete
them at a hang. (DEDUCED, log entry 87.) -/
def applyStaged (test : CompStaged → Bool) (hang : Nat → Word) (fam : Nat) (s : State) : State :=
  let due := (s.comp.staged.filter test).foldl (fun r c => insertChange c r) []
  let s := { s with comp := { s.comp with staged := s.comp.staged.filter (fun c => !test c) } }
  due.foldl (fun s c => complete c.reply (hungAt (hang c.head) fam) (applyChange c.head c.change s)) s

/-! ## Layer frames (R309, R316, R319) -/

/-- Start of a timed source's frame against its reference position, in 2⁻¹⁶ ns; none for a source that is
presented at PP. -/
def timedOffset (s : State) (n : Nat) : Option Int :=
  if n < 1280 then
    let f := fabricSource s n
    some (rootToUnits (8 * (f.arrivedAt.toNat : Int) - (familyOf s f.family).boundary))
  else if n < 1440 then
    if (sdiInCfg s (n - 1280)).mode = 0 then some (sdiInOf s (n - 1280)).offset else none
  else none

/-- The lines that the source frame of a layer frame has brought: the source's frame in progress, or the complete one
where the next has begun. -/
def framePicture (s : State) (f : LayerFrame) : List PicLine :=
  let e := essenceOf s f.source
  if e.beganAt = f.beganAt then e.now.lines else if e.doneAt = f.beganAt then e.done.lines else []

/-- The layer frame of hang m ends: its tiles stand in their slots, complete or not (R319).
(DESIGN CHOICE, log entry 88.) -/
def closeFrame (h l : Nat) (s : State) : State :=
  let v := videoLayer s h l
  let head := (headCfg s h).format
  match v.frame with
  | none => s
  | some f =>
    let lines := framePicture s f
    let rows := (List.range (tileRows head v.cfg)).map (fun j => (j, rowComplete head v.cfg f.format lines j))
    let slot := fun (done : Bool) =>
      ({ tag := f.hang, complete := done, cfg := v.cfg, format := f.format, pid := f.pid, lines := lines } : TileSlot)
    putVideoLayer s h l { v with
      frame := none
      tiles := rows.foldl (fun t r =>
        tput t r.1 (writeSlot (slot r.2) (tget (fun _ => []) t r.1))) v.tiles
      tilesIncomplete := sat48 v.tilesIncomplete
        (tileColumns head v.cfg * (rows.filter (fun r => !r.2)).length) }

/-- The source that the layer frame of hang n takes: the loaded selection, or the one shown.
(DEDUCED, log entry 93.) -/
def frameSource (s : State) (h l : Nat) (n : Word) : Option Nat :=
  match (destOf s .video (layerDest h l)).shadow with
  | some e => if e.aim = .hang n ∧ e.kind = .take then e.source else shownSource s (layerDest h l)
  | none => shownSource s (layerDest h l)

/-- The layer takes frames: it and its head are enabled. -/
def layerRuns (s : State) (h l : Nat) : Bool := (headCfg s h).enable && (videoLayer s h l).cfg.enable

/-- Apply R315 to the format of the frame's source: entry to UNFIT is raised and counted (R316).
(DEDUCED, log entry 93.) -/
def judgeFit (h l : Nat) (n : Word) (s : State) : State :=
  let v := videoLayer s h l
  if !layerRuns s h l then s
  else
    let why := match (frameSource s h l n).bind (sourceFormat s) with
      | some f => unfitReason (headCfg s h).format v.cfg f
      | none => 0
    let enters := why != 0 && v.unfit == 0
    let s := putVideoLayer s h l { v with
      unfit := why, unfitEvents := if enters then sat32 v.unfitEvents 1 else v.unfitEvents }
    if enters then raiseComp (compFault h l) s else s

/-- The frame starts from the later of PP − 24 lines and ref − 100 µs to PP, in lines of the head's
format (R309). -/
def inLayerWindow (f : Nat) (o : Int) : Bool :=
  if 0 ≤ o then withinLines f 16 o else withinLines f 8 o && decide (o.natAbs ≤ 6553600000)

/-- A timed source whose frame started outside the window of the layer frame. -/
def outsideWindow (s : State) (h n : Nat) : Bool :=
  match timedOffset s n with | some o => !inLayerWindow (headCfg s h).format o | none => false

/-- The timed sources of a layer frame are judged by their starts: a source outside the window is lost at the layer, and
the frame of the shown one counts (R309). (DEDUCED, log entry 93.) -/
def judgeWindow (h l : Nat) (n : Word) (s : State) : State :=
  let d := layerDest h l
  let v := videoLayer s h l
  if !layerRuns s h l then (if v.outOf.isEmpty then s else putVideoLayer s h l { v with outOf := [] })
  else
    let shown := frameSource s h l n
    let out := ((shown.toList ++ (destRun s d).protSource.toList).filter (fun x => outsideWindow s h x)).eraseDups
    let counts := match shown with | some m => out.contains m && sourceUsable s m | none => false
    judgeDest d (putVideoLayer s h l { v with
      outOf := out, mistimed := if counts then sat32 v.mistimed 1 else v.mistimed })

/-- Start the layer frame of hang n from the layer's source: none where it is lost, and none on an UNFIT layer (R309,
R316, R319). -/
def openFrame (h l : Nat) (n : Word) (s : State) : State :=
  let v := videoLayer s h l
  match (if layerRuns s h l then frameSource s h l n else none) with
  | none => s
  | some m =>
    let v := { v with pid := (sourceOf s m).pid }
    match sourceFormat s m with
    | some f =>
      putVideoLayer s h l (if v.unfit ≠ 0 ∨ lostAt s (layerDest h l) m then v
        else { v with frame := some { hang := n, source := m, format := f, pid := v.pid
                                      beganAt := (essenceOf s m).beganAt } })
    | none => putVideoLayer s h l v

/-- What the starting output frame shows of a layer at hang m, and its counts (R319, R331). -/
def showLayer (h l : Nat) (m : Word) (s : State) : State :=
  let v := videoLayer s h l
  let n := layerShows (headCfg s h).format v m (headStep s h)
  putVideoLayer s h l { v with
    shown := n
    framesStandby := if n = 1 ∧ !v.isolated then sat32 v.framesStandby 1 else v.framesStandby
    framesHeld := if n = 2 then sat32 v.framesHeld 1 else v.framesHeld }

/-- The region before a change has been held through its frame (R317). -/
def dropBefore (h l : Nat) (s : State) : State :=
  let v := videoLayer s h l
  if v.before.isSome then putVideoLayer s h l { v with before := none } else s

/-! ## Flip points (R326 to R328) -/

/-- The hang of which a boundary `now` is the flip point for a flip; none where it is not one.
(DEDUCED, log entry 87.) -/
def flipHang (s : State) (f : Flip) (now : Word) : Option Word :=
  let halves := f.entries.map (fun e => headHalf s e.head)
  let n := now - (if halves.all (fun x => x) then 2 else 1)
  if halves.any (fun x => x) && n.getLsbD 0 then none else some n

/-- Frames of a flip in hang periods. (DEDUCED, log entry 91.) -/
def flipStep (s : State) (f : Flip) : Nat := if f.entries.any (fun e => headHalf s e.head) then 2 else 1

/-- Every entry applies at hang n. -/
def applyFlip (f : Flip) (n : Word) (s : State) : State :=
  let s := f.entries.foldl (fun s e =>
    countEntry (fun g => { g with
      displayed := e.vitrine
      flips := sat32 g.flips 1
      flipsWaited := if n = f.target then g.flipsWaited else sat32 g.flipsWaited 1 }) e s) s
  complete f.reply (hungAt n f.family) s

/-- Entries whose fence is not signalled, with their indices. -/
def unready (s : State) (f : Flip) : List (Nat × FlipEntry) :=
  f.entries.zipIdx.filterMap (fun x => if fenceReady s x.1.fence then none else some (x.2, x.1))

/-- The flip or group is abandoned whole (R328). (DEDUCED, log entry 91.) -/
def abandonFlip (f : Flip) (bad : List (Nat × FlipEntry)) (s : State) : State :=
  let s := f.entries.foldl (fun s e =>
    countEntry (fun g => { g with flipsAbandoned := sat32 g.flipsAbandoned 1 }) e s) s
  let s := bad.foldl (fun s x => raiseComp (compFault x.2.head x.2.layer) s) s
  complete f.reply (failed ((bad.map (fun x => x.1)).headD 0)) s

/-- The deadline of a flip has come at hang n. -/
def deadlineAt (s : State) (f : Flip) (n : Word) : Bool :=
  match f.deadline with
  | some d => decide (d * flipStep s f ≤ (n - f.target).toNat)
  | none => false

/-- Take a flip out of those that are pending. -/
def dropFlip (f : Flip) (s : State) : State := { s with comp := { s.comp with flips := s.comp.flips.erase f } }

/-- Sample the fences of one flip at the boundary `now`. -/
def judgeFlip (now : Word) (s : State) (f : Flip) : State :=
  match flipHang s f now with
  | none => s
  | some n =>
    if !notEarlier n f.target then s
    else
      let bad := unready s f
      if bad.isEmpty then applyFlip f n (dropFlip f s)
      else if deadlineAt s f n then abandonFlip f bad (dropFlip f s)
      else s

/-- The flip point at boundary `now` of a family: what applies with the output frame that starts next,
then the flips. (DEDUCED, log entry 87.) -/
def compFlipPoint (fam : Nat) (now : Word) (s : State) : State :=
  let heads := (headsOf s fam).filter (fun h => headFrameAt s h now)
  let hang := fun h => now - BitVec.ofNat 32 (headStep s h)
  let s := applyStaged (fun c => heads.contains c.head && hangDue (hang c.head) c.hang && !isVideoChange c.change)
    hang fam s
  (s.comp.flips.filter (fun f => f.family == fam)).foldl (judgeFlip now) s

/-- FLIP_POINT (R326): the flip point of the hang before the one in progress. -/
def execFlipPoint (fam : Fin 4) (s : State) : Host.Outcome State Fault Refusal :=
  .next (if familyOn s fam.val then compFlipPoint fam.val (familyOf s fam.val).hang s else s)

/-! ## FAULT_ACK (R332) -/

/-- The layer of an acknowledged COMP source shows again. -/
def ackComp (id : Nat) (s : State) : State := isolateLayer (compHead id) (compLayer id) false s

end Sys2Proof.Machine
end

