-- ==== Sys2Proof/Machine/Drawing.lean ====
section
/-! DEFINITION. Drawing.lean: display lists: their words, their checks, and what their commands draw
(R325, R345, R346). -/

namespace Sys2Proof.Machine

/-! ## Pixels (R324, R346) -/

/-- Component i of a pixel: red, green, blue, alpha. -/
def pixelPart (rgb10 : Bool) (c : Word) (i : Nat) : Nat :=
  if rgb10 then c.toNat / 1024 ^ i % (if i = 3 then 4 else 1024) else c.toNat / 256 ^ i % 256

/-- Largest value of a component. -/
def partMax (rgb10 : Bool) (i : Nat) : Nat := if rgb10 then (if i = 3 then 3 else 1023) else 255

/-- A pixel of four components. -/
def pixelOf (rgb10 : Bool) (r g b a : Nat) : Word :=
  BitVec.ofNat 32 (if rgb10 then r + 1024 * g + 1048576 * b + 1073741824 * a
    else r + 256 * g + 65536 * b + 16777216 * a)

/-- A quotient rounded to the nearest integer, with ties to even. -/
def roundTies (n d : Nat) : Nat :=
  let q := n / d
  let r := n % d
  if 2 * r < d then q else if d < 2 * r then q + 1 else q + q % 2

/-- Source-over with straight alpha: the source's alpha times coverage / 255 (R346). -/
def blendOver (rgb10 : Bool) (coverage : Nat) (src dst : Word) : Word :=
  let m := partMax rgb10 3
  let sn := pixelPart rgb10 src 3 * coverage
  let sd := m * 255
  let dn := pixelPart rgb10 dst 3
  let top := sn * m + dn * (sd - sn)
  let part := fun i =>
    if top = 0 then 0
    else roundTies (pixelPart rgb10 src i * sn * m + pixelPart rgb10 dst i * dn * (sd - sn)) top
  pixelOf rgb10 (part 0) (part 1) (part 2) (roundTies (top * m) (sd * m))

/-- A position lies in a box. -/
def inBox (x y bx y0 : Int) (w h : Nat) : Bool := decide (bx ≤ x ∧ x < bx + w ∧ y0 ≤ y ∧ y < y0 + h)

/-- Draw the glyphs of a text onto a pixel at an offset from the first origin, one after the other. A
missing character draws the font's U+FFFD (R346). -/
def drawGlyphs (font size : Nat) (colour : Word) (rgb10 : Bool) : List Nat → Int → Int → Word → Word
  | [], _, _, d => d
  | c :: r, dx, dy, d =>
    let c := if Config.glyphPresent font c then c else 0xFFFD
    let cov := (Config.glyphCoverage font size c dx dy).toNat
    let d := if cov = 0 then d else blendOver rgb10 cov colour d
    drawGlyphs font size colour rgb10 r (dx - Config.glyphAdvance font size c) dy d

/-- A pixel of a vitrine after what has been drawn, newest first. -/
def pixelAt : List Paint → Nat → Int → Int → Word
  | [], _, _, _ => 0
  | e :: r, v, x, y =>
    let d := pixelAt r v x y
    let put := fun (hit : Bool) (blend rgb10 : Bool) (c : Word) =>
      if hit then (if blend then blendOver rgb10 255 c d else c) else d
    match e with
    | .zero layer => if v / 16 = layer then 0 else d
    | .clear w c => put (v == w) false false c
    | .rect t bx y0 w h c blend rgb10 => put (v == t && inBox x y bx y0 w h) blend rgb10 c
    | .frame t bx y0 w h c n blend rgb10 =>
      put (v == t && inBox x y bx y0 w h && !inBox x y (bx + n) (y0 + n) (w - 2 * n) (h - 2 * n)) blend rgb10 c
    | .text t bx y0 c font size chars rgb10 =>
      if v = t then drawGlyphs font size c rgb10 chars (x - bx) (y - y0) d else d
    | .blit t src sx sy w h dx dy srcW srcH blend rgb10 =>
      let px := x - dx + sx
      let py := y - dy + sy
      put (v == t && inBox x y dx dy w h && inBox px py 0 0 srcW srcH) blend rgb10 (pixelAt r src px py)

/-! ## Words of a list (R345) -/

def wordField (w : Word) (lo n : Nat) : Nat := w.toNat / 2 ^ lo % 2 ^ n
def wordX (w : Word) : Int := toSigned 2 (wordField w 0 16)
def wordY (w : Word) : Int := toSigned 2 (wordField w 16 16)

/-- One command of a list: its words, header first. -/
abbrev ListCmd := List Word

def cmdOp (c : ListCmd) : Nat := wordField (c.headD 0) 0 8
def cmdBlend (c : ListCmd) : Bool := (c.headD 0).getLsbD 16
def cmdWord (c : ListCmd) (i : Nat) : Word := c.getD i 0

/-- SIGNAL. -/
def isSignal (c : ListCmd) : Bool := cmdOp c == 6

/-- Cut words into commands by their WORDS fields; the word index of a command that runs past the end of
the list, or has WORDS 0. `n` bounds the number of commands. -/
def cutCommands : Nat → Nat → List Word → Except Nat (List (Nat × ListCmd))
  | _, _, [] => .ok []
  | 0, i, _ :: _ => .error i
  | n + 1, i, w :: r =>
    let k := wordField w 8 8
    if k = 0 ∨ r.length + 1 < k then .error i
    else
      match cutCommands n (i + k) ((w :: r).drop k) with
      | .ok cs => .ok ((i, (w :: r).take k) :: cs)
      | .error e => .error e

/-! ## TEXT -/

/-- Bytes of words, first byte in [7:0]. -/
def listBytes (ws : List Word) : Bytes := (ws.map (fun w => leBytes 4 w.toNat)).flatten

/-- A UTF-8 continuation byte's six bits. -/
def contBits (b : Byte) : Option Nat := if b.toNat / 64 = 2 then some (b.toNat % 64) else none

/-- Decode UTF-8: shortest forms only, no surrogates, at most U+10FFFF. `n` bounds the characters. -/
def utf8 : Nat → Bytes → Option (List Nat)
  | _, [] => some []
  | 0, _ => none
  | n + 1, b :: r =>
    let v := b.toNat
    let ok := fun (lo c : Nat) (rest : Bytes) =>
      if lo ≤ c ∧ c ≤ 0x10FFFF ∧ ¬(0xD800 ≤ c ∧ c ≤ 0xDFFF) then (utf8 n rest).map (fun l => c :: l) else none
    if v < 0x80 then ok 0 v r
    else if 0xC0 ≤ v ∧ v < 0xE0 then
      match r with
      | b1 :: rest => (contBits b1).bind (fun c1 => ok 0x80 (v % 32 * 64 + c1) rest)
      | _ => none
    else if 0xE0 ≤ v ∧ v < 0xF0 then
      match r with
      | b1 :: b2 :: rest => (contBits b1).bind (fun c1 => (contBits b2).bind (fun c2 =>
          ok 0x800 (v % 16 * 4096 + c1 * 64 + c2) rest))
      | _ => none
    else if 0xF0 ≤ v ∧ v < 0xF8 then
      match r with
      | b1 :: b2 :: b3 :: rest => (contBits b1).bind (fun c1 => (contBits b2).bind (fun c2 =>
          (contBits b3).bind (fun c3 => ok 0x10000 (v % 8 * 262144 + c1 * 4096 + c2 * 64 + c3) rest)))
      | _ => none
    else none

/-- Bytes in a TEXT command, and the characters that they spell. -/
def textCount (c : ListCmd) : Nat := wordField (cmdWord c 3) 16 16
def textBytes (c : ListCmd) : Bytes := (listBytes (c.drop 4)).take (textCount c)
def textChars (c : ListCmd) : Option (List Nat) := utf8 1025 (textBytes c)
def textFont (c : ListCmd) : Nat := wordField (cmdWord c 3) 0 8
def textSize (c : ListCmd) : Nat := wordField (cmdWord c 3) 8 8

/-! ## Checks (R345, R346) -/

/-- A BLIT's source vitrine is allocated and of the target's FORMAT. -/
def blitSourceOk (s : State) (target : Nat) (c : ListCmd) : Bool :=
  match vitrineOf s (wordField (cmdWord c 1) 0 16), vitrineOf s target with
  | some a, some b => a.rgb10 == b.rgb10
  | some _, none => true
  | none, _ => false

/-- A command is as R345 and R346 have it. -/
def cmdOk (s : State) (target : Nat) (c : ListCmd) : Bool :=
  let n := c.length
  let h := c.headD 0
  wordField h 17 15 == 0 &&
    (match cmdOp c with
    | 1 => n == 2 && !cmdBlend c
    | 2 => n == 4
    | 3 => n == 5 && wordField (cmdWord c 4) 0 8 != 0 && wordField (cmdWord c 4) 8 24 == 0
    | 4 =>
      let k := textCount c
      !cmdBlend c && decide (1 ≤ k ∧ k ≤ 1024) && n == 4 + (k + 3) / 4 && decide (textFont c ≤ 15)
        && Config.fontPresent (textFont c) && decide (8 ≤ textSize c)
        && ((listBytes (c.drop 4)).drop k).all (fun b => b == 0) && (textChars c).isSome
    | 5 => n == 5 && wordField (cmdWord c 1) 16 16 == 0 && blitSourceOk s target c
    | 6 => n == 1 && !cmdBlend c
    | _ => false)

/-- The word index of the first violation of a list; none where it has none. The ninth SIGNAL is one.
(DEDUCED, log entry 101.) -/
def listViolation (s : State) (target : Nat) (words : List Word) : Option Nat :=
  match cutCommands words.length 0 words with
  | .error i => some i
  | .ok cs =>
    let bad := cs.find? (fun c => !cmdOk s target c.2)
    let ninth := (cs.filter (fun c => isSignal c.2)).drop 8
    match bad, ninth with
    | some a, b :: _ => some (min a.1 b.1)
    | some a, [] => some a.1
    | none, b :: _ => some b.1
    | none, [] => none

/-- The commands of words that were checked. -/
def listCommands (words : List Word) : List ListCmd :=
  match cutCommands words.length 0 words with
  | .ok cs => cs.map (fun c => c.2)
  | .error _ => []

/-- Words of a list with the SIGNAL that the device appends (R344). (DEDUCED, log entry 101.) -/
def withSignal (words : List Word) : List Word :=
  match (listCommands words).getLast? with
  | some c => if isSignal c then words else words ++ [0x106]
  | none => words ++ [0x106]

def signalCount (words : List Word) : Nat := ((listCommands words).filter isSignal).length

/-! ## Running a command -/

/-- What a command draws into the target; none where a BLIT finds its source unallocated or of another
format (R348). -/
def paintOf (s : State) (target : Nat) (c : ListCmd) : Option (List Paint) :=
  let rgb10 := match vitrineOf s target with | some g => g.rgb10 | none => false
  let w1 := cmdWord c 1
  let w2 := cmdWord c 2
  let w3 := cmdWord c 3
  match cmdOp c with
  | 1 => some [.clear target w1]
  | 2 => some [.rect target (wordX w1) (wordY w1) (wordField w2 0 16) (wordField w2 16 16) w3 (cmdBlend c) rgb10]
  | 3 => some [.frame target (wordX w1) (wordY w1) (wordField w2 0 16) (wordField w2 16 16) w3
      (wordField (cmdWord c 4) 0 8) (cmdBlend c) rgb10]
  | 4 => some [.text target (wordX w1) (wordY w1) w2 (textFont c) (textSize c) ((textChars c).getD []) rgb10]
  | 5 =>
    if blitSourceOk s target c then
      match vitrineOf s (wordField w1 0 16) with
      | some g =>
        let w4 := cmdWord c 4
        some [.blit target (wordField w1 0 16) (wordX w2) (wordY w2) (wordField w3 0 16) (wordField w3 16 16)
          (wordX w4) (wordY w4) g.w g.h (cmdBlend c) rgb10]
      | none => none
    else none
  | _ => some []

end Sys2Proof.Machine
end

