-- ==== Sys2Proof/Machine/StoreOps.lean ====
section
/-! DEFINITION. StoreOps.lean: store banks and their writing, images, catalogues and the verdict on an
image (R462 to R478). -/

namespace Sys2Proof.Machine

/-! ## Banks (R464 to R471) -/

/-- The newer of two banks; bank A where both hold the same sequence (R467). -/
def newerIsB (a b : Option Bank) : Bool :=
  match a, b with
  | some x, some y => later y.seq x.seq
  | none, some _ => true
  | _, none => false

/-- The settings format of the running firmware. -/
def runningFormat (s : State) : Nat := settingsFormat s s.store.bootSlot

/-- BANK byte of a bank: 0 = Bank A, 1 = Bank B. -/
def bankByte (b : Bool) : Nat := bit b

/-- The bank that a write copies: the newest valid bank. The first debug bank starts from the production
bank without its keys and helper (R468, R471). (DESIGN CHOICE, log entry 120.) -/
def baseBank (s : State) : Option Bank :=
  match currentBank s with
  | some b => some b
  | none =>
    if underTestRoot s && !s.store.noBank then
      (if s.store.selectedB then s.store.bankB else s.store.bankA).map
        (fun b => { b with keySlots := none, helper := none })
    else none

/-- The bank that a write copies, with the next sequence. Without any bank the manual states no sequence:
it is a free value. (DESIGN CHOICE, log entry 120.) -/
def nextBank (s : State) : Bank × State :=
  match baseBank s with
  | some b => ({ b with seq := b.seq + 1 }, s)
  | none =>
    let (q, s) := draw 32 s
    ({ seq := q, activeSlot := s.store.bootSlot }, s)

/-- A write goes to the bank that is not the newest (R468). (DESIGN CHOICE, log entry 120.) -/
def writesB (s : State) : Bool :=
  if underTestRoot s then (s.store.debugA.isSome || s.store.debugB.isSome) && !s.store.debugNewB
  else !s.store.noBank && !s.store.selectedB

/-- A written bank is the newest one from now on. -/
def installBank (b : Bank) (s : State) : State :=
  let toB := writesB s
  let t := s.store
  if underTestRoot s then
    { s with store := { t with
        debugA := if toB then t.debugA else some b
        debugB := if toB then some b else t.debugB
        debugNewB := toB } }
  else
    { s with store := { t with
        bankA := if toB then t.bankA else some b
        bankB := if toB then some b else t.bankB
        validA := t.validA || !toB
        validB := t.validB || toB
        selectedB := toB
        noBank := false } }

/-- Keep the SETTINGS records of one format only; format 0 is none. -/
def keepFormat (f : Nat) (b : Bank) : Bank :=
  { b with
    settings := b.settings.filter (fun e => f != 0 && e.1 == f)
    settingsKey := b.settingsKey.filter (fun e => f != 0 && e.1 == f) }

/-- Remove the SETTINGS records of one format. -/
def dropFormat (f : Nat) (b : Bank) : Bank :=
  { b with settings := tdel b.settings f, settingsKey := tdel b.settingsKey f }

/-- Set the settings of a format, and the number that stands for its directory. -/
def putFormat (f : Nat) (x : Settings) (key : Nat) (b : Bank) : Bank :=
  { b with settings := tput b.settings f x, settingsKey := tput b.settingsKey f key }

/-- The settings format of ACTIVATE's bank: HELD_FORMAT where the formats differ (R486). -/
def heldFormat (s : State) (slot : Nat) : Nat :=
  if settingsFormat s slot = runningFormat s then 0 else runningFormat s

/-- The minimum after CONFIRM_HEALTH (R477). -/
def newMinimum (s : State) : Nat :=
  max (((currentBank s).bind (fun b => b.minimum)).getD 0) (securityVersion s s.store.bootSlot)

/-- The bank with its cause's records changed (R468). -/
def changeBank (s : State) (c : BankChange) (b : Bank) : Bank :=
  match c with
  | .commit x => putFormat (runningFormat s) x s.draws (keepFormat b.heldFormat b)
  | .defaults => keepFormat b.heldFormat b
  | .keySlot n r =>
    let old := b.keySlots.getD []
    { b with keySlots := some (match r with | some k => tput old n k | none => tdel old n) }
  | .imageRx => { b with imageRx := s.store.rx }
  | .verified => { b with imageRx := s.store.rx.map (fun x => { x with state := 3 }) }
  | .activate slot _ _ _ _ =>
    let b := if b.heldFormat = 0 then b else dropFormat b.heldFormat b
    { b with activeSlot := slot, trial := true, heldFormat := heldFormat s slot }
  | .confirm => { b with trial := false, minimum := some (newMinimum s) }
  | .fallBack =>
    -- The fall-back firmware keeps its own format (R486).
    keepFormat (runningFormat s) { b with activeSlot := s.store.bootSlot, trial := false, heldFormat := 0 }
  | .settingsConfirm => { dropFormat b.heldFormat b with heldFormat := 0 }
  | .otherSlot => { b with activeSlot := s.store.bootSlot }

/-- Request a store write; writes are executed in the order in which they are requested (R468). -/
def requestWrite (c : BankChange) (r : Option Reply) (s : State) : State :=
  { s with store := { s.store with writes := s.store.writes ++ [{ change := c, reply := r }] } }

/-! ## Images (R472 to R476) -/

/-- Chunks of an image of n bytes (R474). -/
def chunkCount (n : Nat) : Nat := (n + 4095) / 4096

/-- The slot that is not running takes a new image (R474). -/
def targetSlot (s : State) : Nat := 1 - s.store.bootSlot

/-- Bytes of an image that stands in a slot. -/
def imageBytes (s : State) (slot size : Nat) : Bytes :=
  (((List.range (chunkCount size)).map (fun i => (chunkOf s slot i).getD [])).flatten).take size

/-- A part entry (R473). -/
structure Part where
  type : Nat
  id : Nat
  security : Nat
  off : Nat
  size : Nat
  digest : Nat
  deriving DecidableEq, Repr

/-- PART_COUNT of a catalogue (R472). -/
def partCount (b : Bytes) : Nat := field b 6 2

def readPart (b : Bytes) (i : Nat) : Part :=
  let o := 32 + 80 * i
  { type := field b o 2, id := field b (o + 2) 2, security := field b (o + 8) 4, off := field b (o + 12) 4
    size := field b (o + 16) 4, digest := field b (o + 32) 48 }

def partsOf (b : Bytes) : List Part := (List.range (partCount b)).map (readPart b)

/-- Bytes of the catalogue under its signature, and with it. -/
def signedLength (b : Bytes) : Nat := 32 + 80 * partCount b
def catalogueLength (b : Bytes) : Nat := signedLength b + 96

/-- The signature verifies (R472). -/
def catalogueSigned (b : Bytes) : Bool :=
  Config.signatureGood (b.take (signedLength b)) ((b.drop (signedLength b)).take 96)

/-- SHA-384 of bytes equals a digest of 48 bytes. -/
def digestIs (b : Bytes) (d : Nat) : Bool := leNat (leBytes 48 (Config.sha384 b).toNat) == d

/-- The first part whose digest differs. -/
def badPart (b : Bytes) : Option Nat :=
  (List.range (partCount b)).find? (fun i =>
    let x := readPart b i
    !digestIs ((b.drop x.off).take x.size) x.digest)

/-- Two ranges of bytes do not meet. -/
def apart (a n b m : Nat) : Bool := decide (a + n ≤ b ∨ b + m ≤ a)

/-- The part rules of R473. -/
def partsOk (b : Bytes) (size : Nat) : Bool :=
  let ps := partsOf b
  [1, 3, 4, 5, 6].all (fun t => (ps.filter (fun x => x.type == t)).length == 1)
    && ps.all (fun x => x.off % 4096 == 0 && decide (catalogueLength b ≤ x.off ∧ x.off + x.size ≤ size))
    && (List.range ps.length).all (fun i => (List.range i).all (fun j =>
        let x := readPart b i
        let y := readPart b j
        apart x.off x.size y.off y.size))

/-- The form of a catalogue for this device (R472, R476). -/
def catalogueOk (s : State) (b : Bytes) (size : Nat) : Bool :=
  field b 0 4 == 0x54414348 && field b 4 2 == 1 && decide (1 ≤ partCount b ∧ partCount b ≤ 192)
    && field b 20 4 == 0x7A561536 && decide (field b 24 4 ≤ 0xB1) && partsOk b size
    && field b 12 4 == (partsOf b).foldl (fun m x => max m x.security) 0
    && decide (field b 18 2 ≤ runningFormat s)

/-- VERDICT and PART of an image that is being received (R476). -/
def imageVerdict (s : State) (x : ImageRx) : Nat × Nat :=
  let b := imageBytes s x.slot x.size
  if x.held.length < chunkCount x.size then (1, 0)
  else if Config.sha384 b ≠ x.digest then (2, 0xFF)
  else
    match badPart b with
    | some i => (2, i)
    | none =>
      if !catalogueSigned b then (3, 0)
      else if field b 12 4 < ((currentBank s).bind (fun k => k.minimum)).getD 0 then (4, 0)
      else if !catalogueOk s b x.size then (5, 0)
      else (0, 0)

/-- A kernel ID stands in the catalogue of an image (R478). (DEDUCED, log entry 96.) -/
def hasKernel (b : Bytes) (k : Nat) : Bool := (partsOf b).any (fun x => x.type == 2 && x.id == k)

/-- The catalogue and what follows it in the slot of an image that was delivered; none for the image that
the device was shipped with. -/
def catalogueBytes (s : State) (slot : Nat) : Option Bytes :=
  if (chunkOf s slot 0).isSome then some (imageBytes s slot 16384) else none

/-- The IMAGE_RX record of the slot that is not running. (DEDUCED, log entry 123.) -/
def rxNow (s : State) : Option ImageRx := s.store.rx.filter (fun x => x.slot == targetSlot s)

/-- The part of IMAGE_RX that a Curator restart or start leaves: what the store holds (R475). -/
def savedRx (s : State) : Option ImageRx := (currentBank s).bind (fun b => b.imageRx)

end Sys2Proof.Machine
end

