-- ==== Sys2Proof/Machine/Engine.lean ====
section
/-! DEFINITION. Engine.lean: engines: assignment, loading and switching, parameters, invocations, display
lists, fences, stops, takeovers and their status (R333 to R353, R398, R399). -/

namespace Sys2Proof.Machine

/-! ## Kernels (R340) -/

/-- Kernels of the active catalogue, NONE among them. The shipped catalogue has those of R340.
(DEDUCED, log entry 96.) -/
def knownKernel (s : State) (k : Nat) : Bool :=
  k == 0 || (match catalogueBytes s s.store.bootSlot with
    | some b => hasKernel b k
    | none => k ≤ 8 || k == kernelSpare)

/-- Kernels that take a generator. -/
def genKernel (k : Nat) : Bool := k == kernelGenVideo || k == kernelAnc

/-- Kernels whose outputs are audio blocks. -/
def audioKernel (k : Nat) : Bool := k == kernelMix || k == kernelGenTone || k == kernelLoudness

/-- Source of a generator (R334). -/
def genSource (g : Nat) : Nat := 1728 + g

/-- An engine's generator source is lost (R334, R343). -/
def loseGen (c : EngineCfg) (s : State) : State :=
  match c.gen with | some g => loseSource (genSource g) s | none => s

/-! ## ENGINE_ASSIGN (R337, R339) -/

def readEngine (p : Packet) : EngineCfg :=
  { kernel := u8 p 1, family := u8 p 2, gen := if u8 p 3 = 0xFF then none else some (u8 p 3)
    format := orDefault (u8 p 4) 0x21, cover := BitVec.ofNat 8 (u8 p 5) }

/-- Another engine holds a generator, or will. -/
def genHeld (s : State) (p g : Nat) : Bool :=
  s.eng.engines.any (fun e => e.1 != p && (e.2.cfg.gen == some g ||
    (match e.2.switch with | some w => w.cfg.gen == some g | none => false)))

/-- DEDUCED, log entry 98. -/
def checksAssign (p : Packet) (s : State) : Check :=
  let n := u8 p 0
  let c := readEngine p
  let k := c.kernel
  firstFail [
    need (decide (p.family.toNat ≤ 3)) badHeader,
    targetN s p c.family,
    fieldIn n 0 127 0,
    fieldOk (knownKernel s k) 1,
    fieldIn c.family 0 3 2,
    fieldOk (match c.gen with | some g => genKernel k && decide (g < 32) | none => !genKernel k) 3,
    fieldOk (!genKernel k || (isFormat c.format && fitsRate c.format (familyRate s c.family))) 4,
    fieldOk (c.cover == 0 || (k == kernelSpare && !c.cover.getLsbD (n % 8))) 5,
    reserved p 6 2,
    need (match c.gen with | some g => !genHeld s n g | none => true) (conflict 0),
    need ((engineOf s n).state != .isolated && (engineOf s n).state != .loading) (conflict 0),
    need (p.target == 0 || familyOn s c.family) (conflict 0)]

/-- Begin to load a kernel into the shadow bank; a running kernel keeps running (R337, R343).
(DEDUCED, log entry 98.) -/
def startLoad (p : Nat) (w : Switch) (s : State) : State :=
  let e := engineOf s p
  putEngine s p { e with
    state := .loading, live := e.state == .running || (e.state == .loading && e.live), switch := some w
    loadAborted := false }

/-- The reply follows the end of the load, when it is known whether the switch is late (R337, R377).
(DEDUCED, log entry 97.) -/
def effectAssign (r : Reply) (p : Packet) (s : State) : State × Option Answer :=
  let n := u8 p 0
  let c := readEngine p
  let w : Switch :=
    { cfg := c, target := some p.target, slot := s.store.bootSlot, former := (engineOf s n).state, reply := some r
      notify := if notifyHung p then some r else none }
  (startLoad n w { s with set := { s.set with engines := tset (fun _ => {}) s.set.engines n c } }, none)

def specAssign : OpSpec :=
  { code := 0x9001, cls := 1, lengthOk := fixedLength 8, checks := checksAssign, effect := effectAssign }

/-- ENGINE_ASSIGN (R339). -/
def execEngineAssign (p : Packet) (s : State) : Host.Outcome State Fault Refusal :=
  .next (runHost specAssign p s)

/-- The hang of a switch whose load is complete, and whether it is late (R337). -/
def switchHang (s : State) (w : Switch) : Word × Bool :=
  match w.target with
  | none => ((familyOf s w.cfg.family).hang, false)
  | some t =>
    if familyOn s w.cfg.family then applyTarget s w.cfg.family false (readTarget s w.cfg.family t)
    else ((familyOf s w.cfg.family).hang, false)

/-- The loader has written the kernel (R337). (DEDUCED, log entry 97; DEDUCED, log entry 127.) -/
def loadComplete (p : Nat) (s : State) : State :=
  let e := engineOf s p
  match e.switch with
  | none => s
  | some w =>
    if w.loaded then s
    else
      let h := switchHang s w
      let s := putEngine s p { e with switch := some { w with loaded := true, hang := h.1, reply := none } }
      match w.reply with
      | some r => answerLater r (answerFor h w.cfg.family) s
      | none => s

/-! ## ENGINE_SWITCH (R337, R338, R343) -/

/-- The switch boundary has come: the kernel is loaded, and ref(N) has passed. -/
def switchReady (s : State) (w : Switch) : Bool :=
  w.loaded && (!familyOn s w.cfg.family || hangDue (familyOf s w.cfg.family).hang w.hang)

/-- Mailbox values of a kernel that the Curator holds. -/
def heldParams (held : Tab Word) (k : Nat) : Tab Word :=
  held.filterMap (fun e => if e.1 / 1024 = k then some (e.1 % 1024, e.2) else none)

/-- The data of the old kernel are kept: both declare the same DATA_VERSION (R338). -/
def keepsData (e : Engine) (w : Switch) : Bool :=
  e.cfg.kernel != 0 && Config.dataVersion e.slot e.cfg.kernel == Config.dataVersion w.slot w.cfg.kernel

/-- State after a switch (R343). -/
def switchedState (k : Nat) : EngineState :=
  if k = 0 then .unassigned else if k = kernelSpare then .spare else .running

/-- What ends with the old kernel: its list queue when LABEL ends, its fades when FADE ends, its generator
when another takes its place. -/
def endKernel (p : Nat) (c : EngineCfg) (s : State) : State :=
  let e := engineOf s p
  let old := e.cfg
  let s := if old.kernel = kernelLabel ∧ c.kernel ≠ kernelLabel then cancelLists p (fun _ => true) s else s
  let s := if old.kernel = kernelFade ∧ c.kernel ≠ kernelFade then abortFades p s else s
  if old.gen.isSome ∧ (c.gen ≠ old.gen ∨ c.format ≠ old.format ∨ c.family ≠ old.family) then loseGen old s else s

/-- The engine exchanges its banks and begins the new kernel. -/
def beginKernel (p : Nat) (w : Switch) (s : State) : State :=
  let e := engineOf s p
  let keep := keepsData e w
  let sameGen := w.cfg.gen == e.cfg.gen && w.cfg.format == e.cfg.format && w.cfg.family == e.cfg.family
  putEngine s p { e with
    cfg := w.cfg, slot := w.slot, state := switchedState w.cfg.kernel, live := false, switch := none, skips := 0
    silent := false
    bank1 := if w.cfg.kernel = 0 then e.bank1 else !e.bank1
    params := if keep then e.params else heldParams e.held w.cfg.kernel
    pendingParams := e.pendingParams.filter (fun x => x.kernel == w.cfg.kernel)
    results := if keep then e.results else []
    blackRun := if keep then e.blackRun else 0
    stillRun := if keep then e.stillRun else 0
    region := if keep then e.region else []
    pattern := if keep then e.pattern else []
    ancOut := if keep then e.ancOut else []
    heard := [], ready := e.ready, ramps := if keep then e.ramps else [], meter := if keep then e.meter else []
    offered := e.offered && sameGen
    covers := none }

/-- The switch of an engine at its boundary. -/
def switchEngine (p : Nat) (s : State) : State :=
  match (engineOf s p).switch with
  | none => s
  | some w =>
    if !switchReady s w then s
    else complete w.notify (hungAt w.hang w.cfg.family) (beginKernel p w (endKernel p w.cfg s))

/-! ## Stops (R343, R348, R350, R351) -/

/-- ENGINE source of an engine, and the takeover source of its gallery (R353). -/
def engineFault (p : Nat) : Nat := faultId 0x0B (p / 8) (p % 8)

/-- An engine stops, in state STOPPED or ISOLATED: its outputs are lost and its lists and fades end. An
engine that loads keeps loading. -/
def downEngine (p : Nat) (v : EngineState) (s : State) : State :=
  let c := (engineOf s p).cfg
  let s := loseGen c (abortFades p (cancelLists p (fun _ => true) s))
  let e := engineOf s p
  putEngine s p { e with
    state := if e.state = .loading then .loading else v
    live := false, skips := 0, silent := false, offered := false, ready := [] }

/-- Engine of an ENGINE source. -/
def faultEngine (id : Nat) : Nat := 8 * faultLoc id + faultIndex id

/-- The source of a RUNNING or SPARE engine at MAJOR or CRITICAL isolates it. -/
def isolateEngine (p : Nat) (s : State) : State :=
  let st := (engineOf s p).state
  if st = .running ∨ st = .spare ∨ (st = .loading ∧ (engineOf s p).live) then
    downEngine p .isolated s
  else s

/-- Raise an ENGINE source (R353). -/
def raiseEngine (id : Nat) (s : State) : State :=
  let iso := decide (faultIndex id < 8 ∧ 2 ≤ effectiveSeverity s id)
  let s := raiseCore id s
  if iso then isolateEngine (faultEngine id) s else s

/-- The stop of an engine, without its raise: what FAULT_FORCE adds to its own (R350, R438).
(DEDUCED, log entry 98.) -/
def stopEngine (p : Nat) (s : State) : State :=
  if (runningKernel s p).isSome then downEngine p .stopped s else s

/-- MEMORY source of an engine's local memory (R440). -/
def localMemoryFault (p : Nat) : Nat := faultId 0x0C (p / 8) (1 + p % 8)

/-- A stop cause: the engine stops, and its source is raised; an error of its memory raises that memory's
source too (R350). -/
def engineStop (p : Nat) (cause : StopCause) (s : State) : State :=
  if (runningKernel s p).isSome then
    let s := if cause = .memory then raiseCore (localMemoryFault p) s else s
    stopEngine p (raiseEngine (engineFault p) s)
  else s

/-- ENGINE_STOP (R350). -/
def execEngineStop (p : Fin 128) (cause : StopCause) (s : State) : Host.Outcome State Fault Refusal :=
  .next (engineStop p.val cause s)

/-- LIST_COMMAND_TIMEOUT (R342): the running list's command has run for more than 250 ms. -/
def execListCommandTimeout (p : Fin 128) (s : State) : Host.Outcome State Fault Refusal :=
  .next (if (engineOf s p.val).listRunning then engineStop p.val .hang s else s)

/-- FAULT_ACK of an isolated engine reloads its assignment (R343). (DEDUCED, log entry 98.) -/
def ackEngine (p : Nat) (s : State) : State :=
  let e := engineOf s p
  if e.state = .isolated then
    startLoad p { cfg := e.cfg, target := none, slot := s.store.bootSlot, former := .isolated } s
  else s

/-! ## Takeover (R351) -/

/-- The spare that takes over for an engine: the lowest-numbered one of its gallery that covers it.
(DEDUCED, log entry 99.) -/
def spareFor (s : State) (p : Nat) : Option Nat :=
  ((List.range 8).map (fun i => 8 * (p / 8) + i)).find? (fun q =>
    q != p && (engineOf s q).state == .spare && (engineOf s q).cfg.cover.getLsbD (p % 8))

/-- A stopped engine whose kernel a spare can take. -/
def needsTakeover (s : State) (p : Nat) : Bool :=
  let e := engineOf s p
  (e.state == .stopped || e.state == .isolated) && e.cfg.kernel != 0 && e.cfg.kernel != kernelSpare
    && e.cfg.kernel != kernelProbe

/-- The spare q begins the kernel of the failed engine p with its settings and last parameters; their ports
are exchanged, and p becomes a spare with the cover of q. (DEDUCED, log entry 99.) -/
def exchangeEngines (p q : Nat) (s : State) : State :=
  let x := engineOf s p
  let y := engineOf s q
  let s := putEngine s q { y with
    cfg := x.cfg, slot := x.slot, state := .running, bank1 := !y.bank1, live := false, held := x.held
    params := heldParams x.held x.cfg.kernel, pendingParams := x.pendingParams, results := [], blackRun := 0
    stillRun := 0, region := [], pattern := [], ancOut := [], heard := [], ready := [], ramps := [], meter := []
    skips := 0, silent := false, offered := false, ports := x.ports
    takeovers := sat32 y.takeovers 1 }
  putEngine s p { x with
    cfg := { x.cfg with kernel := kernelSpare, gen := none, cover := y.cfg.cover }, pendingParams := []
    ports := y.ports }

/-- DEDUCED, log entry 99. -/
def engineTakeover (p : Nat) (s : State) : State :=
  if needsTakeover s p && s.chip.curatorServing then
    match spareFor s p with
    | some q => raiseEngine (faultId 0x0B (p / 8) 8) (exchangeEngines p q s)
    | none => s
  else s

/-- ENGINE_TAKEOVER (R351): the Curator carries it out, while it serves. -/
def execEngineTakeover (p : Fin 128) (s : State) : Host.Outcome State Fault Refusal :=
  .next (engineTakeover p.val s)

/-! ## Curator restart (R337) -/

/-- A load in progress is abandoned: the engine goes back, LOAD_ABORTED is set and a completion is FAULT.
(DEDUCED, log entry 98.) -/
def abandonLoad (p : Nat) (s : State) : State :=
  let e := engineOf s p
  match e.switch with
  | none => s
  | some w =>
    if w.loaded then s
    else
      let back := if e.live then .running else if w.former = .running then .stopped else w.former
      complete w.notify (failed 0xFFFD)
        (putEngine s p { e with state := back, live := false, switch := none, loadAborted := true })

def abandonLoads (s : State) : State := (List.range 128).foldl (fun s p => abandonLoad p s) s

/-! ## ENGINE_PARAM (R341, R399) -/

/-- Number of parameters of a kernel; none = the kernel takes none. -/
def paramCount (k : Nat) : Option Nat :=
  match k with
  | 2 => some 513 | 4 => some 9 | 5 => some 6 | 6 => some 4 | 7 => some 32 | 8 => some 18 | _ => none

/-- Range of a parameter's value (R340). (DEDUCED, log entry 100.) -/
def paramOk (k i : Nat) (v : Int) : Bool :=
  let within := fun (a b : Int) => decide (a ≤ v ∧ v ≤ b)
  match k with
  | 2 => if i < 512 then within (-9000) 1200 else within 0 100
  | 4 => if i < 8 then within 0 3 else within 0 1
  | 5 => if i < 4 then within 0 65535 else if i = 4 then within 0 7 else within 1 255
  | 6 => if i = 0 then within 0 5 else within 0 1023
  | 7 => if i % 2 = 0 then within 20 20000 else within (-9000) 0
  | 8 => if i = 0 then within 0 1 else if i = 1 then within 0 16 else within 0 65535
  | _ => false

/-- The kernel that ENGINE_PARAM addresses: the one that runs, or the one that is loading.
(DEDUCED, log entry 100.) -/
def paramKernel (s : State) (p : Nat) : Option Nat :=
  let e := engineOf s p
  match e.state with
  | .running => some e.cfg.kernel
  | .loading => e.switch.map (fun w => w.cfg.kernel)
  | _ => none

/-- Family of that kernel. -/
def paramFamily (s : State) (p : Nat) : Nat :=
  let e := engineOf s p
  match e.state, e.switch with
  | .loading, some w => w.cfg.family
  | _, _ => e.cfg.family

def paramValues (p : Packet) : List Word := (List.range (u16 p 4)).map (fun i => w32 p (8 + 4 * i))

/-- DEDUCED, log entry 100. -/
def checksParam (p : Packet) (s : State) : Check :=
  let n := u8 p 0
  firstFail [
    need (decide (p.family.toNat ≤ 3)) badHeader,
    targetN s p (paramFamily s n),
    fieldIn n 0 127 0,
    reserved p 1 1,
    match paramKernel s n with
    | none => firstFail [fieldOk (decide (1 ≤ u16 p 4)) 4, reserved p 6 2, some (conflict 0)]
    | some k =>
      match paramCount k with
      | none => some (badParam 2)
      | some m =>
        firstFail [
          fieldOk (u16 p 2 < m) 2,
          fieldOk (1 ≤ u16 p 4 && u16 p 2 + u16 p 4 ≤ m) 4,
          reserved p 6 2,
          firstBad (fun i (v : Word) => need (paramOk k (u16 p 2 + i) v.toInt) (badParam (8 + 4 * i))) 0
            (paramValues p)]]

/-- List values under consecutive numbers. -/
def putValues (base : Nat) (vs : List Word) (t : Tab Word) : Tab Word :=
  vs.zipIdx.foldl (fun t x => tput t (base + x.2) x.1) t

def effectParam (r : Reply) (p : Packet) (s : State) : State × Option Answer :=
  let n := u8 p 0
  let e := engineOf s n
  let k := (paramKernel s n).getD 0
  let fam := paramFamily s n
  let h := applyTarget s fam false (readTarget s fam p.target)
  let a := answerFor h fam
  let x : ParamSet :=
    { kernel := k, index := u16 p 2, values := paramValues p, hang := h.1
      reply := if notifyHung p then some (firstReply r a) else none }
  (putEngine s n { e with
      held := putValues (1024 * k + u16 p 2) (paramValues p) e.held
      pendingParams := e.pendingParams ++ [x] }, some a)

def specParam : OpSpec :=
  { code := 0x9002, cls := 1, lengthOk := fun p => p.params.length == 8 + 4 * u16 p 4, checks := checksParam
    effect := effectParam }

/-- ENGINE_PARAM (R341). -/
def execEngineParam (p : Packet) (s : State) : Host.Outcome State Fault Refusal :=
  .next (runHost specParam p s)

/-! ## Invocations (R341, R342) -/

/-- Values of the running kernel whose hang has come apply, and their commands complete. -/
def applyParams (p : Nat) (s : State) : State :=
  let e := engineOf s p
  let now := (familyOf s e.cfg.family).hang
  let due := fun (x : ParamSet) => x.kernel == e.cfg.kernel && hangDue now x.hang
  let go := e.pendingParams.filter due
  let s := putEngine s p { e with
      params := go.foldl (fun t x => putValues x.index x.values t) e.params
      pendingParams := e.pendingParams.filter (fun x => !due x) }
  go.foldl (fun s x => complete x.reply (hungAt x.hang e.cfg.family) s) s

/-- The previous invocation has not finished: this one is skipped; the fourth in a row means a hang. -/
def skipInvocation (p : Nat) (k : Nat) (s : State) : State :=
  let e := engineOf s p
  let s := putEngine s p { e with
      skips := e.skips + 1, overruns := sat32 e.overruns 1, silent := audioKernel k }
  if 4 ≤ e.skips + 1 then stopEngine p (raiseEngine (engineFault p) s) else raiseEngine (engineFault p) s

/-! ## DISPLAY_LIST_SUBMIT (R344, R398) -/

/-- PARAM_LENGTH by SOURCE; with SOURCE out of range, any length of the opcode (R382). -/
def listLength (p : Packet) : Bool :=
  let n := p.params.length
  if u8 p 1 = 0 then n == 16 + 4 * u16 p 4
  else if u8 p 1 = 1 then n == 16
  else n % 4 == 0 && decide (16 ≤ n ∧ n ≤ 16 + 4096)

/-- The session has a BAR2 window, and the list ends inside it (R388, R398). -/
def listInWindow (s : State) (p : Packet) : Bool :=
  (sessionOf s (sess p)).window && (sessionOf s (sess p)).endpoint == .pcie
    && decide (u32 p 8 + 4 * u16 p 4 ≤ 4194304)

/-- The words of the list: inline, or in the session's window. -/
def listWords (s : State) (p : Packet) : List Word :=
  if u8 p 1 = 0 then (List.range (u16 p 4)).map (fun i => w32 p (16 + 4 * i))
  else mreadWords s.bar2 ((sess p - 1) * 4194304 + u32 p 8) (u16 p 4)

/-- The list's own violations (R345, R346): inline, DETAIL is the offset of the offending word.
(DEDUCED, log entry 101.) -/
def listCheck (s : State) (p : Packet) : Check :=
  match listViolation s (u16 p 2) (listWords s p) with
  | some i => some (badParam (if u8 p 1 = 0 then 16 + 4 * i else 8))
  | none => none

def checksSubmit (p : Packet) (s : State) : Check :=
  let n := u8 p 0
  firstFail [
    noTarget p,
    fieldIn n 0 127 0,
    fieldIn (u8 p 1) 0 1 1,
    fieldOk (u16 p 2 < 2048) 2,
    fieldIn (u16 p 4) 1 (if u8 p 1 = 0 then 1024 else 16384) 4,
    reserved p 6 2,
    fieldOk (if u8 p 1 = 0 then u32 p 8 == 0 else u32 p 8 % 4 == 0) 8,
    reserved p 12 4,
    need (u8 p 1 == 0 || listInWindow s p) (conflict 0),
    listCheck s p,
    need ((engineOf s n).state == .running && (engineOf s n).cfg.kernel == kernelLabel) (conflict 0),
    need (vitrineOf s (u16 p 2)).isSome (conflict 0),
    need (decide ((engineOf s n).queue.length < 32)) (noResource 0)]

def effectSubmit (p : Packet) (s : State) : State × Answer :=
  let n := u8 p 0
  let words := withSignal (listWords s p)
  let (ids, s) := issueFences (signalCount words) s
  let e := engineOf s n
  let s := putEngine s n { e with queue := e.queue ++ [{ vit := u16 p 2, words := words, fences := ids }] }
  (s, done ([BitVec.ofNat 8 ids.length, 0, 0, 0] ++ (ids.map (leBytes 4)).flatten))

def specSubmit : OpSpec :=
  { code := 0x9003, cls := 2, lengthOk := listLength, checks := checksSubmit, effect := atOnce effectSubmit }

/-- DISPLAY_LIST_SUBMIT (R344). -/
def execDisplayListSubmit (p : Packet) (s : State) : Host.Outcome State Fault Refusal :=
  .next (runHost specSubmit p s)

/-! ## Running lists (R344 to R348) -/

/-- Run commands up to the next SIGNAL: what they draw, newest first, and the words that remain, that SIGNAL
the first of them. A BLIT that finds no source ends the list: none. -/
def drawUntilSignal (s : State) (target : Nat) : List ListCmd → List Paint → Option (List Paint × List ListCmd)
  | [], ps => some (ps, [])
  | c :: r, ps =>
    if isSignal c then some (ps, c :: r)
    else
      match paintOf s target c with
      | some q => drawUntilSignal s target r (q ++ ps)
      | none => none

/-- The front list of an engine goes on to its next SIGNAL; without one it is done.
(DEDUCED, log entry 101.) -/
def advanceList (p : Nat) (s : State) : State :=
  let e := engineOf s p
  match e.queue with
  | [] => s
  | l :: rest =>
    match drawUntilSignal s l.vit (listCommands l.words) [] with
    | some (ps, []) =>
      putEngine { s with eng := { s.eng with paint := ps ++ s.eng.paint } } p
        { e with queue := rest, listRunning := false, listsDone := sat32 e.listsDone 1 }
    | some (ps, c :: cs) =>
      putEngine { s with eng := { s.eng with paint := ps ++ s.eng.paint } } p
        { e with queue := { l with words := (c :: cs).flatten } :: rest, listRunning := true }
    | none =>
      let s := putEngine s p { e with
          queue := rest, listRunning := false, listsCancelled := sat32 e.listsCancelled 1 }
      cancelFences l s

/-- DISPLAY_LIST_RUN (R344): a LABEL engine that runs no list begins the next of its queue. -/
def execDisplayListRun (p : Fin 128) (s : State) : Host.Outcome State Fault Refusal :=
  .next (if runsKernel s p.val kernelLabel && !(engineOf s p.val).listRunning then advanceList p.val s else s)

/-- Take the front list's SIGNAL and its fence. -/
def takeSignal (p : Nat) (s : State) : State :=
  let e := engineOf s p
  match e.queue with
  | l :: rest =>
    let s := putEngine s p
      { e with queue := { l with words := l.words.drop 1, fences := l.fences.drop 1 } :: rest }
    match l.fences with | f :: _ => settleFence .signalled f s | [] => s
  | [] => s

/-- FENCE_SIGNAL (R347): the running list's SIGNAL signals its fence, and the list goes on. -/
def execFenceSignal (p : Fin 128) (s : State) : Host.Outcome State Fault Refusal :=
  .next (if (engineOf s p.val).listRunning then advanceList p.val (takeSignal p.val s) else s)

/-! ## FENCE_QUERY (R349) -/

/-- State byte of a fence; of an ID that was never issued the manual states none: a free value.
(DESIGN CHOICE, log entry 102.) -/
def fenceByte (id : Nat) (s : State) : Byte × State :=
  match fenceView s id with
  | .pending => (0, s)
  | .signalled => (1, s)
  | .cancelled => (2, s)
  | .retired => (3, s)
  | .unknown => draw 8 s

def fenceBytes : List Nat → State → Bytes × State
  | [], s => ([], s)
  | f :: r, s =>
    let (b, s) := fenceByte f s
    let (bs, s) := fenceBytes r s
    (b :: bs, s)

def queryIds (p : Packet) : List Nat := (List.range (u16 p 0)).map (fun i => u32 p (4 + 4 * i))

def effectQuery (p : Packet) (s : State) : State × Answer :=
  let (bs, s) := fenceBytes (queryIds p) s
  (s, done (bs ++ List.replicate ((4 - bs.length % 4) % 4) 0))

def specQuery : OpSpec :=
  { code := 0x9004, cls := 3, lengthOk := fun p => p.params.length == 4 + 4 * u16 p 0
    checks := fun p _ => firstFail [noTarget p, fieldIn (u16 p 0) 1 256 0, reserved p 2 2]
    effect := atOnce effectQuery }

/-- FENCE_QUERY (R349). -/
def execFenceQuery (p : Packet) (s : State) : Host.Outcome State Fault Refusal :=
  .next (runHost specQuery p s)

/-! ## ENGINE_STATUS and PROBE_READ (R352) -/

def engineStateCode : EngineState → Nat
  | .unassigned => 0 | .loading => 1 | .running => 2 | .spare => 3 | .stopped => 4 | .isolated => 5

/-- Loudness: momentary, short-term and integrated, then the true peak of each input. -/
def loudnessItems (e : Engine) : Bytes :=
  ((List.range 11).map (fun i => itemShort (e.results.getD i 0))).flatten

def engineItems (s : State) (p : Nat) : Bytes :=
  let e := engineOf s p
  let k := e.cfg.kernel
  itemByte (engineStateCode e.state) ++ itemByte k
    ++ itemWord (if k = 0 then 0 else Config.kernelVersion e.slot k) ++ itemByte (bit e.bank1) ++ itemByte e.cfg.family
    ++ itemByte (e.cfg.gen.getD 0xFF) ++ itemByte e.cfg.cover.toNat ++ itemFlag e.loadAborted
    ++ itemByte e.queue.length ++ itemCount e.overruns ++ itemCount e.listsDone ++ itemCount e.listsCancelled
    ++ itemCount e.glyphMissing ++ itemCount e.takeovers ++ itemWide e.dmaBytes
    ++ (if k = kernelLoudness then loudnessItems e else [])

def clearEngine (p : Nat) (s : State) : State :=
  putEngine s p { engineOf s p with
    overruns := 0, listsDone := 0, listsCancelled := 0, glyphMissing := 0, takeovers := 0, dmaBytes := 0 }

def engineSpace : StatusSpace := { size := 128, items := engineItems, clear := clearEngine }

def specEngineStatus : OpSpec := specStatus 0x9005 (onlySpace engineSpace)

/-- ENGINE_STATUS (R352). -/
def execEngineStatus (p : Packet) (s : State) : Host.Outcome State Fault Refusal :=
  .next (runHost specEngineStatus p s)

/-- Results of a PROBE, as MEASURE selects them: nine levels, BLACK, FREEZE (R340).
(DESIGN CHOICE, log entry 103.) -/
def probeItems (e : Engine) : Bytes :=
  let param := fun i => ((tfind e.params i).getD 0).toNat
  let measure := param 4
  let hold := max 1 (param 5)
  (if measure % 2 = 1 then ((List.range 9).map (fun i => itemShort (e.results.getD i 0))).flatten else [])
    ++ (if measure / 2 % 2 = 1 then itemFlag (decide (hold ≤ e.blackRun)) else [])
    ++ (if measure / 4 % 2 = 1 then itemFlag (decide (hold ≤ e.stillRun)) else [])

def checksProbeRead (p : Packet) (s : State) : Check :=
  let e := engineOf s (u8 p 0)
  firstFail [
    noTarget p, fieldIn (u8 p 0) 0 127 0, reserved p 1 3,
    need (e.state == .running && e.cfg.kernel == kernelProbe) (conflict 0)]

def specProbeRead : OpSpec :=
  { code := 0xE002, cls := 3, lengthOk := fixedLength 4, checks := checksProbeRead
    effect := atOnce (fun p s => (s, done (record (u8 p 0) (probeItems (engineOf s (u8 p 0)))))) }

/-- PROBE_READ (R352). -/
def execProbeRead (p : Packet) (s : State) : Host.Outcome State Fault Refusal :=
  .next (runHost specProbeRead p s)

end Sys2Proof.Machine
end

