-- ==== Sys2Proof/Machine/Lanes.lean ====
section
/-! DEFINITION. Lanes.lean: LANE_CONFIG, LANE_BRINGUP, LANE_PRBS, LANE_STATUS, LANE_EQ, and the
events of lane PLLs, checkers and adaptation (R45 to R74, R541). -/

namespace Sys2Proof.Machine

/-! ## Stopping and starting by command (R51, R62, R541) -/

/-- What a command stops on a lane, by its present mode: sources are lost and nothing is raised on
the lane's own account (R51, R135). -/
def commandStop (l : Nat) (s : State) : State :=
  if l < 256 then leaveLock l .reset s
  else
    let e := l - 256
    match laneMode s l with
    | 2 =>
      let s := putSdiOut s e { sdiOutOf s e with running := false }
      loseQuadLink e (reconfigSdiIn e .noSignal s)
    | 3 => portLinkDown (portOfLane s e) s
    | 4 => portLinkDown (portOfLane s e) s
    | _ => s

/-- The state in which a lane starts in a mode (R62). -/
def startState (mode : Nat) : LaneState :=
  match mode with | 0 => .reset | 5 => .test | _ => .hunt

/-- MODE codes that a lane supports (R45). -/
def laneSupports (l mode : Nat) : Bool :=
  if l < 256 then mode == 0 || mode == 1 || mode == 5
  else
    let i := (l - 256) % 10
    mode == 0 || mode == 2 || mode == 5 || (mode == 3 && i < 4) || (mode == 4 && i == 0)

/-- Judge the source and the destination of an edge lane again. -/
def judgeEdge (e : Nat) (s : State) : State := judgeDest (sdiSource e) (judgeAll (sdiSource e) s)

/-! ## LANE_CONFIG -/

/-- DESIGN CHOICE, log entry 28. -/
def readLaneCfg (p : Packet) : LaneCfg :=
  { mode := u8 p 2, rate := u8 p 3, blindOnly := u8 p 4 == 1
    txInvert := u8 p 5 % 2 == 1, rxInvert := u8 p 5 / 2 % 2 == 1 }

/-- The settings of a lane are replaced. -/
def setLaneCfg (l : Nat) (c : LaneCfg) (s : State) : State :=
  { s with set := { s.set with lanes := tset (fun _ => {}) s.set.lanes l c } }

/-- Pages that a lane's gallery reserves once the lane has new settings (R21). -/
def pagesAfter (s : State) (l : Nat) (c : LaneCfg) : Nat := galleryPages (setLaneCfg l c s) ((l - 256) / 10)

def checksLaneConfig (p : Packet) (s : State) : Check :=
  let l := u16 p 0
  firstFail [
    noTarget p,
    fieldOk (l < 416) 0,
    fieldOk (laneSupports l (u8 p 2)) 2,
    fieldOk (if u8 p 2 = 1 then u8 p 3 ≤ 3 else u8 p 3 == 0) 3,
    fieldIn (u8 p 4) 0 1 4,
    fieldIn (u8 p 5) 0 3 5,
    reserved p 6 2,
    need (!boundLane s l) (conflict 0),
    need (l < 256 || pagesAfter s l (readLaneCfg p) ≤ 512) (noResource 0)]

/-- A lane starts again with a record; under FROZEN its taps stand as they are (R66). -/
def startLane (l : Nat) (v : Lane) (s : State) : State :=
  let dfe := (laneOf s l).dfe
  let s := putLane s l v
  if adaptMode s l = 2 then putLane s l { v with adaptFrozen := true, dfe := dfe } else s

/-- Apply LANE_CONFIG: the lane is reset, its counters are cleared, and bring-up starts again (R51, R66,
R72). -/
def applyLaneCfg (l : Nat) (c : LaneCfg) (s : State) : State :=
  let old := laneCfg s l
  let bound := if 256 ≤ l ∧ (l - 256) % 10 = 0 ∧ (c.mode = 4 ∨ old.mode = 4) then [l + 1, l + 2, l + 3] else []
  let s := commandStop l s
  let s := if c.mode = 4 then bound.foldl (fun s k => commandStop k s) s else s
  let eq := if c.mode = old.mode ∧ c.rate = old.rate then s.set.eq else tdel s.set.eq l
  let s := setLaneCfg l c { s with set := { s.set with eq := eq } }
  let s := startLane l { state := startState c.mode, rate := c.rate } s
  let s := if l < 256 then putLink s l { segments := (linkOf s l).segments } else s
  let s := bound.foldl (fun s k =>
    startLane k { state := if c.mode = 4 then .hunt else startState (laneCfg s k).mode } s) s
  if l < 256 then s
  else
    let s := if c.mode = 2 then reconfigSdiIn (l - 256) .noSignal s else s
    (l :: bound).foldl (fun s k => judgeEdge (k - 256) s) s

def effectLaneConfig (p : Packet) (s : State) : State × Answer :=
  (endLaneIsolation (u16 p 0) (applyLaneCfg (u16 p 0) (readLaneCfg p) s), done)

def specLaneConfig : OpSpec :=
  { code := 0x2001, cls := 1, lengthOk := fixedLength 8, checks := checksLaneConfig, effect := atOnce effectLaneConfig }

/-- LANE_CONFIG (R45, R50, R51). -/
def execLaneConfig (p : Packet) (s : State) : Host.Outcome State Fault Refusal := .next (runHost specLaneConfig p s)

/-! ## LANE_BRINGUP -/

/-- Apply LANE_BRINGUP: the lane starts again and keeps its configuration and counters (R62, R541): a fabric
lane, one in TEST too, is released from reset; a DISABLED one stays as it is. (DESIGN CHOICE, log entry 144.)
(DEDUCED, log entry 179.) (DESIGN CHOICE, log entry 28.) -/
def applyBringup (l : Nat) (s : State) : State :=
  let c := laneCfg s l
  let mode := laneMode s l
  if mode = 0 then s
  else
    let s := commandStop l s
    let v := laneOf s l
    let s := startLane l
      { state := if 256 ≤ l then startState mode else .hunt, rate := c.rate, counters := v.counters
        attempts := v.attempts, prbs := { prbsReload v.prbs with gen := none, genBits := 0 } } s
    if l < 256 then
      let k := linkOf s l
      putLink s l { k with txSlot := 0, txCal := 0, rxPos := none, rxCandidate := none, rxEnd := none, sent := none }
    else judgeEdge (l - 256) s

def effectLaneBringup (p : Packet) (s : State) : State × Answer :=
  (endLaneIsolation (u16 p 0) (applyBringup (u16 p 0) s), done)

def specLaneBringup : OpSpec :=
  { code := 0x2002, cls := 1, lengthOk := fixedLength 4
    checks := fun p _ => firstFail [noTarget p, fieldOk (u16 p 0 < 416) 0, reserved p 2 2]
    effect := atOnce effectLaneBringup }

/-- LANE_BRINGUP (R62, R541). -/
def execLaneBringup (p : Packet) (s : State) : Host.Outcome State Fault Refusal := .next (runHost specLaneBringup p s)

/-! ## LANE_PRBS -/

/-- A pattern byte: [2:0] code of R68, [7] invert (R392). -/
def patternOk (b : Nat) : Bool := b % 8 ≤ 4 && b / 8 % 16 == 0

def checksLanePrbs (p : Packet) (s : State) : Check :=
  firstFail [
    noTarget p, fieldOk (u16 p 0 < 416) 0, fieldOk (patternOk (u8 p 2)) 2, fieldOk (patternOk (u8 p 3)) 3,
    reserved p 5 3, need ((laneOf s (u16 p 0)).state == .test) (conflict 0)]

def effectLanePrbs (p : Packet) (s : State) : State × Answer :=
  let l := u16 p 0
  let v := laneOf s l
  (putLane s l { v with prbs :=
    { tx := u8 p 2 % 8, txInvert := 128 ≤ u8 p 2, rx := u8 p 3 % 8, rxInvert := 128 ≤ u8 p 3, insert := u8 p 4 } }, done)

def specLanePrbs : OpSpec :=
  { code := 0x2003, cls := 1, lengthOk := fixedLength 8, checks := checksLanePrbs, effect := atOnce effectLanePrbs }

/-- LANE_PRBS (R68, R70). -/
def execLanePrbs (p : Packet) (s : State) : Host.Outcome State Fault Refusal := .next (runHost specLanePrbs p s)

/-! ## LANE_EQ -/

/-- Bit i of MASK selects a field. -/
def eqSelects (p : Packet) (i : Nat) : Bool := u16 p 2 / 2 ^ i % 2 == 1

def checksLaneEq (p : Packet) (_ : State) : Check :=
  let swing := u16 p 4
  firstFail [
    noTarget p, fieldOk (u16 p 0 < 416) 0, fieldOk (u16 p 2 / 128 % 256 == 0) 2,
    fieldOk (!eqSelects p 0 || (400 ≤ swing && swing ≤ 1000 && swing % 25 == 0)) 4,
    fieldOk (!eqSelects p 1 || u8 p 6 ≤ 16) 6, fieldOk (!eqSelects p 2 || u8 p 7 ≤ 8) 7,
    fieldOk (!eqSelects p 3 || u8 p 8 ≤ 24) 8, fieldOk (!eqSelects p 4 || u8 p 9 ≤ 15) 9,
    fieldOk (!eqSelects p 5 || (-12 ≤ i8 p 10 && i8 p 10 ≤ 24)) 10, fieldOk (!eqSelects p 6 || u8 p 11 ≤ 2) 11]

/-- The overrides after a LANE_EQ (R66). -/
def newEq (s : State) (p : Packet) : EqCfg :=
  let e : EqCfg := if eqSelects p 15 then {} else eqOf s (u16 p 0)
  { txSwing := if eqSelects p 0 then some (u16 p 4) else e.txSwing
    txPre1 := if eqSelects p 1 then some (u8 p 6) else e.txPre1
    txPre2 := if eqSelects p 2 then some (u8 p 7) else e.txPre2
    txPost1 := if eqSelects p 3 then some (u8 p 8) else e.txPost1
    rxCtle := if eqSelects p 4 then some (u8 p 9) else e.rxCtle
    rxVga := if eqSelects p 5 then some (BitVec.ofNat 8 (u8 p 10)) else e.rxVga
    adapt := if eqSelects p 6 then some (u8 p 11) else e.adapt }

/-- The control values in effect on a lane: its override, else the catalogue's for the lane, mode and rate;
TX_SWING, TX_PRE1, TX_PRE2, TX_POST1, RX_CTLE, RX_VGA (R66). -/
def controlsInEffect (s : State) (l : Nat) : List Int :=
  let e := eqOf s l
  let own := [e.txSwing.map Int.ofNat, e.txPre1.map Int.ofNat, e.txPre2.map Int.ofNat, e.txPost1.map Int.ofNat,
    e.rxCtle.map Int.ofNat, e.rxVga.map BitVec.toInt]
  own.zipIdx.map (fun x => x.1.getD (Config.eqDefault l (laneMode s l) (laneOf s l).rate x.2))

/-- Taps of RX_DFE: 12 at PAM4, 8 at NRZ, none on an SDI receiver (R66). -/
def dfeTaps (s : State) (l : Nat) : Nat :=
  if laneMode s l = 2 then 0 else if l < 256 ∧ (laneOf s l).rate = 3 then 12 else 8

/-- The taps of a lane stand from now on as they are (R66, R67). -/
def freezeTaps (l : Nat) (s : State) : State :=
  if (laneOf s l).adaptFrozen then s
  else
    let (taps, s) := drawTaps (dfeTaps s l) s
    putLane s l { laneOf s l with adaptFrozen := true, dfe := taps }

/-- Apply LANE_EQ: CONTINUOUS adapts in every state, FROZEN in none, ONCE up to its freeze (R66, R67). -/
def effectLaneEq (p : Packet) (s : State) : State × Answer :=
  let l := u16 p 0
  let s' := { s with set := { s.set with eq := tset (fun _ => {}) s.set.eq l (newEq s p) } }
  (match adaptMode s' l with
    | 1 => s'
    | 2 => freezeTaps l s'
    | _ => restartAdaptation l s', done)

def specLaneEq : OpSpec :=
  { code := 0x2005, cls := 1, lengthOk := fixedLength 12, checks := checksLaneEq, effect := atOnce effectLaneEq }

/-- LANE_EQ (R66, R67). -/
def execLaneEq (p : Packet) (s : State) : Host.Outcome State Fault Refusal := .next (runHost specLaneEq p s)

/-! ## LANE_STATUS (R72) -/

/-- State code of a lane, in the order of R62. (DEDUCED, log entry 27.) -/
def laneStateCode : LaneState → Nat
  | .reset => 0 | .hunt => 1 | .verify => 2 | .locked => 3 | .fbBase => 4 | .fbCheck => 5 | .fbVerdict => 6
  | .test => 7 | .down => 8

/-- CDR_RATE; 0 while no rate has been detected (R72). (DESIGN CHOICE, log entry 178.) -/
def cdrCode (r : Option SdiRate) : Nat :=
  match r with | none => 0 | some r => (Config.cdrCode r.ctorIdx).toNat

/-- DEDUCED, log entry 29. -/
def laneItems (s : State) (l : Nat) : Bytes :=
  let v := laneOf s l
  let cfg := laneCfg s l
  let c := v.counters
  let head := itemByte (laneStateCode v.state) ++ itemByte (laneMode s l) ++ itemByte v.rate ++ itemFlag cfg.txInvert
    ++ itemFlag cfg.rxInvert ++ itemFlag v.polarityAuto ++ itemFlag v.reducedRate
  if l < 256 then
    head ++ itemWide c.blocksGood ++ itemWide c.blocksBad ++ itemCount c.commaMiss ++ itemCount c.stuffViol
      ++ itemWide c.stuffBits ++ itemCount c.stuffOver ++ itemWide c.idleBits ++ itemWide c.idleErrors
      ++ itemCount c.idleSlips ++ itemCount c.lockLoss ++ itemCount c.huntTimeout ++ itemCount c.fallback
      ++ itemCount c.fifoOverflow ++ itemWide c.prbsBits ++ itemWide c.prbsErrors ++ itemCount c.syncLoss
  else
    head ++ itemCount c.lockLoss ++ itemCount c.fifoOverflow ++ itemWide c.prbsBits ++ itemWide c.prbsErrors
      ++ itemCount c.syncLoss ++ (if laneMode s l = 2 then itemByte (cdrCode c.cdrRate) else [])

/-- DEDUCED, log entry 29. -/
def laneSpace : StatusSpace :=
  { size := 416, items := laneItems
    clear := fun l s => countLane l (fun c => { cdrRate := c.cdrRate }) s }

def specLaneStatus : OpSpec := specStatus 0x2004 (onlySpace laneSpace)

/-- LANE_STATUS (R72). -/
def execLaneStatus (p : Packet) (s : State) : Host.Outcome State Fault Refusal := .next (runHost specLaneStatus p s)

/-! ## PLLs, checker, adaptation -/

/-- A lane loses its lock: LOCK_LOSS, what it carries, and its LANE source (R61, R74). A lane in DOWN
stays there. -/
def loseLaneLock (l : Nat) (s : State) : State :=
  let s := countLane l (fun c => { c with lockLoss := sat32 c.lockLoss 1 }) s
  let s := if (laneOf s l).state = .down then s else stopLane l .hunt s
  raiseLane (laneFault l) s

/-- The reference of an SDI rate: LREF_B for an integer rate, LREF_C for one divided by 1.001 (R34, R46). -/
def rateRef (r : SdiRate) : LaneRef :=
  match r with
  | .m270 | .m1485 | .m2970 | .m5940 | .m11880 => .b
  | .m1485d | .m2970d | .m5940d | .m11880d => .c

/-- The reference that a lane's receiver uses at present: an SDI receiver's suits the rate that it has detected
(R46, R48). (DESIGN CHOICE, log entry 178.) -/
def usesRefNow (s : State) (r : LaneRef) (l : Nat) : Bool :=
  if 256 ≤ l ∧ laneMode s l = 2 then
    let v := laneOf s l
    r == (match (if v.state = .locked then v.counters.cdrRate else none) with
      | some x => rateRef x
      | none => if Config.undetectedRef (l - 256) = 0 then .b else .c)
  else usesRef s r l

def pllIndex : LaneRef → Nat
  | .a => 26 | .b => 27 | .c => 28

def setPll (g : Nat) (r : LaneRef) (up : Bool) (s : State) : State :=
  let p := pllsOf s g
  putPlls s g (match r with | .a => { p with a := up } | .b => { p with b := up } | .c => { p with c := up })

def pllUp (s : State) (g : Nat) (r : LaneRef) : Bool :=
  match r with | .a => (pllsOf s g).a | .b => (pllsOf s g).b | .c => (pllsOf s g).c

/-- LANE_PLL_LOSS: the PLL's source is raised, and every lane that uses it loses lock (R74). -/
def execLanePllLoss (gallery : Fin 16) (ref : LaneRef) (s : State) : Host.Outcome State Fault Refusal :=
  let g := gallery.val
  .next (if s.chip.rootLocked && pllUp s g ref then
      let hit := (galleryLanes g).filter (fun l => laneLocked s l && usesRefNow s ref l)
      let s := raiseLane (faultId 0x01 g (pllIndex ref)) (setPll g ref false s)
      hit.foldl (fun s l => loseLaneLock l s) s
    else s)

/-- LANE_PLL_LOCK: the PLL has lock again; a lane in DOWN stays there (R74). -/
def execLanePllLock (gallery : Fin 16) (ref : LaneRef) (s : State) : Host.Outcome State Fault Refusal :=
  .next (clocked (fun s => setPll gallery.val ref true s) s)

/-- PRBS_CHECKER_RX: bits reach the checker of a lane in TEST, or in FB_CHECK, where it belongs to
bring-up (R62, R69, R70). The generator of an edge lane, which has no block slots, sends as many bits.
(DESIGN CHOICE, log entry 139.) (DESIGN CHOICE, log entry 172.) -/
def execPrbsCheckerRx (lane : Fin 416) (bits : List Bool) (s : State) : Host.Outcome State Fault Refusal :=
  let l := lane.val
  let v := laneOf s l
  let inv := rxInverts s l
  let bits := bits.map (fun b => xor b inv)
  .next (match v.state with
    | .test =>
      let (p, c) := prbsRun v.prbs.rx v.prbs.rxInvert bits (v.prbs, v.counters)
      let s := putLane s l { v with prbs := p, counters := c }
      if l < 256 then s else sendPattern l v.prbs.tx v.prbs.txInvert bits.length s
    | .fbCheck => if v.stageWaiting then s else putLane s l (bits.foldl stageBit v)
    | _ => s)

/-- ADAPTATION_FREEZE: in mode ONCE adaptation freezes 1 ms after the lane reaches LOCKED; the taps that it
has found stand from then on (R66, R67). -/
def execAdaptationFreeze (lane : Fin 416) (s : State) : Host.Outcome State Fault Refusal :=
  let l := lane.val
  .next (if laneLocked s l ∧ adaptMode s l = 1 then freezeTaps l s else s)

end Sys2Proof.Machine
end

