-- ==== Sys2Proof/Machine/Packetizer.lean ====
section
/-! DEFINITION. Packetizer.lean: the packets of the transmit flows: payloads, headers, sequence numbers, timestamps
and launch times (R195, R206 to R209, R229, R230). Payload layouts that the manual leaves to ST 2110 and ST 2022-6
follow those standards. (PRESUMED, log entry 146.) -/

namespace Sys2Proof.Machine

/-! ## Frames of a transmit flow -/

/-- Video destination of a transmit flow's slot (R4). -/
def txDest (n : Nat) (f : TxFlow) : Nat := 1440 + 16 * (n / 1024) + f.slot

/-- Format whose frames a transmit flow sends: its own, or for ANC that of the VIDEO flow of its slot; none = the
grid of its family. -/
def txFormat (s : State) (n : Nat) (f : TxFlow) : Option Nat :=
  sentFormat s f.kind (n / 1024) f.slot f.format

/-- Frame period in ROOT cycles, total lines, and fields of a flow's frame (R230). -/
def txPeriod (s : State) (n : Nat) (f : TxFlow) : Nat :=
  match txFormat s n f with | some x => formatPeriod x | none => periodRoot (familyRate s f.family)
def txTotalLines (s : State) (n : Nat) (f : TxFlow) : Nat :=
  match txFormat s n f with | some x => formatTotalLines x | none => 1125
def txFields (s : State) (n : Nat) (f : TxFlow) : Nat :=
  match txFormat s n f with
  | some x => if (formatLines x).2 = 0 ∨ (f.kind = .anc ∧ (formatLines x).2 = 2) then 1 else 2
  | none => 1

/-- K: packets of a frame (R208). -/
def txPackets (s : State) (n : Nat) (f : TxFlow) : Nat :=
  packetsPerFrame f.kind (txFormat s n f) f.payload f.ancPackets

/-- A flow of half the family rate starts frames at even hangs only (R141). -/
def txHalf (s : State) (n : Nat) (f : TxFlow) : Bool := isHalf s f.family (txFormat s n f)

/-- A frame of a flow starts at a reference position (R209). (DEDUCED, log entry 173.) -/
def startTxFrame (start : Int) (f : TxFlow) : TxFlow :=
  { f with frameAt := some start, index := 0, taken := 0
           frameAudio := if f.kind = .sdi then f.samples else f.frameAudio
           samples := if f.kind = .sdi then [] else f.samples }

/-- Frame periods of a format from the epoch to a frame start: j of R208. -/
def framesSince (s : State) (n : Nat) (f : TxFlow) (start : Int) : Int :=
  let fmt := txFormat s n f
  let rate := match fmt with | some x => (formatRate x).getD 0 | none => familyRate s f.family
  let t := s.time.triple
  match fmt with
  | some x =>
    if formatDouble x then
      let b := (familyOf s f.family).boundary
      2 * nearestIndex t rate b + (if start = b then 0 else 1)
    else nearestIndex t rate start
  | none => nearestIndex t rate start

/-! ## Launch times (R230) -/

/-- Packets of the first field, or of a progressive frame: of an odd number one more than of the second field.
(DEDUCED, log entry 173.) -/
def fieldPackets (s : State) (n : Nat) (f : TxFlow) : Nat :=
  (txPackets s n f + txFields s n f - 1) / txFields s n f

/-- Where packet i stands: its field from 0, its index in the field, and the packets of the field (R208, R230). -/
def fieldPlace (s : State) (n : Nat) (f : TxFlow) (i : Nat) : Nat × Nat × Nat :=
  let per := fieldPackets s n f
  if i < per then (0, i, per) else (1, i - per, txPackets s n f - per)

/-- Launch of packet i in ROOT cycles: F + TRO + i × TRS, TRO = 17 × T + 2 µs. -/
def launchRoot (s : State) (n : Nat) (f : TxFlow) (start : Int) (i : Nat) : Int :=
  let p := txPeriod s n f
  let lines := txTotalLines s n f
  let (second, j, k) := fieldPlace s n f i
  let frame := p / txFields s n f
  let active := if f.kind = .sdi then lines else (formatLines f.format).1
  let spread := match f.kind with
    | .anc => j * p / lines
    | _ => if f.profile = 1 then j * frame / k else j * frame * active / (k * lines)
  start + ((second * frame + 17 * p / lines + 9504 + spread : Nat) : Int)

/-- A ROOT cycle as a count of the time counter, to the nearest. -/
def countOfRoot (r : Int) : Word64 := BitVec.ofInt 64 ((r + 4) / 8)

/-! ## Headers (R207) -/

/-- The frame of a packet: the template with the fields that the device computes, then the media bytes. -/
def packetFrame (t : Bytes) (marker : Bool) (e stamp : Nat) (media : Bytes) : Bytes :=
  let off := if t.length = 54 ∨ t.length = 74 then 14 else 18
  let v6 := decide (74 ≤ t.length)
  let u := off + (if v6 then 40 else 20)
  let n := 20 + media.length
  let rtp := [0x80, BitVec.ofNat 8 (field t (u + 9) 1 % 128 + 128 * bit marker)] ++ beBytes 2 e ++ beBytes 4 stamp
    ++ (t.drop (u + 16)).take 4
  let udp := fun (sum : Nat) => (t.drop u).take 4 ++ beBytes 2 n ++ beBytes 2 sum ++ rtp ++ media
  if v6 then
    let src := (t.drop (off + 8)).take 16
    let dst := (t.drop (off + 24)).take 16
    patch (off + 4) (beBytes 2 n) (t.take u) ++ udp (udpChecksum src dst (udp 0))
  else
    let ip := patch (off + 2) (beBytes 2 (20 + n) ++ beBytes 2 e ++ [0x40, 0]) (t.take u)
    let ip := patch (off + 10) [0, 0] ip
    patch (off + 10) (beBytes 2 (65535 - fold16 (sum16 (ip.drop off)))) ip ++ udp 0

/-! ## Payloads (R195, R209) -/

/-- The source that a destination of a packet slot sends, if it is not in its fallback. -/
def sentSource (s : State) (d : Nat) : Option Nat :=
  match shownSource s d with
  | some n => if (destRun s d).inFallback || lostAt s d n then none else some n
  | none => none

/-- Samples of an active line of a VIDEO flow; black where the source brings none, and under BLACK (R90, R196,
R209). (DEDUCED, log entry 173.) -/
def txLine (s : State) (n : Nat) (f : TxFlow) (second : Bool) (line : Nat) : List (BitVec 10) :=
  let black := blackLine (lineSampleCount f.format)
  match sentSource s (txDest n f + line % pictureBond f.format) with
  | some src =>
    match (essenceOf s src).now.lines.find? (fun l => l.second == second && l.line == line) with
    | some l => if l.samples.length = black.length then l.samples else black
    | none => black
  | none => black

/-- Payload of VIDEO packet i with extended sequence number e: one SRD of one line, in block packing filled up to whole
blocks of 180 bytes (R195, R206, R207). (PRESUMED, log entry 146.) -/
def videoMedia (s : State) (n : Nat) (f : TxFlow) (i e : Nat) : Bytes :=
  let per := (formatWidth f.format * 5 / 2 + f.payload - 1) / f.payload
  let (second, line) := (pictureLines f.format).getD (i / per) (false, 1)
  let from' := i % per * f.payload
  let data := ((packTens (txLine s n f second line)).drop from').take f.payload
  beBytes 2 (e / 65536) ++ beBytes 2 data.length ++ beBytes 2 (bit second * 32768 + (line - 1))
    ++ beBytes 2 (from' * 2 / 5) ++ data ++ List.replicate (if f.block then (180 - data.length % 180) % 180 else 0) 0

/-- An ancillary packet as ST 2110-40 carries it, in whole 32-bit words. (PRESUMED, log entry 146.) -/
def ancMediaRecord (p : AncPacket) : Bytes :=
  let head := beBytes 4 (bit p.cStream * 2 ^ 31 + p.line % 2048 * 2 ^ 20 + (if p.hanc then 0xFFE else 0xFFD) * 2 ^ 8)
  let body := packTens ((ancWords p).drop 3)
  head ++ body ++ List.replicate ((4 - body.length % 4) % 4) 0

/-- Put a packet behind those of its line and of the lines before. -/
def insertByLine (p : AncPacket) : List AncPacket → List AncPacket
  | [] => [p]
  | q :: r => if q.line ≤ p.line then q :: insertByLine p r else p :: q :: r

/-- Packets in the order of their lines, those of a line as they came (R230). -/
def byLine (ps : List AncPacket) : List AncPacket := ps.foldl (fun l p => insertByLine p l) []

/-- Ancillary packets of the flow's frame or field that have been delivered, in the order of their lines.
(DEDUCED, log entry 173.) -/
def ancDelivered (s : State) (n : Nat) (f : TxFlow) (second : Bool) : List AncPacket :=
  match (destOf s .anc (txDest n f)).active with
  | some src =>
    if ancUsable s src then
      byLine ((essenceOf s src).now.anc.filter (fun p =>
        txFields s n f == 1 || (match txFormat s n f with | some x => fieldTwo x p.line == second | none => true)))
    else []
  | none => []

/-- The ancillary packets from the front that fit a payload of some bytes, at most 255. -/
def ancFitting : Nat → Nat → List AncPacket → List AncPacket
  | 0, _, _ => []
  | _, _, [] => []
  | k + 1, room, p :: r =>
    let b := (ancMediaRecord p).length
    if b ≤ room then p :: ancFitting k (room - b) r else []

/-- Packets that ancillary packets still need (R208). -/
def ancPacketsNeeded (room : Nat) : Nat → List AncPacket → Nat
  | 0, _ => 0
  | fuel + 1, ps => if ps.isEmpty then 0 else 1 + ancPacketsNeeded room fuel (ps.drop (max 1 (ancFitting 255 room ps).length))

/-- Bytes of ancillary records that a packet of a flow has room for. (DESIGN CHOICE, log entry 153.) -/
def ancRoom (s : State) (f : TxFlow) : Nat :=
  (macCfg s (queuePort s f.legA.queue)).maxFrame - 4 - f.legA.template.length - 8

/-- Payload of an ANC packet. -/
def ancMedia (e : Nat) (fields : Nat) (second : Bool) (ps : List AncPacket) : Bytes :=
  let data := ps.flatMap ancMediaRecord
  beBytes 2 (e / 65536) ++ beBytes 2 data.length ++ beBytes 1 ps.length
    ++ [BitVec.ofNat 8 (if fields = 1 then 0 else if second then 0xC0 else 0x80), 0, 0] ++ data

/-- FRAME and FRATE codes of a format in the ST 2022-6 payload header. (PRESUMED, log entry 146.) -/
def headerCodes (fmt : Nat) : Nat × Nat :=
  match fmt with
  | 0x01 => (0x10, 0x17) | 0x02 => (0x11, 0x18)
  | 0x10 => (0x30, 0x12) | 0x11 => (0x30, 0x11) | 0x12 => (0x30, 0x10)
  | 0x20 => (0x20, 0x18) | 0x21 => (0x20, 0x17) | 0x22 => (0x20, 0x16)
  | 0x23 => (0x22, 0x1B) | 0x24 => (0x22, 0x1A) | 0x25 => (0x22, 0x18) | 0x26 => (0x22, 0x17) | 0x27 => (0x22, 0x16)
  | 0x28 => (0x21, 0x1B) | 0x29 => (0x21, 0x1A) | 0x2A => (0x21, 0x18) | 0x2B => (0x21, 0x17) | 0x2C => (0x21, 0x16)
  | 0x30 | 0x38 => (0x21, 0x12) | 0x31 | 0x39 => (0x21, 0x11) | _ => (0x21, 0x10)

/-- The format fields of the ST 2022-6 payload header: MAP (1 for Level B-DL), FRAME, FRATE, and SAMPLE for 4:2:2 with
10 bits. (PRESUMED, log entry 146.) -/
def formatFields (fmt : Nat) : Bytes :=
  let (frame, rate) := headerCodes fmt
  beBytes 3 (bit (isLevelB fmt) * 2 ^ 20 + frame * 2 ^ 12 + rate * 2 ^ 4 + 1) ++ [0]

/-- The interface stream of an SDI flow's frame: picture, ancillary packets and embedded audio (R125, R203);
of Level B-DL every other frame is the second half of the raster, which starts within line 563.
(DEDUCED, log entry 173.) -/
def sdiStream (s : State) (n : Nat) (f : TxFlow) (second : Bool) : Bytes :=
  let d := txDest n f
  let src := sentSource s d
  let picture := match src with | some x => (essenceOf s x).now.lines | none => []
  let last := src.map (fun x => (sourceOf s x).pid)
  let anc := match (destOf s .anc d).active with
    | some x => if ancUsable s x then (essenceOf s x).now.anc else []
    | none => []
  let (raster, _) := frameRaster f.format ((List.range (outputImages f.format)).map (imagePid f.format last)) picture anc
    {} f.frameAudio (if second then (563, true) :: frameLines f.format true none 0 else frameLines f.format false none 0) []
  let bytes := packTens (linkWords f.format 0 raster)
  if second then bytes.drop (bytes.length - sdiFrameBytes f.format) else bytes.take (sdiFrameBytes f.format)

/-- Payload of SDI packet i: ST 2022-6 header and 1,376 media bytes. -/
def sdiMedia (s : State) (n : Nat) (f : TxFlow) (count i : Nat) : Bytes :=
  let data := ((sdiStream s n f (isLevelB f.format && count % 2 == 1)).drop (sdiPayload * i)).take sdiPayload
  [0x08, BitVec.ofNat 8 count, 0, 0] ++ formatFields f.format ++ data ++ List.replicate (sdiPayload - data.length) 0

/-- Payload of an AUDIO packet: sample periods in the flow's encoding (R206). -/
def audioMedia (l16 : Bool) (periods : List (List Word)) : Bytes :=
  periods.flatMap (fun ch => ch.flatMap (fun w =>
    if l16 then beBytes 2 (w.toNat / 256 % 65536) else beBytes 3 (w.toNat % 2 ^ 24)))

/-! ## The next packet (R208) -/

/-- A packet of a flow before its legs' headers. -/
structure BuiltPacket where
  e : Nat
  stamp : Nat
  marker : Bool
  media : Bytes
  launch : Word64
  excess : Nat := 0
  deriving DecidableEq, Repr

/-- Number modulo 2³². -/
def mod32 (x : Int) : Nat := (x % 2 ^ 32).toNat

/-- The frame that starts at the midpoint of a double-rate flow follows the one of the boundary (R141, R196). -/
def midpointFrame (s : State) (n : Nat) (f : TxFlow) : TxFlow :=
  match f.frameAt with
  | some t =>
    if formatDouble ((txFormat s n f).getD 0) ∧ txPackets s n f ≤ f.index ∧ t = (familyOf s f.family).boundary then
      startTxFrame (t + txPeriod s n f) f
    else f
  | none => f

/-- The next packet of a VIDEO, ANC or SDI flow, until all of the frame have been built. -/
def buildFramePacket (s : State) (n : Nat) (f : TxFlow) : Option (BuiltPacket × TxFlow) :=
  match f.frameAt with
  | none => none
  | some start =>
    let k := txPackets s n f
    let i := f.index
    if k ≤ i then none
    else
      let j := framesSince s n f start
      let e := mod32 (j * k + i)
      let (part, at', per) := fieldPlace s n f i
      let second := part == 1
      let ends := decide (at' + 1 = per)
      let interlaced := match txFormat s n f with | some x => (formatLines x).2 == 1 | none => false
      let last := decide (i + 1 = k) || (interlaced && ends)
      let stamp := mod32 (mediaCountAt s.time.triple (mediaClock f.kind) start)
      let b : BuiltPacket := { e := e, stamp := stamp, marker := last, media := []
                               launch := countOfRoot (launchRoot s n f start i) }
      let f := { f with index := i + 1 }
      match f.kind with
      | .anc =>
        let rest := (ancDelivered s n f second).drop f.taken
        let ps := ancFitting 255 (ancRoom s f) rest
        let excess := if ends then ancPacketsNeeded (ancRoom s f) rest.length (rest.drop ps.length) else 0
        some ({ b with media := ancMedia e (txFields s n f) second ps, excess := excess },
          { f with taken := if ends then 0 else f.taken + ps.length })
      | .sdi => some ({ b with media := sdiMedia s n f (mod32 j) i }, f)
      | _ => some ({ b with media := videoMedia s n f i e }, f)

/-- The next packet of an AUDIO flow, once its samples are there; it launches 50 µs after its last sample.
(DEDUCED, log entry 173.) -/
def buildAudioPacket (s : State) (f : TxFlow) : Option (BuiltPacket × TxFlow) :=
  let n := if f.ptime = 0 then 48 else 6
  if f.samples.length < n then none
  else
    let count := mediaCountAt s.time.triple 48000 (99000 * f.samplesAt)
    some ({ e := mod32 (count / n), stamp := mod32 count, marker := false
            media := audioMedia f.l16 (f.samples.take n)
            launch := countOfRoot (99000 * (f.samplesAt + n - 1 : Nat) + 237600) },
      { f with samples := f.samples.drop n, samplesAt := f.samplesAt + n })

/-- The next packet of a flow. -/
def buildPacket (s : State) (n : Nat) (f : TxFlow) : Option (BuiltPacket × TxFlow) :=
  if f.kind = .audio then buildAudioPacket s f else buildFramePacket s n f

end Sys2Proof.Machine
end

