-- ==== Sys2Proof/Machine/PtpOps.lean ====
section
/-! DEFINITION. PtpOps.lean: PTP messages as bytes, the egress FIFOs, and what the Curator reads from a
received message (R238, R246 to R256). -/

namespace Sys2Proof.Machine

/-- messageType of IEEE 1588-2019. `other` stands for Follow_Up. -/
def ptpCode : PtpMessage → Nat
  | .sync => 0 | .delayReq => 1 | .pdelayReq => 2 | .pdelayResp => 3
  | .other => 8 | .delayResp => 9 | .announce => 11

/-- Length of a message of IEEE 1588-2019. (PRESUMED, log entry 74.) -/
def ptpLength : PtpMessage → Nat
  | .sync => 44 | .delayReq => 44 | .pdelayReq => 54 | .pdelayResp => 54
  | .other => 44 | .delayResp => 54 | .announce => 64

/-- Event messages are timestamped (R247). -/
def ptpEvent (m : PtpMessage) : Bool := decide (ptpCode m < 4)

/-- The message that a messageType names. -/
def ptpOfCode (c : Nat) : PtpMessage :=
  match c with
  | 0 => .sync | 1 => .delayReq | 2 => .pdelayReq | 3 => .pdelayResp
  | 9 => .delayResp | 11 => .announce | _ => .other

/-- PTP port of a fabric lane (R251). -/
def fabricPtpPort (f : Nat) : Nat := 64 + f

/-- A PTP port always works in two steps on the fabric (R251). -/
def isTwoStep (s : State) (n : Nat) : Bool := decide (64 ≤ n) || (ptpPortCfg s n).twoStep

/-! ## Timestamps (R236, R246, R255) -/

/-- Ingress and egress latency of a PTP port in 0.1 ns; they include the RS-FEC alignment position of each frame
(R246). -/
def ptpLatency (s : State) (n : Nat) : Nat × Nat :=
  if 64 ≤ n then (300, 300)
  else if portIs100 s n then (1524, 897)
  else if (macCfg s n).fec = 1 then (2386, 1123)
  else (620, 485)

/-- A latency of some 0.1 ns in 2⁻¹⁶ ns. -/
def latencyUnits (tenths : Nat) : Int := (tenths * 65536 / 10 : Nat)

/-- A timestamp unit captures time now: the count with a free fraction of a tick, and a latency added, in 2⁻¹⁶ ns (R236,
R246). (DESIGN CHOICE, log entry 193.) -/
def stampUnits (latency : Int) (s : State) : Int × State :=
  let (x, s) := drawBelow 16 s
  (unitsAtFine s.time.triple s.time.count x + latency, s)

/-- The ingress time and count of a message that reaches a port now (R246, R247, R255). -/
def stampIngress (n : Nat) (s : State) : (Time × Word64) × State :=
  let (x, s) := stampUnits (-(latencyUnits (ptpLatency s n).1)) s
  ((timeOfUnits x.toNat, s.time.count), s)

/-- The egress time of a message that leaves a port now, in 2⁻¹⁶ ns (R246, R248, R255). -/
def stampEgress (n : Nat) (s : State) : Int × State := stampUnits (latencyUnits (ptpLatency s n).2) s

/-! ## Egress (R248, R250) -/

/-- Fields of a message: correction and timestamp in 2⁻¹⁶ ns and ns, sequence, and the two port identities. -/
def correctionOf (b : Bytes) : Int := toSigned 8 (beNat ((b.drop 8).take 8))
def stampOf (b : Bytes) : Int := ((beNat ((b.drop 34).take 6) * 1000000000 + beNat ((b.drop 40).take 4)) * 65536 : Nat)
def sequenceOf (b : Bytes) : Nat := beNat ((b.drop 30).take 2)
def senderOf (b : Bytes) : Bytes := (b.drop 20).take 10
def requesterOf (b : Bytes) : Bytes := (b.drop 44).take 10

/-- A two-step message. -/
def inTwoSteps (b : Bytes) : Bool := field b 6 1 / 2 % 2 == 1

/-- Identity of a PTP port of the device. (DESIGN CHOICE, log entry 75.) -/
def portIdentity (n : Nat) : Bytes := beBytes 8 Config.clockIdentity.toNat ++ beBytes 2 (n + 1)

/-- Put the egress time of message b, in 2⁻¹⁶ ns, into a port's FIFO of 64; a full FIFO discards it (R250). -/
def pushEgress (n : Nat) (b : Bytes) (time : Int) (s : State) : State :=
  let v := ptpPortOf s n
  let e : EgressTime := { message := ptpOfCode (field b 0 1 % 16), domain := field b 4 1
                          sequence := sequenceOf b, time := timeOfUnits time.toNat }
  if v.egress.length < 64 then putPtpPort s n { v with egress := v.egress ++ [e] }
  else note 0x07 2 (putPtpPort s n { v with tsFifoFull := sat32 v.tsFifoFull 1 })

/-- The egress of PTP event message b at a time (R248). -/
def ptpEgress (n : Nat) (b : Bytes) (time : Int) (s : State) : State :=
  match ptpOfCode (field b 0 1 % 16) with
  | .sync => if isTwoStep s n then pushEgress n b time s else s
  | .delayReq => pushEgress n b time s
  | .pdelayReq => pushEgress n b time s
  | _ => s

/-- Egress times of the TIME cells that lane f has just sent for the first time (R255). -/
def timeCellsSent (f : Nat) (cells : List Cell) (s : State) : State :=
  cells.foldl (fun s c =>
    if c.msgType = 3 then
      let (x, s) := stampEgress (fabricPtpPort f) s
      ptpEgress (fabricPtpPort f) (c.data.drop 4) x s
    else s) s

/-! ## Messages that the Curator sends (R249 to R251, R255) -/

/-- Offer a frame of the Curator to a port's control queue (R213, R218). -/
def sendControl (n : Nat) (b : Bytes) (event : Bool) (s : State) : State :=
  offerControl false (controlQueue n) { storedFrame b s.time.count with ptpEvent := event } s

/-- What a message takes from another: its sequence, the timestamp in 2⁻¹⁶ ns that it carries, its correction, and the
identity of the requesting port. -/
structure PtpFill where
  sequence : Option Nat := none
  stamp : Option Int := none
  correction : Int := 0
  requester : Bytes := []

/-- The device's own data in an Announce, while no port of it is SLAVE: PRIORITY1, CLOCK_CLASS, PRIORITY2 and its
identity (R251). (PRESUMED, log entry 74.) -/
def ownAnnounce (s : State) (b : Bytes) : Bytes :=
  let c := s.set.ptpDev
  patch 47 (leBytes 1 c.priority1) (patch 48 (leBytes 1 c.clockClass)
    (patch 52 (leBytes 1 c.priority2 ++ beBytes 8 Config.clockIdentity.toNat) b))

/-- A PTP message of a port: type, version 2, length, domain, twoStepFlag, correction, its identity, and what it takes
from another; the rest is a free value. (DESIGN CHOICE, log entry 75.) -/
def ptpMessage (n : Nat) (m : PtpMessage) (x : PtpFill) (s : State) : Bytes × State :=
  let (w, s) := draw (8 * ptpLength m) s
  let b := leBytes (ptpLength m) w.toNat
  let flag := bit (isTwoStep s n && (m == .sync || m == .pdelayResp))
  let b := leBytes 1 (ptpCode m) ++ [2] ++ beBytes 2 (ptpLength m) ++ leBytes 1 (ptpPortCfg s n).domain
    ++ (b.drop 5).take 1 ++ leBytes 1 (field b 6 1 / 4 * 4 + flag * 2 + field b 6 1 % 2) ++ b.drop 7
  let b := patch 8 (beBytes 8 (x.correction % 2 ^ 64).toNat) (patch 20 (portIdentity n) b)
  let b := match x.sequence with | some k => patch 30 (beBytes 2 k) b | none => b
  let b := match x.stamp with
    | some t => let t := timeOfUnits t.toNat; patch 34 (beBytes 6 t.sec ++ beBytes 4 t.ns) b
    | none => b
  let b := if x.requester.isEmpty then b else patch 44 x.requester b
  (if m == .announce && s.time.slavePort.isNone then ownAnnounce s b else b, s)

/-- The frame of a PTP message by TRANSPORT, to the addresses of IEEE 1588; on IPv6 two bytes follow the message
(R249, R251). (PRESUMED, log entry 74.) -/
def ptpFrame (s : State) (n : Nat) (m : PtpMessage) (b : Bytes) : Bytes :=
  let peer := m == .pdelayReq || m == .pdelayResp
  let to' := if ptpEvent m then 319 else 320
  match (ptpPortCfg s n).transport with
  | 0 =>
    (if peer then [0x01, 0x80, 0xC2, 0, 0, 0x0E] else [0x01, 0x1B, 0x19, 0, 0, 0])
      ++ leBytes 6 (macCfg s n).macAddr.toNat ++ [0x88, 0xF7] ++ b
  | 1 =>
    let dst : Bytes := if peer then [224, 0, 0, 107] else [224, 0, 1, 129]
    udpFrame s n ([0x01, 0x00, 0x5E] ++ dst.drop 1) none false dst to' to' b
  | _ =>
    let dst : Bytes := (if peer then [0xFF, 0x02] else [0xFF, 0x0E]) ++ List.replicate 12 0
      ++ (if peer then [0, 0x6B] else [0x01, 0x81])
    udpFrame s n ([0x33, 0x33] ++ dst.drop 12) none true dst to' to' (b ++ [0, 0])

/-- The payload of a TIME message: version 1, a reserved byte, the length, the message (R255).
(DEDUCED, log entry 76.) -/
def timeMessage (b : Bytes) : Bytes := [1, 0] ++ leBytes 2 b.length ++ b

/-- A PTP port sends a message (R251, R255). -/
def sendPtp (n : Nat) (m : PtpMessage) (x : PtpFill) (s : State) : State :=
  let v := ptpPortOf s n
  let (b, s) := ptpMessage n m x (putPtpPort s n { v with sent := v.sent + 1 })
  if n < 64 then
    if portExists s n then sendControl n (ptpFrame s n m b) (ptpEvent m) s else s
  else sendMessage (n - 64) 3 (timeMessage b) s

/-- The Curator takes an entry of an egress FIFO: a two-step Sync is followed up with its egress time, and that of a
request waits for its response (R250, R252). (DEDUCED, log entry 76.) -/
def takeEgress (n : Nat) (e : EgressTime) (s : State) : State :=
  match e.message with
  | .sync => sendPtp n .other { sequence := some e.sequence, stamp := some (Time.units e.time), correction := e.time.frac } s
  | .delayReq | .pdelayReq =>
    putPtpPort s n { ptpPortOf s n with request := some (e.sequence, Time.units e.time) }
  | _ => s

/-- The Curator reads a port's egress FIFO (R250). (DEDUCED, log entry 76.) -/
def readEgress (n : Nat) (s : State) : State :=
  let v := ptpPortOf s n
  v.egress.foldl (fun s e => takeEgress n e s) (putPtpPort s n { v with egress := [] })

/-! ## Messages that the Curator receives (R238, R251, R252, R256) -/

/-- The grandmaster's UTC offset and the parent that an Announce of the SLAVE port's master carries
(R238, R256). (PRESUMED, log entry 74.) -/
def readAnnounce (n : Nat) (b : Bytes) (s : State) : State :=
  let v := ptpPortOf s n
  if v.slave then
    let s := putPtpPort s n { v with parent := BitVec.ofNat 80 (beNat ((b.drop 20).take 10)) }
    { s with time := { s.time with
        utcOffset := toSigned 2 (beNat ((b.drop 44).take 2)), utcValid := decide (field b 7 1 / 4 % 2 = 1) } }
  else s

/-- A path-delay sample of a port; the last eight are kept (R252). -/
def addSample (v : PtpPort) (x : Int) : PtpPort :=
  { v with samples := (v.samples ++ [x]).drop (v.samples.length - 7) }

/-- A Sync of the master with its ingress time: at once where it carries its time, else with its Follow_Up (R252). -/
def syncReceived (b : Bytes) (t : Time × Word64) (v : PtpPort) : PtpPort :=
  let at' : Int := Time.units t.1
  if inTwoSteps b then
    { v with waitSync := some ⟨sequenceOf b, at', t.2, 0, correctionOf b⟩ }
  else { v with waitSync := none, synced := some ⟨stampOf b + correctionOf b, at', t.2⟩ }

/-- A Follow_Up gives the time of the Sync before it (R252). -/
def followUpReceived (b : Bytes) (v : PtpPort) : PtpPort :=
  match v.waitSync with
  | some w =>
    if w.sequence = sequenceOf b then
      { v with waitSync := none, synced := some ⟨stampOf b + w.correction + correctionOf b, w.ingress, w.count⟩ }
    else v
  | none => v

/-- A Delay_Resp to this port's request completes a delay exchange: the mean of both directions is a sample (R252). -/
def delayRespReceived (n : Nat) (b : Bytes) (v : PtpPort) : PtpPort :=
  match v.request, v.synced with
  | some (k, sent), some y =>
    if k = sequenceOf b ∧ requesterOf b = portIdentity n then
      addSample { v with request := none } ((y.device - y.master + (stampOf b - sent - correctionOf b)) / 2)
    else v
  | _, _ => v

/-- A Pdelay_Resp to this port's request completes a delay exchange, or waits for its follow-up (R252). -/
def pdelayRespReceived (n : Nat) (b : Bytes) (t : Time × Word64) (v : PtpPort) : PtpPort :=
  match v.request with
  | some (k, sent) =>
    let at' : Int := Time.units t.1
    if k ≠ sequenceOf b ∨ requesterOf b ≠ portIdentity n then v
    else if inTwoSteps b then
      { v with waitPeer := some ⟨k, at', t.2, stampOf b, correctionOf b⟩ }
    else addSample { v with request := none, waitPeer := none } ((at' - sent - correctionOf b) / 2)
  | none => v

/-- A Pdelay_Resp_Follow_Up completes the exchange (R252). -/
def pdelayFollowReceived (n : Nat) (b : Bytes) (v : PtpPort) : PtpPort :=
  match v.waitPeer, v.request with
  | some w, some (k, sent) =>
    if k = sequenceOf b ∧ w.sequence = k ∧ requesterOf b = portIdentity n then
      addSample { v with request := none, waitPeer := none }
        ((w.ingress - sent - (stampOf b - w.carried) - w.correction - correctionOf b) / 2)
    else v
  | _, _ => v

/-- What a received message of an enabled port and its domain changes at the port; t: its ingress time, where it has one
that the servo may use (R251, R252, R255, R256). (PRESUMED, log entry 74.) -/
def ptpReceived (n : Nat) (b : Bytes) (t : Option (Time × Word64)) (s : State) : State :=
  let v := ptpPortOf s n
  match field b 0 1 % 16, t with
  | 0, t =>
    let v := { v with syncRcvd := sat32 v.syncRcvd 1 }
    putPtpPort s n (match t with | some t => if v.slave then syncReceived b t v else v | none => v)
  | 3, some t => if (ptpPortCfg s n).p2p then putPtpPort s n (pdelayRespReceived n b t v) else s
  | 8, _ => if v.slave then putPtpPort s n (followUpReceived b v) else s
  | 9, _ =>
    let v := { v with delayRespRcvd := sat32 v.delayRespRcvd 1 }
    putPtpPort s n (if v.slave && !(ptpPortCfg s n).p2p then delayRespReceived n b v else v)
  | 10, _ => if (ptpPortCfg s n).p2p then putPtpPort s n (pdelayFollowReceived n b v) else s
  | 11, _ => readAnnounce n b s
  | _, _ => s

/-- The answer to a request with its ingress time: a master takes its time from device time (R251). -/
def answerFill (b : Bytes) (t : Time × Word64) : PtpFill :=
  { sequence := some (sequenceOf b), stamp := some (Time.units t.1), correction := correctionOf b - t.1.frac
    requester := senderOf b }

/-- The Curator meets a received PTP message: what it changes, and its answer (R250, R251, R256). -/
def ptpProcess (n : Nat) (b : Bytes) (t : Option (Time × Word64)) (s : State) : State :=
  let c := ptpPortCfg s n
  if c.enable && field b 4 1 == c.domain then
    let s := ptpReceived n b t (readEgress n s)
    match ptpOfCode (field b 0 1 % 16), t with
    | .delayReq, some t => if (ptpPortOf s n).slave then s else sendPtp n .delayResp (answerFill b t) s
    | .pdelayReq, some t => sendPtp n .pdelayResp (answerFill b t) s
    | _, _ => s
  else s

/-- A TIME message of one cell reaches its fabric PTP port. One that was retransmitted has no time that the servo may use
(R255). (DEDUCED, log entry 76.) -/
def timeReceived (f : Nat) (data : Bytes) (again : Bool) (s : State) : State :=
  if field data 0 1 = 1 ∧ s.chip.curatorServing = true then
    let n := fabricPtpPort f
    let (t, s) := stampIngress n s
    ptpProcess n ((data.drop 4).take (field data 2 2)) (if again then none else some t) s
  else s

end Sys2Proof.Machine
end

