-- ==== Sys2Proof/Machine/Queues.lean ====
section
/-! DEFINITION. Queues.lean: QUEUE_CONFIG, the packetizer, the schedulers and the discards of the egress
queues (R213 to R233). -/

namespace Sys2Proof.Machine

/-! ## QUEUE_CONFIG (R214, R215, R220) -/

/-- A control queue (R213). -/
def isControlQueue (q : Nat) : Bool := decide (q % 4096 < 4)

/-- MAX_CELLS as sent: 0 lies in its range only while MIN_CELLS is 0 (R382).
(DEDUCED, log entry 72.) -/
def readMaxCells (p : Packet) : Nat := if u16 p 8 = 0 then u32 p 12 else orDefault (u32 p 12) 1024

/-- DEDUCED, log entry 72. -/
def readQueueCfg (p : Packet) : QueueCfg :=
  { enable := u8 p 2 == 1, port := u8 p 3, priority := u8 p 4, asap := u8 p 5 == 1, minCells := u16 p 8
    maxCells := readMaxCells p, rate := u32 p 16, burst := orDefault (u32 p 20) 16384
    lateLimit := orDefault (u16 p 24) 100 }

/-- MIN_CELLS over the enabled host queues, queue q aside (R215). -/
def reservedCells (s : State) (q : Nat) : Nat :=
  s.pkt.queues.foldl (fun n e =>
    if e.1 = q ∨ isControlQueue e.1 = true ∨ e.2.cfg.enable = false then n else n + e.2.cfg.minCells) 0

/-- A transmit flow names a queue. -/
def queueNamed (s : State) (q : Nat) : Bool :=
  s.pkt.txFlows.any (fun e => (txLegs e.2).any (fun l => l.queue == q))

def checksQueueConfig (p : Packet) (s : State) : Check :=
  let q := u16 p 0
  let c := readQueueCfg p
  let old := queueOf s q
  firstFail [
    noTarget p,
    fieldIn (u8 p 2) 0 1 2,
    fieldIn c.port 0 3 3,
    fieldIn c.priority 0 6 4,
    fieldIn (u8 p 5) 0 1 5,
    fieldIn (u8 p 6) 0 1 6,
    reserved p 7 1,
    fieldIn c.minCells 0 8192 8,
    reserved p 10 2,
    fieldIn c.maxCells c.minCells 65536 12,
    fieldIn c.rate 0 100000 16,
    fieldIn c.burst 1538 1048576 20,
    fieldIn c.lateLimit 1 10000 24,
    reserved p 26 2,
    need (!isControlQueue q) (conflict 0),
    need (portExists s (4 * (q / 4096) + c.port)) (conflict 0),
    need (c.port == old.cfg.port || old.frames.isEmpty || u8 p 6 == 1) (conflict 0),
    need (c.enable || !old.cfg.enable || !queueNamed s q) (conflict 0),
    need (!c.enable || decide (reservedCells s q + c.minCells ≤ 147456)) (noResource 0)]

/-- The shaper balance now, in 1/4,752 byte (R224). -/
def balanceNow (s : State) (r : Queue) : Int :=
  min ((r.cfg.burst : Int) * 4752) (r.balance + (r.cfg.rate : Int) * (s.time.count - r.balanceAt).toNat)

/-- The balance as queue q takes settings c: set to BURST when the queue is enabled or its RATE changes, else what the
settings until now have made of it (R224). -/
def settledBalance (s : State) (r : Queue) (c : QueueCfg) : Int :=
  if (c.enable && !r.cfg.enable) || c.rate != r.cfg.rate then (c.burst : Int) * 4752 else balanceNow s r

/-- Apply a QUEUE_CONFIG. A disabled queue loses its linked frames, as by FLUSH (R228). On a frozen
queue FLUSH also starts the sweep, which the reply follows (R220). (DEDUCED, log entry 72.) -/
def effectQueueConfig (h : Reply) (p : Packet) (s : State) : State × Option Answer :=
  let q := u16 p 0
  let c := readQueueCfg p
  let r := queueOf s q
  let flush := u8 p 6 == 1
  let sweep := flush && r.frozen && r.sweeping.isNone
  let s := putQueue s q { r with
    cfg := c, sweeping := if sweep then some h else r.sweeping
    balance := settledBalance s r c, balanceAt := s.time.count }
  let s := if flush || (r.cfg.enable && !c.enable) then flushQueue q s else s
  (retryAll (noteLow s), if sweep then none else some done)

def specQueueConfig : OpSpec :=
  { code := 0x4007, cls := 1, lengthOk := fixedLength 28, checks := checksQueueConfig
    effect := effectQueueConfig }

/-- QUEUE_CONFIG (R214, R220). -/
def execQueueConfig (p : Packet) (s : State) : Host.Outcome State Fault Refusal :=
  .next (runHost specQueueConfig p s)

/-- The sweep of a queue ends: cells whose own link word is uncorrectable are retired, but those that a writer, a
reader or a frame linked since holds, FROZEN is cleared, and the reply follows (R220). (DEDUCED, log entry 72.) -/
def endSweep (q : Nat) (s : State) : State :=
  let r := queueOf s q
  match r.sweeping with
  | none => s
  | some h =>
    let mine := ((s.pkt.pool.badCells.filter (fun e => e.1 == q)).map (fun e => e.2)).filter
      (fun c => (cellFrame s c).isNone)
    -- Of the free list are those that no frame left behind.
    let listed := mine.filter (fun c => cellFree s c)
    let s := retireCells q mine s
    let pool := s.pkt.pool
    let s := putPool s { pool with
      free := pool.free - listed.length, spare := pool.spare.filter (fun c => !listed.contains c) }
    let s := putQueue s q { queueOf s q with frozen := false, sweeping := none, stranded := [] }
    retryAll (answerLater h done (noteLow s))

/-- FLUSH_SWEEP_COMPLETE (R220). -/
def execFlushSweepComplete (queue : Fin 65536) (s : State) : Host.Outcome State Fault Refusal :=
  .next (endSweep queue.val s)

/-! ## The packetizer (R206 to R209, R222, R230) -/

/-- MUTE stops a flow's video packets while its destination is in fallback (R209). -/
def isMuted (s : State) (n : Nat) (f : TxFlow) : Bool :=
  let d := 1440 + 16 * (n / 1024) + f.slot
  f.kind == .video && (destRun s d).inFallback && (destCfg s d).fallback == 2

/-- A packet of a leg as a frame: the legs differ by their templates alone (R209). -/
def legFrame (l : TxLeg) (p : BuiltPacket) : QFrame :=
  storedFrame (packetFrame l.template p.marker p.e p.stamp p.media) p.launch

/-- Offer a packet to a leg's queue; one that is admitted is linked where its EOP cell is written in this row
(R221). (DESIGN CHOICE, log entry 158.) -/
def offerLeg (l : TxLeg) (p : BuiltPacket) (written : Bool) (s : State) : State × TxLeg × Bool :=
  let f := legFrame l p
  if !written && l.held.isEmpty && askCells s l.queue f.cells == .admitted then
    let (s, f) := admitFrame f s
    (s, { l with writing := some f }, false)
  else
    let (s, held, late) := offerHeld l.queue l.held f s
    (s, { l with held := held }, late)

/-- WRITE_LATE of a leg that has discarded a packet (R222). -/
def countLate (late : Bool) (l : TxLeg) (s : State) : State := if late then countWriteLate l.queue s else s

/-- The next packet of a transmit flow is complete (R208, R209, R222). A flow that has been stopped ends where its
frame at the midpoint would start (R206). -/
def packetReady (n : Nat) (written : Bool) (s : State) : State :=
  match txFlowOf s n with
  | none => s
  | some f0 =>
    let f := midpointFrame s n f0
    if f.stopping && f.frameAt != f0.frameAt then endTxFlow n s
    else if isMuted s n f then s
    else
      match buildPacket s n f with
      | none => s
      | some (p, f) =>
        let f := { f with timeUnset := !s.time.timeSet, ancOverflow := sat48 f.ancOverflow p.excess }
        let (s, a, lateA) := offerLeg f.legA p written s
        match f.legB with
        | none => countLate lateA a (putTxFlow s n { f with legA := a })
        | some l =>
          let (s, b, lateB) := offerLeg l p written s
          countLate lateB b (countLate lateA a (putTxFlow s n { f with legA := a, legB := some b }))

/-- PACKETIZER_PACKET: the packets in writing are linked, and the next one asks for its cells (R221, R222). -/
def execPacketizerPacket (flow : Fin 16384) (written : Bool) (s : State) : Host.Outcome State Fault Refusal :=
  .next (packetReady flow.val written (finishFlow flow.val s))

/-- The counter is past a frame's launch time and the LATE_LIMIT of its queue, in the span of R218. -/
def isLate (s : State) (q : Nat) (f : QFrame) : Bool :=
  let limit := f.launch + BitVec.ofNat 64 (594 * (queueOf s q).cfg.lateLimit)
  let d := (s.time.count - limit).toNat % 2 ^ 24
  decide (0 < d ∧ d < 2 ^ 23)

/-- The oldest held packet of a leg is late (R222). -/
def heldLate (s : State) (l : TxLeg) : Bool := match l.held with | f :: _ => isLate s l.queue f | [] => false

/-- A late oldest packet of a leg's hold is discarded and counted, and those behind it ask (R222). -/
def expireHeld (n : Nat) (legB : Bool) (s : State) : State :=
  match txFlowOf s n with
  | none => s
  | some f =>
    match if legB then f.legB else some f.legA with
    | none => s
    | some l =>
      if heldLate s l then
        let rest := { l with held := l.held.drop 1 }
        retryAll (countWriteLate l.queue
          (putTxFlow s n (if legB then { f with legB := some rest } else { f with legA := rest })))
      else s

/-- HELD_PACKET_EXPIRY (R222). -/
def execHeldPacketExpiry (flow : Fin 16384) (legB : Bool) (s : State) : Host.Outcome State Fault Refusal :=
  .next (expireHeld flow.val legB s)

/-- The writer whose frame in front has been refused for longer, where both wait: the take gate. -/
def gateOlder (r : Queue) : Bool :=
  r.stalled.isEmpty || (!r.gateStalled.isEmpty && decide ((r.stalledAt - r.gateStalledAt).toNat < 2 ^ 63
    ∧ r.stalledAt ≠ r.gateStalledAt))

/-- A control frame still refused 1 ms after its first request is dropped, of the writer that has waited longer
(R222). (DESIGN CHOICE, log entry 190.) -/
def dropStalled (q : Nat) (s : State) : State :=
  let gate := gateOlder (queueOf s q)
  match stalledOf (queueOf s q) gate with
  | [] => s
  | _ :: r => countCtrlDrop q (retryStalled gate q r false s)

/-- CTRL_DROP_TIMEOUT (R222). -/
def execCtrlDropTimeout (queue : Fin 65536) (s : State) : Host.Outcome State Fault Refusal :=
  .next (dropStalled queue.val s)

/-- The head frame of a host queue past launch time + LATE_LIMIT is discarded (R226). -/
def dropLateHead (q : Nat) (s : State) : State :=
  match (queueOf s q).frames with
  | [] => s
  | f :: _ => if !isControlQueue q && isLate s q f then retryAll (countHeadLate q (dropHead q s)) else s

/-- HEAD_LATE (R226). -/
def execHeadLate (queue : Fin 65536) (s : State) : Host.Outcome State Fault Refusal :=
  .next (dropLateHead queue.val s)

/-! ## One-step insertion (R246, R248, R249) -/

/-- Where the PTP message of a stored frame begins, in the six layouts of R248. -/
def eventOffset (b : Bytes) : Option Nat :=
  let l := readL2 b
  if l.malformed then none
  else if l.etherType = 0x88F7 then some l.off
  else if templateOk (b.take (if l.etherType = 0x86DD then l.off + 60 else l.off + 40))
      && be16 b (l.off + (if l.etherType = 0x86DD then 42 else 22)) == 319 then
    some (l.off + (if l.etherType = 0x86DD then 48 else 28))
  else none

/-- A message with its originTimestamp and correctionField rewritten for an egress time in 2⁻¹⁶ ns: of a one-step
Sync, and of a one-step Pdelay_Resp (R248). -/
def oneStep (m : PtpMessage) (time : Int) (b : Bytes) : Bytes :=
  let t := timeOfUnits time.toNat
  let put := fun (c : Int) (x : Bytes) => patch 8 (beBytes 8 (c % 2 ^ 64).toNat) x
  match m with
  | .sync => put (correctionOf b + t.frac) (patch 34 (beBytes 6 t.sec ++ beBytes 4 t.ns) b)
  | .pdelayResp =>
    put (correctionOf b + time - stampOf b) (patch 34 (List.replicate 10 0) b)
  | _ => b

/-- The checks of a frame whose PTP message has been rewritten: UDP checksum 0 on IPv4; on IPv6 the last two bytes of
the UDP payload make up for the change (R249). -/
def fixChecks (old new : Bytes) : Bytes :=
  let l := readL2 old
  if l.etherType = 0x88F7 then new
  else if l.etherType = 0x0800 then patch (l.off + 26) [0, 0] new
  else
    let at' := l.off + 40 + be16 old (l.off + 44) - 2
    let body := fun (b : Bytes) => fold16 (sum16 ((b.drop (l.off + 40)).take (at' - (l.off + 40))))
    let sum := fold16 (be16 old at' + body old + (65535 - body new))
    patch at' (beBytes 2 sum) new

/-- A PTP message on which one-step insertion acts: Sync or Pdelay_Resp with twoStepFlag 0 (R248). -/
def oneStepMessage (b : Bytes) : Bool :=
  field b 6 1 / 2 % 2 == 0 && (field b 0 1 % 16 == 0 || field b 0 1 % 16 == 3)

/-- An IPv6 frame with UDP checksum 0 (R249). -/
def noChecksum (b : Bytes) : Bool := (readL2 b).etherType == 0x86DD && be16 b ((readL2 b).off + 46) == 0

/-- A frame as it leaves the port: a PTP event message for one-step insertion carries its egress time, taken when it
actually leaves (R194, R217, R248). -/
def egressFrame (s : State) (n : Nat) (time : Int) (f : QFrame) : QFrame :=
  match eventOffset f.data with
  | some o =>
    if f.ptpEvent && !isTwoStep s n && oneStepMessage (f.data.drop o) && !noChecksum f.data then
      let m := ptpOfCode (field f.data o 1 % 16)
      { f with data := fixChecks f.data (f.data.take o ++ oneStep m time (f.data.drop o)) }
    else f
  | none => f

/-- What the port does beside, as a frame with PTP_EVENT leaves: the egress FIFO, and PTP_PARSE_SKIP for a layout that
it does not recognize, or an IPv6 message for one-step insertion whose checksum is 0 (R248, R249). -/
def parseEvent (n : Nat) (time : Int) (f : QFrame) (s : State) : State :=
  let skip := fun (s : State) =>
    let v := ptpPortOf s n
    note 0x07 3 (putPtpPort s n { v with parseSkip := sat32 v.parseSkip 1 })
  if !f.ptpEvent then s
  else match eventOffset f.data with
    | none => skip s
    | some o =>
      if !isTwoStep s n && oneStepMessage (f.data.drop o) && noChecksum f.data then skip s
      else ptpEgress n (f.data.drop o) time s

/-! ## Scheduling (R223 to R227) -/

/-- A launch time has been reached: units of 32 ticks, compared modulo the span (R218). -/
def launched (s : State) (f : QFrame) : Bool :=
  decide (((s.time.count - f.launch).toNat / 32) % 2 ^ 19 < 2 ^ 18)

/-- Queues of a port, by number. -/
def portQueues (s : State) (n : Nat) : List (Nat × Queue) :=
  s.pkt.queues.filter (fun e => e.1 / 4096 == n / 4 && e.2.cfg.port == n % 4)

/-- A queue is eligible (R223). -/
def isEligible (s : State) (r : Queue) : Bool :=
  r.cfg.enable && !r.frozen && !r.isolated && (r.cfg.rate == 0 || decide (0 ≤ balanceNow s r)) &&
    (match r.frames with | f :: _ => r.cfg.asap || launched s f | [] => false)

/-- The next queue after the one last served, wrapping around (R223). -/
def roundRobin (last : Option Nat) (qs : List Nat) : Option Nat :=
  match last with
  | none => qs.head?
  | some k => match qs.find? (fun q => decide (k < q)) with | some q => some q | none => qs.head?

/-- The queue that a port's scheduler picks (R223). -/
def pickQueue (s : State) (n : Nat) : Option Nat :=
  let ready := (portQueues s n).filter (fun e => isEligible s e.2)
  let top := ready.foldl (fun m e => max m e.2.cfg.priority) 0
  let qs := (ready.filter (fun e => e.2.cfg.priority == top)).map (fun e => e.1)
  roundRobin (tfind (portOf s n).lastServed top) qs

/-- Late head frames of a queue are discarded, up to k of them (R226). -/
def dropLateHeads (q : Nat) : Nat → State → State
  | 0, s => s
  | k + 1, s => dropLateHeads q k (dropLateHead q s)

/-- The late head frames of a port's queues are discarded before any frame is considered (R226, R228). -/
def dropLatePort (n : Nat) (s : State) : State :=
  (portQueues s n).foldl (fun s e => dropLateHeads e.1 e.2.frames.length s) s

/-- The head frame of a queue starts: its cells go in flight, which makes room in the queue, and the shaper pays (R222,
R224, R231). -/
def startFrame (n q : Nat) (s : State) : State :=
  let r := queueOf s q
  match r.frames with
  | [] => s
  | f :: rest =>
    let paid := balanceNow s r - ((f.bytes + 24 : Nat) : Int) * 4752
    let s := putQueue s q { r with
      frames := rest
      balance := if r.cfg.rate = 0 then r.balance else paid
      balanceAt := if r.cfg.rate = 0 then r.balanceAt else s.time.count }
    let pool := s.pkt.pool
    let s := noteLow (putPool s { pool with inFlight := pool.inFlight + f.cells })
    let v := portOf s n
    let (time, s) := stampEgress n s
    let s := putPort s n { v with
      sending := some (q, egressFrame s n time f), lastServed := tput v.lastServed r.cfg.priority q }
    retryAll (parseEvent n time f s)

/-- Discard the frames of a queue whose launch time has been reached, up to k of them (R227). -/
def discardLaunched (n q : Nat) : Nat → State → State
  | 0, s => s
  | k + 1, s =>
    let r := queueOf s q
    match r.frames with
    | [] => s
    | f :: _ =>
      if r.cfg.asap || launched s f then
        let s := countQueue q (fun c => { c with txLinkDown := sat48 c.txLinkDown 1 }) (dropHead q s)
        let s := countPort n (fun c => { c with txLinkDown := sat48 c.txLinkDown 1 }) s
        discardLaunched n q k (raisePacket (faultId 0x05 (n / 4) 14) s)
      else s

/-- A port without link, or isolated, discards (R184, R212, R227). -/
def discardPort (n : Nat) (s : State) : State :=
  retryAll ((portQueues s n).foldl (fun s e => discardLaunched n e.1 e.2.frames.length s) s)

/-- SCHEDULER_PICK at a port (R223, R226, R227). -/
def schedule (n : Nat) (s : State) : State :=
  let p := portOf s n
  if !p.link || p.isolated then discardPort n s
  else
    let s := dropLatePort n s
    if p.paused || p.sending.isSome || !portExists s n then s
    else match pickQueue s n with | some q => startFrame n q s | none => s

/-- SCHEDULER_PICK (R223). -/
def execSchedulerPick (port : Fin 64) (s : State) : Host.Outcome State Fault Refusal :=
  .next (schedule port.val s)

/-- A frame has been read into the port and has left it: its cells are free together, and it counts as sent (R217,
R231). (DESIGN CHOICE, log entry 191.) -/
def endFrame (n : Nat) (s : State) : State :=
  let p := portOf s n
  match p.sending with
  | none => s
  | some (q, f) =>
    let s := sendWire n (wireFrame f.data) (putPort s n { p with sending := none })
    let s := countPort n (fun c => { c with
      txFrames := sat48 c.txFrames 1, txBytes := sat32 c.txBytes (f.bytes + 4) }) s
    let s := countQueue q (fun c => { c with framesOut := sat48 c.framesOut 1 }) s
    let pool := s.pkt.pool
    retryAll (discardCells q f (putPool s { pool with inFlight := pool.inFlight - f.cells }))

/-- FRAME_TX_COMPLETE (R231). -/
def execFrameTxComplete (port : Fin 64) (s : State) : Host.Outcome State Fault Refusal :=
  .next (endFrame port.val s)

end Sys2Proof.Machine
end

