-- ==== Sys2Proof/Machine/React.lean ====
section
/-! DEFINITION. React.lean: a raise of any source with its isolation, the acknowledgement of sources, and
the commands and events of the fault collector (R423 to R441, R400). -/

namespace Sys2Proof.Machine

/-! ## Raising any source (R426, R427) -/

/-- Raise a source: the collector's part, and the isolation of its unit by class. -/
def raise (id : Nat) (s : State) : State :=
  match faultClass id with
  | 0x01 => raiseLane id s
  | 0x02 => raiseFabric id s
  | 0x03 => raiseSdi id s
  | 0x05 => raisePacket id s
  | 0x06 => raiseQueue id s
  | 0x09 => raiseAudio id s
  | 0x0A => raiseComp id s
  | 0x0B => raiseEngine id s
  | _ => raiseCore id s

/-- FAULT_RAISE: an event raises a source (R425, R426). An ID that names no source raises nothing. -/
def execFaultRaise (source : BitVec 16) (s : State) : Host.Outcome State Fault Refusal :=
  .next (clocked (fun s => if (defaultSeverity source.toNat).isSome then raise source.toNat s else s) s)

/-! ## FAULT_READ (R400) -/

/-- STATE byte: STICKY, ESCALATED, ISOLATING. -/
def faultState (f : FaultSource) : Nat := bit f.sticky + 2 * bit f.escalated + 4 * bit f.isolating

def faultEntry (e : Nat × FaultSource) : Bytes :=
  leBytes 2 e.1 ++ leBytes 1 e.2.maxSeverity ++ leBytes 1 (faultState e.2) ++ leBytes 4 e.2.events

/-- Sticky sources from an ID on, of a class or of all, in rising ID. -/
def stickyFrom (s : State) (start cls : Nat) : List (Nat × FaultSource) :=
  s.flt.sources.filter (fun e => e.2.sticky && decide (start ≤ e.1) && (cls == 0 || faultClass e.1 == cls))

def faultReadResults (s : State) (start cls : Nat) : Bytes :=
  let all := stickyFrom s start cls
  let shown := all.take 4095
  leBytes 2 shown.length ++ leBytes 1 (bit (decide (4095 < all.length))) ++ [0] ++ (shown.map faultEntry).flatten

def specFaultRead : OpSpec :=
  { code := 0xA001, cls := 3, lengthOk := fixedLength 4
    checks := fun p _ => firstFail [noTarget p, fieldIn (u8 p 2) 0 0x12 2, reserved p 3 1]
    effect := atOnce (fun p s => (s, done (faultReadResults s (u16 p 0) (u8 p 2)))) }

/-- FAULT_READ (R400). -/
def execFaultRead (p : Packet) (s : State) : Host.Outcome State Fault Refusal := .next (runHost specFaultRead p s)

/-! ## FAULT_ACK (R427, R432, R433) -/

/-- A source whose isolation a lane command ends, and not FAULT_ACK. (DEDUCED, log entry 38.) -/
def laneIsolates (id : Nat) : Bool := faultClass id == 0x01 || faultClass id == 0x02

/-- The source's record after its acknowledgement. (DEDUCED, log entry 38.) -/
def ackedRecord (id : Nat) (f : FaultSource) : FaultSource := { isolating := f.isolating && laneIsolates id }

/-- A packet port is isolated while one of its sources isolates it (R212).
(DEDUCED, log entry 105.) -/
def ackPort (n : Nat) (s : State) : State :=
  let still := [0, 4, 8].any (fun k => (faultOf s (faultId 0x05 (n / 4) (k + n % 4))).isolating)
  putPort s n { portOf s n with isolated := (portOf s n).isolated && still }

/-- The acknowledgement of a QUEUE source: its queues forget that they raised it, and are isolated only by
another (R233). (DEDUCED, log entry 105.) -/
def ackQueues (g idx : Nat) (s : State) : State :=
  let s := (s.pkt.queues.filter (fun e => e.1 / 4096 == g && e.2.blame.getLsbD idx)).foldl (fun s e =>
    let q := queueOf s e.1
    let blame := q.blame &&& ~~~(1#3 <<< idx)
    let still := (List.range 3).any (fun i => blame.getLsbD i && (faultOf s (faultId 0x06 g i)).isolating)
    putQueue s e.1 { q with blame := blame, isolated := q.isolated && still }) s
  retryAll s

/-- What the acknowledgement ends at the unit. (DEDUCED, log entry 105.) -/
def endIsolation (id : Nat) (s : State) : State :=
  let g := faultLoc id
  let i := faultIndex id
  match faultClass id with
  | 0x03 => if i < 10 then ackSdiIn (10 * g + i) s else ackSdiOut (10 * g + (i - 10)) s
  | 0x05 => if i < 12 then ackPort (4 * g + i % 4) s else s
  | 0x06 => if g < 16 then ackQueues g i s else s
  | 0x09 => if i < 16 then ackTdm i s else s
  | 0x0A => ackComp id s
  | 0x0B => if i < 8 then ackEngine (8 * g + i) s else s
  | _ => s

/-- A class leaves the hold when none of its sources raised at CRITICAL is unacknowledged (R432). -/
def leaveHold (s : State) : State :=
  { s with flt := { s.flt with
      hold := s.flt.hold.filter (fun c => s.flt.sources.any (fun e => e.2.critical && faultClass e.1 == c)) } }

/-- Acknowledge one source; one whose sticky bit is clear is left alone. -/
def ackSource (id : Nat) (s : State) : State :=
  let f := faultOf s id
  if !f.sticky then s
  else
    let s := putFault s id (ackedRecord id f)
    leaveHold (if f.isolating then endIsolation id s else if faultClass id = 0x06 then endIsolation id s else s)

/-- The sources that FAULT_ACK names; 0x0000 names every source whose sticky bit is set. -/
def ackNames (s : State) (p : Packet) : List Nat :=
  let ids := (List.range (u16 p 0)).map (fun i => u16 p (4 + 2 * i))
  if ids.contains 0 then (stickyFrom s 0 0).map (fun e => e.1) else ids

def checksFaultAck (p : Packet) (_ : State) : Check :=
  firstFail [
    noTarget p,
    fieldIn (u16 p 0) 1 256 0,
    reserved p 2 2,
    firstBad (fun i (id : Nat) => need (id == 0 || (defaultSeverity id).isSome) (badParam (4 + 2 * i))) 0
      ((List.range (u16 p 0)).map (fun i => u16 p (4 + 2 * i)))]

def specFaultAck : OpSpec :=
  { code := 0xA002, cls := 1, lengthOk := fun p => p.params.length == 4 + 2 * u16 p 0, checks := checksFaultAck
    effect := atOnce (fun p s => ((ackNames s p).foldl (fun s id => ackSource id s) s, done)) }

/-- FAULT_ACK (R433). -/
def execFaultAck (p : Packet) (s : State) : Host.Outcome State Fault Refusal := .next (runHost specFaultAck p s)

/-! ## FAULT_SEVERITY_SET, FAULT_FORCE, CHECK_INVERT (R437 to R439) -/

def checksSeverity (p : Packet) (_ : State) : Check :=
  let id := u16 p 0
  firstFail [
    noTarget p,
    fieldOk ((defaultSeverity id).isSome && faultClass id != 0x12) 0,
    fieldIn (u8 p 2) 0 3 2,
    reserved p 3 1]

def effectSeverity (p : Packet) (s : State) : State × Answer :=
  ({ s with set := { s.set with severities := tset severityDefault s.set.severities (u16 p 0) (u8 p 2) } }, done)

def specSeverity : OpSpec :=
  { code := 0xA003, cls := 1, lengthOk := fixedLength 4, checks := checksSeverity, effect := atOnce effectSeverity }

/-- FAULT_SEVERITY_SET (R437). -/
def execFaultSeveritySet (p : Packet) (s : State) : Host.Outcome State Fault Refusal :=
  .next (runHost specSeverity p s)

/-- Classes of FAULT_FORCE. (DEDUCED, log entry 106.) -/
def mayForce (id : Nat) : Bool :=
  (defaultSeverity id).isSome && (decide (1 ≤ faultClass id ∧ faultClass id ≤ 0x0B) || faultClass id == 0x10)

/-- A forced raise, with the effect that the source's chapter gives it (R306, R350, R438).
(DEDUCED, log entry 106.) -/
def force (id : Nat) (s : State) : State :=
  let i := faultIndex id
  if faultClass id = 0x09 ∧ i < 16 ∧ (tdmOf s i).state = .running then raise id (tdmUnderrun i s)
  else if faultClass id = 0x0B ∧ i < 8 then stopEngine (8 * faultLoc id + i) (raise id s)
  else raise id s

def specForce : OpSpec :=
  { code := 0xA004, cls := 1, lengthOk := fixedLength 4
    checks := fun p _ => firstFail [noTarget p, fieldOk (mayForce (u16 p 0)) 0, reserved p 2 2]
    effect := atOnce (fun p s => (force (u16 p 0) s, done)) }

/-- FAULT_FORCE (R438). -/
def execFaultForce (p : Packet) (s : State) : Host.Outcome State Fault Refusal := .next (runHost specForce p s)

/-- A MEMORY source. -/
def isMemorySource (id : Nat) : Bool := faultClass id == 0x0C && (defaultSeverity id).isSome

def specInvert : OpSpec :=
  { code := 0xA005, cls := 1, lengthOk := fixedLength 4
    checks := fun p s => firstFail [
      noTarget p, fieldOk (isMemorySource (u16 p 0)) 0, fieldIn (u16 p 2) 1 64 2,
      need (tfind s.flt.invert (u16 p 0)).isNone (conflict 0)]
    effect := atOnce (fun p s =>
      ({ s with flt := { s.flt with invert := tput s.flt.invert (u16 p 0) (u16 p 2) } }, done)) }

/-- CHECK_INVERT (R439). -/
def execCheckInvert (p : Packet) (s : State) : Host.Outcome State Fault Refusal := .next (runHost specInvert p s)

/-- Words of a memory are written: as many of an inversion are used up (R439).
(DEDUCED, log entry 107.) -/
def useInversion (id n : Nat) (s : State) : State :=
  match tfind s.flt.invert id with
  | none => s
  | some k =>
    { s with flt := { s.flt with
        invert := if k ≤ n then tdel s.flt.invert id else tput s.flt.invert id (k - n) } }

/-! ## ECC_UNCORRECTED (R25, R219, R303, R350) -/

/-- The port that has a frame of a queue in transmission. -/
def sendingPort (s : State) (q : Nat) : Option Nat :=
  (s.pkt.ports.find? (fun e => match e.2.sending with | some (k, _) => k == q | none => false)).map (fun e => e.1)

/-- A queue freezes; its frame in transmission ends with a complemented FCS (R219).
(DEDUCED, log entry 110.) -/
def freezeQueue (q : Nat) (cell : Option Nat) (s : State) : State :=
  let s := putQueue s q { queueOf s q with frozen := true }
  let p := s.pkt.pool
  let s := match cell with
    | some c => if p.badCells.contains (q, c) || p.gone.contains c then s
      else putPool s { p with badCells := p.badCells ++ [(q, c)] }
    | none => s
  let s := match sendingPort s q with | some n => cutFrame true n s | none => s
  -- Writers that wait for the queue offer their frames to a frozen one, and these are discarded.
  retryAll s

/-- An error of a memory is counted by its source (R25, R26). -/
def countCorrected (id : Nat) (s : State) : State :=
  let s := { s with flt := { s.flt with corrected := tput s.flt.corrected id (((tfind s.flt.corrected id).getD 0) + 1) } }
  if id = faultId 0x0C 31 0 then
    putPool s { s.pkt.pool with linkEccCorrected := sat32 s.pkt.pool.linkEccCorrected 1 }
  else s

/-- A flipped bit of a payload cell reaches the output in its frame (R25). -/
def flipPayload (site : EccSite) (s : State) : State :=
  match site.flip with
  | some (c, b) => changeCell c.val (b.val / 8) (fun x => x ^^^ (1#8 <<< (b.val % 8))) s
  | none => s

/-- What an error does beyond its raise, where its chapter says so. (DEDUCED, log entry 107.) -/
def eccEffect (site : EccSite) (s : State) : State :=
  let id := site.source.toNat
  if id = faultId 0x0C 31 0 then freezeQueue site.queue site.cell s
  else if id = faultId 0x0C 31 1 then
    match site.tdm with | some (p, transmit) => tdmMissed p.val transmit s | none => s
  else s

/-- An engine whose local memory a MEMORY source covers (R440). -/
def engineOfMemory (id : Nat) : Option Nat :=
  if faultLoc id < 16 ∧ 1 ≤ faultIndex id ∧ faultIndex id ≤ 8 then some (8 * faultLoc id + faultIndex id - 1) else none

def eccError (site : EccSite) (s : State) : State :=
  let id := site.source.toNat
  let s := flipPayload site s
  if !isMemorySource id then s
  else if site.corrected then countCorrected id s
  else
    match engineOfMemory id with
    | some p => if (runningKernel s p).isSome then engineStop p .memory s else raiseCore id s
    | none => eccEffect site (raiseCore id s)

/-- ECC_UNCORRECTED (R25). -/
def execEccUncorrected (site : EccSite) (s : State) : Host.Outcome State Fault Refusal := .next (clocked (eccError site) s)

/-! ## THERMAL_THRESHOLD, RAIL_OUT_OF_TOLERANCE (R441) -/

def sensorIndex : Sensor → Nat
  | .gallery g => g.val | .device => 16 | .stackA => 17 | .stackB => 18

def tempOf (s : State) (i : Nat) : Int := tget (fun _ => (0 : Int)) s.chip.temps i

/-- The hottest of sensors lo to lo + n − 1. -/
def hottest (s : State) (lo n : Nat) : Int :=
  (List.range n).foldl (fun m i => max m (tempOf s (lo + i))) (tempOf s lo)

/-- Judge one temperature source: raised at its threshold, and again only after 2 °C of hysteresis.
(DEDUCED, log entry 108.) -/
def judgeTemp (idx : Nat) (limit t : Int) (s : State) : State :=
  if limit ≤ t ∧ s.flt.standing.contains idx = false then
    raiseCore (faultId 0x11 31 idx) { s with flt := { s.flt with standing := s.flt.standing ++ [idx] } }
  else if t ≤ limit - 20 then
    { s with flt := { s.flt with standing := s.flt.standing.filter (fun k => k != idx) } }
  else s

/-- A sensor's reading, and what it raises. -/
def readSensor (sensor : Sensor) (tenths : Int) (s : State) : State :=
  let s := { s with chip := { s.chip with
      temps := tset (fun _ => (0 : Int)) s.chip.temps (sensorIndex sensor) tenths } }
  judgeTemp 2 950 (hottest s 17 2) (judgeTemp 1 1050 (hottest s 0 17) (judgeTemp 0 1000 (hottest s 0 17) s))

/-- THERMAL_THRESHOLD: a sensor reads a temperature, in 0.1 °C (R441). -/
def execThermalThreshold (sensor : Sensor) (tenths : Int) (s : State) : Host.Outcome State Fault Refusal :=
  .next (clocked (readSensor sensor tenths) s)

def railIndex : Rail → Nat
  | .vddCore => 3 | .vddSram => 4 | .vddSds => 5 | .vddaSds => 6 | .vddRsv => 7 | .vppRsv => 8 | .vddIo => 9

/-- RAIL_OUT_OF_TOLERANCE (R441). -/
def execRailOutOfTolerance (rail : Rail) (s : State) : Host.Outcome State Fault Refusal :=
  .next (if !s.chip.rootLocked || s.chip.railsOut.contains rail then s
    else raiseCore (faultId 0x11 31 (railIndex rail)) { s with chip := { s.chip with railsOut := s.chip.railsOut ++ [rail] } })

end Sys2Proof.Machine
end

