-- ==== Sys2Proof/Machine/Counters.lean ====
section
/-! DEFINITION. Counters.lean: COUNTERS_READ in its five groups and TEMP_READ (R180, R210, R232, R386). -/

namespace Sys2Proof.Machine

/-! ## GROUP 0 and GROUP 1: takes and video destinations (R180) -/

def takeItems (s : State) : Bytes :=
  let m := s.mtx
  itemWide m.totals.accepted ++ itemWide m.totals.hung ++ itemWide m.totals.lateHung ++ itemWide m.totals.unstaged
    ++ itemCount m.protectSwitches ++ itemCount m.familyMismatch ++ itemCount m.formatRefused
    ++ itemCount m.takeQueueDrop

def clearTakes (s : State) : State :=
  { s with mtx := { s.mtx with
      totals := {}, protectSwitches := 0, familyMismatch := 0, formatRefused := 0, takeQueueDrop := 0 } }

def takeCounterSpace : StatusSpace := { size := 0, device := some takeItems, clearDevice := clearTakes }

/-- 0 = normal, 1 = in fallback, 2 = on the protection source (R386). -/
def destState (s : State) (d : Nat) : Nat :=
  if (destRun s d).inFallback then 1 else if (destRun s d).onProtection then 2 else 0

def destSpace : StatusSpace := { size := 2304, items := fun s d => itemByte (destState s d) }

/-! ## GROUP 2 and GROUP 3: the cell pool and the egress queues (R232) -/

/-- DEDUCED, log entry 73. -/
def poolItems (s : State) : Bytes :=
  let p := s.pkt.pool
  itemCount (freeCells s) ++ itemCount (queuedCells s) ++ itemCount p.inFlight ++ itemCount p.retired
    ++ itemCount (min p.sharedLow (p.free - unusedCells s)) ++ itemCount p.linkEccCorrected

/-- SHARED_LOW starts again from the free cells above u. (DEDUCED, log entry 73.) -/
def clearPool (s : State) : State :=
  let p := s.pkt.pool
  putPool s { p with sharedLow := p.free - unusedCells s, linkEccCorrected := 0 }

def poolSpace : StatusSpace := { size := 0, device := some poolItems, clearDevice := clearPool }

def queueItems (s : State) (q : Nat) : Bytes :=
  let r := queueOf s q
  let c := r.counters
  itemCount (queueCells r) ++ itemCount c.peakCells ++ itemWide c.framesIn ++ itemWide c.framesOut
    ++ itemWide c.writeLate ++ itemWide c.headLate ++ itemWide c.frozenDrop ++ itemWide c.ctrlDrop
    ++ itemWide c.txLinkDown ++ itemWide c.txCut ++ itemWide c.flushed

def queueSpace : StatusSpace :=
  { size := 65536, items := queueItems
    clear := fun q s => putQueue s q { queueOf s q with counters := {} } }

/-! ## GROUP 4: flows (R210) -/

/-- LEG_SKEW as an offset in 2⁻¹⁶ ns (R205, R387). (DEDUCED, log entry 69.) -/
def skewItem (s : State) (f : RxFlow) : Bytes := itemOffset (legSkew s f * 65536000)

/-- The record of a flow number: its receive flow's counters and leg states; ANC_OVERFLOW and TIME_UNSET
also show its transmit flow's. A number without a flow shows zeros. (DEDUCED, log entry 69.) -/
def flowItems (s : State) (n : Nat) : Bytes :=
  let rx := rxFlowOf s n
  let c : FlowCounters := match rx with | some f => f.counters | none => {}
  let tx := txFlowOf s n
  let anc := match tx with | some t => t.ancOverflow | none => 0
  let unset := (match rx with | some f => f.timeUnset | none => false)
    || (match tx with | some t => t.timeUnset | none => false)
  itemWide c.usedA ++ itemWide c.usedB ++ itemWide c.duplicate ++ itemWide c.early ++ itemWide c.late
    ++ itemCount c.linesIncomplete ++ itemWide c.geometryErr ++ itemCount c.samplesRepeated
    ++ itemWide (sat48 c.ancOverflow anc)
    ++ (match rx with | some f => skewItem s f | none => itemOffset 0)
    ++ itemByte (match rx with | some f => bit (!f.legAUp) | none => 0)
    ++ itemByte (match rx with | some f => bit (!f.legBUp) | none => 0)
    ++ itemFlag unset

def clearFlow (n : Nat) (s : State) : State :=
  let s := match rxFlowOf s n with | some f => putRxFlow s n { f with counters := {} } | none => s
  match txFlowOf s n with | some t => putTxFlow s n { t with ancOverflow := 0 } | none => s

def flowCounterSpace : StatusSpace := { size := 16384, items := flowItems, clear := clearFlow }

/-! ## The commands -/

/-- The index spaces of COUNTERS_READ (R386). -/
def counterSpace (group : Nat) : Option StatusSpace :=
  match group with
  | 0 => some takeCounterSpace
  | 1 => some destSpace
  | 2 => some poolSpace
  | 3 => some queueSpace
  | 4 => some flowCounterSpace
  | _ => none

def specCountersRead : OpSpec := specStatus 0xE001 counterSpace

/-- COUNTERS_READ (R386). -/
def execCountersRead (p : Packet) (s : State) : Host.Outcome State Fault Refusal := .next (runHost specCountersRead p s)

/-- 16 galleries, device, stack A, stack B, 2 reserved bytes. -/
def tempResults (s : State) : Bytes := ((List.range 19).map (fun i => itemShort (tempOf s i))).flatten ++ [0, 0]

def specTempRead : OpSpec :=
  { code := 0xE003, cls := 3, lengthOk := fixedLength 0, checks := fun p _ => noTarget p
    effect := atOnce (fun _ s => (s, done (tempResults s))) }

/-- TEMP_READ (R538). -/
def execTempRead (p : Packet) (s : State) : Host.Outcome State Fault Refusal := .next (runHost specTempRead p s)

end Sys2Proof.Machine
end

