-- ==== Sys2Proof/Machine/LinkOps.lean ====
section
/-! DEFINITION. LinkOps.lean: the message channel and the containers of a fabric lane (R80 to R104). -/

namespace Sys2Proof.Machine

/-- A partner violation: counted, and the lane's FABRIC source raised (R104). -/
def violate (f : Nat) (g : LinkCounters → LinkCounters) (s : State) : State :=
  raiseFabric (linkFault f) (countLink f g s)

/-! ## Message channel, receive side (R98 to R104) -/

/-- CREDIT_LIMIT that a lane reports: ACK plus its free receive buffers (R98). -/
def creditLimit (l : Link) : BitVec 16 := l.rxNext + BitVec.ofNat 16 (64 - l.rxHeld)

/-- Release n receive buffers (R100). -/
def releaseBuffers (f n : Nat) (s : State) : State :=
  let l := linkOf s f
  putLink s f { l with rxHeld := l.rxHeld - n, creditDirty := true }

/-- A report passes the three tests of R101. -/
def reportFits (l : Link) (ack limit : BitVec 16) : Bool :=
  decide ((ack - l.lastAck).toNat ≤ l.inFlight ∧ (limit - l.lastLimit).toNat < 32768 ∧ (limit - ack).toNat ≤ 64)

/-- Apply a reported ACK and CREDIT_LIMIT (R100, R101). -/
def applyReport (f : Nat) (ack limit : BitVec 16) (s : State) : State :=
  let l := linkOf s f
  let a := (ack - l.lastAck).toNat
  let k := (limit - l.lastLimit).toNat
  if reportFits l ack limit then
    putLink s f { l with
      retry := l.retry.drop a, inFlight := l.inFlight - a, rxOccupancy := l.rxOccupancy + a - k
      sendCredits := l.sendCredits + k, lastAck := ack, lastLimit := limit
      rewinds := if a = 0 then l.rewinds else 0 }
  else violate f (fun c => { c with creditViol := sat32 c.creditViol 1 }) s

/-- Rewind: every cell not acknowledged is due again (R100, R102). (DEDUCED, log entry 30.) -/
def rewind (f : Nat) (s : State) : State :=
  let l := linkOf s f
  let s := putLink s f { l with
    sendCredits := l.sendCredits + l.inFlight, inFlight := 0, resend := l.retry.length
    rewinds := l.rewinds + 1 }
  if l.rewinds + 1 = 16 then raiseFabric (linkFault f) s else s

/-- Owe a RETRY_REQ, unless one was owed at this ACK less than 1 ms ago (R102). -/
def oweRetry (f : Nat) (s : State) : State :=
  let l := linkOf s f
  let hold := match l.retryHold with
    | some (a, t) => a == l.rxNext && !countReached s.time.count t
    | none => false
  if hold then s
  else putLink s f { l with owesRetry := true, retryHold := some (l.rxNext, s.time.count + 594000) }

/-- Whether the messages of a type that arrive on a lane wait for the twin unit to take them; every
other message is taken at once (R99, R490). -/
def waitsForTwin (s : State) (f type : Nat) : Bool :=
  s.set.twinLanes.contains f && (type == 1 || type == 2 || type == 4)

/-- A message has come whole (R98, R99, R104). -/
def messageDone (f : Nat) (cells : List Cell) (s : State) : State :=
  let n := cells.length
  match cells with
  | [] => s
  | c :: _ =>
    if 5 ≤ c.msgType then
      violate f (fun x => { x with msgUnknown := sat32 x.msgUnknown 1 }) (releaseBuffers f n s)
    else if waitsForTwin s f c.msgType then
      let l := linkOf s f
      putLink s f { l with inbox := l.inbox ++ [(c.msgType, n, (cells.map (fun c => c.data)).flatten)] }
    else
      let s := releaseBuffers f n s
      if c.msgType = 3 then timeReceived f (cells.map (fun c => c.data)).flatten c.again s else s

/-- A cell in order and with a buffer joins the message in progress (R98, R104). (DEDUCED, log entry 184.) -/
def joinMessage (f : Nat) (c : Cell) (s : State) : State :=
  let l := linkOf s f
  let bad := c.data.length == 0 || 248 < c.data.length
    || (c.first == l.rxPartial.isEmpty) == false || 32 ≤ l.rxPartial.length
  if l.rxDiscard && !c.first then
    releaseBuffers f 1 (putLink s f { l with rxDiscard := !c.last })
  else if bad then
    let s := putLink s f { l with rxPartial := [], rxDiscard := !c.last }
    violate f (fun x => { x with msgMalformed := sat32 x.msgMalformed 1 })
      (releaseBuffers f (l.rxPartial.length + 1) s)
  else if c.last then
    messageDone f (l.rxPartial ++ [c]) (putLink s f { l with rxPartial := [], rxDiscard := false })
  else putLink s f { l with rxPartial := l.rxPartial ++ [c], rxDiscard := false }

/-- Receive one cell that is not EMPTY (R102, R104). One whose sequence number has been seen or passed before comes
again (R255). (DEDUCED, log entry 76.) -/
def receiveCell (f : Nat) (c : Cell) (s : State) : State :=
  let l := linkOf s f
  let c := { c with again := decide ((l.rxSeen - (c.seq + 1)).toNat < 32768) }
  let l := { l with rxSeen := if c.again then l.rxSeen else c.seq + 1 }
  let s := putLink s f l
  let d := (c.seq - l.rxNext).toNat
  if d = 0 then
    if 64 ≤ l.rxHeld then
      let s := putLink s f { l with owesResync := true }
      violate f (fun x => { x with noCreditDrop := sat32 x.noCreditDrop 1 }) s
    else
      let s := putLink s f { l with rxNext := l.rxNext + 1, rxHeld := l.rxHeld + 1, creditDirty := true
                                    retryHold := none }
      joinMessage f c (countLink f (fun x => { x with cellsRcvd := sat32 x.cellsRcvd 1 }) s)
  else if d < 32768 then oweRetry f s
  else countLink f (fun x => { x with dupCell := sat32 x.dupCell 1 }) s

/-- A cell's header word and its data words, read (R98). -/
def readCell (ws : List Word64) : Cell × BitVec 16 × BitVec 16 :=
  let h := ws.headD 0
  let n := (h.extractLsb' 54 8).toNat
  ({ seq := h.extractLsb' 0 16, msgType := (h.extractLsb' 48 4).toNat, first := h.getLsbD 52
     last := h.getLsbD 53
     data := if n ≤ 248 then (wordBytes (ws.drop 1)).take n else List.replicate n 0 },
   h.extractLsb' 16 16, h.extractLsb' 32 16)

/-- Receive one of the four cells of a MESSAGE block. -/
def receiveCellWords (f : Nat) (ws : List Word64) (s : State) : State :=
  let (c, ack, limit) := readCell ws
  let s := applyReport f ack limit s
  if c.msgType = 0 then s else receiveCell f c s

/-- Receive a MESSAGE block (R98). -/
def receiveMessage (f : Nat) (ws : List Word64) (s : State) : State :=
  let s := receiveCellWords f (ws.take 32) s
  let s := receiveCellWords f ((ws.drop 32).take 32) s
  let s := receiveCellWords f ((ws.drop 64).take 32) s
  receiveCellWords f ((ws.drop 96).take 32) s

/-- Receive a CONTROL block (R103, R104). A RETRY_REQ whose report is refused still rewinds, and a CREDIT_RESYNC
whose report is refused acts as a RETRY_REQ alone (R101). (DEDUCED, log entry 183.) -/
def receiveControl (f : Nat) (w : Word64) (s : State) : State :=
  let ack := w.extractLsb' 16 16
  let limit := w.extractLsb' 32 16
  let free := (w.extractLsb' 48 16).toNat
  match (w.extractLsb' 0 8).toNat with
  | 1 => applyReport f ack limit s
  | 2 =>
    let s := countLink f (fun c => { c with retryReqRcvd := sat32 c.retryReqRcvd 1 }) s
    rewind f (applyReport f ack limit s)
  | 3 =>
    let s := countLink f (fun c => { c with creditResyncRcvd := sat32 c.creditResyncRcvd 1 }) s
    let applied := reportFits (linkOf s f) ack limit
    let s := rewind f (applyReport f ack limit s)
    let free := min free 64
    if applied then putLink s f { linkOf s f with sendCredits := free, rxOccupancy := 64 - free } else s
  | _ => violate f (fun c => { c with unknownType := sat32 c.unknownType 1 }) s

/-! ## Message channel, send side (R79, R98, R103) -/

/-- The header word of a cell. -/
def cellHeader (l : Link) (c : Cell) : Word64 :=
  BitVec.ofNat 64 (c.seq.toNat + l.rxNext.toNat * 2 ^ 16 + (creditLimit l).toNat * 2 ^ 32
    + c.msgType * 2 ^ 48 + bit c.first * 2 ^ 52 + bit c.last * 2 ^ 53 + c.data.length * 2 ^ 54)

/-- The 32 words of a cell. -/
def cellWords (l : Link) (c : Cell) : List Word64 := cellHeader l c :: bytesWords 31 c.data

/-- An EMPTY cell carries ACK and CREDIT_LIMIT only. -/
def emptyCell : Cell := { seq := 0, msgType := 0, first := false, last := false, data := [] }

/-- The next cell to send, if one may be sent, and the link after it (R79, R100). -/
def takeCell (l : Link) : Option Cell × Link :=
  if l.sendCredits = 0 then (none, l)
  else if 0 < l.resend then
    (l.retry[l.retry.length - l.resend]?,
      { l with resend := l.resend - 1, sendCredits := l.sendCredits - 1, inFlight := l.inFlight + 1
               counters := { l.counters with cellsRetx := sat32 l.counters.cellsRetx 1 } })
  else
    match l.sendQueue with
    | [] => (none, l)
    | c :: rest =>
      if 64 ≤ l.retry.length then (none, l)
      else
        let c := { c with seq := l.nextSeq }
        (some c,
          { l with sendQueue := rest, retry := l.retry ++ [c], nextSeq := l.nextSeq + 1
                   sendCredits := l.sendCredits - 1, inFlight := l.inFlight + 1
                   counters := { l.counters with cellsSent := sat32 l.counters.cellsSent 1 } })

/-- The words of n cell places. -/
def takeCells4 : Nat → Link → List Word64 × Link
  | 0, l => ([], l)
  | n + 1, l =>
    let (c, l') := takeCell l
    let (ws, l'') := takeCells4 n l'
    (cellWords l (c.getD emptyCell) ++ ws, l'')

/-- Word 0 of a CONTROL block (R103). (DEDUCED, log entry 35.) -/
def controlWord (l : Link) (code free : Nat) : Word64 :=
  BitVec.ofNat 64 (code + l.rxNext.toNat * 2 ^ 16 + (creditLimit l).toNat * 2 ^ 32 + free * 2 ^ 48)

/-- Cells wait and may be sent. -/
def cellsDue (l : Link) : Bool := 0 < l.sendCredits && (0 < l.resend || (!l.sendQueue.isEmpty && l.retry.length < 64))

/-- What fills a message slot in LOCKED: type, payload words, and the link after it (R79).
(DEDUCED, log entry 35.) -/
def fillMessageSlot (l : Link) : Nat × List Word64 × Link :=
  if l.owesResync then
    (3, [controlWord l 3 (64 - l.rxHeld)],
      { l with owesResync := false, creditDirty := false
               counters := { l.counters with creditResyncSent := sat32 l.counters.creditResyncSent 1 } })
  else if l.owesRetry then
    (3, [controlWord l 2 0],
      { l with owesRetry := false, creditDirty := false
               counters := { l.counters with retryReqSent := sat32 l.counters.retryReqSent 1 } })
  else if cellsDue l then
    let (ws, l') := takeCells4 4 l
    (2, ws, { l' with creditDirty := false })
  else if l.creditDirty then (3, [controlWord l 1 0], { l with creditDirty := false })
  else (0, [], l)

/-! ## Segments (R83 to R93) -/

/-- Format of the frames that a fabric source announces, once it has. -/
def announcedFormat (s : State) (n : Nat) : Option Nat :=
  if (fabricSource s n).starts = 0 then none else some (Config.formatOfPid (fabricSource s n).pid)

/-- A segment header that no rule allows: reserved type, a FRAME_START of other than two words, or a LINE
outside the announced format (R88, R91). (DEDUCED, log entry 34.) -/
def segmentMalformed (s : State) (n : Nat) (h : SegHeader) : Bool :=
  5 ≤ h.type || (h.type == 4 && h.words != 2) || (match announcedFormat s n with
    | some f =>
      if h.type = 1 then h.line == 0 || decide (fieldLines f < h.line)
      else if h.type = 2 ∨ h.type = 3 then decide (formatTotalLines f < h.line)
      else false
    | none => false)

/-- Two arrivals lie one frame period apart, to the nearest period (R92).
(DEDUCED, log entry 33.) -/
def onePeriodApart (f : Nat) (a b : Word64) : Bool :=
  let d := (b - a).toNat
  decide (frameTicks f ≤ 2 * d ∧ 2 * d < 3 * frameTicks f)

/-- Every member of the bond of a fabric source is lost, and must announce itself again (R90, R92). -/
def loseFabricBond (n : Nat) (s : State) : State :=
  let (b, k) := sourceBond s n
  (List.range k).foldl (fun s i => loseSource (b + i) s) s

/-- The bond of a fabric source is usable once every member has announced itself (R90, R92). -/
def gainFabricBond (n : Nat) (s : State) : State :=
  let (b, k) := sourceBond s n
  let members := (List.range k).map (fun i => b + i)
  if members.all (fun m => (fabricSource s m).good) then
    members.foldl (fun s m =>
      let v := fabricSource s m
      gainSource m (Config.formatOfPid v.pid) v.family v.pid s) s
  else s

/-- Another member of the same bond has announced another hang for this frame: one whose FRAME_START came
less than half a frame period ago (R90). (DEDUCED, log entry 33.) -/
def bondSplit (s : State) (n : Nat) (hang : Word) : Bool :=
  let (b, k) := sourceBond s n
  (List.range k).any (fun i =>
    let v := fabricSource s (b + i)
    b + i != n && v.starts != 0 && v.hang != hang
      && decide (2 * (s.time.count - v.arrivedAt).toNat < frameTicks (Config.formatOfPid v.pid)))

/-- A fabric source's container is carried by a LOCKED lane (R81, R92). -/
def carriesSource (s : State) (n : Nat) : Bool := decide (n % 5 < carriedContainers s (n / 5))

/-- The line in reception is complete, or ends here: it goes to the matrices, black where words are lost
(R85, R91). -/
def finishLine (n : Nat) (s : State) : State :=
  let v := fabricSource s n
  match v.line, announcedFormat s n with
  | some x, some f =>
    presentLine n { second := x.second, line := x.line
                    samples := seenSamples (lineSampleCount f) 0 (seenBits x.words) }
      (putFabricSource s n { v with line := none })
  | _, _ => putFabricSource s n { v with line := none }

/-- Data words of VIDEO segments join their line (R85). -/
def receiveVideo (n : Nat) (h : SegHeader) (ws : List (Option Word64)) (s : State) : State :=
  let same := match (fabricSource s n).line with | some x => x.line == h.line && x.second == h.field | none => false
  let s := if same then s else finishLine n s
  let v := fabricSource s n
  let x : RxLine := v.line.getD { second := h.field, line := h.line, words := [] }
  let x := { x with words := x.words ++ ws }
  let s := putFabricSource s n { v with line := some x }
  match announcedFormat s n with
  | some f => if lineWordCount (lineSampleCount f) ≤ x.words.length then finishLine n s else s
  | none => s

/-- The sample periods of an AUDIO segment; of a bond, member 0 alone carries audio (R86, R90). -/
def receiveAudio (n : Nat) (periods : List (List Word)) (s : State) : State :=
  if (sourceBond s n).1 = n then presentPeriods n periods s else s

/-- The records of an ANC segment (R87). (DEDUCED, log entry 164.) -/
def receiveAnc (n : Nat) (h : SegHeader) (ws : List Word64) (s : State) : State :=
  let v := fabricSource s n
  let own := if !h.cont then ws else if v.ancPart.isEmpty then [] else v.ancPart ++ ws
  let (ps, left) := readRecords h.line own.length own
  ps.foldl (fun s p => presentAnc n p s) (putFabricSource s n { v with ancPart := left })

/-- A frame whose FRAME_START is lost continues the identity of the frame before it: payload ID and family, at the
hang that the family's own count gives the frame (R91). (DEDUCED, log entry 164.) -/
def continueFrame (n : Nat) (s : State) : State :=
  let s := finishLine n s
  let v := fabricSource s n
  if v.starts = 0 then s
  else beginFrame n v.pid (putFabricSource s n { v with hang := frameHang s v.family, ancPart := [] })

/-- What a segment with a lost word gives: black, the last good samples again, nothing, or the identity of the frame
before (R91). A segment whose header is lost belongs to the line in reception, if one is.
(DEDUCED, log entry 164.) -/
def segmentLost (n : Nat) (header : Option Word64) (s : State) : State :=
  let noAnc := fun (s : State) => putFabricSource s n { fabricSource s n with ancPart := [] }
  match header.map readSegHeader with
  | some h =>
    if h.type = 1 then receiveVideo n h (List.replicate h.words none) s
    else if h.type = 2 then (List.range 16).foldl (fun s k => repeatSample n k (h.words / 8) s) s
    else if h.type = 3 then noAnc s
    else if h.type = 4 then continueFrame n s
    else s
  | none =>
    let s := noAnc s
    match (fabricSource s n).line, announcedFormat s n with
    | some x, some f =>
      receiveVideo n { field := x.second, line := x.line }
        (List.replicate (min 31 (lineWordCount (lineSampleCount f) - x.words.length)) none) s
    | _, _ => s

/-- A FRAME_START segment of source n on lane f (R88, R90, R92, R93). (DEDUCED, log entry 33.)
(DEDUCED, log entry 165.) -/
def frameStart (f n : Nat) (w1 w2 : Word64) (s : State) : State :=
  let pid := w1.extractLsb' 0 32
  let fam := (w1.extractLsb' 32 2).toNat
  let hang := w2.extractLsb' 0 32
  let s := finishLine n s
  let v := fabricSource s n
  let same := v.starts != 0 && v.pid == pid && v.family == fam
  let apart := onePeriodApart (Config.formatOfPid pid) v.arrivedAt s.time.count
  let good := same && (v.good || apart)
  let split := good && bondSplit s n hang
  let s := putFabricSource s n
    { v with pid := pid, family := fam, hang := hang, starts := if good then 2 else 1
             arrivedAt := s.time.count, good := good && !split, ancPart := [] }
  let s := if (v.good && !same) || split then loseFabricBond n s else s
  let s := if good && !split && carriesSource s n then gainFabricBond n s else s
  let s := beginFrame n pid s
  if familyOn s fam && hang != (familyOf s fam).hang then
    violate f (fun c => { c with hangSkew := sat32 c.hangSkew 1 }) s
  else s

/-- A segment has ended (R83, R84, R91). (DEDUCED, log entry 164.) (DEDUCED, log entry 185.) -/
def segmentDone (f c : Nat) (g : SegmentRx) (s : State) : State :=
  let n := 5 * f + c
  if g.lost then segmentLost n g.header (countLink f (fun x => { x with segErrored := sat32 x.segErrored 1 }) s)
  else
    match g.header with
    | none => s
    | some w =>
      let h := readSegHeader w
      let data := g.words.take h.words
      if segmentMalformed s n h then
        segmentLost n none (violate f (fun x => { x with segMalformed := sat32 x.segMalformed 1 }) s)
      else match h.type with
        | 1 => receiveVideo n h (data.map some) s
        | 2 => receiveAudio n ((pieces 8 3 data).map readAudioWords) s
        | 3 => receiveAnc n h data s
        | 4 => frameStart f n (data.getD 0 0) (data.getD 1 0) s
        | _ => s

/-- One container word, or its loss (R80, R83, R91). (DEDUCED, log entry 36.) -/
def feedWord (f c idx : Nat) (w : Option Word64) (s : State) : State :=
  let l := linkOf s f
  let g := tget (fun _ => ({} : SegmentRx)) l.segments c
  let g := if idx % 32 = 0 then { header := w, words := [], lost := w.isNone }
    else match w with
      | some w => { g with words := g.words ++ [w] }
      | none => { g with lost := true }
  let s := putLink s f { l with segments := tset (fun _ => {}) l.segments c g }
  if idx % 32 = 31 then segmentDone f c g s else s

/-- The words of container slot j of lane f, from word i on (R80). -/
def feedSlot (f m j : Nat) : Nat → List (Option Word64) → State → State
  | _, [], s => s
  | i, w :: rest, s =>
    let k := 128 * j + i
    feedSlot f m j (i + 1) rest (feedWord f (k % m) (k / m) w s)

/-- Containers that a lane carries at its rate. -/
def laneContainers (s : State) (f : Nat) : Nat := containersAt (laneOf s f).rate

/-- Use, or lose, the words of a container slot (R80, R91).
(DEDUCED, log entry 34; DEDUCED, log entry 138.) -/
def useSlot (f rate slot : Nat) (words : Option (List Word64)) (s : State) : State :=
  let m := containersAt rate
  if m = 0 then s
  else
    let ws := match words with
      | some ws => (padWords 128 ws).map some
      | none => List.replicate 128 none
    feedSlot f m (containerIndex slot) 0 ws s

/-! ## Plane pairs (R95 to R97) -/

/-- Raise the source of plane pair k (R97, R106): it isolates nothing. -/
def raisePair (k : Nat) (s : State) : State := raiseCore (pairFault (k / 8) (k % 8)) s

/-- Change a pair's record. -/
def setPair (k : Nat) (g : Pair → Pair) (s : State) : State := putPair s k (g (pairOf s k))

/-- Release a container slot of pair k, whose primary lane is a, at a rate (R96). (DEDUCED, log entry 32.) -/
def releaseSlot (k a rate slot : Nat) (prim sec : Option PairCopy) (s : State) : State :=
  match prim.filter (fun c => c.good), sec.filter (fun c => c.good) with
  | some p, some q =>
    let s := setPair k (fun v => { v with plane0Used := sat48 v.plane0Used 1 }) s
    let s := if p.crc = q.crc then s
      else raisePair k (setPair k (fun v => { v with mismatch := sat32 v.mismatch 1 }) s)
    useSlot a rate slot (some p.words) s
  | some p, none =>
    useSlot a rate slot (some p.words) (setPair k (fun v => { v with plane0Used := sat48 v.plane0Used 1 }) s)
  | none, some q =>
    useSlot a rate slot (some q.words) (setPair k (fun v => { v with plane1Used := sat48 v.plane1Used 1 }) s)
  | none, none =>
    useSlot a rate slot none (setPair k (fun v => { v with bothBad := sat32 v.bothBad 1 }) s)

/-- A slot time and a bit time at a rate code, in 10⁻⁵ ticks (R46, R52). -/
def slotTime (rate : Nat) : Int := 8904192 * 2 ^ (3 - rate)
def bitTime (rate : Nat) : Int := 1056 * 2 ^ (3 - rate)

/-- The 250 ns between the nominal end of a slot and its release, in 10⁻⁵ ticks (R95). -/
def releaseDelay : Int := 14850000

/-- Slots from one position to another, negative backward. -/
def signedSlots (a b : Nat × Nat) : Int :=
  let d := slotsBetween a b
  if d < 98304 then d else (d : Int) - 196608

/-- Now, in 10⁻⁵ ticks. -/
def fineNow (s : State) : Int := s.time.count.toNat * 100000

/-- Bits by which a block with n stuff bits exceeds its slot (R58). (DEDUCED, log entry 159.) -/
def slotExcess (n : Nat) : Nat := if 128 < n then (n - 128 + 1) / 2 * 2 else 0

/-- A container slot of lane f has come, its block with n stuff bits: the nominal end of its slot excludes the stuff
lag, the block's own excess too (R58, R95). -/
def noteEnd (f : Nat) (p : Nat × Nat) (n : Nat) (s : State) : State :=
  let l := linkOf s f
  let lag : Nat := l.rxLag + slotExcess n
  putLink s f { l with rxEnd := some (p, fineNow s - lag * bitTime (laneOf s f).rate) }

/-- Arrival of the secondary less that of the primary, for one slot, in 10⁻⁵ ticks. -/
def skewNow (s : State) (a b : Nat) : Option Int :=
  match (linkOf s a).rxEnd, (linkOf s b).rxEnd with
  | some (p, x), some (q, y) => some (y - (x + signedSlots p q * slotTime (laneOf s a).rate))
  | _, _ => none

/-- Fix a schedule on lane r of pair k, from a slot on (R95). (DEDUCED, log entry 32.) -/
def fixSchedule (k r : Nat) (next : Nat × Nat) (s : State) : State :=
  match (linkOf s r).rxEnd with
  | some (p, x) =>
    setPair k (fun v => { v with
      reference := r
      schedule := some { next := next, endAt := x + signedSlots p next * slotTime (laneOf s r).rate } }) s
  | none => s

/-- Both lanes of a pair are LOCKED: their rates are compared, the skew is measured, and the schedule is fixed
if none stands (R95, R97). The faster lane alone is the reference while the rates differ. (DEDUCED, log entry 32.) -/
def judgePair (k a b : Nat) (s : State) : State :=
  match skewNow s a b with
  | none => s
  | some d =>
    let ra := (laneOf s a).rate
    let rb := (laneOf s b).rate
    let v := pairOf s k
    let s := if ra ≠ rb ∧ !v.rateSplit then raisePair k s else s
    let fast := if ra < rb then b else a
    let s := setPair k (fun v => { v with rateSplit := decide (ra ≠ rb), skew := d, skewNs := Int.tdiv d 59400 }) s
    let start := fun (r : Nat) => match v.released with
      | some p => nextSlot p
      | none => match (linkOf s r).rxEnd with | some (p, _) => p | none => (0, 0)
    match v.schedule with
    | none => let r := if ra ≠ rb then fast else if d < 0 then b else a; fixSchedule k r (start r) s
    | some x => if ra ≠ rb ∧ v.reference ≠ fast then fixSchedule k fast x.next s else s

/-- An arrival difference for one slot that lies within what R95 allows as skew, 100 ns, or within half a slot: the
lanes bring the same SLOT and CAL at the same time (R95, R97). (DEDUCED, log entry 32.) -/
def lanesAgree (rate : Nat) (d : Int) : Bool :=
  decide (d.natAbs ≤ 5940000 ∨ 2 * d.natAbs ≤ (slotTime rate).toNat)

/-- Whether the lanes' SLOT and CAL agree at a container slot of the schedule; after 8 container slots in a row
without agreement the reference lane alone is used (R97). (DEDUCED, log entry 32.) -/
def judgeAgreement (k a b : Nat) (s : State) : State :=
  match skewNow s a b with
  | some d =>
    if lanesAgree (laneOf s a).rate d then setPair k (fun v => { v with disagreements := 0, slotSplit := false }) s
    else
      let n := (pairOf s k).disagreements + 1
      let s := setPair k (fun v => { v with disagreements := n, slotSplit := v.slotSplit || decide (8 ≤ n) }) s
      if n = 8 then raisePair k s else s
  | none => s

/-- Release the next slot of the schedule (R95, R96). (DEDUCED, log entry 32.) -/
def releaseNext (k a b : Nat) (s : State) : State :=
  let v := pairOf s k
  match v.schedule with
  | none => s
  | some x =>
    let p := x.next
    let rate := (laneOf s v.reference).rate
    let s := putPair s k { v with
      primary := v.primary.filter (fun c => (c.slot, c.cal) != p)
      secondary := v.secondary.filter (fun c => (c.slot, c.cal) != p)
      schedule := some { x with next := nextSlot p, endAt := x.endAt + slotTime rate } }
    if isContainerSlot p.1 ∧ containersAt rate ≠ 0 then
      let other := if v.reference = a then b else a
      let s := if laneLocked s other && !v.rateSplit then judgeAgreement k a b s else s
      let alone := v.rateSplit || (pairOf s k).slotSplit
      let pick := fun (lane : Nat) (cs : List PairCopy) =>
        if alone && lane != v.reference then none else cs.find? (fun c => (c.slot, c.cal) == p)
      releaseSlot k a rate p.1 (pick a v.primary) (pick b v.secondary) s
    else s

def releaseTimes (k a b : Nat) : Nat → State → State
  | 0, s => s
  | n + 1, s => releaseTimes k a b n (releaseNext k a b s)

/-- Release every slot whose time has come (R95). (DEDUCED, log entry 32.) -/
def releaseDue (k a b : Nat) (s : State) : State :=
  match (pairOf s k).schedule with
  | none => s
  | some x =>
    let past := fineNow s - (x.endAt + releaseDelay)
    if past < 0 then s
    else releaseTimes k a b ((past / slotTime (laneOf s (pairOf s k).reference).rate).toNat + 1) s

/-- A copy that waits for its release; one whose slot has been released is late (R95, R97).
(DEDUCED, log entry 32.) -/
def addCopy (k a f : Nat) (c : PairCopy) (fresh : Bool) (s : State) : State :=
  let v := pairOf s k
  match v.schedule with
  | none => s
  | some x =>
    let p := (c.slot, c.cal)
    let s := if f = v.reference then
        match (linkOf s f).rxEnd with
        | some (q, e) =>
          putPair s k { v with
            schedule := some { x with endAt := e + signedSlots q x.next * slotTime (laneOf s f).rate + x.offset } }
        | none => s
      else s
    if (v.rateSplit || v.slotSplit) && f != v.reference then s
    else if signedSlots x.next p < 0 then
      if fresh then s else raisePair k (setPair k (fun v => { v with lateCopy := sat32 v.lateCopy 1 }) s)
    else setPair k (fun v =>
      if f = a then { v with primary := v.primary ++ [c] } else { v with secondary := v.secondary ++ [c] }) s

/-- A copy of a container slot arrives on lane f of pair k, in a block with n stuff bits: it waits for its release, or
is used at once while no schedule stands (R95 to R97). (DEDUCED, log entry 32.) -/
def mergeCopy (k a b f n : Nat) (c : PairCopy) (s : State) : State :=
  let s := noteEnd f (c.slot, c.cal) n s
  let had := (pairOf s k).schedule.isSome
  let s := if laneLocked s a && laneLocked s b then judgePair k a b s else s
  if (pairOf s k).schedule.isSome then
    let s := releaseDue k a b s
    addCopy k a f c (!had) s
  else
    let s := setPair k (fun v => { v with released := some (c.slot, c.cal) }) s
    let rate := (laneOf s f).rate
    if containersAt rate = 0 then s
    else if f = a then releaseSlot k a rate c.slot (some c) none s else releaseSlot k a rate c.slot none (some c) s

end Sys2Proof.Machine
end

