-- ==== Sys2Proof/Machine/FabricLink.lean ====
section
/-! DEFINITION. FabricLink.lean: the fabric lane events (R52 to R64, R75 to R104) and FABRIC_MAP,
FABRIC_PLANE_PAIR and FABRIC_STATUS. -/

namespace Sys2Proof.Machine

/-! ## Hunting and verifying (R60, R62, R63) -/

/-- Read a CAPABILITY block outside LOCKED (R63, R78). (DEDUCED, log entry 160.) -/
def readCapability (f : Nat) (b : Block) (s : State) : State :=
  if headerType b.header = 4 ∧ !isIdleSlot (headerSlot b.header) then
    let w := natOfBits (b.payload.take 64)
    let v := laneOf s f
    let pass := w / 256 % 2 == 1 && w / 512 % 2 == 1 && w / 16 % 16 == v.rate
    putLane s f { v with partnerCeiling := some (min (w % 16) 3), partnerPass := v.partnerPass || pass }
  else s

/-- The agreed ceiling (R63). -/
def agreedCeiling (s : State) (f : Nat) : Nat :=
  min (laneCfg s f).rate ((laneOf s f).partnerCeiling.getD 0)

/-- FB_BASE ends once it is locked and knows the partner's ceiling (R62). -/
def leaveBase (f : Nat) (s : State) : State :=
  let v := laneOf s f
  if v.state = .fbBase ∧ v.goodRun = 9 ∧ v.partnerCeiling.isSome then
    if 0 < agreedCeiling s f then
      putLane s f { v with state := .fbCheck, goodRun := 0, lastPassed := 0, stageWaiting := true, partnerPass := false }
    else putLane s f { v with state := .hunt, goodRun := 0, rate := 0 }
  else s

/-- A hunting receiver meets a slot as it sees it (R50, R60). -/
def huntSlot (f : Nat) (r : RxSlot) (s : State) : State :=
  let v := laneOf s f
  match seedOf r with
  | none => s
  | some (k, inv) =>
    putLane s f { v with
      rxKey := k, goodRun := 1, polarityAuto := xor v.polarityAuto inv, rxOver := false
      state := if v.state = .hunt then .verify else v.state }

/-- A verifying receiver meets a slot (R60, R62). `goodRun` is 1 after the seed. (DEDUCED, log entry 181.) -/
def verifySlot (f : Nat) (r : RxSlot) (s : State) : State :=
  let v := laneOf s f
  let (b, k) := readBlock r v.rxOver v.rxKey
  let s := if b.violations = 0 then s
    else countLane f (fun c => { c with stuffViol := sat32 c.stuffViol b.violations }) s
  let v : Lane := { laneOf s f with rxOver := decide (128 < b.stuffs) }
  if b.good then
    let s := readCapability f b (putLane s f { v with rxKey := k, goodRun := min 9 (v.goodRun + 1) })
    if v.goodRun = 8 ∧ v.state = .verify then enterLocked f s else leaveBase f s
  else
    putLane s f { v with rxKey := k, goodRun := 0, state := if v.state = .verify then .hunt else v.state }

/-! ## LOCKED: position and content (R61, R71, R82, R104) -/

/-- The idle-block measurement (R71): a good block stands in the slot that its header names, any other where
it is predicted. -/
def measureIdle (f : Nat) (b : Block) (predicted : Option (Nat × Nat)) (s : State) : State :=
  let inIdle := (if b.good then isIdleSlot (headerSlot b.header)
      else match predicted with | some p => isIdleSlot p.1 | none => false) || headerType b.header == 0
  if b.comma && b.full && inIdle then
    let n := payloadErrors b
    countLane f (fun c =>
      if 64 < n then { c with idleSlips := sat32 c.idleSlips 1 }
      else
        let (x, y) := addPair c.idleBits c.idleErrors 8192 n
        { c with idleBits := x, idleErrors := y }) s
  else s

/-- A container slot's block, or its loss, at lane f: merged where the lane is in a pair.
(DEDUCED, log entry 34.) -/
def containerSlot (f slot cal : Nat) (b : Block) (good : Bool) (s : State) : State :=
  let words := bitWords 128 b.payload
  match pairWith s f with
  | none => useSlot f (laneOf s f).rate slot (if good then some words else none) s
  | some (k, a, x) =>
    mergeCopy k a x f b.stuffs
      { slot := slot, cal := cal, crc := b.crc, words := words
        good := good && headerPaired b.header && containersAt (laneOf s f).rate != 0 } s

/-- A good block at its place in the calendar (R77, R82, R104). A lane without containers has no words to lose.
(DEDUCED, log entry 34.) -/
def placedBlock (f slot cal : Nat) (b : Block) (s : State) : State :=
  let t := headerType b.header
  let s := if headerReserved b.header = 0 then s
    else violate f (fun c => { c with hdrRsvd := sat32 c.hdrRsvd 1 }) s
  let lose := fun (s : State) => if isContainerSlot slot then containerSlot f slot cal b false s else s
  if 5 ≤ t then lose (violate f (fun c => { c with unknownType := sat32 c.unknownType 1 }) s)
  else if isContainerSlot slot then
    if t = 1 then containerSlot f slot cal b true s
    else if t = 0 ∧ laneContainers s f = 0 then lose s
    else lose (violate f (fun c => { c with calViol := sat32 c.calViol 1 }) s)
  else if t = 0 then s
  else if isMessageSlot slot && t = 2 then receiveMessage f (bitWords 128 b.payload) s
  else if isMessageSlot slot && t = 3 then receiveControl f ((bitWords 1 b.payload).headD 0) s
  else violate f (fun c => { c with calViol := sat32 c.calViol 1 }) s

/-- A container slot that lane f never brought: lost, unless the other lane of its pair brings a copy (R82,
R96). -/
def missSlot (f slot : Nat) (s : State) : State :=
  let rate := (laneOf s f).rate
  match pairWith s f with
  | none => useSlot f rate slot none s
  | some (k, a, b) =>
    if (pairOf s k).schedule.isSome || laneLocked s (if f = a then b else a) then s
    else releaseSlot k a rate slot none none s

/-- Lose the container slots from a position on, n slots long (R82). (DEDUCED, log entry 163.) -/
def loseSlots (f : Nat) : Nat → (Nat × Nat) → State → State
  | 0, _, s => s
  | n + 1, p, s => loseSlots f n (nextSlot p) (if isContainerSlot p.1 then missSlot f p.1 s else s)

/-- Set the expected and the candidate position of a link. -/
def setPos (f : Nat) (pos cand : Option (Nat × Nat)) (s : State) : State :=
  putLink s f { linkOf s f with rxPos := pos, rxCandidate := cand }

/-- The stuff lag of the partner after a block (R58): its excess over 128 stuff bits, rounded up to even.
(DEDUCED, log entry 159.) -/
def noteLag (f stuffs : Nat) (s : State) : State :=
  if 128 < stuffs then
    let l := linkOf s f
    putLink s f { l with rxLong := true, rxLag := l.rxLag + slotExcess stuffs }
  else s

/-- An idle or message slot ends the search for an omitted one; a step over it takes one slot off the
partner's lag (R58, R82). -/
def noteOmission (f : Nat) (here : Nat × Nat) (stepped : Bool) (s : State) : State :=
  let l := linkOf s f
  if stepped then putLink s f { l with rxLong := false, rxLag := l.rxLag - 8432 }
  else if isContainerSlot here.1 then s
  else putLink s f { l with rxLong := false }

/-- A block of a lane in LOCKED meets the calendar (R82). A slot may have been omitted since the last idle or
message slot where a block with more than 128 stuff bits has come (R58). -/
def calendarBlock (f : Nat) (b : Block) (s : State) : State :=
  let here := (headerSlot b.header, headerCal b.header)
  let l := linkOf s f
  let use := fun (stepped : Bool) (s : State) =>
    placedBlock f here.1 here.2 b (noteOmission f here stepped (setPos f (some (nextSlot here)) none s))
  match l.rxPos with
  | none => if b.good && here.1 < 768 then use false s else s
  | some p =>
    if !b.good then
      let s := setPos f (some (nextSlot p)) none s
      if isContainerSlot p.1 then containerSlot f p.1 p.2 b false s else s
    else if here = p then use false s
    else if l.rxLong && !isContainerSlot p.1 && here = nextSlot p then use true s
    else
      let s := violate f (fun c => { c with slotJump := sat32 c.slotJump 1 }) s
      if l.rxCandidate = some here then use false (loseSlots f (slotsBetween p here) p s)
      else
        let s := setPos f (some (nextSlot p)) (if here.1 < 768 then some (nextSlot here) else none) s
        if isContainerSlot p.1 then containerSlot f p.1 p.2 b false s else s

/-- A receiver in LOCKED meets a slot (R61). -/
def lockedSlot (f : Nat) (r : RxSlot) (s : State) : State :=
  let v := laneOf s f
  let (b, k) := readBlock r v.rxOver v.rxKey
  let good := b.good
  let recent := (good :: v.recent).take 64
  let s := putLane s f { v with rxKey := k, recent := recent, rxOver := decide (128 < b.stuffs) }
  let s := countLane f (fun c =>
    { c with
      blocksGood := sat48 c.blocksGood (bit good)
      blocksBad := sat48 c.blocksBad (bit (!good))
      commaMiss := sat32 c.commaMiss (bit (!b.comma))
      stuffViol := sat32 c.stuffViol b.violations }) s
  let s := measureIdle f b (linkOf s f).rxPos s
  if 4 ≤ (recent.filter (fun g => !g)).length then
    let s := countLane f (fun c => { c with lockLoss := sat32 c.lockLoss 1 }) s
    raiseLane (laneFault f) (leaveLock f .hunt s)
  else noteLag f b.stuffs (calendarBlock f b s)

/-- FABRIC_BLOCK_RX: a block slot reaches the receiver of a fabric lane (R52 to R104). -/
def execFabricBlockRx (lane : Fin 256) (slot : RxSlot) (s : State) : Host.Outcome State Fault Refusal :=
  let f := lane.val
  let v := laneOf s f
  let r := seenSlot (rxInverts s f) slot
  let s := match v.state with
    | .locked => lockedSlot f r s
    | .hunt | .verify | .fbBase | .fbVerdict => if v.goodRun = 0 then huntSlot f r s else verifySlot f r s
    | _ => s
  .next (if slot.overflow && laneMode s f != 0 && v.state != .down then fifoOverflow f s else s)

/-! ## Transmitting (R52 to R58, R75 to R79) -/

/-- The payload word of a CAPABILITY block (R63). -/
def capabilityWord (s : State) (f : Nat) : Word64 :=
  let v := laneOf s f
  let verdict := v.state == .fbVerdict
  BitVec.ofNat 64 ((laneCfg s f).rate + (if verdict then v.rate else 0) * 16 + bit verdict * 256
    + bit (verdict && v.ownPass) * 512 + v.attempts % 65536 * 65536)

/-- The words of a container slot of lane f: both lanes of a pair send what the first of them to come to the
slot has formed from the primary's containers (R80, R94). -/
def slotWords (f : Nat) (p : Nat × Nat) (s : State) : List Word64 × State :=
  let m := laneContainers s f
  match pairWith s f with
  | none => formSlot f m (containerIndex p.1) s
  | some (k, a, _) =>
    match (pairOf s k).txBlocks.find? (fun e => e.1 == p) with
    | some e => (e.2, setPair k (fun v => { v with txBlocks := v.txBlocks.filter (fun x => x.1 != p) }) s)
    | none =>
      let (ws, s) := formSlot a m (containerIndex p.1) s
      (ws, setPair k (fun v => { v with txBlocks := (p, ws) :: v.txBlocks.take 3 }) s)

/-- A secondary takes the SLOT and CAL of a primary that sends its container slots at the same rate, where they have
come apart (R94). -/
def followPrimary (f : Nat) (s : State) : State :=
  match pairWith s f with
  | some (_, a, b) =>
    let x := linkOf s a
    let y := linkOf s b
    if f = b ∧ laneLocked s a ∧ (laneOf s a).rate = (laneOf s b).rate ∧ 1 < (signedSlots (x.txSlot, x.txCal) (y.txSlot, y.txCal)).natAbs then
      putLink s b { y with txSlot := x.txSlot, txCal := x.txCal }
    else s
  | none => s

/-- The words of the next container slot in LOCKED, and none of any other slot. -/
def nextWords (f : Nat) (s : State) : List Word64 × State :=
  let l := linkOf s f
  if laneLocked s f ∧ isContainerSlot l.txSlot ∧ laneContainers s f ≠ 0 then slotWords f (l.txSlot, l.txCal) s
  else ([], s)

/-- Type and payload words of the next block, and the link after it (R55, R77 to R79). -/
def nextBlock (s : State) (f : Nat) (words : List Word64) : Nat × List Word64 × Link :=
  let l := linkOf s f
  match (laneOf s f).state with
  | .locked =>
    if isIdleSlot l.txSlot then (0, [], l)
    else if isMessageSlot l.txSlot then fillMessageSlot l
    else if laneContainers s f = 0 then (0, [], l)
    else (1, words, l)
  | .fbBase | .fbVerdict =>
    if isIdleSlot l.txSlot then (0, [], l)
    else (if l.txCapability then 4 else 0, if l.txCapability then [capabilityWord s f] else [],
      { l with txCapability := !l.txCapability })
  | _ => (0, [], l)

/-- The stuff lag and the slot after a block with n stuff bits (R58). (DEDUCED, log entry 159.) -/
def slotAfter (lag slot cal n : Nat) : Nat × Nat × Nat :=
  let lag := lag + slotExcess n
  let (x, c) := nextSlot (slot, cal)
  if 8432 ≤ lag ∧ !isContainerSlot x then
    let (y, d) := nextSlot (x, c)
    (lag - 8432, y, d)
  else (lag, x, c)

/-- Send one block of lane f: header, payload and CRC, scrambled and stuffed in their slot (R47, R52 to
R58). -/
def sendBlock (f : Nat) (s : State) : State :=
  let (words, s) := nextWords f (followPrimary f s)
  let v := laneOf s f
  let queued := (linkOf s f).sendQueue
  let (t, ws, l) := nextBlock s f words
  let paired := (pairWith s f).isSome
  let h := blockHeader t l.txSlot l.txCal (bit (tget (fun _ => false) s.set.planes f)) paired
  let ws := padWords 128 ws
  let bits := bitsOf 32 h.toNat ++ wordBits ws
  let (sent, k) := scramble (bits ++ bitsOf 32 (crc32 bits).toNat) v.txKey
  let n := stuffCount sent
  let (lag, slot, cal) := slotAfter v.stuffLag l.txSlot l.txCal n
  let s := putLink s f { l with txSlot := slot, txCal := cal, sent := some (h, ws) }
  let s := putLane s f { v with
    txKey := k, stuffLag := lag, sent := lineLevels v.rate (laneCfg s f).txInvert (slotBits sent) }
  let fresh := (linkOf s f).sendQueue.length
  let s := timeCellsSent f (queued.take (queued.length - fresh)) s
  countLane f (fun c =>
    { c with
      stuffBits := sat48 c.stuffBits n
      stuffOver := sat32 c.stuffOver (bit (decide (128 < n))) }) s

/-- BLOCK_SLOT_TX: a transmitter sends the next block (R52). In FB_CHECK it sends raw PRBS31 and in TEST the lane's
pattern, as many bits as the row says (R62, R68). (DEDUCED, log entry 162.) (DESIGN CHOICE, log entry 172.) -/
def execBlockSlotTx (lane : Fin 256) (rawBits : Nat) (s : State) : Host.Outcome State Fault Refusal :=
  let f := lane.val
  let v := laneOf s f
  .next (match v.state with
    | .hunt | .verify | .locked | .fbBase | .fbVerdict => sendBlock f s
    | .fbCheck => if v.stageWaiting then s else sendPattern f 3 false rawBits s
    | .test => sendPattern f v.prbs.tx v.prbs.txInvert rawBits s
    | _ => s)

/-! ## Timers (R62, R102) -/

/-- RETRY_TIMEOUT: cells in flight for 1 ms without ACK advancing (R102). -/
def execRetryTimeout (lane : Fin 256) (s : State) : Host.Outcome State Fault Refusal :=
  .next (if laneLocked s lane.val && 0 < (linkOf s lane.val).inFlight then rewind lane.val s else s)

/-- Enter FB_BASE (R62). -/
def enterBase (f : Nat) (s : State) : State :=
  let v := laneOf s f
  let s := putLane s f { v with
    state := .fbBase, rate := 0, goodRun := 0, attempts := v.attempts + 1, partnerCeiling := none
    partnerPass := false, counters := { v.counters with fallback := sat32 v.counters.fallback 1 } }
  let s := putLink s f { linkOf s f with txCapability := true }
  raiseLane (laneFault f) s

/-- HUNT_TIMEOUT: the 50 ms timer expires (R62). -/
def execHuntTimeout (lane : Fin 256) (s : State) : Host.Outcome State Fault Refusal :=
  let f := lane.val
  let v := laneOf s f
  .next (match v.state with
    | .hunt | .verify =>
      if (laneCfg s f).blindOnly then
        putLane s f { v with state := .hunt, goodRun := 0
                             counters := { v.counters with huntTimeout := sat32 v.counters.huntTimeout 1 } }
      else enterBase f s
    | .fbBase =>
      putLane s f { v with attempts := v.attempts + 1
                           counters := { v.counters with fallback := sat32 v.counters.fallback 1 } }
    | _ => s)

/-- FALLBACK_STAGE_TIMER: the 1 ms wait, the 10 ms of FB_CHECK or the 2 ms of FB_VERDICT end (R62). -/
def execFallbackStageTimer (lane : Fin 256) (s : State) : Host.Outcome State Fault Refusal :=
  let f := lane.val
  let v := laneOf s f
  .next (match v.state with
    | .fbCheck =>
      if v.stageWaiting then
        putLane s f { v with
          rate := min 3 (v.rate + 1), stageWaiting := false, stageBits := 0, stageErrors := 0
          stageSync := false, prbs := { prbsReload v.prbs with gen := none, genBits := 0, insert := 0 } }
      else
        let s := putLane s f { v with
          state := .fbVerdict, goodRun := 0, ownPass := v.stageSync && v.stageErrors == 0, partnerPass := false }
        putLink s f { linkOf s f with txCapability := true }
    | .fbVerdict =>
      if v.ownPass && v.partnerPass then
        if v.rate < agreedCeiling s f then
          putLane s f { v with state := .fbCheck, lastPassed := v.rate, stageWaiting := true, goodRun := 0 }
        else putLane s f { v with state := .hunt, goodRun := 0 }
      else putLane s f { v with state := .hunt, rate := v.lastPassed, goodRun := 0 }
    | _ => s)

/-- FABRIC_SOURCE_TIMEOUT: two frame periods have passed since the last FRAME_START (R92). -/
def execFabricSourceTimeout (source : Fin 1280) (s : State) : Host.Outcome State Fault Refusal :=
  let n := source.val
  let v := fabricSource s n
  .next (if v.starts = 0 then s
    else
      let s := putFabricSource s n { v with starts := 0, good := false, line := none, ancPart := [] }
      if v.good then loseFabricBond n s else s)

/-! ## FABRIC_MAP, FABRIC_PLANE_PAIR -/

def checksFabricMap (p : Packet) (_ : State) : Check :=
  firstFail [noTarget p, fieldIn (u8 p 1) 0 1 1, reserved p 2 2]

def effectFabricMap (p : Packet) (s : State) : State × Answer :=
  ({ s with set := { s.set with planes := tset (fun _ => false) s.set.planes (u8 p 0) (u8 p 1 == 1) } }, done)

def specFabricMap : OpSpec :=
  { code := 0x2101, cls := 1, lengthOk := fixedLength 4, checks := checksFabricMap, effect := atOnce effectFabricMap }

/-- FABRIC_MAP (R75). -/
def execFabricMap (p : Packet) (s : State) : Host.Outcome State Fault Refusal := .next (runHost specFabricMap p s)

/-- A local lane of a gallery belongs to another pair than pair k. -/
def inOtherPair (s : State) (g k lane : Nat) : Bool :=
  s.set.pairs.any (fun e => e.1 / 8 == g && e.1 != 8 * g + k &&
    (match e.2.lanes with | some (a, b) => a == lane || b == lane | none => false))

def checksFabricPlanePair (p : Packet) (s : State) : Check :=
  let g := u8 p 0
  let release := u8 p 3 == 0xFF
  firstFail [
    noTarget p,
    fieldIn g 0 15 0,
    fieldIn (u8 p 1) 0 7 1,
    fieldIn (u8 p 2) 0 15 2,
    fieldOk (release || (u8 p 3 ≤ 15 && u8 p 3 != u8 p 2)) 3,
    need (release || !(inOtherPair s g (u8 p 1) (u8 p 2) || inOtherPair s g (u8 p 1) (u8 p 3))) (conflict 0),
    need (release || ((laneCfg s (16 * g + u8 p 2)).mode == 1 && (laneCfg s (16 * g + u8 p 3)).mode == 1)) (conflict 0)]

/-- Set pair k: its schedule starts anew, and the sources of lanes that join or leave are lost (R94, R95), and
its counters are cleared (R105). (DEDUCED, log entry 166.) -/
def setPlanePair (k : Nat) (lanes : Option (Nat × Nat)) (s : State) : State :=
  let g := k / 8
  let old := match (pairCfg s k).lanes with | some (a, b) => [16 * g + a, 16 * g + b] | none => []
  let new := match lanes with | some (a, b) => [16 * g + a, 16 * g + b] | none => []
  let s := { s with set := { s.set with pairs := tset (fun _ => {}) s.set.pairs k { lanes := lanes } } }
  let s := putPair s k {}
  let s := match lanes with
    | some (a, b) =>
      let x := linkOf s (16 * g + a)
      let s := putLink s (16 * g + b) { linkOf s (16 * g + b) with txSlot := x.txSlot, txCal := x.txCal }
      if laneLocked s (16 * g + a) == laneLocked s (16 * g + b) then s else raisePair k s
    | none => s
  (old ++ new).dedup.foldl (fun s f => loseContainers f s) s

def effectFabricPlanePair (p : Packet) (s : State) : State × Answer :=
  let k := 8 * u8 p 0 + u8 p 1
  let lanes := if u8 p 3 = 0xFF then none else some (u8 p 2, u8 p 3)
  (if (pairCfg s k).lanes = lanes then s else setPlanePair k lanes s, done)

def specFabricPlanePair : OpSpec :=
  { code := 0x2102, cls := 1, lengthOk := fixedLength 4, checks := checksFabricPlanePair
    effect := atOnce effectFabricPlanePair }

/-- FABRIC_PLANE_PAIR (R94). -/
def execFabricPlanePair (p : Packet) (s : State) : Host.Outcome State Fault Refusal :=
  .next (runHost specFabricPlanePair p s)

/-! ## FABRIC_STATUS (R105) -/

/-- Items of a lane. -/
def laneLinkItems (s : State) (f : Nat) : Bytes :=
  let l := linkOf s f
  let c := l.counters
  let pos := l.rxPos.getD (0, 0)
  itemHalf pos.1 ++ itemByte pos.2 ++ itemByte (laneContainers s f)
    ++ itemCount c.slotJump ++ itemCount c.calViol ++ itemCount c.ancOverflow ++ itemCount c.segErrored
    ++ itemCount c.segMalformed ++ itemCount c.hangSkew ++ itemCount c.dupCell ++ itemCount c.unknownType
    ++ itemCount c.hdrRsvd ++ itemCount c.noCreditDrop ++ itemCount c.creditViol ++ itemCount c.msgMalformed
    ++ itemCount c.msgUnknown ++ itemCount c.cellsSent ++ itemCount c.cellsRetx ++ itemCount c.cellsRcvd
    ++ itemCount c.retryReqSent ++ itemCount c.retryReqRcvd ++ itemCount c.creditResyncSent
    ++ itemCount c.creditResyncRcvd ++ itemCount l.sendCredits ++ itemCount l.inFlight ++ itemCount l.rxOccupancy

/-- Items of a pair; the reference lane is its local number. -/
def pairItems (s : State) (k : Nat) : Bytes :=
  let v := pairOf s k
  itemByte (v.reference % 16) ++ itemOffset (v.skewNs * 65536) ++ itemCount v.lateCopy ++ itemWide v.plane0Used
    ++ itemWide v.plane1Used ++ itemCount v.mismatch ++ itemCount v.bothBad

def clearFabric (i : Nat) (s : State) : State :=
  if i < 256 then putLink s i { linkOf s i with counters := {} }
  else setPair (i - 256) (fun v => { v with lateCopy := 0, plane0Used := 0, plane1Used := 0, mismatch := 0, bothBad := 0 }) s

def fabricSpace : StatusSpace :=
  { size := 384, items := fun s i => if i < 256 then laneLinkItems s i else pairItems s (i - 256), clear := clearFabric }

def specFabricStatus : OpSpec := specStatus 0x2103 (onlySpace fabricSpace)

/-- FABRIC_STATUS (R105). -/
def execFabricStatus (p : Packet) (s : State) : Host.Outcome State Fault Refusal :=
  .next (runHost specFabricStatus p s)

end Sys2Proof.Machine
end

