-- ==== Sys2Proof/Machine/Ledger.lean ====
section
/-! DEFINITION. Ledger.lean: the Ledger's six equations, their check, and LEDGER_READ (R401, R442 to
R444). -/

namespace Sys2Proof.Machine

/-! ## The equations (R442) -/

/-- Cells: free + queued + in flight. -/
def cellsHold (s : State) : Bool := freeCells s + queuedCells s + s.pkt.pool.inFlight == 196608

/-- Fabric credits of a lane's transmit direction. -/
def creditsHold (s : State) (f : Nat) : Bool :=
  let l := linkOf s f
  l.sendCredits + l.inFlight + l.rxOccupancy == 64

/-- Fence tokens. -/
def fencesHold (s : State) : Bool := s.eng.issued == s.eng.signalled + s.eng.pending + s.eng.cancelled

/-- TDM frames of a port and direction: words written, words read and slots counted on. -/
def tdmHolds (s : State) (k : Nat) : Bool :=
  let (w, r, c) := (tfind s.led.tdm k).getD (0, 0, 0)
  w == r && r == c

/-- Packets of a port. -/
def packetsHold (s : State) (n : Nat) : Bool :=
  let (r, f, t, d) := (tfind s.led.packets n).getD (0, 0, 0, 0)
  r == f + t + d

/-- Takes. -/
def takesHold (s : State) : Bool :=
  let t := s.led.takes
  t.accepted == t.hung + t.lateHung + t.unstaged

/-- How many instances an equation has. -/
def instancesOf (e : Nat) : Nat :=
  match e with | 2 => 256 | 4 => 32 | 5 => 64 | _ => 1

/-- An instance of an equation holds. (DEDUCED, log entry 109.) -/
def holdsAt (s : State) (e i : Nat) : Bool :=
  match e with
  | 1 => cellsHold s
  | 2 => creditsHold s i
  | 3 => fencesHold s
  | 4 => tdmHolds s i
  | 5 => packetsHold s i
  | _ => takesHold s

/-! ## The check (R443) -/

/-- Every instance that fails, as equation × 1,024 + instance. (DEDUCED, log entry 109.) -/
def failing (s : State) : List Nat :=
  ([1, 2, 3, 4, 5, 6].map (fun e =>
    ((List.range (instancesOf e)).filter (fun i => !holdsAt s e i)).map (fun i => 1024 * e + i))).flatten

/-- One breach of an equation: BREACHES, LAST_BREACH and the LEDGER source (R443, R444). -/
def breach (e : Nat) (s : State) : State :=
  let n := (tfind s.led.breaches e).getD 0
  note 0x12 e { s with led := { s.led with breaches := tput s.led.breaches e (sat32 n 1), lastBreach := e } }

/-- The check: an instance breaches when it fails after it held. (DEDUCED, log entry 109.) -/
def checkLedger (s : State) : State :=
  let now := failing s
  let new := now.filter (fun k => !s.led.failed.contains k)
  new.foldl (fun s k => breach (k / 1024) s) { s with led := { s.led with failed := now } }

/-- LEDGER_CHECK (R443). -/
def execLedgerCheck (s : State) : Host.Outcome State Fault Refusal := .next (checkLedger s)

/-! ## LEDGER_READ (R401) -/

def ledgerResults (s : State) : Bytes :=
  let t := s.led.takes
  (([1, 2, 3, 4, 5, 6].map (fun e => itemCount ((tfind s.led.breaches e).getD 0))).flatten)
    ++ itemByte s.led.lastBreach ++ leBytes 7 0
    ++ itemCount (freeCells s) ++ itemCount (queuedCells s) ++ itemCount s.pkt.pool.inFlight ++ leBytes 4 0
    ++ itemWide s.eng.issued ++ itemWide s.eng.signalled ++ itemWide s.eng.pending ++ itemWide s.eng.cancelled
    ++ itemWide t.accepted ++ itemWide t.hung ++ itemWide t.lateHung ++ itemWide t.unstaged

def specLedgerRead : OpSpec :=
  { code := 0xA006, cls := 3, lengthOk := fixedLength 0, checks := fun p _ => noTarget p
    effect := atOnce (fun _ s => (s, done (ledgerResults s))) }

/-- LEDGER_READ (R401). -/
def execLedgerRead (p : Packet) (s : State) : Host.Outcome State Fault Refusal := .next (runHost specLedgerRead p s)

end Sys2Proof.Machine
end

