-- ==== Sys2Proof/Machine/Ref.lean ====
section
/-! DEFINITION. Ref.lean: REF_CONFIG, REF_STATUS, DPLL_CONFIG, PULSE_CONFIG, PULSE_REALIGN and the events
of the reference unit (R258 to R280, R395). -/

namespace Sys2Proof.Machine

/-! ## REF_CONFIG -/

/-- The settings that a REF_CONFIG carries. -/
def readRefCfg (p : Packet) : RefCfg :=
  let c := u8 p 0
  { enable := u8 p 1 == 1
    freqNum := orDefault (u64 p 4) 10000000
    freqDen := orDefault (u32 p 12) 1
    fabLane := u8 p 3
    reject := orDefault (u16 p 16) 500
    accept := orDefault (u16 p 18) 200
    acceptTime := orDefault (u16 p 20) 10
    partner := if u8 p 2 = 0xFF then none else some (u8 p 2)
    pairLimit := orDefault (u16 p 22) 100
    fpEnable := u8 p 24 == 1
    fpFamily := u8 p 25
    fpDivide := if c < 4 then u8 p 26 else 1
    fpActiveLow := u8 p 27 == 1 }

/-- NOMINAL lies between 1 kHz and 750 MHz (R260). -/
def nominalOk (num den : Nat) : Bool := decide (1000 * den ≤ num ∧ num ≤ 750000000 * den)

/-- DEDUCED, log entry 79. -/
def checksRefConfig (p : Packet) (s : State) : Check :=
  let c := u8 p 0
  let v := readRefCfg p
  let clock := decide (c < 4)
  let fab := c == 5 || c == 6
  firstFail [
    noTarget p,
    fieldIn c 0 6 0,
    fieldIn (u8 p 1) 0 1 1,
    fieldOk (u8 p 2 ≤ 6 || u8 p 2 == 0xFF) 2,
    fieldOk (fab || u8 p 3 == 0) 3,
    fieldOk (if clock then nominalOk v.freqNum v.freqDen else u64 p 4 == 0) 4,
    fieldOk (clock || u32 p 12 == 0) 12,
    fieldIn v.reject 10 5000 16,
    fieldIn v.accept 5 v.reject 18,
    fieldIn v.acceptTime 1 600 20,
    fieldIn v.pairLimit 5 1000 22,
    fieldOk (if clock then u8 p 24 ≤ 1 else u8 p 24 == 0) 24,
    fieldOk (if clock then u8 p 25 ≤ 3 else u8 p 25 == 0) 25,
    fieldOk (if clock then 1 ≤ u8 p 26 && u8 p 26 ≤ 8 else u8 p 26 == 0) 26,
    fieldOk (if clock then u8 p 27 ≤ 1 else u8 p 27 == 0) 27,
    need (match v.partner with
      | none => true
      | some d => d != c && ((refCfg s d).partner == none || (refCfg s d).partner == some c)) (conflict 0)]

def putRefCfg (s : State) (c : Nat) (v : RefCfg) : State :=
  { s with set := { s.set with refs := tset refCfgDefault s.set.refs c v } }

/-- Partners name each other: the old partner is released, the new one is set (R260). -/
def setPartner (c : Nat) (now : Option Nat) (s : State) : State :=
  let s := match (refCfg s c).partner with
    | some d => if some d = now then s else putRefCfg s d { refCfg s d with partner := none }
    | none => s
  match now with | some d => putRefCfg s d { refCfg s d with partner := some c } | none => s

/-- The candidate's monitors restart (R260). -/
def restartMonitors (c : Nat) (s : State) : State :=
  let s := disqualify c 3 s
  let v := candidateOf s c
  putCandidate s c { v with
    active := false, reading := none, partGate := true, gates := 0, overGates := 0, underGates := 0, lastReason := 3 }

/-- Apply a REF_CONFIG (R260, R275). -/
def applyRefCfg (c : Nat) (v : RefCfg) (s : State) : State :=
  let old := refCfg s c
  let s := putRefCfg (setPartner c v.partner s) c v
  let s := if old.enable != v.enable || old.freqNum != v.freqNum || old.freqDen != v.freqDen || old.fabLane != v.fabLane
    then restartMonitors c s else s
  if old.fpEnable != v.fpEnable || old.fpFamily != v.fpFamily then
    putCandidate s c { candidateOf s c with fpSeen := false }
  else s

def specRefConfig : OpSpec :=
  { code := 0x6001, cls := 1, lengthOk := fixedLength 28, checks := checksRefConfig
    effect := atOnce (fun p s => (applyRefCfg (u8 p 0) (readRefCfg p) s, done)) }

/-- REF_CONFIG (R260, R275). -/
def execRefConfig (p : Packet) (s : State) : Host.Outcome State Fault Refusal :=
  .next (runHost specRefConfig p s)

/-! ## DPLL_CONFIG -/

def checksDpllConfig (p : Packet) (_ : State) : Check :=
  firstFail [noTarget p, fieldIn (orDefault (u16 p 0) 10) 1 1000 0, fieldIn (orDefault (u16 p 2) 100) 1 1000 2]

def effectDpllConfig (p : Packet) (s : State) : State × Answer :=
  ({ s with set := { s.set with dpll :=
      { bandwidth := orDefault (u16 p 0) 10, freqSlew := orDefault (u16 p 2) 100 } } }, done)

def specDpllConfig : OpSpec :=
  { code := 0x6003, cls := 1, lengthOk := fixedLength 4, checks := checksDpllConfig
    effect := atOnce effectDpllConfig }

/-- DPLL_CONFIG (R264). -/
def execDpllConfig (p : Packet) (s : State) : Host.Outcome State Fault Refusal :=
  .next (runHost specDpllConfig p s)

/-! ## PULSE_CONFIG -/

def readPulse (p : Packet) : PulseCfg :=
  { enable := u8 p 1 == 1, family := u8 p 2, activeLow := u8 p 3 == 1, divide := orDefault (u16 p 4) 1
    phase := u16 p 6, offset := u32 p 8, width := orDefault (u32 p 12) 100 }

/-- A number of nanoseconds is below a number of hang periods. -/
def nsBelow (ns rate n : Nat) : Bool := decide (ns * 594 < periodTicks rate * 1000 * n)

/-- OFFSET is at most P − 1 ns (R276). -/
def offsetOk (ns rate : Nat) : Bool := decide ((ns + 1) * 594 ≤ periodTicks rate * 1000)

def checksPulseConfig (p : Packet) (s : State) : Check :=
  let c := readPulse p
  let rate := familyRate s c.family
  firstFail [
    need (p.family.toNat ≤ 3) badHeader,
    targetN s p (u8 p 2),
    fieldIn (u8 p 0) 0 3 0,
    fieldIn (u8 p 1) 0 1 1,
    fieldIn (u8 p 2) 0 3 2,
    fieldIn (u8 p 3) 0 1 3,
    fieldIn c.divide 1 1000 4,
    fieldOk (c.phase < c.divide) 6,
    fieldOk (offsetOk c.offset rate) 8,
    fieldOk (1 ≤ c.width && c.width ≤ 100000 && nsBelow (10 * c.width) rate c.divide) 12]

/-- ENABLE, WIDTH and POLARITY apply from the next pulse; the rest from its boundary (R276).
(DEDUCED, log entry 79.) -/
def effectPulseConfig (p : Packet) (s : State) : State × Answer :=
  let n := u8 p 0
  let c := readPulse p
  let r := applyTarget s c.family false (readTarget s c.family p.target)
  let now := pulseCfg s n
  let s := putPulseCfg s n { now with enable := c.enable, width := c.width, activeLow := c.activeLow }
  let moves := c.family != now.family || c.divide != now.divide || c.phase != now.phase || c.offset != now.offset
  let pending := if moves then tput s.ref.pendingPulse n (r.1, c) else tdel s.ref.pendingPulse n
  ({ s with ref := { s.ref with pendingPulse := pending } }, answerFor r c.family)

def specPulseConfig : OpSpec :=
  { code := 0x6004, cls := 1, lengthOk := fixedLength 16, checks := checksPulseConfig
    effect := atOnce effectPulseConfig }

/-- PULSE_CONFIG (R276). -/
def execPulseConfig (p : Packet) (s : State) : Host.Outcome State Fault Refusal :=
  .next (runHost specPulseConfig p s)

/-! ## PULSE_REALIGN -/

/-- The hang M of a PULSE_REALIGN (R277). (DEDUCED, log entry 79.) -/
def realignTarget (p : Packet) (s : State) : Word :=
  if p.target = 0 then evenUp ((familyOf s p.family.toNat).hang + 2) else p.target

def checksPulseRealign (p : Packet) (s : State) : Check :=
  let n := p.family.toNat
  let m := realignTarget p s
  let src := u8 p 0
  let ahead := (m - (familyOf s n).hang).toNat
  firstFail [
    need (n ≤ 3) badHeader,
    targetN s p n,
    need (!m.getLsbD 0) badHeader,
    fieldIn src 0 4 0,
    reserved p 1 3,
    need (familyOn s n) (conflict 0),
    need (decide (2 ≤ ahead ∧ ahead ≤ 2 ^ 24)) (conflict 0),
    need (familyOf s n).realign.isNone (conflict 0),
    need (src != 0 || s.time.timeSet) (conflict 0),
    need (src == 0 || ((refCfg s (src - 1)).fpEnable && (refCfg s (src - 1)).fpFamily == n)) (conflict 0)]

def effectPulseRealign (p : Packet) (s : State) : State × Answer :=
  let n := p.family.toNat
  let m := realignTarget p s
  (putFamily s n { familyOf s n with realign := some { source := u8 p 0, target := m } },
    { done with hang := m, family := n })

def specPulseRealign : OpSpec :=
  { code := 0x6005, cls := 1, lengthOk := fixedLength 4, checks := checksPulseRealign
    effect := atOnce effectPulseRealign }

/-- PULSE_REALIGN (R277). -/
def execPulseRealign (p : Packet) (s : State) : Host.Outcome State Fault Refusal :=
  .next (runHost specPulseRealign p s)

/-! ## REF_STATUS -/

/-- Items of one candidate (R279). (DEDUCED, log entry 78.) -/
def candidateItems (s : State) (c : Nat) : Bytes :=
  let v := candidateOf s c
  itemFlag (refCfg s c).enable ++ itemFlag v.active ++ itemFlag v.qualified ++ itemByte v.lastReason
    ++ itemSigned (v.reading.getD 0) ++ itemHalf v.gates

/-- Everything that REF_STATUS returns (R279). (DEDUCED, log entry 78.) -/
def refItems (s : State) : Bytes :=
  let r := s.ref
  itemByte (match r.refsel with | some v => v.val | none => 0xFF) ++ itemByte (loopCode r.loop)
    ++ itemFlag (trustworthy s) ++ itemFlag r.freqValid ++ itemFlag (historyValid s) ++ itemCount r.historySeconds
    ++ itemSigned (holdoverFrequency s) ++ itemSigned r.rootOffset ++ itemOffset r.phaseError
    ++ ((List.range 7).map (candidateItems s)).flatten
    ++ ((List.range 6).map (fun c => itemFlag (candidateOf s c).pairAlarm ++ itemSigned (candidateOf s c).pairDiff)).flatten
    ++ ((List.range 4).map (fun n => itemOffset (rootToUnits (candidateOf s n).fpOffset))).flatten
    ++ ((List.range 4).map (fun n =>
        let f := familyOf s n
        itemCount f.realigns ++ itemOffset (rootToUnits f.lastShift) ++ itemWord f.lastNumber)).flatten
    ++ itemCount r.switches ++ itemCount r.holdoverEntries ++ itemCount r.lostEntries
    ++ ((List.range 7).map (fun c =>
        let v := candidateOf s c
        itemCount v.losses ++ itemCount v.freqDisqualify ++ itemCount v.glitches)).flatten

/-- CLEAR of REF_STATUS (R72, R279). -/
def clearRef (s : State) : State :=
  let r := s.ref
  putRef s { r with
    switches := 0, holdoverEntries := 0, lostEntries := 0
    candidates := tmapAll (fun _ => {}) (fun _ v => { v with losses := 0, freqDisqualify := 0, glitches := 0 }) r.candidates }

def refSpace : StatusSpace := { size := 0, device := some refItems, clearDevice := clearRef }

def specRefStatus : OpSpec := specStatus 0x6002 (onlySpace refSpace)

/-- REF_STATUS (R279). -/
def execRefStatus (p : Packet) (s : State) : Host.Outcome State Fault Refusal :=
  .next (runHost specRefStatus p s)

/-! ## Events -/

/-- REFSEL_ADOPT (R259, R265). -/
def execRefselAdopt (v : Fin 8) (s : State) : Host.Outcome State Fault Refusal := .next (clocked (adoptRefsel v) s)

/-- ACTIVITY_LOSS (R261, R263). -/
def execActivityLoss (c : Fin 7) (glitch : Bool) (s : State) : Host.Outcome State Fault Refusal :=
  .next (clocked (loseActivity c.val glitch) s)

/-- ACTIVITY_REGAINED (R261). -/
def execActivityRegained (c : Fin 7) (s : State) : Host.Outcome State Fault Refusal :=
  .next (clocked (regainActivity c.val) s)

/-- FREQUENCY_GATE (R262, R263, R267, R272). -/
def execFrequencyGate (readings : List (Option Int)) (offset : Int) (s : State) : Host.Outcome State Fault Refusal :=
  .next (clocked (endGate readings offset) s)

/-- LOOP_LOCKED (R265, R266). -/
def execLoopLocked (s : State) : Host.Outcome State Fault Refusal :=
  .next (clocked (fun s => if s.ref.loop = .acquiring then putRef s { s.ref with loop := .locked } else s) s)

/-- XO_IN_LOSS (R273). -/
def execXoInLoss (s : State) : Host.Outcome State Fault Refusal := .next (clocked loseXo s)

/-- XO_IN_RESTORED (R273). -/
def execXoInRestored (s : State) : Host.Outcome State Fault Refusal := .next (clocked restoreXo s)

/-- FREQ_VALID_RETURN (R273): 10 s after XO_IN is good again. -/
def execFreqValidReturn (s : State) : Host.Outcome State Fault Refusal := .next (clocked returnFreqValid s)

/-- REF_FP_EDGE (R275). -/
def execRefFpEdge (input : Fin 4) (edge : Nat) (s : State) : Host.Outcome State Fault Refusal :=
  .next (clocked (fpEdge input.val edge) s)

/-- REF_FP_TIMEOUT (R275). -/
def execRefFpTimeout (input : Fin 4) (s : State) : Host.Outcome State Fault Refusal :=
  .next (clocked (fpTimeout input.val) s)

end Sys2Proof.Machine
end

