-- ==== Sys2Proof/Machine/Session.lean ====
section
/-! DEFINITION. Session.lean: SESSION_OPEN, SESSION_CLOSE, SESSION_RESET, PING and IDENTIFY, and
how sessions close (R365 to R371, R388, R389, R457). -/

namespace Sys2Proof.Machine

/-! ## Closing -/

/-- Discard the restate of a session (R179). -/
def dropRestate (n : Nat) (s : State) : State :=
  match s.mtx.restate with
  | some r => if r.session = n then { s with mtx := { s.mtx with restate := none } } else s
  | none => s

/-- Close a session: its record goes back to that of a closed one, but for its BAR2 window, which
stays mapped (R366, R388), and its restate is discarded. -/
def closeSession (n : Nat) (s : State) : State :=
  dropRestate n (putSession s n { window := (sessionOf s n).window })

/-- Discard a session's commands that have not been executed (R370). -/
def dropCommands (n : Nat) (s : State) : State :=
  { s with cmd := { s.cmd with
      workQueue := s.cmd.workQueue.filter (fun h => sess h.body != n)
      takeQueue := s.cmd.takeQueue.filter (fun h => sess h.body != n) } }

/-- Session reset of one session (R370). -/
def resetSession (n : Nat) (s : State) : State := dropCommands n (closeSession n s)

/-- Session reset of every session bound to the PCIe rings, from number n down (R370). -/
def resetRingSessions : Nat → State → State
  | 0, s => s
  | n + 1, s =>
    let x := sessionOf s (n + 1)
    resetRingSessions n (if x.isOpen && x.endpoint == .pcie then resetSession (n + 1) s else s)

/-- Empty a ring: HEAD = TAIL = 0, BASE and SIZE kept (R370). -/
def emptyRing (r : Ring) : Ring := { r with head := 0, tail := 0, unread := [] }

/-- The reset that the doorbell does (R370, R371). -/
def doorbellReset (s : State) : State :=
  let s := resetRingSessions 16 s
  let s := { s with cmd := { s.cmd with
      ring0 := emptyRing s.cmd.ring0
      ring1 := emptyRing s.cmd.ring1
      ring2 := emptyRing s.cmd.ring2
      ring3 := emptyRing s.cmd.ring3
      replyRing := emptyRing s.cmd.replyRing
      waiting := []
      doorbellBusy := false } }
  raiseIrq irqSessionReset s

/-! ## SESSION_OPEN -/

/-- Length of SESSION_OPEN: 8 or 72, by AUTH (R382, R388). -/
def sessionOpenLength (p : Packet) : Bool :=
  match u8 p 2 with
  | 0 => p.params.length == 8
  | 1 => p.params.length == 72
  | _ => p.params.length == 8 || p.params.length == 72

/-- Checks of SESSION_OPEN (R365, R388). -/
def checksSessionOpen (p : Packet) (s : State) : Check :=
  firstFail [
    noTarget p,
    fieldIn (u16 p 0) 0 3600 0,
    fieldIn (u8 p 2) 0 1 2,
    fieldOk (if u8 p 2 = 1 then u8 p 3 ≤ 31 else u8 p 3 == 0) 3,
    reserved p 4 4,
    need (!(sessionOf s (sess p)).isOpen) (conflict 0),
    need (u8 p 2 == 0 || (rootKey s).isSome) (conflict 0)]

/-- BAR2_BASE and BAR2_SIZE of a session (R388). -/
def windowResults (n : Nat) (pcie : Bool) : Bytes :=
  if pcie then leBytes 4 ((n - 1) * 4194304) ++ leBytes 4 4194304 else leBytes 8 0

/-- Open session n. -/
def openSession (n : Nat) (p : Packet) (auth : Bool) (s : State) : State :=
  putSession s n
    { isOpen := true, endpoint := p.endpoint, authenticated := auth,
      keySlot := if auth then u8 p 3 else 0, debugSlot := auth && underTestRoot s,
      idleTimeout := u16 p 0,
      window := (sessionOf s n).window || p.endpoint == .pcie }

/-- Ticks for which an OPEN_NONCE is valid: 60 s at the nominal rate (R457). -/
def nonceTicks : Nat := 60 * 594000000

/-- The usable OPEN_NONCE of an endpoint (R457). -/
def nonceOf (s : State) (e : Endpoint) : Option Nonce :=
  (s.cmd.nonces.find? (fun n => n.endpoint == e)).filter
    (fun n => !n.used && (s.time.count - n.issuedAt).toNat ≤ nonceTicks)

/-- An open uses its endpoint's nonce up, whether it succeeds or fails (R457). -/
def spendNonce (e : Endpoint) (s : State) : State :=
  { s with cmd := { s.cmd with
      nonces := s.cmd.nonces.map (fun n => if n.endpoint = e then { n with used := true } else n) } }

/-- The 64 bytes under the MAC of an authenticated open (R457). -/
def openMessage (nonce : BitVec 128) (p : Packet) : Bytes :=
  [0x48, 0x4F, 0x4C, 0x53, 0x49, 0x41, 0x2D, 0x53, 0x45, 0x53, 0x53, 0x49, 0x4F, 0x4E]
    ++ leBytes 16 Config.deviceUid.toNat ++ leBytes 16 nonce.toNat
    ++ (p.params.drop 8).take 16 ++ leBytes 2 (sess p)

/-- The slot and the MAC of an authenticated open are good (R457). -/
def openMacGood (s : State) (p : Packet) : Bool :=
  match nonceOf s p.endpoint with
  | none => false
  | some n =>
    let (st, policy, key) := inspectSlot s (u8 p 3)
    st == .valid && hasSession policy &&
      leBytes 48 (Config.hmacSha384 key (openMessage n.value p)).toNat == (p.params.drop 24).take 48

/-- The authentication source stands at MAJOR or CRITICAL: every authenticated open is refused (R461). -/
def authRefused (s : State) : Bool := (faultOf s (faultId 0x0E 31 3)).isolating

/-- SESSION_OPEN (R365, R388, R457). -/
def effectSessionOpen (p : Packet) (s : State) : State × Answer :=
  let results := windowResults (sess p) (p.endpoint == .pcie)
  if u8 p 2 = 0 then (openSession (sess p) p false s, done results)
  else if authRefused s then (s, denied 0)
  else
    let good := openMacGood s p
    let s := spendNonce p.endpoint (checkSlot (u8 p 3) s)
    if good then (openSession (sess p) p true s, done results)
    else (note 0x0E 3 s, denied 0)

def specSessionOpen : OpSpec :=
  { code := 0x0001, cls := 1, rule := .names, lengthOk := sessionOpenLength
    checks := checksSessionOpen, effect := atOnce effectSessionOpen }

def execSessionOpen (p : Packet) (s : State) : Host.Outcome State Fault Refusal :=
  .next (runHost specSessionOpen p s)

/-! ## SESSION_CLOSE, SESSION_RESET -/

def specSessionClose : OpSpec :=
  { code := 0x0002, cls := 1, lengthOk := fixedLength 0
    checks := fun p _ => noTarget p
    effect := atOnce (fun p s => (closeSession (sess p) s, done)) }

/-- SESSION_CLOSE (R366). -/
def execSessionClose (p : Packet) (s : State) : Host.Outcome State Fault Refusal :=
  .next (runHost specSessionClose p s)

/-- A SESSION_RESET is authenticated when it comes from an endpoint to which an open authenticated
session is bound (R370). -/
def authenticatedSender (s : State) (e : Endpoint) : Bool :=
  s.cmd.sessions.any (fun x => x.2.isOpen && x.2.authenticated && x.2.endpoint == e)

def checksSessionReset (p : Packet) (s : State) : Check :=
  firstFail [
    noTarget p,
    need (!(sessionOf s (sess p)).authenticated || authenticatedSender s p.endpoint) (denied 0)]

def specSessionReset : OpSpec :=
  { code := 0x0003, cls := 1, rule := .names, lengthOk := fixedLength 0
    checks := checksSessionReset
    effect := atOnce (fun p s => (resetSession (sess p) s, done)) }

/-- SESSION_RESET (R370). -/
def execSessionReset (p : Packet) (s : State) : Host.Outcome State Fault Refusal :=
  .next (runHost specSessionReset p s)

/-! ## PING, IDENTIFY -/

def specPing : OpSpec :=
  { code := 0x0006, cls := 1, rule := .orNone, lengthOk := fun p => decide (p.params.length ≤ 64)
    checks := fun p _ => noTarget p
    effect := atOnce (fun p s => (s, done p.params)) }

/-- PING returns its parameters (R388). -/
def execPing (p : Packet) (s : State) : Host.Outcome State Fault Refusal := .next (runHost specPing p s)

/-- Issue a fresh OPEN_NONCE to an endpoint; the 17th endpoint displaces the one served longest ago
(R457). -/
def issueNonce (e : Endpoint) (s : State) : BitVec 128 × State :=
  let (v, s) := draw 128 s
  let kept := s.cmd.nonces.filter (fun n => n.endpoint != e)
  let kept := if 16 ≤ kept.length then kept.drop 1 else kept
  (v, { s with cmd := { s.cmd with nonces := kept ++ [{ endpoint := e, value := v, issuedAt := s.time.count }] } })

/-- DEV_ID and DEV_STEPPING (R41). -/
def devId : Word := 0x7A56_1536
def devStepping : Word := 0x0000_00B1

/-- IDENTIFY (R389). -/
def effectIdentify (p : Packet) (s : State) : State × Answer :=
  let (nonce, s) := issueNonce p.endpoint s
  (s, done (leBytes 4 devId.toNat ++ leBytes 4 devStepping.toNat ++ leBytes 1 (lifeState s)
    ++ leBytes 1 s.chip.startPhase ++ leBytes 1 s.store.bootSlot ++ [0]
    ++ leBytes 4 (catalogueVersion s) ++ leBytes 16 Config.deviceUid.toNat ++ leBytes 16 nonce.toNat))

def specIdentify : OpSpec :=
  { code := 0x0007, cls := 1, rule := .orNone, lengthOk := fixedLength 0
    checks := fun p _ => noTarget p
    effect := atOnce effectIdentify }

def execIdentify (p : Packet) (s : State) : Host.Outcome State Fault Refusal :=
  .next (runHost specIdentify p s)

/-! ## Idle timeout and doorbell -/

/-- IDLE_TIMEOUT passes without a command: the session closes (R366). -/
def execIdleTimeout (session : Fin 17) (s : State) : Host.Outcome State Fault Refusal :=
  let x := sessionOf s session.val
  .next (if x.isOpen && x.idleTimeout != 0 then closeSession session.val s else s)

/-- A write of SESSION_RESET_DOORBELL: RESET starts the reset of R370 (R371). -/
def execSessionResetDoorbell (value : Word) (s : State) : Host.Outcome State Fault Refusal :=
  .next (clocked (fun s => if value.getLsbD 0 then doorbellReset s else s) s)

end Sys2Proof.Machine
end

