-- ==== Sys2Proof/Machine/Restate.lean ====
section
/-! DEFINITION. Restate.lean: RESTATE_BEGIN, RESTATE_COMMIT and the time-out of a restate (R176 to R179). -/

namespace Sys2Proof.Machine

/-! ## RESTATE_BEGIN and the time-out -/

/-- Only one restate is open in the device (R176). -/
def checksRestateBegin (p : Packet) (s : State) : Check :=
  firstFail [noTarget p, need s.mtx.restate.isNone (conflict 0)]

def effectRestateBegin (p : Packet) (s : State) : State × Answer :=
  ({ s with mtx := { s.mtx with
      restate := some { session := sess p, openedAt := s.time.count } } }, done)

def specRestateBegin : OpSpec :=
  { code := 0x0004, cls := 1, lengthOk := fixedLength 0, checks := checksRestateBegin
    effect := atOnce effectRestateBegin }

/-- RESTATE_BEGIN (R176). -/
def execRestateBegin (p : Packet) (s : State) : Host.Outcome State Fault Refusal :=
  .next (runHost specRestateBegin p s)

/-- Ticks in 600 s (R179). -/
def restateLimit : Nat := 600 * 594000000

/-- RESTATE_TIMEOUT (R179): 600 s have passed since RESTATE_BEGIN. -/
def execRestateTimeout (s : State) : Host.Outcome State Fault Refusal :=
  .next (match s.mtx.restate with
    | some r =>
      if restateLimit ≤ (s.time.count - r.openedAt).toNat then { s with mtx := { s.mtx with restate := none } } else s
    | none => s)

/-! ## What a restate says (R176, R178) -/

/-- A restated selection. -/
structure Wanted where
  place : Place
  family : Nat
  source : Option Nat
  fade : Nat
  deriving DecidableEq, Repr

/-- A restated protection of a video destination. -/
structure WantedProt where
  dest : Nat
  family : Nat
  source : Option Nat
  kind : TakeKind
  deriving DecidableEq, Repr

/-- Everything that the collected commands say, one selection and one setting per destination, the last
one winning, and the destination under which each place counts. -/
structure Stated where
  picks : List Wanted := []
  prots : List WantedProt := []
  dests : List (Nat × Packet) := []
  sources : List (Nat × Packet) := []
  locks : List (Place × Bool) := []
  units : List (Place × Place) := []
  deriving DecidableEq, Repr

/-- Put a unit for a place: through a bundle, or as a member of a bond that moves as one, always, otherwise where it has
none (R165, R178). -/
def putUnit (bundle : Bool) (pl unit : Place) (l : List (Place × Place)) : List (Place × Place) :=
  if bundle then l.filter (fun e => e.1 != pl) ++ [(pl, unit)]
  else if l.any (fun e => e.1 == pl) then l else l ++ [(pl, unit)]

/-- The take entries of a collected command, with their reader; none for a command that is not a take. -/
def takeReqs (h : HostPacket) : List TakeReq :=
  match h.opcode.toNat with
  | 0x1001 => (entries h.body 8).map readVideo
  | 0x1002 => (entries h.body 8).map readAudio
  | 0x1003 => (entries h.body 8).map readAnc
  | 0x1004 => (entries h.body 12).map readBundle
  | 0x1020 => (entries h.body 12).map readProtect
  | _ => []

/-- The matrix of the destination that an entry names. -/
def namedMatrix (code : Nat) : Matrix :=
  if code = 0x1002 then .audio else if code = 0x1003 then .anc else .video

/-- Add one take entry. -/
def stateReq (t : State) (code fam : Nat) (x : Stated) (r : TakeReq) : Stated :=
  let unit : Place := (namedMatrix code, r.dest)
  match r.kind with
  | .protect _ _ _ =>
    (bondMoves t .video r.dest r.source).foldl (fun x m =>
      { x with
        prots := x.prots.filter (fun w => w.dest != m.2.1)
          ++ [{ dest := m.2.1, family := fam, source := m.2.2, kind := r.kind }]
        units := putUnit (m.2.1 != r.dest) (.video, m.2.1) unit x.units }) x
  | .take =>
    (movesOf t r).foldl (fun x m =>
      let pl : Place := (m.1, m.2.1)
      { x with
        picks := x.picks.filter (fun w => w.place != pl)
          ++ [{ place := pl, family := fam, source := m.2.2, fade := if m.1 = .audio then r.fade else 0 }]
        units := putUnit (code == 0x1004 || m.2.1 != r.dest) pl unit x.units }) x

/-- Add one collected command. -/
def stateCmd (t : State) (x : Stated) (h : HostPacket) : Stated :=
  let p := h.body
  match h.opcode.toNat with
  | 0x1101 =>
    let d := u16 p 0
    { x with dests := x.dests.filter (fun e => e.1 != d) ++ [(d, p)]
             units := putUnit false (.video, d) (.video, d) x.units }
  | 0x1102 => { x with sources := x.sources.filter (fun e => e.1 != u16 p 0) ++ [(u16 p 0, p)] }
  | 0x1103 =>
    let pl : Place := (matrixCode (u8 p 2), u16 p 0)
    { x with locks := x.locks.filter (fun e => e.1 != pl) ++ [(pl, u8 p 3 == 1)]
             units := putUnit false pl pl x.units }
  | c => (takeReqs h).foldl (stateReq t c p.family.toNat) x

/-- What a restate says, its takes with the runs and bonds of a state. -/
def statedOf (t : State) (r : Restate) : Stated := r.collected.foldl (stateCmd t) {}

/-! ## Families and hangs (R177) -/

/-- Family of a place under the restated settings; none for an audio channel outside every run. -/
def placeFamilyOf (t : State) (pl : Place) : Option Nat :=
  match pl.1 with
  | .audio => (assocDest t pl.2).map (destFamily t)
  | _ => some (destFamily t pl.2)

/-- ROOT cycle of ref(h) of a family. -/
def refRoot (s : State) (fam : Nat) (h : Word) : Int :=
  let f := familyOf s fam
  f.boundary + (h - f.hang).toNat * (periodRoot (familyRate s fam) : Int)

/-- The first hang of a family whose ref lies at or after a ROOT cycle and whose cutoff has not passed. -/
def firstAfter (s : State) (fam : Nat) (root : Int) : Word :=
  let f := familyOf s fam
  let p : Int := periodRoot (familyRate s fam)
  let n := f.hang + BitVec.ofNat 32 ((root - f.boundary + p - 1) / p).toNat
  let first := firstOpen s fam
  if later first n then first else n

/-- The commit's hang and lateness in the header's family. (DEDUCED, log entry 55.) -/
def commitHang (s : State) (p : Packet) : Word × Bool :=
  applyTarget s p.family.toNat false (readTarget s p.family.toNat p.target)

/-- The hang of a family for a commit. -/
def commitHangOf (s : State) (p : Packet) (fam : Nat) : Word :=
  let h := (commitHang s p).1
  if fam = p.family.toNat then h else firstAfter s fam (refRoot s p.family.toNat h)

/-- The state with the settings in force that the destinations would have at the commit's hang, and the restated ones
over them, under which the restated takes read their runs and bonds (R177). -/
def restatedView (s : State) (p : Packet) (r : Restate) : State :=
  restatedOver (settingsView (fun x => !later x.hang (commitHangOf s p x.family)) s) s r.collected

/-! ## Comparison (R177) -/

/-- Entries of a place that hang up to and including hang n of a family. -/
def entriesUpTo (s : State) (pl : Place) (fam : Nat) (n : Word) : List (Word × Entry) :=
  let v := destOf s pl.1 pl.2
  (v.shadow.toList ++ v.staged).filterMap (fun e =>
    match e.aim with
    | .hang x => if e.family = fam ∧ ¬ later x n then some (x, e) else none
    | .held _ => none)

/-- The latest of them that a test selects. -/
def latestEntry (f : Entry → Bool) (l : List (Word × Entry)) : Option Entry :=
  (l.foldl (fun (m : Option (Word × Entry)) x =>
    if f x.2 then (match m with | some y => if later y.1 x.1 then m else some x | none => some x) else m) none).map
    (fun x => x.2)

/-- The selection that a place would have at hang n without the restate. -/
def selectionAt (s : State) (pl : Place) (fam : Nat) (n : Word) : Option Nat :=
  match latestEntry (fun e => e.kind == .take) (entriesUpTo s pl fam n) with
  | some e => e.source
  | none => (destOf s pl.1 pl.2).active

/-- The protection that an entry sets. -/
def entryProt (e : Entry) : Option (Option Nat × TakeKind) :=
  if e.kind = .take then e.prot else some (e.source, e.kind)

/-- The protection that a video destination would have at hang n. -/
def protectionAt (s : State) (d fam : Nat) (n : Word) : Option Nat × TakeKind :=
  match (latestEntry (fun e => (entryProt e).isSome) (entriesUpTo s (.video, d) fam n)).bind entryProt with
  | some x => x
  | none =>
    let r := destRun s d
    (r.protSource, .protect r.revert r.followAudio r.wtr)

/-- A protection differs; without a source its other settings do not count. -/
def protDiffers (a b : Option Nat × TakeKind) : Bool := a.1 != b.1 || (a.1.isSome && a.2 != b.2)

/-! ## Staging of the differences (R178) -/

/-- The differences of one destination in one family: one take. -/
structure DiffTake where
  unit : Place
  family : Nat
  /-- Place, kind, source and fade of each entry. -/
  moves : List (Place × TakeKind × Option Nat × Nat)
  deriving DecidableEq, Repr

/-- Order of R178: video, ancillary, audio, each by rising number. -/
def placeRank (pl : Place) : Nat :=
  (match pl.1 with | .video => 0 | .anc => 1 | .audio => 2) * 65536 + pl.2

def insertDiff (x : DiffTake) : List DiffTake → List DiffTake
  | [] => [x]
  | y :: r => if placeRank x.unit < placeRank y.unit then x :: y :: r else y :: insertDiff x r

/-- Add a move to the difference of its unit and family. -/
def addMove (unit : Place) (fam : Nat) (m : Place × TakeKind × Option Nat × Nat) (l : List DiffTake) :
    List DiffTake :=
  if l.any (fun x => x.unit == unit && x.family == fam) then
    l.map (fun x => if x.unit = unit ∧ x.family = fam then { x with moves := x.moves ++ [m] } else x)
  else insertDiff { unit := unit, family := fam, moves := [m] } l

/-- Unit of a place. -/
def unitOf (x : Stated) (pl : Place) : Place :=
  match x.units.find? (fun e => e.1 == pl) with | some e => e.2 | none => pl

/-- Selections and protections that differ from those of a state, by destination. (DEDUCED, log entry 55.) -/
def takeDiffs (s t : State) (p : Packet) (x : Stated) : List DiffTake :=
  let picks := x.picks.foldl (fun l w =>
    let fam := (placeFamilyOf t w.place).getD w.family
    if selectionAt s w.place fam (commitHangOf s p fam) = w.source then l
    else addMove (unitOf x w.place) fam (w.place, .take, w.source, w.fade) l) []
  x.prots.foldl (fun l w =>
    let fam := destFamily t w.dest
    if protDiffers (protectionAt s w.dest fam (commitHangOf s p fam)) (w.source, w.kind) then
      addMove (unitOf x (.video, w.dest)) fam ((.video, w.dest), w.kind, w.source, 0) l
    else l) picks

/-- Room for an entry at a destination whose two entries hold other targets: the later one gives way.
(DEDUCED, log entry 55.) -/
def makeRoom (pl : Place) (aim : Aim) (fam session : Nat) (s : State) : State :=
  let v := destOf s pl.1 pl.2
  if hasRoom v aim fam session then s
  else
    match v.staged.getLast? with
    | some e => unstageWhere pl.1 pl.2 (fun x => x == e) s
    | none => s

/-- The entry of one place of a difference: its selection, its protection, or both (R177). -/
def diffEntry (session cmd take : Nat) (late : Bool) (h : Word) (x : DiffTake) (pl : Place) : Entry :=
  let mine := x.moves.filter (fun m => m.1 == pl)
  let pick := mine.find? (fun m => m.2.1 == .take)
  let prot := (mine.find? (fun m => m.2.1 != .take)).map (fun m => (m.2.2.1, m.2.1))
  let e : Entry :=
    { aim := .hang h, family := x.family, session := session, take := take, cmd := cmd, late := late
      withAudio := x.unit.1 == .video && x.moves.any (fun m => m.1.1 == .audio) }
  match pick, prot with
  | some m, _ => { e with source := m.2.2.1, fade := m.2.2.2, prot := prot }
  | none, some q => { e with source := q.1, kind := q.2 }
  | none, none => e

/-- An entry that takes the place of one with its target keeps what that one sets and it does not: the selection or the
protection (R177). -/
def mergeEntry (old : Option Entry) (e : Entry) : Entry :=
  match old with
  | none => e
  | some o =>
    if e.kind = .take then { e with prot := match e.prot with | some q => some q | none => entryProt o }
    else if o.kind = .take then { e with kind := .take, source := o.source, fade := o.fade, prot := some (e.source, e.kind) }
    else e

/-- The places of a difference at which an entry gives way to it (R156, R178). -/
def givesWay (s : State) (session : Nat) (h : Word) (x : DiffTake) : Bool :=
  x.moves.any (fun m =>
    let v := destOf s m.1.1 m.1.2
    !hasRoom v (.hang h) x.family session || v.staged.any (replaces (.hang h) x.family session))

/-- Stage the moves of one difference as one take at a hang. -/
def stageDiff (session cmd : Nat) (late : Bool) (h : Word) (x : DiffTake) (s : State) : State :=
  let take := s.mtx.nextTake
  let s := { s with mtx := { s.mtx with
      nextTake := take + 1
      counts := s.mtx.counts ++ [{ take := take, family := x.family, hang := h, late := late }] } }
  (x.moves.map (fun m => m.1)).dedup.foldl (fun s pl =>
    let old := (destOf s pl.1 pl.2).staged.find? (replaces (.hang h) x.family session)
    stageEntry pl.1 pl.2 (mergeEntry old (diffEntry session cmd take late h x pl))
      (makeRoom pl (.hang h) x.family session s)) s

/-- The first hang from h on, of those a step apart, with room for a take; looked for among n.
(DEDUCED, log entry 55.) -/
def roomyHang (s : State) (fam : Nat) (step : Word) : Nat → Word → Word
  | 0, h => h
  | n + 1, h => if takesAt s fam h < 4096 then h else roomyHang s fam step n (h + step)

/-- Hangs that differences use, first and last, and the units at which an entry gave way. -/
structure Used where
  range : Option (Word × Word) := none
  lost : List Place := []
  deriving DecidableEq, Repr

/-- Stage differences of one family from a hang on, 4,096 takes per hang. (DEDUCED, log entry 55.) -/
def spread (session cmd : Nat) (late half : Bool) : List DiffTake → Word → Used → State → State × Used
  | [], _, used, s => (s, used)
  | x :: r, h, used, s =>
    let h := roomyHang s x.family (if half then 2 else 1) (s.mtx.counts.length + 1) h
    let used : Used :=
      { range := match used.range with | some (a, _) => some (a, h) | none => some (h, h)
        lost := if givesWay s session h x then used.lost ++ [x.unit] else used.lost }
    spread session cmd late half r h used (stageDiff session cmd late h x s)

/-- A destination of half its family's rate among the differences (R153). -/
def diffHalf (s : State) (l : List DiffTake) : Bool :=
  l.any (fun x => x.moves.any (fun m => m.1.1 != .audio && halfDest s m.1.2 m.2.2.1))

/-- Stage the differences of every family; the hangs used in each, and the units at which an entry gave way.
(DEDUCED, log entry 55.) -/
def stageDiffs (p : Packet) (cmd : Nat) (late : Bool) (start : Nat → Word) (l : List DiffTake) (s : State) :
    State × List (Nat × Word × Word) × List Place :=
  [0, 1, 2, 3].foldl (fun (s, used, lost) fam =>
    let mine := l.filter (fun x => x.family == fam)
    let half := diffHalf s mine
    let (s, u) := spread (sess p) cmd late half mine (roundHang half (start fam)) {} s
    (s, match u.range with | some (a, b) => used ++ [(fam, a, b)] | none => used, lost ++ u.lost)) (s, [], [])

/-! ## Settings that differ -/

/-- The lock that a destination would have once the settings that a test selects apply (R171, R177). -/
def comingLock (s : State) (test : SettingDue → Bool) (pl : Place) : Option Nat :=
  ((s.mtx.settings.filter test).foldl (fun l x => match x.change with
    | .lock m d want => if m = pl.1 ∧ d = pl.2 then want else l
    | _ => l) (destOf s pl.1 pl.2).lock)

/-- Settings changes of a restate that differ from the settings that its destinations would have at the commit's
hang, each with the family at whose hang it applies and the unit that it makes differ; a source makes none. -/
def settingDiffs (s t : State) (p : Packet) (x : Stated) : List (Nat × Option Place × SettingChange) :=
  let fam := p.family.toNat
  let upTo := fun (x : SettingDue) => !later x.hang (commitHangOf s p x.family)
  let v := settingsView upTo s
  let dests := x.dests.filterMap (fun e =>
    let c := readDestCfg s e.2
    if destCfg v e.1 = c then none
    else some (destFamily t e.1, some (unitOf x (.video, e.1)), SettingChange.dest e.1 c))
  let sources := x.sources.filterMap (fun e =>
    let c := readSourceCfg s e.2
    if sourceCfg v e.1 = c then none else some (fam, none, SettingChange.source e.1 c))
  let locks := x.locks.filterMap (fun e =>
    let want := if e.2 then some (sess p) else none
    if comingLock s upTo e.1 = want then none
    else some ((placeFamilyOf t e.1).getD fam, some (unitOf x e.1), SettingChange.lock e.1.1 e.1.2 want))
  dests ++ sources ++ locks

/-- A collected setting that the state has come to refuse since is answered as its own command would be; the commit
stages nothing and the restate stays open. (DEDUCED, log entry 156.) -/
def checksSettings (s : State) (x : Stated) : Check :=
  firstFail (x.dests.map (fun e => checksDestConfig e.2 s) ++ x.sources.map (fun e => checksSourceConfig e.2 s))

/-- What a restated DEST_CONFIG does at the commit: its entries are unstaged, and record space is taken
(R167). -/
def prepareSetting (c : SettingChange) (s : State) : State :=
  match c with
  | .dest d c =>
    let s := unstageForConfig d c s
    { s with reserveFree := s.reserveFree + (destCfg s d).depth * frameBuffer - c.depth * frameBuffer }
  | _ => s

/-! ## RESTATE_COMMIT -/

/-- Every destination that the restate names is of an enabled family under the restated settings. -/
def familiesOn (t : State) (x : Stated) : Bool :=
  let on := fun (pl : Place) => match placeFamilyOf t pl with | some f => familyOn t f | none => true
  x.picks.all (fun w => on w.place && familyOn t w.family) && x.prots.all (fun w => on (.video, w.dest))
    && x.dests.all (fun e => on (.video, e.1)) && x.locks.all (fun e => on e.1)

/-- DEDUCED, log entry 156. -/
def checksRestateCommit (p : Packet) (s : State) : Check :=
  firstFail [
    need (decide (p.family.toNat ≤ 3)) badHeader,
    targetN s p p.family.toNat,
    need (restating s (sess p)) (conflict 0),
    need (familyOn s p.family.toNat) (conflict 0),
    match s.mtx.restate with
    | some r =>
      let t := restatedView s p r
      let x := statedOf t r
      firstFail [need (familiesOn t x) (conflict 0), checksSettings s x]
    | none => none]

/-- Entries for later hangs, HELD included, on a named destination are unstaged; the units that lost any. -/
def unstageLater (s0 : State) (p : Packet) (x : Stated) (s : State) : State × List Place :=
  x.units.foldl (fun (s, us) u =>
    let pl := u.1
    let test := fun (e : Entry) => match e.aim with
      | .held _ => true
      | .hang h => later h (commitHangOf s0 p e.family)
    if (destOf s pl.1 pl.2).staged.any test then (unstageWhere pl.1 pl.2 test s, us ++ [u.2]) else (s, us)) (s, [])

/-- A hang of another family in the header's: the one in progress at its ref. (DEDUCED, log entry 55.) -/
def inFamily (s : State) (fam : Nat) (g : Nat) (h : Word) : Word :=
  if g = fam then h
  else
    let f := familyOf s fam
    f.hang + BitVec.ofInt 32 ((refRoot s g h - f.boundary) / periodRoot (familyRate s fam))

/-- First and last hang used, in the header's family (R178). (DEDUCED, log entry 55.) -/
def usedIn (s : State) (fam : Nat) (dflt : Word) (used : List (Nat × Word × Word)) : Word × Word :=
  let all := used.map (fun u => (inFamily s fam u.1 u.2.1, inFamily s fam u.1 u.2.2))
  match all with
  | [] => (dflt, dflt)
  | u :: r => r.foldl (fun m v => (if later m.1 v.1 then v.1 else m.1, if later v.2 m.2 then v.2 else m.2)) u

/-- Units of settings that unstage entries (R167, R178). -/
def prepareSettings (sets : List (Nat × Option Place × SettingChange)) (s : State) : State × List Place :=
  sets.foldl (fun (s, us) e =>
    let t := prepareSetting e.2.2 s
    if (allEntries t).length < (allEntries s).length then (t, us ++ e.2.1.toList) else (t, us)) (s, [])

/-- The takes are those that the destinations need once the restated settings have unstaged their entries (R167, R177).
(DEDUCED, log entry 55.) -/
def effectRestateCommit (h : Reply) (p : Packet) (s : State) : State × Option Answer :=
  match s.mtx.restate with
  | none => (s, some (conflict 0))
  | some r =>
    let fam := p.family.toNat
    let t := restatedView s p r
    let x := statedOf t r
    let c := commitHang s p
    let sets := settingDiffs s t p x
    let cmd := s.mtx.nextCmd
    let s0 := s
    let s := { s with mtx := { s.mtx with nextCmd := cmd + 1, restate := none } }
    let (s, lost) := unstageLater s0 p x s
    let (s, more) := prepareSettings sets s
    let takes := takeDiffs s t p x
    let s := { s with mtx := { s.mtx with
        settings := s.mtx.settings ++ sets.map (fun e =>
          { family := e.1, hang := commitHangOf s0 p e.1, cmd := cmd, change := e.2.2 }) } }
    let (s, used, gone) := stageDiffs p cmd c.2 (commitHangOf s0 p) takes s
    let lost := lost ++ more ++ gone
    let differ := (takes.map (fun d => d.unit) ++ sets.filterMap (fun e => e.2.1)).dedup
    let named := (x.units.map (fun u => u.2)).dedup
    let (first, last) := usedIn s0 fam c.1
      (sets.map (fun e => (e.1, commitHangOf s0 p e.1, commitHangOf s0 p e.1)) ++ used)
    let results := leBytes 4 differ.length ++ leBytes 4 (named.filter (fun u => !differ.contains u)).length
      ++ leBytes 4 lost.dedup.length ++ leBytes 4 first.toNat ++ leBytes 4 last.toNat
    let ans : Answer :=
      { status := if c.2 then 0x0101 else 0, hang := first, family := fam, results := results }
    let empty := takes.isEmpty && sets.isEmpty
    let owed : Owed :=
      { cmd := cmd, reply := { firstReply h ans with hang := last, family := fam, results := [] }
        fixed := true, hung := empty }
    let s := if notifyHung p then { s with mtx := { s.mtx with owed := s.mtx.owed ++ [owed] } } else s
    (s, some ans)

/-- RESTATE_COMMIT (R177, R178). A commit that stages nothing completes at once. -/
def specRestateCommit : OpSpec :=
  { code := 0x0005, cls := 1, lengthOk := fixedLength 0, checks := checksRestateCommit
    effect := effectRestateCommit }

/-- RESTATE_COMMIT (R177, R178): completions that are due follow its reply. -/
def execRestateCommit (p : Packet) (s : State) : Host.Outcome State Fault Refusal :=
  .next (sendDue (runHost specRestateCommit p s))

end Sys2Proof.Machine
end

