-- ==== Sys2Proof/Machine/Sdi.lean ====
section
/-! DEFINITION. Sdi.lean: SDI_IN_CONFIG, SDI_OUT_CONFIG, FRAMESYNC_CONFIG, SDI_STATUS and the SDI
events (R107 to R136). -/

namespace Sys2Proof.Machine

/-! ## SDI_IN_CONFIG, FRAMESYNC_CONFIG -/

/-- A base lane of a quad-link group (R110). (DEDUCED, log entry 45.) -/
def isQuadBase (e : Nat) : Bool := e % 10 == 0 || e % 10 == 4

def readSdiInCfg (s : State) (p : Packet) : SdiInCfg :=
  { mode := u8 p 1, family := u8 p 2, windowClass := u8 p 3, links := orDefault (u8 p 4) 1
    pidFill := BitVec.ofNat 16 (u16 p 6), freeze := (sdiInCfg s (u8 p 0)).freeze }

/-- Pages of a lane under a setting (R21). -/
def cfgPages (c : SdiInCfg) : Nat := if c.mode = 1 then windowPages c.windowClass c.links else 0

/-- DEDUCED, log entry 45. -/
def checksSdiInConfig (p : Packet) (s : State) : Check :=
  let e := u8 p 0
  let c := readSdiInCfg s p
  firstFail [
    noTarget p, fieldOk (e < 160) 0, fieldIn (u8 p 1) 0 2 1, fieldIn (u8 p 2) 0 3 2, fieldIn (u8 p 3) 0 3 3,
    fieldOk (c.links == 1 || (c.links == 4 && isQuadBase e)) 4, reserved p 5 1,
    need (isSdi s e) (conflict 0),
    need (decide (galleryPages s (e / 10) - lanePages s e + cfgPages c ≤ 512)) (noResource 0)]

/-- The lane's CDR has lock. -/
def cdrLocked (s : State) (e : Nat) : Bool := laneLocked s (256 + e)

/-- Apply settings of an input: its source is lost, and detection starts again while the CDR is locked
(R112). -/
def applySdiIn (e : Nat) (c : SdiInCfg) (s : State) : State :=
  let s := { s with set := { s.set with sdiIn := tset (fun _ => {}) s.set.sdiIn e c } }
  reconfigSdiIn e (if cdrLocked s e then .detecting else .noSignal) s

def effectSdiInConfig (p : Packet) (s : State) : State × Answer :=
  let e := u8 p 0
  let old := (sdiInCfg s e).links
  let s := applySdiIn e (readSdiInCfg s p) s
  let members := if old = 4 ∨ (sdiInCfg s e).links = 4 then [e + 1, e + 2, e + 3] else []
  (members.foldl (fun s k => judgeAll (sdiSource k) s) s, done)

def specSdiInConfig : OpSpec :=
  { code := 0x3001, cls := 1, lengthOk := fixedLength 8, checks := checksSdiInConfig, effect := atOnce effectSdiInConfig }

/-- SDI_IN_CONFIG (R112, R117). -/
def execSdiInConfig (p : Packet) (s : State) : Host.Outcome State Fault Refusal := .next (runHost specSdiInConfig p s)

def checksFramesyncConfig (p : Packet) (s : State) : Check :=
  firstFail [
    noTarget p, fieldOk (u8 p 0 < 160) 0, fieldIn (u8 p 1) 0 1 1, reserved p 2 2, need (isSdi s (u8 p 0)) (conflict 0)]

def effectFramesyncConfig (p : Packet) (s : State) : State × Answer :=
  let e := u8 p 0
  (applySdiIn e { sdiInCfg s e with freeze := u8 p 1 == 1 } s, done)

def specFramesyncConfig : OpSpec :=
  { code := 0x3003, cls := 1, lengthOk := fixedLength 4, checks := checksFramesyncConfig
    effect := atOnce effectFramesyncConfig }

/-- FRAMESYNC_CONFIG (R122). -/
def execFramesyncConfig (p : Packet) (s : State) : Host.Outcome State Fault Refusal :=
  .next (runHost specFramesyncConfig p s)

/-! ## SDI_OUT_CONFIG -/

def readSdiOutCfg (p : Packet) : SdiOutCfg :=
  { enable := u8 p 1 == 1, format := orDefault (u8 p 2) 0xFF, defaultFormat := orDefault (u8 p 3) 0x21
    family := u8 p 4, links := orDefault (u8 p 5) 1, outDelay := u16 p 6 }

def checksSdiOutConfig (p : Packet) (s : State) : Check :=
  let e := u8 p 0
  let c := readSdiOutCfg p
  let fits := fun (f : Nat) => fitsRate f (familyRate s c.family)
  firstFail [
    noTarget p, fieldOk (e < 160) 0, fieldIn (u8 p 1) 0 1 1,
    fieldOk (c.format == 0xFF || isFormat c.format) 2, fieldOk (isFormat c.defaultFormat) 3, fieldIn (u8 p 4) 0 3 4,
    fieldOk ((c.links == 1 || (c.links == 4 && isQuadBase e)) && isQuad c.format == (c.links == 4)) 5,
    fieldIn (u16 p 6) 0 1000 6,
    need (isSdi s e) (conflict 0),
    need ((c.format == 0xFF || fits c.format) && fits c.defaultFormat) (conflict 0)]

/-- Apply settings of an output: FORMAT, FAMILY, LINKS and OUT_DELAY at the next frame start, where the
output runs; ENABLE 0 at once, with its transmitters at electrical idle (R123). -/
def applySdiOut (e : Nat) (c : SdiOutCfg) (s : State) : State :=
  let old := sdiOutCfg s e
  let o := sdiOutOf s e
  if o.running && old.enable && c.enable then
    let s := putSdiOut s e { o with pendingCfg := some c }
    { s with set := { s.set with sdiOut := tset (fun _ => {}) s.set.sdiOut e { old with defaultFormat := c.defaultFormat } } }
  else
    let s := if c.enable then s else idleLanes e (if old.links = 4 then 4 else 1) s
    setSdiOut e c (putSdiOut s e { o with running := false, raster := [] })

def effectSdiOutConfig (p : Packet) (s : State) : State × Answer := (applySdiOut (u8 p 0) (readSdiOutCfg p) s, done)

def specSdiOutConfig : OpSpec :=
  { code := 0x3002, cls := 1, lengthOk := fixedLength 8, checks := checksSdiOutConfig, effect := atOnce effectSdiOutConfig }

/-- SDI_OUT_CONFIG (R123). -/
def execSdiOutConfig (p : Packet) (s : State) : Host.Outcome State Fault Refusal :=
  .next (runHost specSdiOutConfig p s)

/-! ## Receiving -/

/-- CDR_LOCK: the receiver of a lane in mode SDI acquires its clock (R48, R112). -/
def execCdrLock (lane : Fin 160) (rate : SdiRate) (s : State) : Host.Outcome State Fault Refusal :=
  let e := lane.val
  let v := laneOf s (256 + e)
  .next (if isSdi s e && v.state != .down then
      let s := restartAdaptation (256 + e) (putLane s (256 + e)
        { v with state := .locked, counters := { v.counters with cdrRate := some rate } })
      let i := sdiInOf s e
      if i.state = .noSignal then
        putSdiIn s e { restartDetection i with state := .detecting
                                               reason := if i.isolated then whyIsolated else whyDetecting }
      else s
    else s)

/-- SDI_SIGNAL_LOSS: CDR loss, no transition for 10 µs, or a quad link out of order (R74, R110, R112). -/
def execSdiSignalLoss (lane : Fin 160) (why : SignalLoss) (s : State) : Host.Outcome State Fault Refusal :=
  let e := lane.val
  .next (if isSdi s e then
      match why with
      | .link =>
        let b := quadBaseIn s e
        if (sdiInCfg s b).links = 4 ∧ ((sdiInOf s b).state = .usable ∨ (sdiInOf s b).state = .outOfWindow) then
          dropSdiIn b .detecting whyLink s
        else s
      | _ =>
        if cdrLocked s e then
          let s := countLane (256 + e) (fun c => { c with lockLoss := sat32 c.lockLoss 1 }) s
          let s := putLane s (256 + e) { laneOf s (256 + e) with state := .hunt }
          raiseLane (laneFault (256 + e)) (sdiSignalGone e (if why = .cdr then whyCdr else whyNoSignal) s)
        else s
    else s)

/-! ### Lines (R111, R130 to R132) -/

/-- The receiver runs at the rate of the SD interfaces: its lines have one stream, no line number and SD packets (R107,
R111, R130). -/
def receivesSd (s : State) (e : Nat) : Bool := (laneOf s (256 + e)).counters.cdrRate == some .m270

/-- A line whose TRS is missing or has moved (R111). (DEDUCED, log entry 39.) -/
def trsBad (x : SdiLine) : Bool := decide (x.eav ≠ .good ∨ x.sav ≠ .good)

/-- Count what one line shows of its own: EAV and SAV, line number on HD and above, CRC per link or sub-image and
stream (R111). (DEDUCED, log entry 39.) (DEDUCED, log entry 42.) -/
def countLine (e link : Nat) (x : SdiLine) (s : State) : State :=
  let sd := receivesSd s e
  countSdiIn e (fun c => { c with
      trsErrors := sat32 c.trsErrors (bit (decide (x.eav ≠ .good)) + bit (decide (x.sav ≠ .good)))
      lnErrors := sat32 c.lnErrors (bit (!x.numberOk && !sd))
      crcErrors := x.crcFailed.foldl (fun t k =>
        let key := 2 * ((link + k.1.val) % 4) + k.2.val
        tput t key (sat32 ((tfind t key).getD 0) 1)) c.crcErrors }) s

/-- Samples of channel k of a usable input: they leave at once, in FRAMESYNC mode with their frame (R20, R112, R121). -/
def inputSamples (e k : Nat) (ws : List Word) (s : State) : State :=
  if (sdiInOf s e).state ≠ .usable then s
  else if (sdiInCfg s e).mode = 2 then
    let i := sdiInOf s e
    let waiting := tget (fun _ => ([] : List Word)) i.writing.audio k
    putSdiIn s e { i with writing := { i.writing with audio := tset (fun _ => []) i.writing.audio k (waiting ++ ws) } }
  else presentSamples (sdiSource e) k ws s

/-- The last good sample of a channel of an input, n times (R131). -/
def inputRepeat (e k n : Nat) (s : State) : State :=
  let last := match (tget (fun _ => ([] : List Word)) (sdiInOf s e).writing.audio k).getLast? with
    | some w => w
    | none => tget (fun _ => (0 : Word)) (essenceOf s (sdiSource e)).lastAudio k
  inputSamples e k (List.replicate n last) s

/-- Count an audio packet with a bad ECC or checksum (R131). -/
def countAudioError (e : Nat) (good : Bool) (s : State) : State :=
  if good then s else countSdiIn e (fun c => { c with audioErrors := sat32 c.audioErrors 1 }) s

/-- An audio data packet of a group; `low` are the bits of its extended data packet, none where that one is bad (R130,
R131). -/
def inputAudio (e g : Nat) (sd good : Bool) (low : Option (List Nat)) (p : AncPacket) (s : State) : State :=
  if 4 < g then countSdiIn e (fun c => { c with audioIgnored := sat32 c.audioIgnored 1 }) s
  else if (tget (fun _ => 0) (sdiInOf s e).groups g) = 2 then s
  else match good, low with
  | false, _ | _, none =>
    let n := if sd then p.data.length / 12 else 1
    (List.range 4).foldl (fun s k => inputRepeat e (4 * (g - 1) + k) n s) (countAudioError e good s)
  | true, some low =>
    (wholeSamples sd low p).foldl (fun s x => inputSamples e (4 * (g - 1) + x.1) [x.2] s) s

/-- A control packet of a group: a group at another rate than 48 kHz delivers silence and is counted (R131). -/
def inputControl (e g : Nat) (sd : Bool) (p : AncPacket) (s : State) : State :=
  let (async, other) := declaredRate sd p
  let i := sdiInOf s e
  let s := putSdiIn s e { i with groups := tset (fun _ => 0) i.groups g (if other then 2 else bit async) }
  if other then countSdiIn e (fun c => { c with audioRate := sat32 c.audioRate 1 }) s else s

/-- A packet that belongs to the ancillary source of a usable input leaves at once; it waits in WINDOW mode as long as
the picture beside it, in FRAMESYNC mode with its frame (R20, R112, R121, R132). -/
def inputAnc (e : Nat) (p : AncPacket) (s : State) : State :=
  let i := sdiInOf s e
  if i.state ≠ .usable then s
  else match (sdiInCfg s e).mode with
    | 0 => presentAnc (sdiSource e) p s
    | 1 => putSdiIn s e { i with window := i.window ++ [(0, .anc p)] }
    | _ => putSdiIn s e { i with writing := { i.writing with anc := i.writing.anc ++ [p] } }

/-- The four bytes of a payload ID packet (R115). -/
def packetPid (p : AncPacket) : Word := BitVec.ofNat 32 (leNat (p.data.map (fun w => w.setWidth 8)))

/-- Payload IDs of one frame, of which those of the links or sub-images of one picture differ in the link number (R129). -/
def samePid (fmt : Nat) (a b : Word) : Bool :=
  if 1 < outputImages fmt then a.extractLsb' 0 30 == b.extractLsb' 0 30 else a == b

/-- A payload ID is received: one that differs from the detected one ends USABLE and OUT_OF_WINDOW before the picture
of the frame that carries it (R112, R115). -/
def inputPid (e : Nat) (p : AncPacket) (s : State) : State :=
  let i := sdiInOf s e
  if (i.state = .usable ∨ i.state = .outOfWindow) ∧ !samePid (i.detected.getD 0) (packetPid p) i.pid then
    dropSdiIn e .detecting whyFormatChange s
  else s

/-- One packet of a line (R108, R112, R130 to R132). -/
def inputPacket (e : Nat) (line : List RxAnc) (x : RxAnc) (s : State) : State :=
  let sd := receivesSd s e
  let p := x.packet
  match ancKind sd p with
  | .audioData g =>
    inputAudio e g sd x.good (lineLowBits sd g line) p s
  | .audioExtended _ => countAudioError e x.good s
  | kind =>
    if !x.good then countSdiIn e (fun c => { c with ancErrors := sat32 c.ancErrors 1 }) s
    else match kind with
      | .audioControl g => if g ≤ 4 then inputControl e g sd p s else s
      | .edh => countSdiIn e (fun c => { c with ancDrop := sat32 c.ancDrop 1 }) s
      | .other => inputAnc e p s
      | .payloadId => inputPid e p s
      | _ => s

/-- A picture line of an input: to the matrices, into the window, or into the frame that is written (R118 to
R120). -/
def inputLine (e : Nat) (l : PicLine) (s : State) : State :=
  let i := sdiInOf s e
  match (sdiInCfg s e).mode with
  | 0 => presentLine (sdiSource e) l s
  | 1 => putSdiIn s e { i with window := i.window ++ [(0, .line l)] }
  | _ => putSdiIn s e { i with writing := { i.writing with lines := i.writing.lines ++ [l] } }

/-- A frame of an input begins (R118, R119). -/
def inputFrame (e : Nat) (s : State) : State :=
  let i := sdiInOf s e
  match (sdiInCfg s e).mode with
  | 0 => beginFrame (sdiSource e) i.pid s
  | 1 => putSdiIn s e { i with window := i.window ++ [(0, .frame)] }
  | _ => s

/-- Lines of the format that a raster line of one link stands for. -/
def linesPerEvent (fmt : Nat) : Nat := if (formatLines fmt).1 = 2160 ∨ isLevelB fmt then 2 else 1

/-- The window moves on by a raster line: what has waited 16 lines less the offset leaves (R20,
R119). (DEDUCED, log entry 168.) -/
def moveWindow (e fmt : Nat) (s : State) : State :=
  let i := sdiInOf s e
  let depth := (16 - offsetLines fmt i.offset).toNat
  let aged := i.window.map (fun x => (x.1 + linesPerEvent fmt, x.2))
  let out := aged.filter (fun x => depth < x.1)
  let s := putSdiIn s e { i with window := aged.filter (fun x => !decide (depth < x.1)) }
  out.foldl (fun s x => match x.2 with
    | .line l => presentLine (sdiSource e) l s
    | .anc p => presentAnc (sdiSource e) p s
    | .frame => beginFrame (sdiSource e) i.pid s) s

/-- The images of a raster line: of its own lane, or of all four links once the last of them has come (R110). -/
def gatherImages (e link : Nat) (x : SdiLine) (s : State) : Option (List (List (BitVec 10))) × State :=
  if (sdiInCfg s e).links = 4 then
    let i := sdiInOf s e
    let waiting := i.quad.filter (fun y => !(y.1 == link && y.2.1 == x.number)) ++ [(link, x.number, x.images.headD [])]
    let own := fun (k : Nat) => waiting.find? (fun y => y.1 == k && y.2.1 == x.number)
    if (List.range 4).all (fun k => (own k).isSome) then
      (some ((List.range 4).map (fun k => match own k with | some y => y.2.2 | none => [])),
        putSdiIn s e { i with quad := waiting.filter (fun y => y.2.1 != x.number) })
    else (none, putSdiIn s e { i with quad := waiting })
  else (some x.images, s)

/-- The frame that a line begins on link 1 of a usable input (R118, R119). -/
def inputStart (e link : Nat) (x : SdiLine) (s : State) : State :=
  let i := sdiInOf s e
  if i.state = .usable ∧ link = 0 ∧ (x.number = 1 ∨ (isLevelB (i.detected.getD 0) ∧ x.number = 564)) then inputFrame e s
  else s

/-- The picture that a line of a usable input brings, received on link `link` of it; in WINDOW mode the window moves on
(R110, R118 to R121). -/
def inputContent (e link : Nat) (x : SdiLine) (s : State) : State :=
  if (sdiInOf s e).state ≠ .usable then s
  else
    let fmt := (sdiInOf s e).detected.getD 0
    let (images, s) := gatherImages e link x s
    let s := match images with
      | some ims => (picturesOf fmt x.number ims).foldl (fun s l => inputLine e l s) s
      | none => s
    if link = 0 ∧ (sdiInCfg s e).mode = 1 then moveWindow e fmt s else s

/-- All that a line brings to an input: the frame that it begins, its packets, which are taken from link 1 only, and its
picture (R110, R130 to R132). -/
def inputWhole (e link : Nat) (x : SdiLine) (s : State) : State :=
  let s := inputStart e link x s
  let s := if link = 0 then x.anc.foldl (fun s y => inputPacket e x.anc y s) s else s
  inputContent e link x s

/-- SDI_LINE_RX: one line is received; three in a row with the TRS missing or moved are a format change
(R111, R112). A line on which the receive FIFO filled brings nothing (R38). -/
def execSdiLineRx (lane : Fin 160) (line : SdiLine) (s : State) : Host.Outcome State Fault Refusal :=
  let e := lane.val
  let b := quadBaseIn s e
  .next (if isSdi s e && ((sdiInOf s e).state != .noSignal || (sdiInOf s b).state == .usable) then
      let s := if line.overflow then fifoOverflow (256 + e) s else s
      let s := countLine b (e - b) line s
      let s := if line.overflow then s else inputWhole b (e - b) line s
      let run := if trsBad line then (sdiInOf s e).trsRun + 1 else 0
      let s := putSdiIn s e { sdiInOf s e with trsRun := run, atLine := line.number }
      let i := sdiInOf s b
      if run < 3 then s
      else if i.state = .usable ∨ i.state = .outOfWindow then dropSdiIn b .detecting whyFormatChange s
      else putSdiIn s b (restartDetection (sdiInOf s b))
    else s)

/-! ### Frames (R112, R115, R116) -/

/-- Offset of an arrival from the nearest reference position of a family for a format, in 2⁻¹⁶ ns; a format of
half the family rate has one at every even hang (R116, R141). -/
def sdiOffset (s : State) (fam fmt : Nat) (arrival : Int) : Int :=
  let f := familyOf s fam
  let p : Int := periodRoot (familyRate s fam)
  let half := halfRate fmt (familyRate s fam)
  let period := if half then 2 * p else p
  let ref := if half && f.hang.getLsbD 0 then f.boundary - p else f.boundary
  let d := (arrival - ref) % period
  rootToUnits (if 2 * d ≤ period then d else d - period)

/-- The links of a quad-link input are all locked, in their places and within 2 µs (R110). -/
def linksGood (s : State) (e : Nat) (x : SdiFrame) : Bool :=
  (sdiInCfg s e).links != 4 || (x.linksOk && (List.range 4).all (fun k => cdrLocked s (e + k)))

/-- What two identical frames make of a DETECTING input: the state and reason (R110, R112). -/
def detectVerdict (s : State) (e : Nat) (x : SdiFrame) : SdiState × Nat :=
  let c := sdiInCfg s e
  let offset := (sdiInOf s e).offset
  if (sdiInOf s e).isolated then (.detecting, whyIsolated)
  else if !isFormat x.format || isQuad x.format != (c.links == 4) || pidUnsupported (isQuad x.format) x.pid then
    (.detecting, whyUnsupported)
  else if !fitsRate x.format (familyRate s c.family) then (.detecting, whyFamily)
  else if c.mode == 1 && windowPages c.windowClass 1 < formatPages x.format && c.links == 1 then
    (.detecting, whyWindowClass)
  else if !linksGood s e x then (.detecting, whyLink)
  else if c.mode == 1 && !withinLines x.format 16 offset then (.outOfWindow, whyOutOfWindow)
  else (.usable, 0)

/-- An input becomes USABLE. Its source is usable from the frame that now begins, in FRAMESYNC mode from
the first PP at which a frame is complete (R112, R120). (DEDUCED, log entry 40.) -/
def enterUsable (e : Nat) (x : SdiFrame) (s : State) : State :=
  let c := sdiInCfg s e
  let pid := carriedPid c.pidFill x.format x.pid
  let i := sdiInOf s e
  let sync := c.mode == 2
  let s := putSdiIn s e { i with
    state := .usable, reason := 0, detected := some x.format, pid := pid, usablePending := sync
    completed := 0, haveFrame := i.haveFrame && i.frozen, writing := { pid := pid } }
  let s := countSdiIn e (fun k => { k with detects := sat32 k.detects 1 }) s
  if sync then s else gainSource (sdiSource e) x.format c.family pid s

/-- A frame of an input in DETECTING. -/
def frameDetecting (e : Nat) (x : SdiFrame) (s : State) : State :=
  let i := sdiInOf s e
  if i.same < 2 then s
  else
    let (st, why) := detectVerdict s e x
    if st = .usable then enterUsable e x s
    else
      let s := if st = .outOfWindow then
          let pid := carriedPid (sdiInCfg s e).pidFill x.format x.pid
          putSdiIn s e { i with detected := some x.format, pid := pid }
        else s
      putSdiIn s e { sdiInOf s e with state := st, reason := why }

/-- A complete frame of a FRAMESYNC input waits for its PP (R120). -/
def completeFrame (e : Nat) (s : State) : State :=
  let i := sdiInOf s e
  putSdiIn s e { i with completed := i.completed + 1, stored := i.writing, writing := { pid := i.pid } }

/-- A frame of an input in USABLE. -/
def frameUsable (e : Nat) (x : SdiFrame) (s : State) : State :=
  let i := sdiInOf s e
  let c := sdiInCfg s e
  if !linksGood s e x then dropSdiIn e .detecting whyLink s
  else if some x.format ≠ i.detected ∨ carriedPid c.pidFill x.format x.pid ≠ i.pid then
    dropSdiIn e .detecting whyFormatChange s
  else if c.mode = 1 ∧ !withinLines x.format 16 i.offset then dropSdiIn e .outOfWindow whyOutOfWindow s
  else if c.mode = 2 then completeFrame e s
  else s

/-- A frame of an input in OUT_OF_WINDOW. -/
def frameOutside (e : Nat) (x : SdiFrame) (s : State) : State :=
  let i := sdiInOf s e
  let c := sdiInCfg s e
  if !linksGood s e x then dropSdiIn e .detecting whyLink s
  else if some x.format ≠ i.detected ∨ carriedPid c.pidFill x.format x.pid ≠ i.pid then
    dropSdiIn e .detecting whyFormatChange s
  else if withinLines x.format 15 i.offset then enterUsable e x s
  else s

/-- SDI_FRAME_RX: a complete frame is received (R112, R115, R116, R120); of a quad-link input, on its base
lane (R110). -/
def execSdiFrameRx (lane : Fin 160) (frame : SdiFrame) (s : State) : Host.Outcome State Fault Refusal :=
  let e := lane.val
  .next (if isSdi s e && (sdiInOf s e).state != .noSignal && !quadMemberIn s e then
      let s := if frame.pid.isNone then countSdiIn e (fun c => { c with pidAbsent := sat32 c.pidAbsent 1 }) s else s
      let i := sdiInOf s e
      let id := (frame.format, frame.pid)
      let s := putSdiIn s e { i with last := some id, same := if i.last = some id then i.same + 1 else 1
                                     offset := sdiOffset s (sdiInCfg s e).family frame.format frame.arrival }
      match i.state with
      | .usable => frameUsable e frame s
      | .outOfWindow => frameOutside e frame s
      | _ => frameDetecting e frame s
    else s)

/-! ## Transmitting -/

/-- Judge the timing of the source that an output shows (R126, R135). -/
def judgeTiming (e : Nat) (arrivalNs : Int) (s : State) : State :=
  let d := 1280 + e
  let o := sdiOutOf s e
  let delay : Int := (sdiOutCfg s e).outDelay
  match shownSource s d with
  | none => putSdiOut s e { o with outOf := none, recovering := false }
  | some n =>
    if !sourceUsable s n || !isTimed s n || decide (delay - 2000 ≤ arrivalNs ∧ arrivalNs ≤ delay) then
      let o := { o with inRange := o.inRange || sourceUsable s n }
      if o.outOf = some n ∧ !o.recovering ∧ isTimed s n then putSdiOut s e { o with recovering := true }
      else putSdiOut s e { o with outOf := none, recovering := false }
    else
      let s := putSdiOut s e { o with outOf := some n, recovering := false, inRange := false
                                      mistimed := sat32 o.mistimed 1 }
      if o.inRange then raiseSdi (sdiOutFault e) s else s

/-- The elastic stage at a frame start: past 90 % it is re-centred, and the frame omits or repeats a line of
vertical blanking (R128). (DEDUCED, log entry 43.) (DEDUCED, log entry 169.) -/
def judgeFill (e fill : Nat) (slip : LineSlip) (s : State) : State :=
  let o := sdiOutOf s e
  if 90 < fill then
    raiseSdi (sdiOutFault e) (putSdiOut s e { o with fill := 50, slips := some slip, txSlip := sat32 o.txSlip 1 })
  else putSdiOut s e { o with fill := fill, slips := none }

/-- AUDIO_EMBED_CONFIG settings that wait apply (R291). (DEDUCED, log entry 85.) -/
def applyEmbed (e : Nat) (s : State) : State :=
  match tfind s.sdi.pendingEmbed e with
  | some c =>
    { s with set := { s.set with embed := tset (fun _ => {}) s.set.embed e c }
             sdi := { s.sdi with pendingEmbed := tdel s.sdi.pendingEmbed e } }
  | none => s

/-- The bytes of a generated channel-status block: professional, linear PCM, 48 kHz, 24 bits, and its check
byte (R291). (PRESUMED, log entry 146.) -/
def statusBytes : List Nat :=
  let body := [0x85, 0, 0x2C] ++ List.replicate 20 0
  let crc := (body.flatMap (bitsOf 8)).foldl (fun c b =>
    if xor (c % 2 == 1) b then Nat.xor (c / 2) 0xB8 else c / 2) 0xFF
  body ++ [crc]

/-- A sample with the generated status bit of a place in the block (R291). -/
def generatedStatus (place : Nat) (w : Word) : Word :=
  let c := statusBytes.getD (place / 8) 0 / 2 ^ (place % 8) % 2
  BitVec.ofNat 32 (w.toNat % 2 ^ 26 + c * 2 ^ 26 + bit (decide (place = 0)) * 2 ^ 27)

/-- Sample periods with the channel status of their pairs: as carried, or generated (R291). -/
def withStatus (c : EmbedCfg) (place : Nat) (periods : List (List Word)) : List (List Word) :=
  periods.zipIdx.map (fun p => p.1.zipIdx.map (fun w =>
    if c.csMode.getLsbD (w.2 / 2) then generatedStatus ((place + p.2) % 192) w.1 else w.1))

/-- The payload ID that an output sends on a link or sub-image (R127, R129). -/
def outputPid (s : State) (e sub : Nat) : Word :=
  let o := sdiOutOf s e
  imagePid o.current o.lastPid sub

/-- A lane of an output in mode SDI that is not down sends words under the SDI line code; another one stays as it is
(R45, R46, R50, R51). -/
def sendWords (e : Nat) (ws : List (BitVec 10)) (s : State) : State :=
  if !isSdi s e || (laneOf s (256 + e)).state == .down then s
  else
    let o := sdiOutOf s e
    let (bits, k, v) := nrziBits (ws.flatMap (fun w => bitsOf 10 w.toNat)) o.scrambler o.level
    let s := putSdiOut s e { o with scrambler := k, level := v }
    putLane s (256 + e) { laneOf s (256 + e) with sent := lineLevels 0 (laneCfg s (256 + e)).txInvert bits }

/-- Whole lines by which a realignment makes the frame in progress longer, or below 0 shorter (R278). (DEDUCED, log
entry 187.) -/
def shiftLines (o : SdiOut) : Int :=
  rootToUnits o.shift * (594 * rasterLines o.current : Nat) / (framePeriod594 o.current * fieldsOfRaster o.current : Nat)

/-- Channel-status, picture, ancillary data and audio of the frame that an output has sent: the picture that the
source shown presented in it, or black (R125 to R133).
(DESIGN CHOICE, log entry 143; DESIGN CHOICE, log entry 147.) -/
def sentFrame (s : State) (e : Nat) : List RasterLine × Nat :=
  let d := 1280 + e
  let o := sdiOutOf s e
  let emb := tget (fun _ => ({} : EmbedCfg)) s.set.embed e
  let picture := match shownSource s d with
    | some n => if (destRun s d).inFallback || lostAt s d n then [] else (essenceOf s n).done.lines
    | none => []
  let packets := fun (x : Option Nat) => match x with
    | some n => if ancUsable s n then (essenceOf s n).done.anc else []
    | none => []
  let now := packets (destOf s .anc d).active
  let line := switchingLine o.current
  let anc := match o.ancBefore with
    | some x => (packets x).filter (fun p => p.line < line) ++ now.filter (fun p => line ≤ p.line)
    | none => now
  frameRaster o.current ((List.range (outputImages o.current)).map (outputPid s e)) picture anc emb
    (withStatus emb o.csPlace o.audio) (frameLines o.current o.secondField o.slips (shiftLines o)) o.raster

/-- The frame in progress of an output ends: it has been sent, behind its switching line with the payload ID of the
source that it shows, and what it had no place for is dropped (R125, R129, R133, R147).
(DESIGN CHOICE, log entry 147.) -/
def endOutputFrame (e : Nat) (s : State) : State :=
  if (sdiOutOf s e).running then
    let s := keepPid e s
    let o := sdiOutOf s e
    let (raster, dropped) := sentFrame s e
    let s := putSdiOut s e { o with raster := raster, audio := [], ancBefore := none, shift := 0
                                    secondField := isLevelB o.current && !o.secondField
                                    csPlace := (o.csPlace + o.audio.length) % 192 }
    let s := countSdiIn e (fun c => { c with ancDrop := sat32 c.ancDrop dropped }) s
    (List.range (if isQuad o.current then 4 else 1)).foldl (fun s k => sendWords (e + k) (linkWords o.current k raster) s) s
  else s

/-- Output timing point of a frame that starts now: PP + 200 ns + OUT_DELAY, in 2⁻¹⁶ ns from ROOT cycle 0
(R116, R125). -/
def outputTiming (s : State) (e : Nat) : Int :=
  let c := sdiOutCfg s e
  let fmt := (sdiOutOf s e).current
  rootToUnits (familyOf s c.family).boundary + ((16 * framePeriod594 fmt / (594 * formatTotalLines fmt) : Nat) : Int)
    + (200 + c.outDelay) * 65536

/-- SDI_OUTPUT_FRAME_START (R123 to R128, R133, R291). -/
def execSdiOutputFrameStart (lane : Fin 160) (arrivalNs : Int) (fillPercent : Nat) (slip : LineSlip) (s : State) :
    Host.Outcome State Fault Refusal :=
  let e := lane.val
  .next (if isSdi s e && (sdiOutCfg s e).enable && (laneOf s (256 + e)).state != .down then
      let s := endOutputFrame e s
      let s := match (sdiOutOf s e).pendingCfg with | some c => setSdiOut e c s | none => s
      let s := applyEmbed e s
      let s := putSdiOut s e { sdiOutOf s e with running := true }
      let s := judgeFill e fillPercent slip (judgeTiming e arrivalNs s)
      let s := keepPid e (followFormat e (judgeDest (1280 + e) s))
      putSdiOut s e { sdiOutOf s e with startAt := outputTiming s e }
    else s)

/-! ## SDI_STATUS (R134). The fill is given as the time that the stage holds, of 2,000 ns (R126). -/

/-- DEDUCED, log entry 42; DEDUCED, log entry 43. -/
def sdiItems (s : State) (e : Nat) : Bytes :=
  let i := sdiInOf s e
  let o := sdiOutOf s e
  let c := i.counters
  itemByte (sdiStateCode i.state) ++ itemByte i.reason ++ itemByte (i.detected.getD 0) ++ itemWord i.pid
    ++ itemSigned (offsetLines (i.detected.getD 0x21) i.offset) ++ itemOffset i.offset ++ itemFlag i.frozen
    ++ itemByte o.current ++ itemOffset (o.fill * 1310720)
    ++ itemCount c.trsErrors ++ itemCount c.lnErrors
    ++ ((List.range 8).map (fun k => itemCount ((tfind c.crcErrors k).getD 0))).flatten
    ++ itemCount c.pidAbsent ++ itemCount c.detects ++ itemCount c.losses ++ itemCount c.repeats ++ itemCount c.drops
    ++ itemCount c.audioAsync ++ itemCount c.audioRate ++ itemCount c.audioErrors ++ itemCount c.audioIgnored
    ++ itemCount c.ancErrors ++ itemCount c.ancDrop ++ itemCount o.mistimed
    ++ itemCount o.formatSwitch ++ itemCount o.txSlip

def clearSdi (e : Nat) (s : State) : State :=
  let s := putSdiIn s e { sdiInOf s e with counters := {} }
  putSdiOut s e { sdiOutOf s e with mistimed := 0, formatSwitch := 0, txSlip := 0 }

def specSdiStatus : OpSpec := specStatus 0x3004 (onlySpace { size := 160, items := sdiItems, clear := clearSdi })

/-- SDI_STATUS (R134). -/
def execSdiStatus (p : Packet) (s : State) : Host.Outcome State Fault Refusal := .next (runHost specSdiStatus p s)

end Sys2Proof.Machine
end

