-- ==== Sys2Proof/Machine/Servo.lean ====
section
/-! DEFINITION. Servo.lean: rebases and the PTP servo (R234 to R254). -/

namespace Sys2Proof.Machine

/-- Change the time base. -/
def putTime (s : State) (t : TimeBase) : State := { s with time := t }

/-- Nominal RATE (R235). -/
def nominalRate : Nat := 473863597155987

/-- A RATE lies within 500 ppm of nominal (R235). -/
def rateOk (r : Nat) : Bool :=
  decide (((r : Int) - nominalRate).natAbs * 1000000 ≤ 500 * nominalRate)

/-- Stage a triple (R239). -/
def stageRebase (t : Triple) (absolute : Bool) (s : State) : State :=
  putTime s { s.time with staged := some { triple := t, absolute := absolute } }

/-- ALIGNED after a rebase that moves time by some 2⁻¹⁶ ns: it falls at once, and after a move of more than 100 ns it
stays 0 until the family is realigned (R140, R241). -/
def realignAll (move : Int) (s : State) : State :=
  (List.range 4).foldl (fun s n =>
    let f := familyOf s n
    if familyOn s n && !isAligned s (familyRate s n) f.boundary f.hang then
      let s := putFamily s n { f with stepped := f.stepped || decide (100 * 65536 < move.natAbs) }
      if f.aligned then setAligned n false false s else s
    else s) s

/-- The loop's phase target follows a rebase, which moves device time and not ROOT (R271). (DESIGN CHOICE, log entry
150.) -/
def shiftPhase (move : Int) (s : State) : State :=
  if isForced s 4 then
    putRef s { s.ref with ptpOffset := s.ref.ptpOffset + move, phaseTarget := s.ref.phaseTarget - move }
  else s

/-- The staged triple applies at its count (R239, R378). -/
def applyTriple (s : State) : State :=
  match s.time.staged with
  | none => s
  | some r =>
    if countReached s.time.count r.triple.c0 then
      let t := s.time
      let move := unitsAt r.triple r.triple.c0 - unitsAt t.triple r.triple.c0
      let s := putTime s { t with triple := r.triple, timeSet := t.timeSet || r.absolute, staged := none }
      shiftPhase move (realignAll move (raiseIrq irqTimeApplied s))
    else s

/-- TRIPLE_APPLY (R239). -/
def execTripleApply (s : State) : Host.Outcome State Fault Refusal := .next (applyTriple s)

/-! ## The servo (R252 to R254) -/

/-- The servo enters TIME_HOLDOVER: a loss at once of VREF_PTP (R253, R261). -/
def enterTimeHoldover (s : State) : State :=
  loseActivity 4 false (putTime s { s.time with servo := .timeHoldover })

/-- The SLAVE port leaves SLAVE (R253, R261). -/
def leaveSlave (n : Nat) (s : State) : State :=
  if s.time.slavePort = some n then
    let s := putPtpPort s n { ptpPortOf s n with slave := false }
    let was := s.time.servo
    let s := putTime s { s.time with slavePort := none }
    match was with
    | .tracking => note 0x07 1 (enterTimeHoldover s)
    | _ => loseActivity 4 false s
  else s

/-- A port may become SLAVE: it is enabled, and not a master only (R251). -/
def mayBeSlave (s : State) (n : Nat) : Bool := (ptpPortCfg s n).enable && !(ptpPortCfg s n).masterOnly

/-- A port becomes SLAVE; at most one port is (R251, R253). -/
def becomeSlave (n : Nat) (s : State) : State :=
  if mayBeSlave s n then
    let s := match s.time.slavePort with | some m => if m = n then s else leaveSlave m s | none => s
    let s := putPtpPort s n { ptpPortOf s n with
      slave := true, waitSync := none, synced := none, request := none, samples := [] }
    let t := { s.time with slavePort := some n, lastMeasurement := none, overLimit := 0 }
    let start := t.servo == .disabled && !s.set.ptpDev.host || t.servo == .timeHoldover && !t.pathStep
    putTime s { t with servo := if start then .acquiring else t.servo }
  else s

/-- PORT_BECOMES_SLAVE (R253). -/
def execPortBecomesSlave (port : Fin 320) (slave : Bool) (s : State) : Host.Outcome State Fault Refusal :=
  .next (if slave then becomeSlave port.val s else leaveSlave port.val s)

/-- delayAsymmetry of a port in 2⁻¹⁶ ns (R252). -/
def asymmetryOf (s : State) (n : Nat) : Int := tget (fun _ => (0 : Int)) s.set.asymmetry n

/-- The count that a rebase of the servo names: at least 1 µs and at most 2³² ticks away, which the
manual leaves open. (DESIGN CHOICE, log entry 75.) -/
def servoCount (s : State) : Word64 × State :=
  let (n, s) := drawBelow (2 ^ 32 - 594) s
  (s.time.count + BitVec.ofNat 64 (594 + n), s)

/-- While REFSEL selects VREF_PTP, the servo holds RATE at nominal (R254). -/
def holdsNominal (s : State) : Bool := isForced s 4

/-- A RATE that removes an offset: on the side that does, and within MAX_SLEW of the master's rate; the
manual leaves open which (R253). (DESIGN CHOICE, log entry 75.) -/
def servoRate (master : Nat) (offset : Int) (s : State) : Nat × State :=
  if holdsNominal s then (nominalRate, s)
  else
    let span := master * s.set.ptpDev.maxSlew / 1000000
    let (k, s) := drawBelow (span + 1) s
    (if offset = 0 then master else if 0 < offset then master - k else master + k, s)

/-- A measurement of the SLAVE port: mean path delay and offset from master in 2⁻¹⁶ ns, the master's tick length in
2⁻⁴⁸ ns, and the last Sync (R252). -/
structure Measurement where
  mean : Int
  offset : Int
  rate : Nat
  sync : PtpSync

/-- Rate rebase: RELATIVE, DELTA 0 (R253). -/
def rateRebase (m : Measurement) (s : State) : State :=
  if holdsNominal s && s.time.triple.rate == nominalRate then s
  else
    let (r, s) := servoRate m.rate m.offset s
    let (c, s) := servoCount s
    stageRebase { c0 := c, t0 := timeAt s.time.triple c, rate := r } false s

/-- RELATIVE rebase that steps by the offset (R253). -/
def stepRebase (m : Measurement) (s : State) : State :=
  let (c, s) := servoCount s
  let rate := if holdsNominal s then nominalRate else m.rate
  stageRebase { c0 := c, t0 := timeOfUnits (unitsAt s.time.triple c - m.offset).toNat, rate := rate } false s

/-- The master's time at a count, in 2⁻¹⁶ ns: from the last Sync on, by the master's tick length (R253). (DEDUCED, log
entry 76.) -/
def masterUnits (s : State) (n : Nat) (m : Measurement) (c : Word64) : Int :=
  m.sync.device + latencyUnits (ptpLatency s n).1 - m.offset
    + ((c.toNat : Int) - m.sync.count.toNat) * m.rate / 2 ^ 32

/-- ABSOLUTE rebase to master time (R253). -/
def masterRebase (n : Nat) (m : Measurement) (s : State) : State :=
  let (c, s) := servoCount s
  let rate := if holdsNominal s then nominalRate else m.rate
  stageRebase { c0 := c, t0 := timeOfUnits (masterUnits s n m c).toNat, rate := rate } true s

/-- Samples in rising order. -/
def insertSample (x : Int) : List Int → List Int
  | [] => [x]
  | y :: r => if x ≤ y then x :: y :: r else y :: insertSample x r

/-- The median of eight samples: the mean of the two in the middle (R252). (DEDUCED, log entry 76.) -/
def medianOf (l : List Int) : Int :=
  let x := l.foldl (fun r y => insertSample y r) []
  (x.getD 3 0 + x.getD 4 0) / 2

/-- A measurement is formed of eight samples, with the delayAsymmetry of its port (R252). -/
def formMeasurement (s : State) (n : Nat) (masterRate : Nat) : Option Measurement :=
  let v := ptpPortOf s n
  match v.synced with
  | some y =>
    if 8 ≤ v.samples.length then
      let mean := medianOf (v.samples.take 8)
      some { mean := mean, offset := y.device - y.master - mean - asymmetryOf s n, rate := masterRate, sync := y }
    else none
  | none => none

/-- A path step (R252): of two consecutive measurements; after an acceptance the baseline is the
earlier one. -/
def isPathStep (s : State) (n : Nat) (mean : Int) : Bool :=
  match s.time.lastMeasurement with
  | some x => decide ((ptpPortCfg s n).pathStepLimit * 65536 < (mean - x).natAbs)
  | none => false

/-- A measurement in TRACKING without a path step (R253). -/
def trackMeasurement (m : Measurement) (s : State) : State :=
  let above := decide (s.set.ptpDev.stepLimit * 65536 < m.offset.natAbs)
  let n := if above then s.time.overLimit + 1 else 0
  if n = 4 then stepRebase m (putTime s { s.time with overLimit := 0 })
  else rateRebase m (putTime s { s.time with overLimit := n })

/-- The first measurement in ACQUIRING (R253). -/
def acquireMeasurement (n : Nat) (m : Measurement) (s : State) : State :=
  let s := putTime s { s.time with servo := .tracking, overLimit := 0 }
  if !s.time.timeSet || decide (s.set.ptpDev.stepLimit * 65536 < m.offset.natAbs) then masterRebase n m s
  else rateRebase m s

/-- A measurement in TRACKING is an event of VREF_PTP: its offset, and the master's frequency against XO_IN, which is
ROOT's and the tick's by the master (R258, R261, R262, R271). -/
def tellReference (m : Measurement) (s : State) : State :=
  let r := s.ref
  let freq := r.frequency + ((m.rate : Int) - nominalRate) * 100000000 / nominalRate
  putRef s { r with ptpOffset := m.offset, ptpReadings := r.ptpReadings ++ [freq] }

/-- The servo meets a measurement of the SLAVE port; in TIME_HOLDOVER it keeps its baseline (R253). -/
def servoMeasurement (n : Nat) (m : Measurement) (s : State) : State :=
  let stepped := s.time.servo == .tracking && isPathStep s n m.mean
  let kept := stepped || s.time.servo == .timeHoldover
  let v := ptpPortOf s n
  let s := putPtpPort s n { v with
    meanPathDelay := m.mean, lastOffset := m.offset, baseline := if kept then v.baseline else some m.mean
    pathSteps := sat32 v.pathSteps (bit stepped), samples := v.samples.drop 8 }
  let s := putTime s { s.time with lastMeasurement := some m.mean }
  match s.time.servo with
  | .acquiring => tellReference m (acquireMeasurement n m s)
  | .tracking =>
    if stepped then note 0x07 0 (enterTimeHoldover (putTime s { s.time with pathStep := true }))
    else tellReference m (trackMeasurement m s)
  | _ => s

/-- PTP_MEASUREMENT (R252, R253): the Curator's servo forms a measurement of the SLAVE port from eight samples, with the
master's tick length as the servo measures it. -/
def execPtpMeasurement (masterRate : Nat) (s : State) : Host.Outcome State Fault Refusal :=
  .next (match s.time.slavePort with
    | some n =>
      match formMeasurement s n masterRate with
      | some m => if s.chip.curatorServing && s.time.servo != .disabled then servoMeasurement n m s else s
      | none => s
    | none => s)

/-- A path step of the SLAVE port is accepted: TRACKING, with the new measurement as baseline (R253). -/
def acceptStep (n : Nat) (s : State) : State :=
  if s.time.slavePort = some n ∧ s.time.pathStep = true ∧ s.time.servo = .timeHoldover then
    let s := putPtpPort s n { ptpPortOf s n with baseline := s.time.lastMeasurement }
    putTime s { s.time with servo := .tracking, pathStep := false, overLimit := 0 }
  else s

/-- A Curator restart (R242, R250, R253): every egress FIFO is emptied and the exchanges in progress are lost; the servo
acquires again, or keeps holding a path step; under TIME_OWNER HOST it stays DISABLED. (DEDUCED, log entry 76.) -/
def servoRestart (s : State) : State :=
  let t := s.time
  let servo := if s.set.ptpDev.host then .disabled else if t.pathStep then .timeHoldover else .acquiring
  putTime s { t with
    servo := servo, overLimit := 0
    ptpPorts := tmapAll (fun _ => {}) (fun _ v => { v with
      egress := [], waitSync := none, waitPeer := none, synced := none, request := none, samples := [] }) t.ptpPorts }

end Sys2Proof.Machine
end

