-- ==== Sys2Proof/Machine/Restart.lean ====
section
/-! DEFINITION. Restart.lean: a Curator restart, from its cause to the release of the cores
(R405, R406, R417 to R421, R475, R483). -/

namespace Sys2Proof.Machine

/-- Watchdog period that WDOG_PERIOD gives, in µs (R417). -/
def watchdogPeriod (s : State) : Word :=
  BitVec.ofNat 32 (max 10000 (min 10000000 s.cur.wdogPeriod.toNat))

/-! ## What step 1 empties (R419, R376) -/

/-- A command that stood in the work queue counts as taken in its stream (R376). -/
def countTaken (s : State) (h : HostPacket) : State :=
  let n := sess h.body
  let x := sessionOf s n
  let t := streamOf x h.body.cls.toNat
  if x.isOpen && x.endpoint == h.body.endpoint && t.expected == h.body.seq then
    putSession s n (putStream x h.body.cls.toNat { t with expected := t.expected + 1, taken := some h.body.seq })
  else s

/-- The Curator's streams forget the replies that they owe: R376 replaces them.
(DEDUCED, log entry 119.) -/
def forgetOwed (x : Session) : Session :=
  { x with
    control := { x.control with owed := [], busy := none }
    bulk := { x.bulk with owed := [], busy := none }
    diag := { x.diag with owed := [], busy := none } }

/-- The work queue and the trap queues are emptied, and what the Curator was doing is lost.
(DEDUCED, log entry 119.) -/
def dropCuratorWork (s : State) : State :=
  let s := s.cmd.workQueue.foldl countTaken s
  let t := s.store
  { s with
    cmd := { s.cmd with
      workQueue := []
      sessions := tmapAll (fun _ => {}) (fun _ x => forgetOwed x) s.cmd.sessions }
    pkt := { s.pkt with trapQueues := [] }
    mtx := { s.mtx with restate := none }
    store := { t with writes := [], rx := savedRx s, sinceBitmap := 0 }
    doc := { s.doc with line := [], overlong := false, output := [], newBaud := none } }

/-- First address of Curator SRAM, and its bytes (R407). -/
def sramBase : Nat := 0x00_2000_0000
def sramSize : Nat := 4194304

/-- Zero-fill Curator SRAM (R419). -/
def wipeSram (m : List Host.Cell) : List Host.Cell :=
  m.filter (fun c => !decide (sramBase ≤ c.1 ∧ c.1 < sramBase + sramSize))

/-! ## Fall-back (R483, R484) -/

/-- The boot ROM runs the previous firmware when a restart ends a trial. -/
def fallBackSlot (s : State) : State :=
  if s.store.trial && !s.store.fallingBack then
    { s with
      store := { s.store with bootSlot := 1 - s.store.bootSlot, secondMirror := false, fallingBack := true }
      cur := { s.cur with confirmRemain := 0 } }
  else s

/-! ## The restart -/

/-- Cores held, Curator SRAM wiped: steps 1 and 2 of R419, and the restart's cause and count. Before the
data plane runs, the start begins again in the boot ROM. (DEDUCED, log entry 19.) -/
def holdCores (cause : RestartCause) (s : State) : State :=
  let c := s.cur
  let up := s.chip.dataPlaneReady
  { s with
    chip := { s.chip with startPhase := if up then 7 else bit s.chip.rootLocked
                          curatorServing := false, bootFailed := false }
    cur := { c with
      remap := false
      restarting := up
      restartCause := cause
      restartCount := sat32 c.restartCount 1
      wdogRemain := watchdogPeriod s }
    mem := wipeSram s.mem }

/-- Start a Curator restart (R417, R419). A restart during a restart begins again (R421).
(DEDUCED, log entry 19.) -/
def startRestart (cause : RestartCause) (s : State) : State :=
  let s := abandonLoads (servoRestart s)
  let s := dropCuratorWork s
  let s := if cause = .activate then s else fallBackSlot s
  raiseIrq irqCuratorRestart (holdCores cause s)

/-- A restart with cause WATCHDOG, which raises the watchdog source (R422).
(DESIGN CHOICE, log entry 118.) -/
def expireWatchdog (s : State) : State := startRestart .watchdog (note 0x0D 1 s)

/-- WATCHDOG_EXPIRY (R418). -/
def execWatchdogExpiry (s : State) : Host.Outcome State Fault Refusal := .next (clocked expireWatchdog s)

/-- LOCKSTEP_MISMATCH (R406). -/
def execLockstepMismatch (s : State) : Host.Outcome State Fault Refusal :=
  .next (clocked (fun s => startRestart .lockstep (note 0x0D 0 s)) s)

/-- CONFIRM_TIMEOUT (R418): the health-confirmation timer expires while it runs.
(DESIGN CHOICE, log entry 118.) -/
def execConfirmTimeout (s : State) : Host.Outcome State Fault Refusal :=
  .next (clocked (fun s => if s.cur.confirmRemain = 0 then s else startRestart .confirmTimeout (note 0x0D 1 s)) s)

/-- SYSCTL_RESTART: the firmware sets SYSCTL.RESTART (R417). -/
def execSysctlRestart (s : State) : Host.Outcome State Fault Refusal := .next (clocked (startRestart .request) s)

/-- WDOG_KICK: the right value reloads the watchdog, any other expires it at once (R417, R418).
(DESIGN CHOICE, log entry 118.) -/
def kickWatchdog (value : Word) (s : State) : State :=
  if value = 0x0000_1536 then { s with cur := { s.cur with wdogRemain := watchdogPeriod s } }
  else expireWatchdog s

def execWdogKick (value : Word) (s : State) : Host.Outcome State Fault Refusal := .next (clocked (kickWatchdog value) s)

/-- REMAP: the firmware sets SYSCTL.REMAP (R408). -/
def execRemap (s : State) : Host.Outcome State Fault Refusal :=
  .next (clocked (fun s => { s with cur := { s.cur with remap := true } }) s)

/-- SLOW_RESTART: command service has not resumed within 400 ms of the last cause (R422). -/
def execSlowRestart (s : State) : Host.Outcome State Fault Refusal :=
  .next (clocked (fun s => if s.cur.restarting then note 0x0D 5 s else s) s)

end Sys2Proof.Machine
end

