-- ==== Sys2Proof/Machine/Store.lean ====
section
/-! DEFINITION. Store.lean: store reads and writes, the delivery and the verification of an image,
activation, confirmation and fall-back (R462 to R488), and the resumption of command service (R376,
R419). -/

namespace Sys2Proof.Machine

/-! ## STORE_READ (R403) -/

/-- The directory of a bank: TYPE, FORMAT and LENGTH of each record (R465).
(DESIGN CHOICE, log entry 121.) -/
def directory (b : Bank) : List (Nat × Nat × Nat) :=
  [(0x0001, 1, 8)] ++ (if b.minimum.isSome then [(0x0002, 1, 4)] else [])
    ++ (if b.helper.isSome then [(0x0003, 1, 1072)] else [])
    ++ (if b.keySlots.isSome then [(0x0004, 1, 3072)] else [])
    ++ (if b.imageRx.isSome then [(0x0005, 1, 824)] else [])
    ++ (b.settingsKey.map (fun e =>
          (Config.settingsDirectory e.1 e.2).map (fun x => (0x0100 + x.1 % 256, e.1, x.2)))).flatten

/-- LENGTH of a bank: headers and padded data (R464, R465). (DESIGN CHOICE, log entry 121.) -/
def bankLength (b : Bank) : Nat := (directory b).foldl (fun n x => n + 8 + (x.2.2 + 7) / 8 * 8) 0

/-- VALID, BANK, FORMAT_VERSION, SEQUENCE and LENGTH of a bank. -/
def bankEntry (isB : Bool) (b : Option Bank) : Bytes :=
  match b with
  | some x => leBytes 1 1 ++ leBytes 1 (bankByte isB) ++ leBytes 2 1 ++ leBytes 4 x.seq.toNat
      ++ leBytes 4 (bankLength x) ++ leBytes 4 0
  | none => leBytes 1 0 ++ leBytes 1 (bankByte isB) ++ leBytes 14 0

/-- The two banks that this start uses (R471). -/
def banksOf (s : State) : Option Bank × Option Bank :=
  if underTestRoot s && (s.store.debugA.isSome || s.store.debugB.isSome) then (s.store.debugA, s.store.debugB)
  else (s.store.bankA.filter (fun _ => s.store.validA), s.store.bankB.filter (fun _ => s.store.validB))

def storeReadResults (s : State) : Bytes :=
  let d := match baseBank s with | some b => directory b | none => []
  bankEntry false (banksOf s).1 ++ bankEntry true (banksOf s).2 ++ leBytes 2 d.length ++ leBytes 2 0
    ++ (d.map (fun x => leBytes 2 x.1 ++ leBytes 2 x.2.1 ++ leBytes 4 x.2.2)).flatten

def specStoreRead : OpSpec :=
  { code := 0xB001, cls := 2, auth := true, lengthOk := fixedLength 0, checks := fun p _ => noTarget p
    effect := atOnce (fun _ s => (s, done (storeReadResults s))) }

/-- STORE_READ (R354, R403, R465). -/
def execStoreRead (p : Packet) (s : State) : Host.Outcome State Fault Refusal := .next (runHost specStoreRead p s)

/-! ## STORE_WRITE (R466, R468) -/

def specStoreWrite : OpSpec :=
  { code := 0xB002, cls := 2, auth := true, lengthOk := fixedLength 4
    checks := fun p _ => firstFail [noTarget p, fieldIn (u8 p 0) 0 1 0, reserved p 1 3]
    effect := fun r p s => (requestWrite (if u8 p 0 = 0 then .commit s.set else .defaults) (some r) s, none) }

/-- STORE_WRITE: the reply follows BANK_WRITE_COMPLETE (R468). -/
def execStoreWrite (p : Packet) (s : State) : Host.Outcome State Fault Refusal := .next (runHost specStoreWrite p s)

/-! ## IMAGE_BEGIN, IMAGE_CHUNK, IMAGE_STATUS (R474, R475) -/

def digestField (p : Packet) : BitVec 384 := BitVec.ofNat 384 (field p.params 8 48)

/-- RESUME applies: IMAGE_RX has the same slot, size and digest (R474). -/
def resumes (s : State) (p : Packet) : Bool :=
  u8 p 4 == 1 && (match rxNow s with
    | some x => x.size == u32 p 0 && x.digest == digestField p
    | none => false)

/-- CHUNKS and MISSING. -/
def beginResults (x : ImageRx) : Bytes :=
  leBytes 4 (chunkCount x.size) ++ leBytes 4 (chunkCount x.size - x.held.length)

/-- A slot holds no image: its chunks are gone. -/
def dropChunks (slot : Nat) (s : State) : State :=
  { s with store := { s.store with chunks := s.store.chunks.filter (fun e => e.1 / 6144 != slot) } }

/-- DEDUCED, log entry 122. -/
def effectImageBegin (r : Reply) (p : Packet) (s : State) : State × Option Answer :=
  match rxNow s, resumes s p with
  | some x, true => (s, some (done (beginResults x)))
  | _, _ =>
    let slot := targetSlot s
    let s := dropChunks slot s
    let x : ImageRx := { slot := slot, state := 1, size := u32 p 0, digest := digestField p, held := [] }
    (requestWrite .imageRx (some r) { s with store := { s.store with rx := some x, sinceBitmap := 0 } }, none)

def specImageBegin : OpSpec :=
  { code := 0xB003, cls := 1, auth := true, lengthOk := fixedLength 56
    checks := fun p s => firstFail [
      noTarget p, fieldIn (u32 p 0) 1 25165824 0, fieldIn (u8 p 4) 0 1 4, reserved p 5 3,
      need (!s.store.trial) (conflict 0)]
    effect := effectImageBegin }

/-- IMAGE_BEGIN (R474). -/
def execImageBegin (p : Packet) (s : State) : Host.Outcome State Fault Refusal := .next (runHost specImageBegin p s)

/-- Bytes of a chunk (R475). -/
def chunkBytes (size i : Nat) : Nat :=
  if i + 1 = chunkCount size then size - 4096 * i else 4096

/-- DEDUCED, log entry 122. -/
def checksImageChunk (p : Packet) (s : State) : Check :=
  firstFail [
    noTarget p,
    reserved p 4 4,
    match rxNow s with
    | none => some (conflict 0)
    | some x =>
      firstFail [
        need (decide (u32 p 0 < chunkCount x.size)) (conflict 0),
        need (p.params.length == 8 + chunkBytes x.size (u32 p 0)) badLength]]

/-- A chunk is programmed and held; the bitmap is written after 256 chunks and after the last one. -/
def holdChunk (x : ImageRx) (i : Nat) (data : Bytes) (s : State) : State :=
  let t := s.store
  let held := x.held ++ [i]
  let all := held.length == chunkCount x.size
  let n := t.sinceBitmap + 1
  let write := all || decide (256 ≤ n)
  let x := { x with held := held, state := if all then 2 else x.state }
  let s := { s with store := { t with
      chunks := tput t.chunks (x.slot * 6144 + i) data, rx := some x, sinceBitmap := if write then 0 else n } }
  if write then requestWrite .imageRx none s else s

def effectImageChunk (p : Packet) (s : State) : State × Answer :=
  match rxNow s with
  | none => (s, conflict 0)
  | some x => (if x.held.contains (u32 p 0) then s else holdChunk x (u32 p 0) (p.params.drop 8) s, done)

def specImageChunk : OpSpec :=
  { code := 0xB004, cls := 2, auth := true
    lengthOk := fun p => decide (9 ≤ p.params.length ∧ p.params.length ≤ 4104)
    checks := checksImageChunk, effect := atOnce effectImageChunk }

/-- IMAGE_CHUNK (R475). -/
def execImageChunk (p : Packet) (s : State) : Host.Outcome State Fault Refusal := .next (runHost specImageChunk p s)

/-- Ranges of missing chunks among n from i on: first and count. -/
def missingRanges (held : List Nat) : Nat → Nat → List (Nat × Nat) → List (Nat × Nat)
  | 0, _, acc => acc.reverse
  | n + 1, i, acc =>
    if held.contains i then missingRanges held n (i + 1) acc
    else
      match acc with
      | (f, c) :: r => if f + c = i then missingRanges held n (i + 1) ((f, c + 1) :: r)
                       else missingRanges held n (i + 1) ((i, 1) :: acc)
      | [] => missingRanges held n (i + 1) [(i, 1)]

def imageStatusResults (s : State) (start : Nat) : Bytes :=
  match rxNow s with
  | none => leBytes 12 0
  | some x =>
    let n := chunkCount x.size
    let rs := (missingRanges x.held (n - start) start []).take 1024
    leBytes 1 x.state ++ [0] ++ leBytes 2 rs.length ++ leBytes 4 n ++ leBytes 4 x.held.length
      ++ (rs.map (fun r => leBytes 4 r.1 ++ leBytes 4 r.2)).flatten

def specImageStatus : OpSpec :=
  { code := 0xB005, cls := 3, auth := true, lengthOk := fixedLength 4, checks := fun p _ => noTarget p
    effect := atOnce (fun p s => (s, done (imageStatusResults s (u32 p 0)))) }

/-- IMAGE_STATUS (R403). -/
def execImageStatus (p : Packet) (s : State) : Host.Outcome State Fault Refusal :=
  .next (runHost specImageStatus p s)

/-- BITMAP_WRITE_TIMER: 10 s after the last chunk (R475). -/
def execBitmapWriteTimer (s : State) : Host.Outcome State Fault Refusal :=
  .next (if s.store.rx.isSome && s.store.sinceBitmap != 0 then
      requestWrite .imageRx none { s with store := { s.store with sinceBitmap := 0 } }
    else s)

/-! ## IMAGE_VERIFY (R476) -/

def verifyResults (v : Nat × Nat) : Bytes := leBytes 1 v.1 ++ leBytes 1 v.2 ++ leBytes 2 0

/-- DEDUCED, log entry 123. -/
def setRxState (n : Nat) (s : State) : State :=
  { s with store := { s.store with rx := s.store.rx.map (fun x => { x with state := n }) } }

/-- DEDUCED, log entry 123. -/
def effectImageVerify (r : Reply) (_ : Packet) (s : State) : State × Option Answer :=
  match rxNow s with
  | none => (s, some (conflict 0))
  | some x =>
    let v := imageVerdict s x
    if v.1 = 0 then (requestWrite .verified (some r) s, none)
    else (setRxState 2 s, some { failed v.1 with results := verifyResults v })

def specImageVerify : OpSpec :=
  { code := 0xB006, cls := 2, auth := true, lengthOk := fixedLength 0
    checks := fun p s => firstFail [noTarget p, need (rxNow s).isSome (conflict 0)]
    effect := effectImageVerify }

/-- IMAGE_VERIFY: VERDICT 0 is answered once the store holds STATE 3 (R476). -/
def execImageVerify (p : Packet) (s : State) : Host.Outcome State Fault Refusal :=
  .next (runHost specImageVerify p s)

/-! ## ACTIVATE, CONFIRM_HEALTH, SETTINGS_CONFIRM (R478 to R486) -/

/-- The kernels that engines are assigned are all in a catalogue (R478). -/
def kernelsPresent (s : State) (b : Bytes) : Bool :=
  s.set.engines.all (fun e => e.2.kernel == 0 || hasKernel b e.2.kernel)

/-- DEDUCED, log entry 124. -/
def checksActivate (p : Packet) (s : State) : Check :=
  let n := p.family.toNat
  firstFail [
    need (decide (n ≤ 3)) badHeader,
    targetN s p n,
    fieldIn (u16 p 0) 0 1440 0,
    reserved p 2 2,
    need (match rxNow s with | some x => x.state == 3 | none => false) (conflict 0),
    need (!s.store.trial) (conflict 0),
    need (match rxNow s with | some x => kernelsPresent s (imageBytes s x.slot x.size) | none => false) (conflict 0),
    need (p.target == 0 || familyOn s n) (conflict 0)]

/-- The image is checked again in its mirror; if it fails, STATE returns to 2 (R478, R480). -/
def effectActivate (r : Reply) (p : Packet) (s : State) : State × Option Answer :=
  match rxNow s with
  | none => (s, some (conflict 0))
  | some x =>
    let b := imageBytes s x.slot x.size
    if catalogueSigned b && (badPart b).isNone then
      let c : BankChange := .activate x.slot p.target p.family.toNat (orDefault (u16 p 0) 30)
        (if notifyHung p then some r else none)
      (requestWrite c (some r) s, none)
    else (setRxState 2 s, some (conflict 0))

def specActivate : OpSpec :=
  { code := 0xB007, cls := 1, auth := true, lengthOk := fixedLength 4, checks := checksActivate
    effect := effectActivate }

/-- ACTIVATE (R478, R480). -/
def execActivate (p : Packet) (s : State) : Host.Outcome State Fault Refusal := .next (runHost specActivate p s)

def specConfirmHealth : OpSpec :=
  { code := 0xB008, cls := 1, auth := true, lengthOk := fixedLength 0
    checks := fun p s => firstFail [noTarget p, need (s.store.trial && s.store.switched) (conflict 0)]
    effect := fun r _ s =>
      (requestWrite .confirm (some r) { s with cur := { s.cur with confirmRemain := 0 } }, none) }

/-- CONFIRM_HEALTH (R482). -/
def execConfirmHealth (p : Packet) (s : State) : Host.Outcome State Fault Refusal :=
  .next (runHost specConfirmHealth p s)

/-- HELD_FORMAT of the newest bank. -/
def heldNow (s : State) : Nat := match currentBank s with | some b => b.heldFormat | none => 0

def specSettingsConfirm : OpSpec :=
  { code := 0xB009, cls := 1, auth := true, lengthOk := fixedLength 0
    checks := fun p s => firstFail [noTarget p, need (heldNow s != 0 && !s.store.trial) (conflict 0)]
    effect := fun r _ s => (requestWrite .settingsConfirm (some r) s, none) }

/-- SETTINGS_CONFIRM (R486). -/
def execSettingsConfirm (p : Packet) (s : State) : Host.Outcome State Fault Refusal :=
  .next (runHost specSettingsConfirm p s)

/-! ## Engines of an activation or a fall-back (R480, R481, R484) -/

/-- First hang of family g whose ref lies at or after ref(n) of family f (R480). -/
def firstHangAfter (s : State) (f : Nat) (n : Word) (g : Nat) : Word :=
  let a := familyOf s f
  let b := familyOf s g
  let ref := a.boundary + (n - a.hang).toInt * (periodRoot (familyCfg s f).rate : Int)
  let period : Int := periodRoot (familyCfg s g).rate
  b.hang + BitVec.ofInt 32 (-((b.boundary - ref) / period))

/-- The assignment of an engine that a catalogue's load replaces, or none: UNASSIGNED, SPARE and ISOLATED
engines load nothing. -/
def reloadCfg (e : Engine) : Option EngineCfg :=
  let c := match e.switch with | some w => w.cfg | none => e.cfg
  match e.state with
  | .running => some c
  | .stopped => some c
  | .loading => if c.kernel = 0 ∨ c.kernel = kernelSpare then none else some c
  | _ => none

/-- Load every assigned engine's kernel from the running catalogue (R480, R484).
(DEDUCED, log entry 124.) -/
def reloadEngines (target : Nat → Word) (s : State) : State :=
  (s.eng.engines.map (fun e => e.1)).foldl (fun s p =>
    let e := engineOf s p
    match reloadCfg e with
    | some c =>
      let old := e.switch
      startLoad p
        { cfg := c, target := some (target c.family), slot := s.store.bootSlot, former := e.state
          notify := old.bind (fun w => w.notify) } s
    | none => s) s

/-- An engine that still has to switch to the running catalogue. -/
def unswitched (s : State) (e : Engine) : Bool :=
  (reloadCfg e).isSome && (e.switch.isSome || e.slot != s.store.bootSlot)

/-- Every engine has switched: SWITCHED, and the completion of ACTIVATE (R481).
(DEDUCED, log entry 124.) -/
def finishActivation (s : State) : State :=
  match s.store.activation with
  | none => s
  | some a =>
    if s.cur.restarting || s.store.fallingBack || s.eng.engines.any (fun e => unswitched s e.2) then s
    else
      complete a.reply (hungAt (familyOf s a.family).hang a.family)
        { s with store := { s.store with switched := true, activation := none } }

/-- KERNEL_LOAD_COMPLETE: a kernel of an image on trial that fails its check starts a restart, which falls
back (R337, R481). -/
def execKernelLoadComplete (p : Fin 128) (s : State) : Host.Outcome State Fault Refusal :=
  .next (match (engineOf s p.val).switch with
    | some w =>
      if s.store.activation.isSome && !s.store.fallingBack && !w.loaded && w.slot == s.store.bootSlot
          && !Config.kernelGood w.slot w.cfg.kernel then
        startRestart .request s
      else loadComplete p.val s
    | none => s)

/-- ENGINE_SWITCH (R337, R338, R481). -/
def execEngineSwitch (p : Fin 128) (s : State) : Host.Outcome State Fault Refusal :=
  .next (finishActivation (switchEngine p.val s))

/-! ## BANK_WRITE_COMPLETE (R468, R469) -/

/-- Answer the command of a write, if one waits. -/
def answerWrite (r : Option Reply) (a : Answer) (s : State) : State :=
  match r with | some h => answerLater h a s | none => s

/-- Sessions that a rewritten slot authenticated close, their restates with them, but for the one that sent the write
(R179, R456). -/
def closeSlotSessions (slot : Nat) (r : Option Reply) : Nat → State → State
  | 0, s => s
  | n + 1, s =>
    let x := sessionOf s (n + 1)
    let sender := match r with | some h => h.session == n + 1 | none => false
    closeSlotSessions slot r n
      (if x.isOpen && x.authenticated && x.keySlot == slot && !sender then
        closeSession (n + 1) s
      else s)

/-- BOOT_STATE is set, ACTIVATE is answered and the Curator restarts (R480). -/
def beginTrial (slot : Nat) (target : Word) (fam window : Nat) (notify r : Option Reply) (s : State) : State :=
  let h := applyTarget s fam false (readTarget s fam target)
  let a : Answer := if h.2 then lateFor h.1 fam else { done with hang := h.1, family := fam }
  let act : Activation :=
    { hang := h.1, family := fam, window := window, reply := notify.map (fun n => firstReply n a) }
  let s := { s with store := { s.store with
      bootSlot := slot, trial := true, switched := false, secondMirror := true, activation := some act } }
  startRestart .activate (answerWrite r a s)

/-- What follows the writing of a bank. -/
def afterWrite (c : BankChange) (r : Option Reply) (s : State) : State :=
  let isB := if underTestRoot s then s.store.debugNewB else s.store.selectedB
  let seq := match currentBank s with | some b => b.seq.toNat | none => 0
  match c with
  | .commit _ => answerWrite r (done (leBytes 4 seq ++ leBytes 1 (bankByte isB) ++ leBytes 3 0)) s
  | .defaults => answerWrite r (done (leBytes 4 seq ++ leBytes 1 (bankByte isB) ++ leBytes 3 0)) s
  | .keySlot n _ => answerWrite r done (closeSlotSessions n r 16 (checkSlot n s))
  | .imageRx => answerWrite r (match s.store.rx with | some x => done (beginResults x) | none => done) s
  | .verified => answerWrite r (done (verifyResults (0, 0))) (setRxState 3 s)
  | .activate slot target fam window notify => beginTrial slot target fam window notify r s
  | .confirm =>
    let minimum := ((currentBank s).bind (fun b => b.minimum)).getD 0
    answerWrite r (done (leBytes 4 minimum))
      { s with store := { s.store with trial := false, secondMirror := false } }
  | .fallBack => { s with store := { s.store with fallingBack := false } }
  | .settingsConfirm => answerWrite r done s
  | .otherSlot => s

/-- The running write ends: written and checked, or abandoned with the write source raised. -/
def finishWrite (good : Bool) (s : State) : State :=
  match s.store.writes with
  | [] => s
  | w :: rest =>
    let s := { s with store := { s.store with writes := rest } }
    if good then
      let (b, s) := nextBank s
      -- The draw stands for the directory of the bank's settings (R465).
      afterWrite w.change w.reply (installBank (changeBank s w.change b) { s with draws := s.draws + 1 })
    else answerWrite w.reply (failed 1) (note 0x0F 2 s)

/-- BANK_WRITE_COMPLETE (R468, R469). -/
def execBankWriteComplete (good : Bool) (s : State) : Host.Outcome State Fault Refusal :=
  .next (finishWrite good s)

/-! ## COMMAND_SERVICE_RESUMED (R376, R419, R480, R484) -/

/-- The reply for a stream whose commands may or may not have taken effect, and the stream set back (R376).
The manual does not say which OPCODE it names: a free value. (DEDUCED, log entry 119.) -/
def resumeStream (n cls : Nat) (s : State) : State :=
  let x := sessionOf s n
  let t := streamOf x cls
  match t.taken with
  | none => s
  | some last =>
    if t.replied = some last then s
    else
      let first := match t.replied with | some r => r + 1 | none => 1
      let (op, s) := draw 16 s
      let r : Reply :=
        { endpoint := x.endpoint, cls := cls, opcode := op.toNat, session := n, seq := first, status := 0x0500, detail := 0xFFFD
          results := leBytes 4 last.toNat }
      let t := { t with expected := first, taken := t.replied }
      sendReply r (putSession s n (putStream x cls t))

/-- Streams of the Curator's classes of sessions 1 to n. -/
def resumeStreams : Nat → State → State
  | 0, s => s
  | n + 1, s =>
    let s := resumeStreams n s
    if (sessionOf s (n + 1)).isOpen then
      resumeStream (n + 1) 3 (resumeStream (n + 1) 2 (resumeStream (n + 1) 1 s))
    else s

/-- The previous firmware ends a trial (R484). (DEDUCED, log entry 124.) -/
def resumeFallBack (s : State) : State :=
  let fell := s.store.trial
  let s :=
    match s.store.activation with
    | some a => complete a.reply (failed 1) { s with store := { s.store with activation := none } }
    | none => s
  let s := { s with store := { s.store with trial := false, switched := false } }
  let s := if fell then note 0x0F 3 s else s
  reloadEngines (fun _ => 0) (requestWrite .fallBack none s)

/-- The new firmware of an activation loads its kernels, and the confirmation timer starts (R480). -/
def resumeActivation (a : Activation) (s : State) : State :=
  let s := { s with cur := { s.cur with confirmRemain := 60 * a.window } }
  finishActivation (reloadEngines (firstHangAfter s a.family a.hang) s)

/-- The line that the Docent sends when the Curator serves (R521). -/
def bannerLine (s : State) : String :=
  "ZV1536 " ++ toString (catalogueVersion s) ++ " " ++ toString (lifeState s) ++ " "
    ++ toString (restartCode s.cur.restartCause)

def sendBanner (s : State) : State :=
  if s.doc.mode = 0 then s else { s with doc := { s.doc with output := s.doc.output ++ [bannerLine s] } }

/-- Steps 3 to 5 of R419. -/
def resumeService (s : State) : State :=
  let s := resumeStreams 16 s
  let s := raiseIrq irqCuratorRestart
    { s with
      chip := { s.chip with startPhase := 6, curatorServing := true }
      cur := { s.cur with restarting := false, remap := true } }
  let s := if s.store.fallingBack then resumeFallBack s
    else match s.store.activation with
      | some a => if s.cur.restartCause = .activate then resumeActivation a s else s
      | none => s
  readRings (sendBanner s)

/-- COMMAND_SERVICE_RESUMED (R376, R419). -/
def execCommandServiceResumed (s : State) : Host.Outcome State Fault Refusal :=
  .next (if s.cur.restarting then resumeService s else s)

end Sys2Proof.Machine
end

