-- ==== Sys2Proof/Machine/Strong.lean ====
section
/-! DEFINITION. Strong.lean: KEY_SLOT_WRITE, KEY_SLOT_STATUS, ATTEST and LIFECYCLE_ADVANCE (R453 to R459,
R514, R515). -/

namespace Sys2Proof.Machine

/-! ## KEY_SLOT_WRITE (R454) -/

/-- POLICY of the command. -/
def policyField (p : Packet) : BitVec 16 := BitVec.ofNat 16 (u16 p 2)

/-- Exactly one use bit with a key, none without; reserved bits clear. -/
def policyOk (p : Packet) : Bool :=
  let v := policyField p
  if u16 p 4 = 0 then v == 0
  else bit (hasSession v) + bit (hasAttest v) + bit (hasWrap v) == 1 && v &&& 0xE0F8 == 0

/-- A slot is valid with a use, as a write of the command leaves the slots (R454, order 3). -/
def slotWritten (s : State) (p : Packet) (use : BitVec 16 → Bool) (n : Nat) : Bool :=
  if n = u8 p 0 then u16 p 4 != 0 && use (policyField p)
  else
    let x := inspectSlot s n
    x.1 == .valid && use x.2.1

/-- The key-encryption key: slot KEK valid, with WRAP. -/
def kekKey (s : State) (p : Packet) : Option Bytes :=
  let x := inspectSlot s (policyKek (policyField p))
  if x.1 = .valid && hasWrap x.2.1 then some x.2.2 else none

/-- DEDUCED, log entry 125. -/
def checksKeySlot (p : Packet) (s : State) : Check :=
  let k := u16 p 4
  firstFail [
    noTarget p,
    fieldIn (u8 p 0) 0 31 0,
    reserved p 1 1,
    fieldOk (policyOk p) 2,
    fieldOk (k == 0 || (kekKey s p).isSome) 2,
    fieldOk ((List.range 32).any (slotWritten s p hasSession) && (List.range 32).any (slotWritten s p hasWrap)) 2,
    fieldOk (k == 0 || (decide (40 ≤ k ∧ k ≤ 72) && k % 8 == 0)) 4,
    fieldOk (!hasWrap (policyField p) || k == 40) 4,
    reserved p 6 2]

/-- The record that the store will hold: the key wrapped under K_WRAP, and its tag (R454, R455). -/
def newRecord (root : BitVec 256) (n : Nat) (policy : BitVec 16) (key : Bytes) : KeySlot :=
  let k : KeySlot := { policy := policy, wrapped := Config.keyWrap (Config.kdf root "SLOT-WRAP") key }
  { k with tag := Config.cmac (Config.kdf root "SLOT-TAG") (slotBytes n k) }

def effectKeySlot (r : Reply) (p : Packet) (s : State) : State × Option Answer :=
  let n := u8 p 0
  let s := checkSlots 32 s
  if u16 p 4 = 0 then (requestWrite (.keySlot n none) (some r) s, none)
  else
    match rootKey s, (kekKey s p).bind (fun kek => Config.keyUnwrap kek (p.params.drop 8)) with
    | some root, some key => (requestWrite (.keySlot n (some (newRecord root n (policyField p) key))) (some r) s, none)
    | _, _ => (note 0x0E 5 s, some (badParam 8))

def specKeySlot : OpSpec :=
  { code := 0xC001, cls := 1, auth := true, lengthOk := fun p => p.params.length == 8 + u16 p 4
    lockedOut := fun _ s => lifeState s == 3
    checks := checksKeySlot, effect := effectKeySlot }

/-- KEY_SLOT_WRITE (R454, R456). -/
def execKeySlotWrite (p : Packet) (s : State) : Host.Outcome State Fault Refusal := .next (runHost specKeySlot p s)

/-! ## KEY_SLOT_STATUS (R403) -/

def slotStateCode : SlotState → Nat
  | .empty => 0 | .valid => 1 | .bad => 2

/-- POLICY of a slot, as its record or the predefined debug slot has it. -/
def slotPolicy (s : State) (n : Nat) : BitVec 16 := (inspectSlot s n).2.1

def slotStatusResults (s : State) : Bytes :=
  ((List.range 32).map (fun n =>
    leBytes 1 (slotStateCode (slotState s n)) ++ [0] ++ leBytes 2 (slotPolicy s n).toNat)).flatten

def specKeySlotStatus : OpSpec :=
  { code := 0xC002, cls := 3, auth := true, lengthOk := fixedLength 0, checks := fun p _ => noTarget p
    effect := atOnce (fun _ s => (s, done (slotStatusResults s))) }

/-- KEY_SLOT_STATUS (R403, R455). -/
def execKeySlotStatus (p : Packet) (s : State) : Host.Outcome State Fault Refusal :=
  .next (runHost specKeySlotStatus p s)

/-! ## ATTEST (R459) -/

/-- The lowest-numbered valid slot with ATTEST. -/
def attestSlot (s : State) : Option Nat :=
  (List.range 32).find? (fun n =>
    let x := inspectSlot s n
    x.1 == .valid && hasAttest x.2.1)

/-- SHA-384 over the catalogue of the running image, signature included. -/
def runningCatalogueDigest (s : State) : BitVec 384 :=
  match catalogueBytes s s.store.bootSlot with
  | some b => Config.sha384 (b.take (catalogueLength b))
  | none => Config.shippedCatalogue

/-- The 110 bytes under the MAC. -/
def attestMessage (s : State) (nonce : Bytes) : Bytes :=
  [0x48, 0x4F, 0x4C, 0x53, 0x49, 0x41, 0x2D, 0x41, 0x54, 0x54, 0x45, 0x53, 0x54]
    ++ nonce ++ leBytes 16 Config.deviceUid.toNat ++ leBytes 48 (runningCatalogueDigest s).toNat
    ++ leBytes 1 (lifeState s)

def effectAttest (p : Packet) (s : State) : State × Answer :=
  let s := checkSlots 32 s
  match attestSlot s with
  | none => (s, conflict 0)
  | some n =>
    let key := (inspectSlot s n).2.2
    (s, done (leBytes 16 Config.deviceUid.toNat ++ leBytes 48 (runningCatalogueDigest s).toNat
      ++ leBytes 1 (lifeState s) ++ leBytes 3 0
      ++ leBytes 48 (Config.hmacSha384 key (attestMessage s (p.params.take 32))).toNat))

def specAttest : OpSpec :=
  { code := 0xC003, cls := 2, auth := true, lengthOk := fixedLength 32
    checks := fun p _ => noTarget p, effect := atOnce effectAttest }

/-- ATTEST (R459). -/
def execAttest (p : Packet) (s : State) : Host.Outcome State Fault Refusal := .next (runHost specAttest p s)

/-! ## LIFECYCLE_ADVANCE (R515) -/

/-- The production root was confirmed in this start. -/
def productionRoot (s : State) : Bool := match s.strong.root with | .production _ => true | _ => false

/-- A helper record is in the store. -/
def hasHelper (s : State) : Bool := match currentBank s with | some b => b.helper.isSome | none => false

/-- The transitions of R515, with their conditions. -/
def mayAdvance (s : State) (p : Packet) : Bool :=
  match lifeState s, u8 p 0 with
  | 0, 1 => productionRoot s && hasHelper s && (inspectSlot s 0).1 == .valid && (inspectSlot s 1).1 == .valid
  | 0, 3 => true
  | 1, 2 => decide (s.life.entries < 32)
  | 1, 3 => true
  | 2, 1 => (sessionOf s (sess p)).debugSlot
  | _, _ => false

/-- Blow the fuse; the device reset follows the reply. (DEDUCED, log entry 126.) -/
def blowFuse (target : Nat) (s : State) : State :=
  let l := s.life
  let next :=
    match lifeState s, target with
    | 0, 1 => { l with provisioned := true }
    | 1, 2 => { l with entries := l.entries + 1 }
    | 2, 1 => { l with exits := l.exits + 1 }
    | _, _ => { l with retired := true }
  { s with life := { next with resetDue := true } }

/-- DEDUCED, log entry 126. -/
def specLifecycle : OpSpec :=
  { code := 0xC004, cls := 1, auth := true, lengthOk := fixedLength 8
    lockedOut := fun p s => !mayAdvance s p
    checks := fun p _ => firstFail [noTarget p, reserved p 1 3, fieldOk (u32 p 4 == 0x7A561536) 4]
    effect := atOnce (fun p s => (blowFuse (u8 p 0) s, done)) }

/-- LIFECYCLE_ADVANCE (R402, R515). -/
def execLifecycleAdvance (p : Packet) (s : State) : Host.Outcome State Fault Refusal :=
  .next (runHost specLifecycle p s)

end Sys2Proof.Machine
end

