-- ==== Sys2Proof/Machine/Time.lean ====
section
/-! DEFINITION. Time.lean: TIME_ADJUST, PTP_PORT_CONFIG, ASYMMETRY_SET, PATH_STEP_ACCEPT and TIME_READ
(R240, R242, R251 to R253, R256, R395). -/

namespace Sys2Proof.Machine

/-! ## TIME_ADJUST -/

/-- C0′ of a TIME_ADJUST (R240). -/
def adjustCount (p : Packet) (s : State) : Nat :=
  if u64 p 8 = 0 then s.time.count.toNat + 594000 else u64 p 8

/-- T0′ of a RELATIVE rebase in 2⁻¹⁶ ns. -/
def relativeUnits (p : Packet) (s : State) : Int :=
  unitsAt s.time.triple (BitVec.ofNat 64 (adjustCount p s)) + i64 p 32

def adjustTriple (p : Packet) (s : State) : Triple :=
  { c0 := BitVec.ofNat 64 (adjustCount p s)
    t0 := if u8 p 0 = 0 then { sec := u64 p 16, ns := u32 p 24, frac := u16 p 28 }
          else timeOfUnits (relativeUnits p s).toNat
    rate := if u64 p 40 = 0 then s.time.triple.rate else u64 p 40 }

def checksTimeAdjust (p : Packet) (s : State) : Check :=
  let rel := u8 p 0 == 1
  let now := s.time.count.toNat
  let c0 := adjustCount p s
  firstFail [
    noTarget p,
    fieldIn (u8 p 0) 0 1 0,
    fieldIn (u8 p 1) 0 1 1,
    reserved p 2 6,
    fieldOk (c0 ≤ now + 2 ^ 32) 8,
    fieldOk (u64 p 16 < 2 ^ 48 && (!rel || u64 p 16 == 0)) 16,
    fieldOk (u32 p 24 < 1000000000 && (!rel || u32 p 24 == 0)) 24,
    fieldOk (!rel || u16 p 28 == 0) 28,
    reserved p 30 2,
    fieldOk (if rel then decide (0 ≤ relativeUnits p s ∧ relativeUnits p s < 2 ^ 48 * 1000000000 * 65536)
      else u64 p 32 == 0) 32,
    fieldOk (u64 p 40 == 0 || rateOk (u64 p 40)) 40,
    need (decide (now + 594 ≤ c0)) (conflict 0),
    need (s.time.staged.isNone || u8 p 1 == 1) (conflict 0),
    need s.set.ptpDev.host (conflict 0)]

def effectTimeAdjust (p : Packet) (s : State) : State × Answer :=
  (stageRebase (adjustTriple p s) (u8 p 0 == 0) s, done (leBytes 8 (adjustCount p s)))

def specTimeAdjust : OpSpec :=
  { code := 0x5002, cls := 1, lengthOk := fixedLength 48, checks := checksTimeAdjust
    effect := atOnce effectTimeAdjust }

/-- TIME_ADJUST (R240). -/
def execTimeAdjust (p : Packet) (s : State) : Host.Outcome State Fault Refusal :=
  .next (runHost specTimeAdjust p s)

/-! ## PTP_PORT_CONFIG -/

/-- A PTP_PORT_CONFIG addresses the device settings. -/
def isPtpDevice (p : Packet) : Bool := u16 p 0 == 0xFFFF

/-- Default domain of a profile (R251). -/
def defaultDomain (profile : Nat) : Nat := if profile = 0 then 127 else 0

def checksPtpDevice (p : Packet) : List Check :=
  [ fieldIn (u8 p 4) 0 1 4,
    fieldOk (let v := orDefault (u32 p 8) 1000; decide (100 ≤ v ∧ v ≤ 1000000000)) 8,
    fieldIn (orDefault (u16 p 12) 10) 1 500 12,
    reserved p 14 6 ]

def logOk (v : Int) : Bool := decide (-7 ≤ v ∧ v ≤ 4)

def checksPtpPort (p : Packet) : List Check :=
  [ fieldIn (u8 p 4) 0 1 4,
    fieldIn (u8 p 5) 0 1 5,
    fieldIn (u8 p 6) 0 127 6,
    fieldIn (u8 p 7) 0 2 7,
    fieldIn (u8 p 8) 0 1 8,
    fieldIn (u8 p 9) 0 1 9,
    fieldOk (logOk (i8 p 10)) 10,
    fieldOk (logOk (i8 p 11)) 11,
    fieldOk (logOk (i8 p 12)) 12,
    fieldIn (orDefault (u8 p 13) 3) 2 10 13,
    fieldIn (u8 p 14) 0 1 14,
    reserved p 15 1,
    fieldIn (orDefault (u16 p 16) 100) 10 10000 16,
    reserved p 18 2 ]

def checksPtpPortConfig (p : Packet) (_ : State) : Check :=
  firstFail ([noTarget p, fieldOk (u16 p 0 < 320 || isPtpDevice p) 0, reserved p 2 2]
    ++ (if isPtpDevice p then checksPtpDevice p else checksPtpPort p))

/-- The device settings of a PTP_PORT_CONFIG. -/
def readPtpDev (p : Packet) : PtpDevCfg :=
  { host := u8 p 4 == 1, priority1 := u8 p 5, priority2 := u8 p 6, clockClass := u8 p 7
    stepLimit := orDefault (u32 p 8) 1000, maxSlew := orDefault (u16 p 12) 10 }

/-- The port settings of a PTP_PORT_CONFIG. -/
def readPtpPort (p : Packet) : PtpPortCfg :=
  { enable := u8 p 4 == 1, profile := u8 p 5, domain := u8 p 6, transport := u8 p 7
    twoStep := u8 p 8 == 1, p2p := u8 p 9 == 1, logSync := i8 p 10, logAnnounce := i8 p 11
    logDelayReq := i8 p 12, announceTimeout := orDefault (u8 p 13) 3, masterOnly := u8 p 14 == 1
    pathStepLimit := orDefault (u16 p 16) 100 }

/-- Apply device settings: TIME_OWNER HOST disables the servo and clears PATH_STEP (R242, R253). -/
def applyPtpDev (c : PtpDevCfg) (s : State) : State :=
  let s := { s with set := { s.set with ptpDev := c } }
  if c.host && s.time.servo != .disabled then putTime s { s.time with servo := .disabled, pathStep := false }
  else s

/-- Apply port settings; a port that may not be SLAVE any more leaves it. -/
def applyPtpPort (n : Nat) (c : PtpPortCfg) (s : State) : State :=
  let s := { s with set := { s.set with ptpPorts := tset (fun _ => {}) s.set.ptpPorts n c } }
  if mayBeSlave s n then s else leaveSlave n s

def effectPtpPortConfig (p : Packet) (s : State) : State × Answer :=
  let n := u16 p 0
  if isPtpDevice p then (applyPtpDev (readPtpDev p) s, done)
  else (applyPtpPort n (readPtpPort p) s, done [] (if n < 64 && !portExists s n then 1 else 0))

def specPtpPortConfig : OpSpec :=
  { code := 0x5003, cls := 1, lengthOk := fixedLength 20, checks := checksPtpPortConfig
    effect := atOnce effectPtpPortConfig }

/-- PTP_PORT_CONFIG (R242, R251). -/
def execPtpPortConfig (p : Packet) (s : State) : Host.Outcome State Fault Refusal :=
  .next (runHost specPtpPortConfig p s)

/-! ## ASYMMETRY_SET and PATH_STEP_ACCEPT -/

def checksAsymmetrySet (p : Packet) (_ : State) : Check :=
  firstFail [
    noTarget p, fieldIn (u16 p 0) 0 319 0, reserved p 2 2,
    fieldOk ((i64 p 4).natAbs ≤ 1000000 * 65536) 4]

def effectAsymmetrySet (p : Packet) (s : State) : State × Answer :=
  let n := u16 p 0
  let s := { s with set := { s.set with asymmetry := tset (fun _ => (0 : Int)) s.set.asymmetry n (i64 p 4) } }
  (acceptStep n s, done)

def specAsymmetrySet : OpSpec :=
  { code := 0x5004, cls := 1, lengthOk := fixedLength 12, checks := checksAsymmetrySet
    effect := atOnce effectAsymmetrySet }

/-- ASYMMETRY_SET (R252, R253). -/
def execAsymmetrySet (p : Packet) (s : State) : Host.Outcome State Fault Refusal :=
  .next (runHost specAsymmetrySet p s)

def checksPathStepAccept (p : Packet) (_ : State) : Check :=
  firstFail [noTarget p, fieldIn (u16 p 0) 0 319 0, reserved p 2 2]

def specPathStepAccept : OpSpec :=
  { code := 0x5005, cls := 1, lengthOk := fixedLength 4, checks := checksPathStepAccept
    effect := atOnce (fun p s => (acceptStep (u16 p 0) s, done)) }

/-- PATH_STEP_ACCEPT (R253). -/
def execPathStepAccept (p : Packet) (s : State) : Host.Outcome State Fault Refusal :=
  .next (runHost specPathStepAccept p s)

/-! ## TIME_READ -/

/-- A triple's items (R256). (DEDUCED, log entry 23.) -/
def tripleItems (t : Triple) : Bytes := itemTime t.t0 ++ itemRaw t.c0 ++ leBytes 8 t.rate

/-- A triple of zeros stands where none is staged. -/
def noTriple : Triple := { c0 := 0, t0 := { sec := 0, ns := 0, frac := 0 }, rate := 0 }

/-- Device items of TIME_READ (R256). -/
def timeItems (s : State) : Bytes :=
  let t := s.time
  itemTime (timeAt t.triple t.count) ++ itemRaw t.count ++ itemFlag t.timeSet ++ tripleItems t.triple
    ++ tripleItems (match t.staged with | some r => r.triple | none => noTriple) ++ itemFlag t.staged.isSome
    ++ itemByte (servoCode t.servo) ++ itemFlag t.pathStep ++ itemShort t.utcOffset ++ itemFlag t.utcValid

/-- Port state by the codes of IEEE 1588-2019: DISABLED 2, MASTER 6, SLAVE 9.
(PRESUMED, log entry 74.) -/
def ptpStateCode (s : State) (n : Nat) : Nat :=
  if (ptpPortOf s n).slave then 9 else if (ptpPortCfg s n).enable then 6 else 2

/-- Port items of TIME_READ (R256). -/
def ptpPortItems (s : State) (n : Nat) : Bytes :=
  let v := ptpPortOf s n
  itemByte (ptpStateCode s n) ++ (leBytes 10 v.parent.toNat).reverse ++ itemOffset v.meanPathDelay
    ++ itemOffset (v.baseline.getD 0) ++ itemOffset v.lastOffset ++ itemOffset (asymmetryOf s n)
    ++ itemCount v.tsFifoFull ++ itemCount v.parseSkip ++ itemCount v.syncRcvd ++ itemCount v.delayRespRcvd
    ++ itemCount v.pathSteps

def timeSpace : StatusSpace :=
  { size := 320, device := some timeItems, items := ptpPortItems
    clear := fun n s => putPtpPort s n { ptpPortOf s n with
      tsFifoFull := 0, parseSkip := 0, syncRcvd := 0, delayRespRcvd := 0, pathSteps := 0 } }

def specTimeRead : OpSpec := specStatus 0x5001 (onlySpace timeSpace)

/-- TIME_READ (R256). -/
def execTimeRead (p : Packet) (s : State) : Host.Outcome State Fault Refusal :=
  .next (runHost specTimeRead p s)

end Sys2Proof.Machine
end

