-- ==== Sys2Proof/Machine/Twin.lean ====
section
/-! DEFINITION. Twin.lean: twin pairs: pairing, roles, the TWIN_STATE heartbeat, role swaps and mirrored
commands (R404, R490 to R504). -/

namespace Sys2Proof.Machine

def putTwin (t : Twin) (s : State) : State := { s with twin := t }

/-- Raise a TWIN source (R504). -/
def raiseTwin (i : Nat) (s : State) : State := note 0x10 i s

/-! ## TWIN_STATE (R491) -/

/-- SWAP_STATE: 0 = none, 1 = proposed, 2 = agreed. -/
def swapState (t : Twin) : Nat := match t.swap with | none => 0 | some w => if w.agreed then 2 else 1

/-- FLAGS. -/
def twinFlags (s : State) : Nat :=
  bit (twinReady s) + 2 * bit (inHold s) + 4 * bit (failoverAsserted s) + 8 * bit s.time.timeSet
    + 16 * natOfBits ((List.range 4).map (fun n => familyOn s n && (familyOf s n).aligned))

/-- A TWIN_STATE message, 64 bytes. -/
def twinMessage (p : PartnerState) : Bytes :=
  [1] ++ leBytes 1 (bit p.letterB) ++ leBytes 1 (bit p.active) ++ leBytes 1 p.flags.toNat ++ leBytes 1 p.laneCount
    ++ [0, 0, 0] ++ leBytes 8 p.count.toNat
    ++ ((List.range 4).map (fun i => leBytes 4 (p.hangs.getD i 0).toNat)).flatten
    ++ leBytes 4 p.swapHang.toNat ++ leBytes 1 p.swapFamily ++ leBytes 1 p.swapState ++ [0, 0]
    ++ leBytes 4 p.twinSeq.toNat ++ leBytes 20 0

/-- What this device says of itself. -/
def ownState (s : State) : PartnerState :=
  let w := s.twin.swap
  { letterB := s.set.twinLetter
    active := s.twin.active
    flags := BitVec.ofNat 8 (twinFlags s)
    laneCount := s.set.twinLanes.length
    count := s.time.count
    hangs := (List.range 4).map (hangNumber s)
    swapHang := match w with | some w => w.hang | none => 0
    swapFamily := match w with | some w => w.family | none => 0
    swapState := swapState s.twin
    twinSeq := s.twin.rxSeq
    receivedAt := 0 }

/-- Read a TWIN_STATE message. -/
def readTwinState (b : Bytes) (now : Word64) : PartnerState :=
  { letterB := field b 1 1 == 1
    active := field b 2 1 == 1
    flags := BitVec.ofNat 8 (field b 3 1)
    laneCount := field b 4 1
    count := BitVec.ofNat 64 (field b 8 8)
    hangs := (List.range 4).map (fun i => BitVec.ofNat 32 (field b (16 + 4 * i) 4))
    swapHang := BitVec.ofNat 32 (field b 32 4)
    swapFamily := field b 36 1
    swapState := field b 37 1
    twinSeq := BitVec.ofNat 32 (field b 40 4)
    receivedAt := now }

/-- Send what cancelled swaps are owed: a reply where none was sent, else the completion (R498).
(DEDUCED, log entry 133.) -/
def settleSwaps (s : State) : State :=
  s.twin.cancelled.foldl (fun s w =>
    match w.reply with
    | some r =>
      if !w.agreed then answerLater r (failed 0xFFFF) s
      else if w.notify then sendCompletion r (failed 0xFFFF) s
      else s
    | none => s) (putTwin { s.twin with cancelled := [] } s)

/-- TWIN_STATE_TX (R491). -/
def execTwinStateTx (s : State) : Host.Outcome State Fault Refusal :=
  let s := settleSwaps s
  .next (if s.twin.pair = .unpaired then s else sendTwin 4 (twinMessage (ownState s)) s)

/-! ## Messages of the pair (R490) -/

/-- Take the first message of a type whose bytes satisfy a test from the lanes of the set, and release its
buffers (R100). -/
def takeInbox (type : Nat) (f : Bytes → Bool) (s : State) : State :=
  let holds := fun (e : Nat × Nat × Bytes) => e.1 == type && f e.2.2
  match s.set.twinLanes.find? (fun l => (linkOf s l).inbox.any holds) with
  | none => s
  | some l =>
    let k := linkOf s l
    match k.inbox.find? holds with
    | none => s
    | some e => releaseBuffers l e.2.1 (putLink s l { k with inbox := k.inbox.erase e })

/-- The messages that wait on a lane that leaves the set are discarded. -/
def dropInbox (l : Nat) (s : State) : State :=
  let k := linkOf s l
  releaseBuffers l (k.inbox.foldl (fun n e => n + e.2.1) 0) (putLink s l { k with inbox := [] })

/-! ## Roles (R494) -/

/-- The stored role: ACTIVE for twin A and STANDBY for twin B where none is stored. -/
def storedRole (s : State) : Bool := s.set.twinActive.getD (!s.set.twinLetter)

/-- A READY standby takes over. -/
def takeOver (s : State) : State :=
  let s := cancelSwap s
  settleSwaps (raiseTwin 5 (putTwin { s.twin with active := true, takeovers := sat32 s.twin.takeovers 1 } s))

/-- READY but for the pair state, which the row of PARTNER_HB fixes as PARTNER_LOST (R491, R494).
(DEDUCED, log entry 130.) -/
def readyAlone (s : State) : Bool := s.chip.dataPlaneReady && !inHold s && !failoverAsserted s

/-- The partner's last ROLE is ACTIVE. -/
def partnerActive (s : State) : Bool := match s.twin.partner with | some p => p.active | none => false

/-- PARTNER_FAILOVER_N (R494). -/
def execPartnerFailoverN (s : State) : Host.Outcome State Fault Refusal :=
  .next (if s.twin.pair = .unpaired then s
    else
      let s := putTwin { s.twin with partnerFailover := true } s
      if !s.twin.active && twinReady s then takeOver s else s)

/-- PARTNER_HB_LOSS (R494, R504). (DEDUCED, log entry 130.) -/
def execPartnerHbLoss (s : State) : Host.Outcome State Fault Refusal :=
  .next (if s.twin.pair = .unpaired then s
    else
      let s := putTwin { s.twin with partnerHb := false } s
      if s.twin.pair = .partnerLost then
        if !s.twin.active && partnerActive s && readyAlone s then takeOver s else s
      else if s.twin.pair = .paired ∧ partnerActive s = true then raiseTwin 1 s
      else s)

/-- PARTNER_LOST: no TWIN_STATE for 3 ms (R492). -/
def execPartnerLost (s : State) : Host.Outcome State Fault Refusal :=
  .next (if s.twin.pair = .paired then
      settleSwaps (raiseTwin 0 (putTwin { (cancelSwap s).twin with pair := .partnerLost } s))
    else s)

/-- The role conflict: both ACTIVE, and this is twin B. -/
def resolveConflict (s : State) : State :=
  if s.twin.active && partnerActive s && s.set.twinLetter then
    let s := cancelSwap s
    raiseTwin 2 (putTwin { s.twin with active := false } s)
  else s

/-! ## Swap (R498) -/

/-- The partner's answer: the swap is agreed, at M or at the first hang whose cutoff it meets.
(DEDUCED, log entry 133.) -/
def agreeSwap (w : Swap) (s : State) : State :=
  let gone := cutoffGone s w.family w.hang
  let hang := if gone then firstOpen s w.family else w.hang
  let late := w.late || gone
  let s := putTwin { s.twin with swap := some { w with hang := hang, late := late, agreed := true } } s
  match w.reply with | some r => answerLater r (answerFor (hang, late) w.family) s | none => s

/-- What the partner's swap fields do here. (DEDUCED, log entry 133.) -/
def followSwap (p : PartnerState) (s : State) : State :=
  match s.twin.swap with
  | none =>
    if p.swapState = 1 ∧ twinReady s = true ∧ p.swapFamily < 4 then
      putTwin { s.twin with swap := some { hang := p.swapHang, family := p.swapFamily, agreed := true, reply := none } } s
    else s
  | some w =>
    if w.reply.isSome then
      if !w.agreed && p.swapState == 2 && p.swapHang == w.hang && p.swapFamily == w.family then agreeSwap w s else s
    else if p.swapState ≠ 0 ∧ p.swapFamily = w.family then
      putTwin { s.twin with swap := some { w with hang := p.swapHang } } s
    else s

/-- SWAP_POINT: X(M) of an agreed swap (R498). -/
def execSwapPoint (s : State) : Host.Outcome State Fault Refusal :=
  .next (match s.twin.swap with
    | none => s
    | some w =>
      if w.agreed = true ∧ (familyOf s w.family).hang = w.hang then
        let t := s.twin
        let s := putTwin { t with swap := none, active := !t.active, swaps := sat32 t.swaps 1 } s
        if w.notify then complete w.reply (hungAt w.hang w.family) s else s
      else s)

/-! ## TWIN_STATE received (R492, R494, R499) -/

/-- Family n is enabled and the partner counts another hang. (DEDUCED, log entry 132.) -/
def hangDiffers (p : PartnerState) (s : State) (n : Nat) : Bool :=
  familyOn s n && p.hangs.getD n 0 != hangNumber s n

/-- Messages in a row in which each family differed. -/
def differingNow (p : PartnerState) (s : State) : Tab Nat :=
  ((List.range 4).filter (hangDiffers p s)).map (fun n => (n, min 3 ((tfind s.twin.differing n).getD 0 + 1)))

/-- Hang agreement (R499). (DEDUCED, log entry 132.) -/
def checkAgreement (p : PartnerState) (s : State) : State :=
  let now := differingNow p s
  let third := now.any (fun e => e.2 == 3 && (tfind s.twin.differing e.1).getD 0 != 3)
  let lost := (List.range 4).any (fun n => familyOn s n && (familyOf s n).aligned && !p.flags.getLsbD (4 + n))
  let s := putTwin { s.twin with differing := now } s
  if third || lost then raiseTwin 3 s else s

/-- The pair state moves to PAIRED; the sequence of mirrored messages goes on from the last that the
partner has accepted. (DESIGN CHOICE, log entry 129; DEDUCED, log entry 131.) -/
def enterPaired (p : PartnerState) (s : State) : State :=
  let seeking := s.twin.pair == .seeking
  let s := putTwin { s.twin with pair := .paired, txSeq := p.twinSeq, awaiting := [] } s
  if seeking then putTwin { s.twin with active := storedRole s } s else s

/-- A TWIN_STATE message of the partner. -/
def partnerState (p : PartnerState) (s : State) : State :=
  let other := p.letterB != s.set.twinLetter
  let same := p.laneCount == s.set.twinLanes.length
  let t := s.twin
  if t.pair = .unpaired then s
  else if t.pair = .seeking ∧ (other = false ∨ same = false) then raiseTwin 6 s
  else if other = false then s
  else
    let s := putTwin { t with
        partner := some p
        partnerHb := p.active
        partnerFailover := t.partnerFailover && p.flags.getLsbD 2 } s
    let s := if s.twin.pair = .paired then s else enterPaired p s
    settleSwaps (yieldRole (resolveConflict (followSwap p (checkAgreement p s))))

/-- TWIN_STATE_RX (R492): a message of another VERSION is ignored. (DEDUCED, log entry 131.) -/
def execTwinStateRx (message : Bytes) (s : State) : Host.Outcome State Fault Refusal :=
  let s := takeInbox 4 (fun b => b == message) s
  .next (if field message 0 1 = 1 then partnerState (readTwinState message s.time.count) s else s)

/-! ## TWIN_PAIR, TWIN_ROLE, TWIN_SWAP (R404, R490, R495, R498) -/

/-- The lanes that TWIN_PAIR names. -/
def namedLanes (p : Packet) : List Nat := (List.range (u8 p 1)).map (fun i => u8 p (4 + i))

/-- DEDUCED, log entry 134. -/
def checksTwinPair (p : Packet) (s : State) : Check :=
  let lanes := namedLanes p
  firstFail [
    noTarget p,
    fieldIn (u8 p 0) 0 1 0,
    fieldIn (u8 p 1) 0 8 1,
    reserved p 2 2,
    fieldOk (isZero p (4 + u8 p 1) (8 - u8 p 1) && lanes.eraseDups.length == lanes.length) 4,
    need (lanes.all (fun f => (laneCfg s f).mode == 1 && (pairWith s f).isNone)) (conflict 0)]

/-- The device leaves its pair: STANDBY, TWIN_HB low; the messages that wait are discarded. -/
def unpair (s : State) : State :=
  let s := s.set.twinLanes.foldl (fun s l => dropInbox l s) (cancelSwap s)
  let t := s.twin
  let s := putTwin { t with
      pair := .unpaired, active := false, partner := none, partnerFailover := false, partnerHb := false
      differing := [], awaiting := [], txSeq := 0, rxSeq := 0 } s
  settleSwaps { s with set := { s.set with twinLanes := [] } }

/-- Start looking for the partner over the lanes of the settings. (DESIGN CHOICE, log entry 129.) -/
def seek (s : State) : State := putTwin { s.twin with pair := .seeking } s

def effectTwinPair (p : Packet) (s : State) : State × Answer :=
  let s := unpair s
  if u8 p 1 = 0 then (s, done)
  else (seek { s with set := { s.set with twinLetter := u8 p 0 == 1, twinLanes := namedLanes p } }, done)

def specTwinPair : OpSpec :=
  { code := 0xD001, cls := 1, lengthOk := fixedLength 12, checks := checksTwinPair, effect := atOnce effectTwinPair }

/-- TWIN_PAIR (R490). -/
def execTwinPair (p : Packet) (s : State) : Host.Outcome State Fault Refusal := .next (runHost specTwinPair p s)

def checksTwinRole (p : Packet) (s : State) : Check :=
  let active := u8 p 0 == 1
  firstFail [
    noTarget p,
    fieldIn (u8 p 0) 0 1 0,
    reserved p 1 3,
    need (s.twin.pair != .unpaired) (conflict 0),
    need (!(active && s.twin.pair == .paired && partnerActive s)) (conflict 0),
    need (!active || twinReady s) (conflict 0),
    need s.twin.swap.isNone (conflict 0)]

/-- The role applies at once, and is a setting (R495). -/
def setRole (active : Bool) (s : State) : State :=
  putTwin { s.twin with active := active } { s with set := { s.set with twinActive := some active } }

def specTwinRole : OpSpec :=
  { code := 0xD002, cls := 1, lengthOk := fixedLength 4, checks := checksTwinRole
    effect := atOnce (fun p s => (setRole (u8 p 0 == 1) s, done)) }

/-- TWIN_ROLE (R495). -/
def execTwinRole (p : Packet) (s : State) : Host.Outcome State Fault Refusal := .next (runHost specTwinRole p s)

def checksTwinSwap (p : Packet) (s : State) : Check :=
  let n := p.family.toNat
  firstFail [
    need (decide (n ≤ 3)) badHeader,
    targetN s p n,
    need (s.twin.pair == .paired && twinReady s && partnerReady s && s.twin.swap.isNone) (conflict 0),
    need (familyOn s n) (conflict 0)]

/-- The swap is proposed; the reply follows the partner's answer (R498). -/
def effectTwinSwap (r : Reply) (p : Packet) (s : State) : State × Option Answer :=
  let n := p.family.toNat
  let (hang, late) := applyTarget s n false (readTarget s n p.target)
  let w : Swap := { hang := hang, family := n, agreed := false, late := late, reply := some r, notify := notifyHung p }
  (putTwin { s.twin with swap := some w } s, none)

def specTwinSwap : OpSpec :=
  { code := 0xD004, cls := 1, lengthOk := fixedLength 0, checks := checksTwinSwap, effect := effectTwinSwap }

/-- TWIN_SWAP (R498). -/
def execTwinSwap (p : Packet) (s : State) : Host.Outcome State Fault Refusal := .next (runHost specTwinSwap p s)

/-! ## TWIN_STATUS (R503) -/

/-- Code of a pair state, in the order of R492. -/
def pairCode : PairState → Nat
  | .unpaired => 0 | .seeking => 1 | .paired => 2 | .partnerLost => 3

/-- The LOCKED lanes of the set, one bit per place in LANES. -/
def lockedLanes (s : State) : Nat := natOfBits (s.set.twinLanes.map (laneLocked s))

/-- Time since the partner's last TWIN_STATE, in 2⁻¹⁶ ns. -/
def partnerAge (s : State) : Int :=
  match s.twin.partner with
  | some p => rootToUnits (8 * ((s.time.count - p.receivedAt).toNat : Int))
  | none => 0

def twinItems (s : State) : Bytes :=
  let t := s.twin
  itemByte (pairCode t.pair) ++ itemByte (bit s.set.twinLetter) ++ itemByte (bit t.active) ++ itemFlag (twinReady s)
    ++ itemByte (lockedLanes s)
    ++ itemHalf (match twinLane s with | some f => if laneLocked s f then f else 0xFFFF | none => 0xFFFF)
    ++ (match t.partner with | some p => twinMessage p | none => leBytes 64 0)
    ++ itemOffset (partnerAge s) ++ itemFlag t.partnerFailover ++ itemFlag t.partnerHb
    ++ itemWord (ownState s).swapHang ++ itemByte (ownState s).swapFamily ++ itemByte (swapState t)
    ++ itemCount t.takeovers ++ itemCount t.swaps ++ itemCount t.mirrored ++ itemCount t.mirrorDiffer
    ++ itemCount t.mirrorDropped

def clearTwin (s : State) : State :=
  putTwin { s.twin with takeovers := 0, swaps := 0, mirrored := 0, mirrorDiffer := 0, mirrorDropped := 0 } s

def twinSpace : StatusSpace := { size := 0, device := some twinItems, clearDevice := clearTwin }

def specTwinStatus : OpSpec := specStatus 0xD003 (onlySpace twinSpace)

/-- TWIN_STATUS (R503). -/
def execTwinStatus (p : Packet) (s : State) : Host.Outcome State Fault Refusal := .next (runHost specTwinStatus p s)

/-! ## Mirrored commands (R500) -/

/-- The opcodes that MIRROR carries. -/
def mirrorSpecs : List OpSpec :=
  [specTakeVideo, specTakeAudio, specTakeAnc, specTakeBundle, specHangAt, specUnstage, specProtectSet,
    specDestConfig, specSourceConfig, specDestLock, specHangRefConfig,
    specLaneConfig, specLaneBringup, specLanePrbs, specLaneStatus, specLaneEq]
  ++ [specFabricMap, specFabricPlanePair, specFabricStatus, specSdiInConfig, specSdiOutConfig, specFramesyncConfig,
    specSdiStatus, specMacConfig, specTrapPatternSet, specFlowRxAdd, specFlowRxDel, specFlowTxAdd, specFlowTxDel,
    specQueueConfig, specPausePolicy, specMacCounters]
  ++ [specTimeRead, specTimeAdjust, specPtpPortConfig, specAsymmetrySet, specPathStepAccept, specRefConfig,
    specRefStatus, specDpllConfig, specPulseConfig, specPulseRealign, specEmbed, specDeembed, specTdmPort, specGroup,
    specSlotMask, specRestart, specAudioStatus]
  ++ [specHeadConfig, specLayerConfig, specLutLoad, specFlip, specFlipGroup, specHeadStatus, specAssign, specParam,
    specSubmit, specQuery, specEngineStatus, specFaultRead, specFaultAck, specSeverity, specForce, specInvert,
    specLedgerRead]
  ++ [specStoreRead, specStoreWrite, specImageBegin, specImageChunk, specImageStatus, specImageVerify, specActivate,
    specConfirmHealth, specSettingsConfirm, specKeySlot, specKeySlotStatus, specAttest, specLifecycle,
    specCountersRead, specProbeRead, specTempRead]

/-- A mirrored command: an opcode that MIRROR does not carry is answered as R500 answers it at the
sender. (DEDUCED, log entry 134.) -/
def runMirrored (twinSeq : Word) (h : HostPacket) (s : State) : State :=
  match mirrorSpecs.find? (fun o => o.code == h.opcode && mirrorable o) with
  | some o => executeMirrored o twinSeq h.body s
  | none =>
    let r := replyHeader h.opcode (mirroredPacket twinSeq h.body)
    sendReply (firstReply r (if isOpcode h.opcode.toNat then badHeader else badOpcode 0)) s

/-- The unit that executes an opcode runs (R162, R376). (DEDUCED, log entry 134.) -/
def mirrorServed (h : HostPacket) (s : State) : Bool :=
  if h.body.cls = 0 then s.chip.dataPlaneReady else s.chip.curatorServing

/-- A take message joins the take gate's queue of 256 for UDP and twin packets; one that finds it full is dropped
and counted (R161). The gate executes it when nothing of that queue waits before it. (DEDUCED, log entry 157.) -/
def gateMirrored (twinSeq : Word) (h : HostPacket) (s : State) : State :=
  let h := { h with body := { h.body with endpoint := .twin twinSeq } }
  if !gateRoom s then
    note 0x04 4 { s with mtx := { s.mtx with takeQueueDrop := sat32 s.mtx.takeQueueDrop 1 } }
  else
    let s := putTwin { s.twin with rxSeq := twinSeq } s
    if s.cmd.takeQueue.any (fun x => x.body.endpoint != .pcie) then
      { s with cmd := { s.cmd with takeQueue := s.cmd.takeQueue ++ [h] } }
    else readRings (runMirrored twinSeq h s)

/-- TWIN_COMMAND_RX: a COMMAND message of the partner (R490, R500). A message whose TWIN_SEQ has been
accepted is discarded; one whose server does not run waits. -/
def twinCommand (twinSeq : Word) (h : HostPacket) (s : State) : State :=
  if s.twin.pair = .unpaired ∨ mirrorServed h s = false then s
  else
    let s := takeInbox 1 (fun b => b == packetBytes h) s
    if !later twinSeq s.twin.rxSeq then s
    else if h.body.cls = 0 then gateMirrored twinSeq h s
    else readRings (runMirrored twinSeq h (putTwin { s.twin with rxSeq := twinSeq } s))

def execTwinCommandRx (twinSeq : Word) (packet : HostPacket) (s : State) : Host.Outcome State Fault Refusal :=
  .next (twinCommand twinSeq packet s)

/-- TWIN_REPLY_RX: the partner's reply to a mirrored command is compared (R500). -/
def twinReply (twinSeq : Word) (status : Nat) (hang : Word) (s : State) : State :=
  let s := takeInbox 2 (fun b => field b 8 4 == twinSeq.toNat) s
  match s.twin.awaiting.find? (fun m => m.twinSeq == twinSeq) with
  | none => s
  | some m =>
    let t := { s.twin with awaiting := s.twin.awaiting.erase m }
    if m.status = status ∧ m.hang = hang then putTwin t s
    else raiseTwin 4 (putTwin { t with mirrorDiffer := sat32 t.mirrorDiffer 1 } s)

def execTwinReplyRx (twinSeq : Word) (status : BitVec 16) (hang : Word) (s : State) : Host.Outcome State Fault Refusal :=
  .next (twinReply twinSeq status.toNat hang s)

end Sys2Proof.Machine
end

