-- ==== Sys2Proof/Machine/Boot.lean ====
section
/-! DEFINITION. Boot.lean: power-on, device and PCIe resets, and the start phases: the clean-up of the
life-cycle state, the root, the bank, the image, and the settings that the store holds (R44, R446 to R451,
R467 to R471, R487, R505 to R516). -/

namespace Sys2Proof.Machine

/-! ## What a reset keeps (R506) -/

/-- The flash: store banks and image slots. (DESIGN CHOICE, log entry 16.) -/
def flashOf (t : Store) : Store :=
  { bankA := t.bankA, bankB := t.bankB, debugA := t.debugA, debugB := t.debugB, chunks := t.chunks }

/-- Power-on reset: everything but the flash, the fuses and the world outside starts again.
(DESIGN CHOICE, log entry 16.) -/
def powerOn (s : State) : State :=
  { State.reset with
    chip := { State.reset.chip with temps := s.chip.temps, jtag := s.chip.jtag, jtagData := s.chip.jtagData }
    store := flashOf s.store
    life := { s.life with unlockPending := false, testRoot := false, resetDue := false }
    draws := s.draws
    pending := s.pending }

/-- POWER_ON_RESET (R505, R506). -/
def execPowerOnReset (s : State) : Host.Outcome State Fault Refusal := .next (powerOn s)

/-- ROOT_LOCK: ROOT locks for the first time; the count starts at zero (R32, R44). -/
def rootLock (s : State) : State :=
  if s.chip.startPhase = 0 then
    { s with
      chip := { s.chip with rootLocked := true, startPhase := 1 }
      time := { s.time with count := 0 } }
  else s

def execRootLock (s : State) : Host.Outcome State Fault Refusal := .next (rootLock s)

/-- Device reset: the count, the audio grid, the reference unit with its settings, the flash, the fuses and a JTAG unlock are
kept; the start begins again at phase 1 (R44, R274, R506, R516). (DESIGN CHOICE, log entry 16.) -/
def deviceReset (s : State) : State :=
  -- The SLAVE port is lost and no lane is LOCKED any more, which the reference unit sees (R261).
  let s := [4, 5, 6].foldl (fun s c => loseActivity c false s) s
  { State.reset with
    chip := { State.reset.chip with
      rootLocked := true, startPhase := 1, pcieLink := s.chip.pcieLink, jtag := s.chip.jtag
      jtagData := s.chip.jtagData, temps := s.chip.temps, railsOut := s.chip.railsOut }
    time := { State.reset.time with count := s.time.count, uptimeHi := s.time.uptimeHi }
    ref := s.ref
    aud := { State.reset.aud with period := s.aud.period }
    flt := { State.reset.flt with standing := s.flt.standing }
    set := { State.reset.set with refs := s.set.refs, dpll := s.set.dpll, pulses := s.set.pulses }
    store := flashOf s.store
    life := { s.life with testRoot := false, resetDue := false }
    draws := s.draws
    pending := s.pending }

/-- A start is in progress: no further device reset begins one (R505).
(DESIGN CHOICE, log entry 16.) -/
def starting (s : State) : Bool := decide (s.chip.startPhase < 6) && !s.chip.bootFailed

/-- A cause starts a device reset (R505, R515, R522). A SYSRST_N pulse between 100 ns and 1 µs may or may
not: a free value. -/
def resetCause (c : ResetCause) (s : State) : Bool × State :=
  match c with
  | .sysrst ns =>
    if ns < 100 then (false, s)
    else if 1000 ≤ ns then (true, s)
    else let (b, s) := draw 1 s; (b == 1, s)
  | .lifecycle => (s.life.resetDue, s)
  | .boundaryScan => (true, s)
  | .docent => (s.doc.resetDue, s)

/-- DEVICE_RESET (R505). -/
def execDeviceReset (c : ResetCause) (s : State) : Host.Outcome State Fault Refusal :=
  let (go, s) := resetCause c s
  .next (if go && !starting s then deviceReset s else s)

/-! ## PCIe reset and link (R511, R512) -/

/-- PCIe reset (R512). -/
def pcieReset (s : State) : State :=
  let s := resetRingSessions 16 s
  let s := { s with cmd := { s.cmd with
      ring0 := {}
      ring1 := {}
      ring2 := {}
      ring3 := {}
      replyRing := {}
      waiting := []
      doorbellBusy := false
      irqStatus := State.reset.cmd.irqStatus
      irqMask := State.reset.cmd.irqMask
      irqMap0 := State.reset.cmd.irqMap0
      irqMap1 := State.reset.cmd.irqMap1
      msix := []
      msixPending := 0 } }
  { s with chip := { s.chip with pcieLink := false } }

def execPcieReset (s : State) : Host.Outcome State Fault Refusal := .next (pcieReset s)

/-- PCIE_LINK_UP (R511). -/
def execPcieLinkUp (s : State) : Host.Outcome State Fault Refusal :=
  .next { s with chip := { s.chip with pcieLink := true } }

/-! ## Start phase 2: clean-up, root, bank (R446 to R451, R467 to R471, R516) -/

/-- The banks that pass check 1 of R467. -/
def keptA (o : BootObs) (s : State) : Option Bank := s.store.bankA.filter (fun _ => o.bankAKept)
def keptB (o : BootObs) (s : State) : Option Bank := s.store.bankB.filter (fun _ => o.bankBKept)

/-- The newer of the kept banks, and the other. -/
def keptBanks (o : BootObs) (s : State) : Option Bank × Option Bank :=
  let a := keptA o s
  let b := keptB o s
  if newerIsB a b then (b, a) else (a, b)

/-- A bank without keys and helper. -/
def stripKeys (b : Bank) : Bank := { b with keySlots := none, helper := none }

/-- A bank holds keys or the helper. -/
def holdsKeys (b : Option Bank) : Bool :=
  match b with | some x => x.keySlots.isSome || x.helper.isSome | none => false

/-- In RETIRED both production banks are written again without keys and helper (R456, R468). -/
def stripBanks (o : BootObs) (s : State) : State :=
  if !(holdsKeys s.store.bankA || holdsKeys s.store.bankB) then s
  else
    match (keptBanks o s).1 with
    | none => { s with store := { s.store with bankA := s.store.bankA.map stripKeys, bankB := s.store.bankB.map stripKeys } }
    | some b =>
      let one := { stripKeys b with seq := b.seq + 1 }
      let two := { stripKeys b with seq := b.seq + 2 }
      let toB := newerIsB (keptA o s) (keptB o s)
      { s with store := { s.store with bankA := some (if toB then one else two), bankB := some (if toB then two else one) } }

/-- Erase the debug store. -/
def eraseDebug (s : State) : State := { s with store := { s.store with debugA := none, debugB := none } }

/-- The clean-up of the life-cycle state (R516). (DESIGN CHOICE, log entry 18.) -/
def cleanUp (o : BootObs) (s : State) : State :=
  match lifeState s with
  | 1 => eraseDebug s
  | 3 => eraseDebug (stripBanks o s)
  | _ => s

/-- The test root is substituted: FIELD_DEBUG, or BLANK with JTAG debug unlocked (R450). -/
def substitutes (s : State) : Bool := lifeState s == 2 || (lifeState s == 0 && s.life.unlockPending)

/-- The root that a helper record gives, where its check value confirms it (R446). -/
def rootFrom (o : BootObs) (h : Option (BitVec 8160 × BitVec 384)) : Option (BitVec 256) :=
  match h with
  | some (helper, check) =>
    let r := Config.extractRoot o.puf helper
    if Config.rootCheck r = check then some r else none
  | none => none

/-- The root that a bank's helper record gives. -/
def bankRoot (o : BootObs) (b : Option Bank) : Option (BitVec 256) := rootFrom o (b.bind (fun x => x.helper))

/-- The root fails (R449). -/
def failRoot (s : State) : State := note 0x0E 0 { s with strong := { s.strong with root := .failed } }

/-- A confirmed root; a block that needed more than 12 corrections raises the root-margin source (R449). -/
def confirmRoot (o : BootObs) (r : BitVec 256) (s : State) : State :=
  let s := { s with strong := { s.strong with root := .production r } }
  if o.corrections.any (fun n => decide (12 < n)) then note 0x0E 1 s else s

/-- Enrolment: in BLANK, where no kept bank holds a helper record (R448). -/
def enrols (o : BootObs) (s : State) : Bool :=
  lifeState s == 0 && (keptBanks o s).1.bind (fun b => b.helper) == none
    && (keptBanks o s).2.bind (fun b => b.helper) == none

/-- The helper record that enrolment writes. -/
def newHelper (o : BootObs) : BitVec 8160 × BitVec 384 :=
  let h := Config.enrolHelper o.puf
  (h, Config.rootCheck (Config.extractRoot o.puf h))

/-- The root of this start (R446 to R450). (DESIGN CHOICE, log entry 18.) -/
def startRoot (o : BootObs) (s : State) : State :=
  if substitutes s then
    note 0x0E 4 { s with
      strong := { s.strong with root := .test Config.testRoot }
      life := { s.life with testRoot := true } }
  else if enrols o s then
    { s with strong := { s.strong with root := .production (Config.extractRoot o.puf (newHelper o).1) } }
  else
    match bankRoot o (keptBanks o s).1 with
    | some r => confirmRoot o r s
    | none =>
      match bankRoot o (keptBanks o s).2 with
      | some r => confirmRoot o r s
      | none => failRoot s

/-- The CMAC of a bank passes; under the test root only its CRC is checked (R467, R471). -/
def bankPasses (s : State) (cmac : Bool) : Bool :=
  match s.strong.root with
  | .test _ => true
  | .production _ => cmac
  | _ => false

/-- A kept bank that fails its CMAC under a confirmed root raises the CMAC source. -/
def noteCmac (kept : Bool) (cmac : Bool) (s : State) : State :=
  match s.strong.root with
  | .production _ => if kept && !cmac then note 0x0F 1 s else s
  | _ => s

/-- Select the store bank (R467, R470, R471).
(DESIGN CHOICE, log entry 18; DESIGN CHOICE, log entry 120.) -/
def selectBank (o : BootObs) (s : State) : State :=
  let a := (keptA o s).filter (fun _ => bankPasses s o.bankACmac)
  let b := (keptB o s).filter (fun _ => bankPasses s o.bankBCmac)
  let s := noteCmac (keptB o s).isSome o.bankBCmac (noteCmac (keptA o s).isSome o.bankACmac s)
  let t := s.store
  let s := { s with store := { t with
      validA := a.isSome
      validB := b.isSome
      selectedB := newerIsB a b
      noBank := a.isNone && b.isNone
      debugNewB := newerIsB t.debugA t.debugB } }
  if (baseBank s).isNone then note 0x0F 0 s else s

/-- The bank of an enrolment (R448, R468). -/
def writeHelper (o : BootObs) (s : State) : State :=
  let (b, s) := nextBank s
  installBank { b with helper := some (newHelper o) } s

/-- Start phase 2. -/
def readStore (o : BootObs) (s : State) : State :=
  let s := cleanUp o s
  let enrol := enrols o s && !substitutes s
  let s := selectBank o (startRoot o s)
  let s := if enrol then writeHelper o s else s
  checkSlots 32 s

/-! ## The image (R479, R483, R484, R487) -/

/-- The image in a slot passes (R487). -/
def slotGood (o : BootObs) (slot : Nat) : Bool := if slot = 0 then o.slot0Good else o.slot1Good

/-- BOOT_STATE from the BOOT record, and the slot that runs: the active one, or during a trial the other;
where that fails the remaining one. None where neither passes. (DEDUCED, log entry 17.) -/
def chooseImage (o : BootObs) (s : State) : Option State :=
  let b := baseBank s
  let active := match b with | some x => x.activeSlot | none => 0
  let trial := match b with | some x => x.trial | none => false
  let first := if trial then 1 - active else active
  let rx := b.bind (fun x => x.imageRx)
  let run := fun (slot : Nat) (s : State) =>
    { s with store := { s.store with
        bootSlot := slot, trial := trial, switched := false, fallingBack := trial, otherSlot := !trial && slot != active
        rx := rx, sinceBitmap := 0 } }
  if slotGood o first then some (run first s)
  else if slotGood o (1 - first) then some (note 0x0F 4 (run (1 - first) s))
  else none

/-- The Docent at a start: mode 2 under the test root, mode 1 otherwise (R520). -/
def startDocent (s : State) : State := { s with doc := { mode := if underTestRoot s then 2 else 1 } }

/-! ## The stored settings (R466) -/

/-- The settings that the firmware reads: those of its own format, else of another that the bank holds.
(DESIGN CHOICE, log entry 18.) -/
def storedSettings (s : State) : Option Settings :=
  (baseBank s).bind (fun b =>
    match tfind b.settings (runningFormat s) with
    | some x => some x
    | none => b.settings.head?.map (fun e => e.2))

/-- Apply every entry of a table. -/
def applyTab {α : Type} (f : Nat → α → State → State) (t : Tab α) (s : State) : State :=
  t.foldl (fun s e => f e.1 e.2 s) s

/-- Lanes, fabric and SDI. -/
def applyLanes (x : Settings) (s : State) : State :=
  let s := applyTab applyLaneCfg x.lanes s
  let s := { s with set := { s.set with eq := x.eq, planes := x.planes } }
  let s := applyTab (fun k c s => if c.lanes.isSome then setPlanePair k c.lanes s else s) x.pairs s
  let s := applyTab applySdiOut x.sdiOut (applyTab applySdiIn x.sdiIn s)
  { s with set := { s.set with embed := x.embed, deembed := x.deembed } }

/-- Packet ports, destinations and sources. -/
def applyMatrix (x : Settings) (s : State) : State :=
  let s := { s with set := { s.set with mac := x.mac, traps := x.traps, honourPause := x.honourPause } }
  applyTab applySourceCfg x.sources (applyTab applyDestCfg x.dests s)

/-- The stored candidates, their partners as stored; a candidate without stored settings is disabled (R260, R274). -/
def applyRefs (x : Tab RefCfg) (s : State) : State :=
  let s := (List.range 7).foldl (fun s c => putRefCfg s c { refCfg s c with partner := none }) s
  (List.range 7).foldl (fun s c => applyRefCfg c (tget refCfgDefault x c) s) s

/-- Time, reference and audio. -/
def applyTiming (x : Settings) (s : State) : State :=
  let s := applyTab applyPtpPort x.ptpPorts (applyPtpDev x.ptpDev s)
  let s := { s with set := { s.set with asymmetry := x.asymmetry, dpll := x.dpll, groups := x.groups } }
  let s := applyRefs x.refs s
  let s := { s with set := { s.set with pulses := x.pulses }, ref := { s.ref with pendingPulse := [] } }
  applyTab applyTdm x.tdm s

/-- Severities and the twin pair. -/
def applyTwin (x : Settings) (s : State) : State :=
  let s := { s with set := { s.set with
      severities := x.severities
      twinLetter := x.twinLetter
      twinLanes := x.twinLanes
      twinActive := x.twinActive } }
  if x.twinLanes.isEmpty then s else seek s

/-- An assigned engine starts in bank 0; one whose kernel fails its check stays UNASSIGNED (R336). -/
def startEngine (p : Nat) (c : EngineCfg) (s : State) : State :=
  if c.kernel = 0 then s
  else if c.kernel != kernelSpare && !Config.kernelGood s.store.bootSlot c.kernel then raiseEngine (engineFault p) s
  else putEngine s p { engineOf s p with cfg := c, state := switchedState c.kernel, slot := s.store.bootSlot }

/-- Start phase 5: the stored settings, then the engines. Without stored settings the candidates are disabled (R260),
and the loop and the pulses keep the settings that they run with (R274). -/
def applyStored (s : State) : State :=
  match storedSettings s with
  | none => applyRefs [] s
  | some x =>
    let s := applyTab applyFamilyCfg x.families (applyTwin x s)
    let s := applyTiming x (applyMatrix x (applyLanes x s))
    applyTab startEngine x.engines { s with set := { s.set with engines := x.engines } }

/-! ## START_PHASE_ADVANCE (R42, R44, R509) -/

/-- The write that the firmware requests after a start from another slot than ACTIVE_SLOT (R484, R487). -/
def afterOtherSlot (s : State) : State :=
  if s.store.fallingBack then
    requestWrite .fallBack none (note 0x0F 3 { s with store := { s.store with trial := false } })
  else if s.store.otherSlot then requestWrite .otherSlot none { s with store := { s.store with otherSlot := false } }
  else s

/-- Phase 6: the data plane runs and the Curator serves. -/
def beginService (s : State) : State :=
  let s := afterOtherSlot (applyStored s)
  let s := { s with chip := { s.chip with startPhase := 6, dataPlaneReady := true, curatorServing := true } }
  readRings (sendBanner s)

/-- The next start phase (R44). (DEDUCED, log entry 17; DESIGN CHOICE, log entry 18.) -/
def advancePhase (o : BootObs) (s : State) : State :=
  let phase := fun (n : Nat) (s : State) => { s with chip := { s.chip with startPhase := n } }
  match s.chip.startPhase with
  | 1 => phase 2 s
  | 2 =>
    if s.chip.bootFailed then s
    else
      let s := readStore o s
      match chooseImage o s with
      | some s => phase 3 (startDocent s)
      | none => { s with chip := { s.chip with bootFailed := true } }
  | 3 => { s with chip := { s.chip with startPhase := 4 }, cur := { s.cur with remap := true } }
  | 4 => { s with chip := { s.chip with startPhase := 5, reserveReady := true } }
  | 5 => beginService s
  | _ => s

/-- START_PHASE_ADVANCE (R42, R446, R467, R487). -/
def execStartPhaseAdvance (obs : BootObs) (s : State) : Host.Outcome State Fault Refusal := .next (advancePhase obs s)

end Sys2Proof.Machine
end

