-- ==== Sys2Proof/Machine/Kernels.lean ====
section
/-! DEFINITION. Kernels.lean: what the kernels of the catalogue do at an invocation, and the generators at PP (R14,
R339 to R342). -/

namespace Sys2Proof.Machine

/-! ## PROBE (R14, R340) -/

/-- The lines that destination d of an engine receives: the last whole frame of the source that it shows; in fallback
black, or none under MUTE (R14, R169). (DESIGN CHOICE, log entry 147.) -/
def destPicture (s : State) (d : Nat) : Option (List PicLine) :=
  let black := if (destCfg s d).fallback = 2 then none else some (blackPicture ((destFormat s d).getD 0x21))
  match shownSource s d with
  | some n => if (destRun s d).inFallback || lostAt s d n then black else some (essenceOf s n).done.lines
  | none => black

/-- A parameter of the running kernel. -/
def engineParam (e : Engine) (i : Nat) : Int := ((tfind e.params i).getD 0).toInt

/-- Samples of component c of a line between pixels x and x + w: 0 = Y, 1 = Cb, 2 = Cr. -/
def componentSamples (c x w : Nat) (xs : List (BitVec 10)) : List (BitVec 10) :=
  if c = 0 then (List.range w).filterMap (fun k => xs[2 * (x + k) + 1]?)
  else (List.range ((x + w + 1) / 2 - x / 2)).filterMap (fun k => xs[4 * (x / 2 + k) + 2 * (c - 1)]?)

/-- The components of a PROBE's region of a picture; lines of two fields stand by turns. -/
def probeRegion (e : Engine) (picture : List PicLine) : List (List (BitVec 10)) :=
  let at' := fun (i : Nat) => (engineParam e i).toNat
  let fields := picture.any (fun l => l.second)
  let row := fun (l : PicLine) => if fields then 2 * (l.line - 1) + bit l.second else l.line - 1
  let lines := picture.filter (fun l => decide (at' 1 ≤ row l ∧ row l < at' 1 + at' 3))
  (List.range 3).map (fun c => lines.flatMap (fun l => componentSamples c (at' 0) (at' 2) l.samples))

/-- Minimum, maximum and mean of a component. -/
def levels (i : Nat) (xs : List (BitVec 10)) : List Int :=
  let vs := xs.map (fun x => x.toNat)
  match vs with
  | [] => (List.range 3).map (fun k => Config.emptyLevel (3 * i + k))
  | v :: _ => [(vs.foldl min v : Nat), (vs.foldl max v : Nat), Config.probeMean vs.sum vs.length]

/-- An invocation of PROBE: nine levels; frames in a row whose mean Y is at most 70, and in which the region has not
changed (R340). -/
def runProbe (p : Nat) (s : State) : State :=
  match destPicture s (2176 + p) with
  | none => s
  | some picture =>
    let e := engineOf s p
    let r := probeRegion e picture
    let y := r.headD []
    let black := !y.isEmpty && decide ((y.map (fun x => x.toNat)).sum ≤ 70 * y.length)
    putEngine s p { e with
      results := (r.zipIdx).flatMap (fun x => levels x.2 x.1), region := r
      blackRun := if black then min 255 (e.blackRun + 1) else 0
      stillRun := if r = e.region then min 255 (e.stillRun + 1) else 0 }

/-! ## ANC and GEN_VIDEO (R340) -/

/-- MODE and the pairs in use let a packet pass. -/
def ancPasses (e : Engine) (a : AncPacket) : Bool :=
  let listed := (List.range (engineParam e 1).toNat).any (fun i =>
    engineParam e (2 + i) == (a.did.toNat + 256 * a.sdid.toNat : Nat))
  if engineParam e 0 = 0 then listed else !listed

/-- An invocation of ANC: the packets of its input's frame, filtered, leave with the generator's next frame. -/
def runAnc (p : Nat) (s : State) : State :=
  let e := engineOf s p
  let packets := match (destOf s .anc (2176 + p)).active with
    | some n => if ancUsable s n then (essenceOf s n).done.anc else []
    | none => []
  putEngine s p { e with ancOut := packets.filter (ancPasses e) }

/-- An invocation of GEN_VIDEO writes a pattern descriptor. -/
def runPattern (p : Nat) (s : State) : State :=
  let e := engineOf s p
  putEngine s p { e with pattern := (List.range 4).map (engineParam e), frameCount := e.frameCount + 1 }

/-- A sample of a generator's picture: black, flat, or of another pattern. -/
def generatorSample (e : Engine) (second : Bool) (line k : Nat) : BitVec 10 :=
  match e.pattern with
  | 0 :: _ => blackSample k
  | [4, y, cb, cr] => BitVec.ofInt 10 (if k % 2 = 1 then y else if k % 4 = 0 then cb else cr)
  | x :: _ => Config.patternSample e.cfg.format x.toNat e.frameCount second line k
  | [] => blackSample k

/-- The frame of a generator: the picture of its pattern, black for ANC, and the packets of ANC (R340). -/
def generatorFrame (e : Engine) : MediaFrame :=
  let f := e.cfg.format
  { pid := carriedPid 0 f none
    lines := if e.cfg.kernel = kernelGenVideo then
        (pictureLines f).map (fun l => { second := l.1, line := l.2
                                         samples := (List.range (lineSampleCount f)).map (generatorSample e l.1 l.2) })
      else blackPicture f
    anc := if e.cfg.kernel = kernelAnc then e.ancOut else [] }

/-- Generators of a family present their frames; one that has begun becomes usable (R339, R340).
(DEDUCED, log entry 174.) -/
def presentGenerators (fam : Nat) (n : Word) (s : State) : State :=
  (s.eng.engines.map (fun e => e.1)).foldl (fun s p =>
    let e := engineOf s p
    match runningKernel s p, e.cfg.gen with
    | some k, some g =>
      let due := !(isHalf s fam (some e.cfg.format) && n.getLsbD 0)
      if genKernel k && e.cfg.family == fam && due then
        let s := if e.offered then s
          else gainSource (genSource g) e.cfg.format fam (carriedPid 0 e.cfg.format none)
            (putEngine s p { e with offered := true })
        presentFrame (genSource g) (generatorFrame e) s
      else s
    | _, _ => s) s

/-! ## Audio kernels (R340, R341) -/

/-- Gain of input i to output o of a MIX, n periods after the invocation at period k. -/
def mixGainAt (e : Engine) (i o k n : Nat) : Int :=
  let x := 16 * i + o
  let now := engineParam e x
  match tfind e.ramps x with
  | some (old, since) => Config.mixGain old now (engineParam e 512).toNat (k + n - since)
  | none => Config.mixGain now now 0 0

/-- The sources' words of the block that an invocation at grid period k produces: input period j affects source period
j + 48 (R341). -/
def audioBlock (e : Engine) (k : Nat) : List (Nat × List Word) :=
  (List.range 24).map (fun n =>
    (k + 24 + n, (List.range 16).map (fun o =>
      if e.cfg.kernel = kernelMix then
        Config.mixWord ((List.range 32).map (fun i => ((e.heard.getD n []).getD i 0, mixGainAt e i o k n)))
      else Config.toneWord (engineParam e (2 * o)) (engineParam e (2 * o + 1)) (k + 24 + n))))

/-- An invocation of MIX or GEN_TONE. -/
def runSources (p : Nat) (s : State) : State :=
  let e := engineOf s p
  putEngine s p { e with ready := e.ready ++ audioBlock e s.aud.period, heard := [] }

/-- An invocation of LOUDNESS: the meters take 24 grid periods, after RESET_INTEGRATED where it was just written. -/
def runMeters (p : Nat) (reset : Bool) (s : State) : State :=
  let e := engineOf s p
  let held := if reset then Config.meterReset e.meter else e.meter
  let meter := Config.meterStep held ((List.range 8).map (engineParam e)) e.heard
  putEngine s p { e with meter := meter, heard := [], results := (List.range 11).map (Config.meterResult meter) }

/-! ## ENGINE_INVOCATION (R340 to R342) -/

/-- Gains that the values of an invocation change begin their ramps (R341). -/
def startRamps (old : Engine) (p : Nat) (s : State) : State :=
  let e := engineOf s p
  if e.cfg.kernel ≠ kernelMix then s
  else
    putEngine s p { e with ramps := (List.range 512).foldl (fun t i =>
      if engineParam old i = engineParam e i then t else tput t i (engineParam old i, s.aud.period)) e.ramps }

/-- Values of this invocation write 1 to RESET_INTEGRATED. -/
def resetsMeters (s : State) (p : Nat) : Bool :=
  let e := engineOf s p
  let now := (familyOf s e.cfg.family).hang
  e.cfg.kernel == kernelLoudness && e.pendingParams.any (fun x =>
    x.kernel == kernelLoudness && hangDue now x.hang && decide (x.index ≤ 8)
      && x.values.getD (8 - x.index) 0 == 1)

/-- What the kernel of an engine does. -/
def runKernel (p k : Nat) (reset : Bool) (s : State) : State :=
  if k = kernelProbe then runProbe p s
  else if k = kernelAnc then runAnc p s
  else if k = kernelGenVideo then runPattern p s
  else if k = kernelLoudness then runMeters p reset s
  else if k = kernelMix ∨ k = kernelGenTone then runSources p s
  else s

/-- An invocation runs: values whose hang has come apply first (R341, R352). (DEDUCED, log entry 104.) -/
def runInvocation (p k : Nat) (run : EngineRun) (s : State) : State :=
  let reset := resetsMeters s p
  let s := runKernel p k reset (startRamps (engineOf s p) p (applyParams p s))
  let e := engineOf s p
  putEngine s p { e with
    skips := 0, silent := false
    glyphMissing := sat32 e.glyphMissing run.glyphMissing, dmaBytes := sat48 e.dmaBytes run.dmaBytes }

def engineInvocation (p : Nat) (run : EngineRun) (s : State) : State :=
  match runningKernel s p with
  | some k => if run.finished then runInvocation p k run s else skipInvocation p k s
  | none => s

/-- ENGINE_INVOCATION (R342). -/
def execEngineInvocation (p : Fin 128) (run : EngineRun) (s : State) : Host.Outcome State Fault Refusal :=
  .next (engineInvocation p.val run s)

end Sys2Proof.Machine
end

