-- ==== Sys2Proof/Machine/Tables.lean ====
section
/-! DEFINITION. Tables.lean: 12-bit linear codes, and the default pre-blend and post-blend tables for SDR, PQ and HLG
(R320, R321). -/

namespace Sys2Proof.Machine

/-! ## Linear codes (R320) -/

/-- Value of a 12-bit linear code: exponent in [11:7], mantissa in [6:0]. -/
def linearValue (c : Nat) : Rat :=
  let e := c / 128
  let m := c % 128
  if e = 0 then (m : Rat) / 2 ^ 23 else ((128 + m) * 2 ^ (e - 1) : Nat) / (2 ^ 23 : Rat)

/-- The nearest 12-bit code to a linear value, ties to even, clamped to 0 to 0xFFF (R321). -/
def nearestCode (v : Rat) : Nat :=
  let below := ((List.range 4096).filter (fun c => decide (linearValue c ≤ v))).length
  if below = 0 then 0
  else if below = 4096 then 4095
  else
    let lo := below - 1
    let down := v - linearValue lo
    let up := linearValue below - v
    if down < up then lo else if up < down then below else if lo % 2 = 0 then lo else below

/-! ## Transfer functions

The light of a signal value E (0 = black, 1 = nominal white of the narrow range) in units in which code 0x880 is 1.0.
Each is decided against a level t; the roots and the exponential that PQ and HLG need are taken to 64 fraction bits.
(PRESUMED, log entry 192.) -/

/-- The greatest multiple of 2⁻⁶⁴ up to 2 whose power n is at most x, bit by bit. -/
def rootBits (n : Nat) (x : Rat) : Nat → Rat → Rat
  | 0, r => r
  | k + 1, r =>
    let more := r + 2 ^ k / 2 ^ 64
    rootBits n x k (if more ^ n ≤ x then more else r)
def root (n : Nat) (x : Rat) : Rat := rootBits n x 65 0

/-- e^x from the first 48 terms of its series. -/
def expSeries (x : Rat) : Rat :=
  ((List.range 48).foldl (fun (a : Rat × Rat) k => (a.1 + a.2, a.2 * x / (k + 1))) (0, 1)).1

/-- SDR: BT.1886 with a gamma of 2.4; E = 1 is 1.0. (PRESUMED, log entry 192.) -/
def sdrReaches (e t : Rat) : Bool := decide (t ≤ 0) || decide (0 ≤ e ∧ t ^ 5 ≤ e ^ 12)

/-- PQ of BT.2100: 10,000 cd/m² at E = 1, and 203 cd/m² is 1.0. (PRESUMED, log entry 192.) -/
def pqReaches (e t : Rat) : Bool :=
  let c1 : Rat := 3424 / 4096
  let c2 : Rat := 2413 / 128
  let c3 : Rat := 2392 / 128
  let z := root 2523 (e ^ 32)
  let w := (z - c1) / (c2 - c3 * z)
  decide (t ≤ 0) || decide (0 < e ∧ c1 < z ∧ (203 * t / 10000) ^ 1305 ≤ w ^ 8192)

/-- HLG of BT.2100 on a 1,000 cd/m² display, for equal components: the inverse OETF, and the system gamma of 1.2;
203 cd/m² is 1.0. (PRESUMED, log entry 192.) -/
def hlgReaches (e t : Rat) : Bool :=
  let a : Rat := 17883277 / 100000000
  let scene := if 2 * e ≤ 1 then e ^ 2 / 3 else (expSeries ((e - 55991073 / 100000000) / a) + (1 - 4 * a)) / 12
  decide (t ≤ 0) || decide (0 ≤ e ∧ (203 * t / 1000) ^ 5 ≤ scene ^ 6)

/-- Table 1 = SDR, 2 = PQ, 3 = HLG: the light of E is at least t. (PRESUMED, log entry 192.) -/
def reaches (table : Nat) (e t : Rat) : Bool :=
  if table = 2 then pqReaches e t else if table = 3 then hlgReaches e t else sdrReaches e t

/-! ## The default tables -/

/-- Default pre-blend table: the linear code nearest to the light of a 10-bit narrow-range code (R320, R321).
(PRESUMED, log entry 192.) -/
def preTable (table code : Nat) : Nat :=
  let e := ((code : Rat) - 64) / 876
  ((List.range 4095).filter (fun c => reaches table e ((linearValue c + linearValue (c + 1)) / 2))).length

/-- Default post-blend table, its inverse: the 12-bit narrow-range code nearest to the signal of a linear code, from
black up (R320, R321). (PRESUMED, log entry 192.) -/
def postTable (table code : Nat) : Nat :=
  256 + ((List.range 3839).filter (fun k =>
    !reaches table (((k : Rat) + 1 / 2) / 3504) (linearValue code))).length

end Sys2Proof.Machine
end

