-- ==== Sys2Proof/Machine/Pixels.lean ====
section
/-! DEFINITION. Pixels.lean: the picture of a head, pixel by pixel, as its layers, tables and vitrines
stand: scaling, linear light, keys and blending, and its presentation (R308, R311, R312, R314, R320, R321). -/

namespace Sys2Proof.Machine

/-! ## Y′CbCr and R′G′B′ (R321) -/

/-- Luma weights of red and blue: BT.2020, or BT.709. (PRESUMED, log entry 177.) -/
def lumaWeights (wide : Bool) : Rat × Rat :=
  if wide then (2627 / 10000, 593 / 10000) else (2126 / 10000, 722 / 10000)

/-- A picture sample: Y, Cb and Cr, 10 bits. -/
abbrev Sample := Nat × Nat × Nat

/-- 10-bit Y′CbCr to R′G′B′ as narrow-range 10-bit codes, clipped to 0 to 1,023. -/
def toRgb (wide : Bool) (p : Sample) : List Nat :=
  let (kr, kb) := lumaWeights wide
  let y : Rat := (((p.1 : Int) - 64 : Int) : Rat) / 876
  let cb : Rat := (((p.2.1 : Int) - 512 : Int) : Rat) / 896
  let cr : Rat := (((p.2.2 : Int) - 512 : Int) : Rat) / 896
  let r := y + 2 * (1 - kr) * cr
  let b := y + 2 * (1 - kb) * cb
  let g := (y - kr * r - kb * b) / (1 - kr - kb)
  [r, g, b].map (fun v => (min 1023 (max 0 (roundRat (64 + 876 * v)))).toNat)

/-- 12-bit narrow-range R′G′B′ to Y′CbCr, rounded to 10 bits and clipped to 4 to 1,019. -/
def toSample (wide : Bool) (rgb : List Nat) : Sample :=
  let (kr, kb) := lumaWeights wide
  let part := fun (i : Nat) => (((rgb.getD i 0 : Int) - 256 : Int) : Rat) / 3504
  let y := kr * part 0 + (1 - kr - kb) * part 1 + kb * part 2
  let clip := fun (v : Rat) => (min 1019 (max 4 (roundRat v))).toNat
  (clip (64 + 876 * y), clip (512 + 896 * ((part 2 - y) / (2 * (1 - kb)))),
    clip (512 + 896 * ((part 0 - y) / (2 * (1 - kr)))))

/-! ## Tables and matrices (R313, R322) -/

/-- A word of a loaded table; a table never loaded holds `none`. -/
def loadedWord (s : State) (h target i : Nat) : Option (BitVec 16) :=
  (tfind s.comp.tables (33 * h + target)).map (fun t => t.getD i 0)

/-- Pre-blend LUT of a layer: LOADED (never loaded: default SDR) or a default table. -/
def preLut (s : State) (h l sel : Nat) (component code : Nat) : Nat :=
  if sel = 0 then
    match loadedWord s h l (1024 * component + code) with
    | some w => w.toNat % 4096
    | none => preTable 1 code
  else preTable sel code

/-- Post-blend LUT of a head. -/
def postLut (s : State) (h : Nat) (component code : Nat) : Nat :=
  let sel := (headCfg s h).postLut
  if sel = 0 then
    match loadedWord s h 32 (4096 * component + code) with
    | some w => w.toNat % 4096
    | none => postTable 1 code
  else postTable sel code

/-- Coefficient of a layer's matrix, in 2⁻¹³: 0 = IDENTITY, 1 and 2 the catalogue's, 3 = LOADED. -/
def matrixTerm (s : State) (h l sel i : Nat) : Int :=
  let unit : Int := if i % 4 = 0 then 8192 else 0
  match sel with
  | 1 => Config.colourMatrix 1 i
  | 2 => Config.colourMatrix 2 i
  | 3 => match loadedWord s h (16 + l) i with | some w => w.toInt | none => unit
  | _ => unit

/-- A layer's matrix on linear values; negative results are set to 0 (R321). -/
def layerMatrix (s : State) (h l sel : Nat) (v : List Rat) : List Rat :=
  (List.range 3).map (fun r =>
    max 0 ((List.range 3).foldl (fun a c => a + ((matrixTerm s h l sel (3 * r + c) : Rat) / 8192) * v.getD c 0) 0))

/-! ## What a layer follows (R313) -/

/-- Colorimetry of a video layer, by the payload ID of what it shows: BT.2020 or BT.709. -/
def layerWide (c : VideoLayerCfg) (pid : Word) : Bool :=
  match c.inColorimetry with
  | 1 => false
  | 2 => true
  | _ => Config.pidColorimetry pid != 0

/-- Pre-blend table of a video layer. -/
def videoTable (c : VideoLayerCfg) (pid : Word) : Nat := if c.preLut = 4 then Config.pidTransfer pid else c.preLut

/-- Matrix of a video layer: FOLLOW is the conversion to OUT_COLORIMETRY. -/
def videoMatrix (s : State) (h : Nat) (c : VideoLayerCfg) (pid : Word) : Nat :=
  let wide := (headCfg s h).outColorimetry == 1
  if c.matrix = 4 then (if layerWide c pid == wide then 0 else if wide then 1 else 2) else c.matrix

/-! ## Layers at a pixel (R311, R312, R321) -/

/-- A raster pixel lies in a video layer's visible window. -/
def inVideoWindow (s : State) (h l : Nat) (x y : Nat) : Bool :=
  let c := (videoLayer s h l).cfg
  let f := (headCfg s h).format
  inBox x y c.x c.y c.w c.h && decide (x < formatWidth f ∧ y < (formatLines f).1)

/-- The sample that a video layer brings to a raster pixel in the output frame of hang m, with the payload ID that it
follows: its tile's, or STANDBY_FILL; none where the layer is transparent: outside its visible window, and under RATIO
where the scaled crop does not cover it (R311, R314, R316, R319). -/
def layerPixel (s : State) (h : Nat) (m : Word) (x y l : Nat) : Option (Sample × Word) :=
  let v := videoLayer s h l
  let c := v.cfg
  if !c.enable || !inVideoWindow s h l x y then none
  else
    let (wx, wy) := (((x : Int) - c.x).toNat, ((y : Int) - c.y).toNat)
    match rowSlot v m (headStep s h) (tileRowAt c y) with
    | some t =>
      if coveredX t.cfg t.format wx && coveredY t.cfg t.format wy then some (tileSample t wx wy, t.pid) else none
    | none => some ((c.fillY, c.fillCb, c.fillCr), v.pid)

/-- Key alpha of a video layer at a pixel, from the Y of its key layer. (DESIGN CHOICE, log entry 95.) -/
def keyAlpha (s : State) (h l : Nat) (pixel : Nat → Option (Sample × Word)) : Rat :=
  let c := (videoLayer s h l).cfg
  match c.keyLayer with
  | none => 1
  | some k =>
    match pixel k with
    | none => 0
    | some p =>
      let v : Rat := ((p.1.1 : Int) - c.keyLow : Int)
      min 1 (max 0 (v / (((c.keyHigh : Int) - c.keyLow : Int) : Rat)))

/-- Alpha and linear components of a video layer at a pixel, from the samples of the video layers there. -/
def videoAt (s : State) (h l : Nat) (pixel : Nat → Option (Sample × Word)) : Rat × List Rat :=
  let c := (videoLayer s h l).cfg
  match (if c.visible then pixel l else none) with
  | none => (0, [0, 0, 0])
  | some (p, pid) =>
    let rgb := toRgb (layerWide c pid) p
    let lin := (rgb.zipIdx).map (fun e => linearValue (preLut s h l (videoTable c pid) e.2 e.1))
    ((c.alpha : Rat) / 1023 * keyAlpha s h l pixel, layerMatrix s h l (videoMatrix s h c pid) lin)

/-- The 10-bit narrow-range code of a graphic component (R321). -/
def graphicCode (rgb10 : Bool) (c : Nat) : Nat :=
  let v := if rgb10 then c else 4 * c + c / 64
  (64 + roundRat ((876 * v : Nat) / (1023 : Rat))).toNat

/-- Alpha and linear components of a graphic layer at a pixel. -/
def graphicAt (s : State) (h l : Nat) (x y : Int) : Rat × List Rat :=
  let g := graphicLayer s h l
  let c := g.cfg
  if !c.enable || g.isolated || !inBox x y c.x c.y c.w c.h then (0, [0, 0, 0])
  else
    let p := pixelAt s.eng.paint ((4 * h + l - 12) * 16 + g.displayed) (x - c.x) (y - c.y)
    let lin := (List.range 3).map (fun i =>
      linearValue (preLut s h l c.preLut i (graphicCode c.rgb10 (pixelPart c.rgb10 p i))))
    ((c.alpha : Rat) / 1023 * ((pixelPart c.rgb10 p 3 : Rat) / partMax c.rgb10 3),
      layerMatrix s h l c.matrix lin)

/-- Z of layer l of a head. -/
def layerZ (s : State) (h l : Nat) : Nat :=
  if l < 12 then (videoLayer s h l).cfg.z else (graphicLayer s h l).cfg.z

/-- The layers of a head in rising Z. -/
def layerOrder (s : State) (h : Nat) : List Nat :=
  ((List.range 16).map (fun z => (List.range 16).filter (fun l => layerZ s h l == z))).flatten

/-- BACKGROUND in linear light: the default table that matches OUT_TRANSFER, and no matrix. -/
def backgroundLinear (s : State) (h : Nat) : List Rat :=
  let c := headCfg s h
  (toRgb (c.outColorimetry == 1) (c.backY, c.backCb, c.backCr)).map
    (fun code => linearValue (preTable (c.outTransfer + 1) code))

/-- One blend: C ← α × L + (1 − α) × C for each component (R311). (DESIGN CHOICE, log entry 95.) -/
def blendLayer (back : List Rat) (top : Rat × List Rat) : List Rat :=
  (back.zip top.2).map (fun e => top.1 * e.2 + (1 - top.1) * e.1)

/-- The linear components of a head at a pixel, from the samples of its video layers. -/
def blendedAt (s : State) (h x y : Nat) (pixel : Nat → Option (Sample × Word)) : List Rat :=
  (layerOrder s h).foldl (fun c l =>
    blendLayer c (if l < 12 then videoAt s h l pixel else graphicAt s h l x y)) (backgroundLinear s h)

/-- The output sample of a head at a pixel, before the filter to 4:2:2 (R321).
(DESIGN CHOICE, log entry 95.) -/
def headPixel (s : State) (h x y : Nat) (pixel : Nat → Option (Sample × Word)) : Sample :=
  let codes := (blendedAt s h x y pixel).map nearestCode
  toSample ((headCfg s h).outColorimetry == 1) (codes.zipIdx.map (fun e => postLut s h e.2 e.1))

/-! ## Presentation (R308, R317, R321) -/

/-- Line y of a head's picture of hang m: 4:4:4 samples, and chroma brought down to 4:2:2. -/
def headLine (s : State) (h : Nat) (m : Word) (y : Nat) : List (BitVec 10) :=
  let w := formatWidth (headCfg s h).format
  let px := (List.range w).map (fun x => headPixel s h x y (layerPixel s h m x y))
  let cb := px.map (fun p => p.2.1)
  let cr := px.map (fun p => p.2.2)
  (List.range (w / 2)).flatMap (fun k =>
    [Config.chromaDown cb k, (px.getD (2 * k) (64, 512, 512)).1, Config.chromaDown cr k,
      (px.getD (2 * k + 1) (64, 512, 512)).1].map (BitVec.ofNat 10))

/-- The picture of a head's output frame that carries hang m. -/
def headPicture (s : State) (h : Nat) (m : Word) : List PicLine :=
  let f := (headCfg s h).format
  (pictureLines f).map (fun l =>
    let y := if (formatLines f).2 = 0 then l.2 - 1 else 2 * (l.2 - 1) + bit l.1
    { second := l.1, line := l.2, samples := headLine s h m y })

/-- An enabled head at its presentation point: it presents the output frame that carries hang m, and its source becomes
usable at the first (R308, R309). -/
def presentHead (h : Nat) (m : Word) (s : State) : State :=
  let layers := (List.range 12).filter (fun l => (videoLayer s h l).cfg.enable)
  let s := layers.foldl (fun s l => showLayer h l m s) s
  let v := headOf s h
  let s := if v.showing then s else offerHead h (putHead s h { v with showing := true })
  presentFrame (1696 + h) { pid := headPid (headCfg s h), lines := headPicture s h m } s

/-- Extension units that a head needs no longer are returned (R317). -/
def trimHead (h : Nat) (s : State) : State :=
  let units := extensionUnits (headTiles s h s.comp.staged)
  if units < (headOf s h).extension then setExtension h units s else s

/-- Apply a function to each video layer of some heads. -/
def eachLayer (heads : List Nat) (f : Nat → Nat → State → State) (s : State) : State :=
  heads.foldl (fun s h => (List.range 12).foldl (fun s l => f h l s) s) s

/-- PP of hang n of a family. The layer frames of the hang before end and the heads present them, each with its settings
of that hang; then the layer settings of hang n apply, and its layer frames start from the source frames that have begun
(R309, R316, R317, R323). (DEDUCED, log entry 174.) (DEDUCED, log entry 87.) -/
def compPresent (fam : Nat) (n : Word) (s : State) : State :=
  let heads := (headsOf s fam).filter (fun h => headFrameAt s h n)
  let s := eachLayer heads closeFrame s
  let s := (heads.filter (fun h => (headCfg s h).enable)).foldl
    (fun s h => presentHead h (n - BitVec.ofNat 32 (headStep s h)) s) s
  let s := eachLayer heads dropBefore s
  let s := applyStaged (fun c => heads.contains c.head && hangDue n c.hang && isVideoChange c.change)
    (fun _ => n) fam s
  let s := heads.foldl (fun s h => trimHead h s) s
  eachLayer heads (fun h l s => openFrame h l n (judgeFit h l n (judgeWindow h l n s))) s

end Sys2Proof.Machine
end

