-- ==== Sys2Proof/Machine/Hangs.lean ====
section
/-! DEFINITION. Hangs.lean: the events of a rate family: cutoff, switch point, hang boundary and
presentation point (R120, R139, R140, R146 to R152, R169, R173, R277, R278, R288). -/

namespace Sys2Proof.Machine

/-! ## CUTOFF (R152, R288) -/

/-- A hang number that a computed realignment of the next boundary skips (R278).
(DEDUCED, log entry 54.) -/
def skipped (s : State) (fam : Nat) (x : Word) : Bool :=
  let f := familyOf s fam
  match f.realign with
  | some r => r.target == f.hang + 1 && r.computed.isSome && notEarlier x r.target
      && later (nextNumber s fam f.hang) x
  | none => false

/-- An entry that is loaded at the cutoff of the next hang of a family. (DEDUCED, log entry 54.) -/
def loadsAt (s : State) (fam : Nat) (n : Word) (e : Entry) : Bool :=
  e.family == fam && (match e.aim with | .hang x => x == n || skipped s fam x | .held _ => false)

/-- The entry as it is loaded: one that targeted a skipped number hangs late (R278). -/
def loadedEntry (n : Word) (e : Entry) : Entry :=
  if e.aim = .hang n then e else { e with aim := .hang n, late := true }

/-- Load the entry of a destination into its shadow selection, and free it (R152).
(DEDUCED, log entry 49.) -/
def loadShadow (m : Matrix) (fam : Nat) (n : Word) (d : Nat) (s : State) : State :=
  let v := destOf s m d
  match v.staged.find? (loadsAt s fam n) with
  | none => s
  | some e =>
    putDest s m d { v with
      staged := v.staged.filter (fun x => !loadsAt s fam n x), shadow := some (loadedEntry n e), ready := false }

/-- The numbers of a matrix's listed destinations. -/
def listed (s : State) (m : Matrix) : List Nat := (destsOf s m).map (fun e => e.1)

def loadMatrix (m : Matrix) (fam : Nat) (n : Word) (s : State) : State :=
  (listed s m).foldl (fun s d => loadShadow m fam n d s) s

/-- Put a fade in the order in which its entry was staged. -/
def insertFade (x : Nat × Nat) : List (Nat × Nat) → List (Nat × Nat)
  | [] => [x]
  | y :: r => if x.1 < y.1 then x :: y :: r else y :: insertFade x r

/-- Channels whose loaded take is a V_FADE, in the order in which their entries were staged. -/
def fadesLoaded (s : State) (fam : Nat) (n : Word) : List Nat :=
  (s.mtx.audio.foldl (fun l e =>
    match e.2.shadow with
    | some x => if x.family = fam ∧ x.aim = .hang n ∧ x.fade ≠ 0 then insertFade (x.take, e.1) l else l
    | none => l) []).map (fun x => x.2)

/-- Reserve a place for a fade; without one it becomes a CUT. That of a fade that runs on the channel goes over to it,
also where the running fade ends before s0 (R287, R288, R289). -/
def reserveFade (s : State) (c : Nat) : State :=
  if (tfind s.aud.reservedFades c).isSome then s
  else
    match ((tfind s.aud.fades c).map (fun f => f.engine)).or (freeFadeEngine s) with
    | some p => { s with aud := { s.aud with reservedFades := tput s.aud.reservedFades c p } }
    | none =>
      let v := destOf s .audio c
      let s := putDest s .audio c { v with shadow := v.shadow.map (fun e => { e with fade := 0 }) }
      note 0x09 17 { s with aud := { s.aud with fadeDowngraded := sat32 s.aud.fadeDowngraded 1 } }

/-- A new CUTOFF applies from the next cutoff on (R137). (DEDUCED, log entry 53.) -/
def adoptCutoff (fam : Nat) (s : State) : State :=
  let f := familyOf s fam
  match f.newCutoff with
  | some (c, _) =>
    let s := putFamily s fam { f with newCutoff := none }
    { s with set := { s.set with
        families := tset familyCfgDefault s.set.families fam { familyCfg s fam with cutoff := c } } }
  | none => s

/-- The cutoff of the next hang of a family. -/
def doCutoff (fam : Nat) (s : State) : State :=
  let n := nextNumber s fam (familyOf s fam).hang
  let s := { s with mtx := { s.mtx with counts := s.mtx.counts.map (fun c =>
      if c.family = fam ∧ skipped s fam c.hang then { c with hang := n, late := true } else c) } }
  let s := loadMatrix .audio fam n (loadMatrix .anc fam n (loadMatrix .video fam n s))
  let s := putFamily s fam { familyOf s fam with cutoffPassed := true }
  adoptCutoff fam ((fadesLoaded s fam n).foldl reserveFade s)

/-- CUTOFF (R152). -/
def execCutoff (fam : Fin 4) (s : State) : Host.Outcome State Fault Refusal :=
  .next (if familyOn s fam.val && !(familyOf s fam.val).cutoffPassed then doCutoff fam.val s else s)

/-! ## SWITCH_POINT (R146 to R149, R152) -/

/-- The frame of a loaded hang has begun, or begins within 100 µs before ref(N) (R146). -/
def frameBegun (s : State) (e : Entry) : Bool :=
  let f := familyOf s e.family
  match e.aim with
  | .held _ => false
  | .hang n =>
    !later n f.hang ||
      (nextNumber s e.family f.hang == n &&
        decide (f.boundary + periodRoot (familyRate s e.family) ≤ rootNow s + 475200))

/-- The frame of a loaded hang has begun at a destination. The frames of a container destination are those of its
source: of a fabric source the frame of hang N is the one whose FRAME_START announces it (R146, R150). -/
def frameReached (s : State) (d : Nat) (source : Option Nat) (e : Entry) : Bool :=
  match source, e.aim with
  | some n, .hang h =>
    if d < 1280 ∧ n < 1280 ∧ sourceUsable s n ∧ (fabricSource s n).family = e.family then
      !later h (fabricSource s n).hang
    else frameBegun s e
  | _, _ => frameBegun s e

/-- Line of an SDI output's raster that leaves now, counted from 1 (R125). -/
def outputLine (s : State) (e : Nat) : Nat :=
  let o := sdiOutOf s e
  let at' := (rootToUnits (rootNow s) - o.startAt).toNat
  at' * 594 * formatTotalLines o.current / framePeriod594 o.current + 1

/-- A switch point of an SDI output may act: the frame in progress has not passed into its second field, in which
there are none; the output carries the new source from the switching line on (R147). -/
def fieldOne (s : State) (e : Nat) : Bool :=
  let o := sdiOutOf s e
  let (_, scan) := formatLines o.current
  !o.running || scan == 0 ||
    decide ((rootToUnits (rootNow s) < o.startAt) ∨ 2 * outputLine s e ≤ formatTotalLines o.current + 1
      ∨ formatTotalLines o.current < outputLine s e)

/-- Move a loaded ancillary selection to active; packets on the lines of an output's frame before its switching
line stay those of the old source (R148). (DEDUCED, log entry 50.) -/
def switchAnc (d : Nat) (s : State) : State :=
  let v := destOf s .anc d
  match v.shadow with
  | some e =>
    if frameReached s d (destOf s .video d).active e then markHung e (putDest s .anc d { v with active := e.source, shadow := none }) else s
  | none => s

/-- A loaded audio selection whose frame has begun switches with the next grid period (R149).
(DEDUCED, log entry 50.) -/
def readyChannel (s : State) (c : Nat) : State :=
  let v := destOf s .audio c
  match v.shadow with
  | some e =>
    let d := (assocDest s c).getD videoDests
    if frameReached s d (destOf s .video d).active e then putDest s .audio c { v with ready := true } else s
  | none => s

/-- Move a loaded video selection to active; whether one hung (R152, R172, R173).
(DEDUCED, log entry 50.) -/
def switchVideo (d : Nat) (s : State) : State × Bool :=
  let v := destOf s .video d
  match v.shadow with
  | none => (s, false)
  | some e =>
    if !frameReached s d (match e.kind with | .take => e.source | .protect .. => v.active) e then (s, false)
    else
      let r := { destRun s d with onProtection := false }
      let s := match e.kind with
        | .take => putDestRun (putDest s .video d { v with active := e.source, shadow := none }) d
          (match e.prot with
            | some (src, .protect revert follow wtr) =>
              { r with protSource := src, revert := revert, followAudio := follow, wtr := wtr }
            | _ => r)
        | .protect revert follow wtr =>
          putDestRun (putDest s .video d { v with shadow := none }) d
            { r with protSource := e.source, revert := revert, followAudio := follow, wtr := wtr }
      (markHung e s, true)

/-- Set the active selection of an audio channel; a running fade ends. (DEDUCED, log entry 51.) -/
def setChannel (s : State) (x : Nat × Option Nat) : State :=
  let s := { s with aud := { s.aud with fades := tdel s.aud.fades x.1 } }
  putDest s .audio x.1 { destOf s .audio x.1 with active := x.2 }

/-- The ancillary destination, and with FOLLOW_AUDIO the run, take the source of a protection switch
(R172, R173). (DEDUCED, log entry 51.) -/
def followProtection (d : Nat) (src : Option Nat) (s : State) : State :=
  let s := putDest s .anc d { destOf s .anc d with active := src }
  if (destRun s d).followAudio then (runMoves s d src).foldl setChannel s else s

/-- A protection switch, counted and raised (R173, R181). (DEDUCED, log entry 51.) -/
def protectSwitch (d : Nat) (on : Bool) (src : Option Nat) (s : State) : State :=
  let s := putDestRun s d { destRun s d with onProtection := on }
  let s := followProtection d src s
  note 0x04 5 { s with mtx := { s.mtx with protectSwitches := sat32 s.mtx.protectSwitches 1 } }

/-- A source can be shown at a destination. -/
def usableAt (s : State) (d : Nat) (src : Option Nat) : Bool :=
  match src with | some n => !lostAt s d n | none => false

/-- The primary has been usable without interruption for WTR (R173). -/
def restored (s : State) (d : Nat) (src : Option Nat) : Bool :=
  match src with
  | some n => !lostAt s d n &&
      decide ((destRun s d).wtr * 594000000 ≤ (s.time.count - (sourceOf s n).usableSince).toNat)
  | none => false

/-- Protection at a switch point at which no take hung (R173); without FALLBACK = PROTECT the protection source is
not in effect, and the destination is back on its primary (R172). -/
def protectAt (d : Nat) (s : State) : State :=
  let r := destRun s d
  let primary := (destOf s .video d).active
  if (destCfg s d).fallback ≠ 1 then
    if r.onProtection then followProtection d primary (putDestRun s d { r with onProtection := false }) else s
  else if r.onProtection then
    if r.revert && restored s d primary then protectSwitch d false primary s else s
  else if r.inFallback && !usableAt s d primary && usableAt s d r.protSource then
    protectSwitch d true r.protSource s
  else s

/-- The ancillary selection of an SDI output's frame before the switch that it holds (R148). -/
def keepAncBefore (d : Nat) (old : Option Nat) (s : State) : State :=
  let e := d - 1280
  let o := sdiOutOf s e
  if 1280 ≤ d ∧ d < 1440 ∧ o.running ∧ o.ancBefore = none ∧ (destOf s .anc d).active ≠ old then
    putSdiOut s e { o with ancBefore := some old }
  else s

/-- The frame in progress of source n is the frame of its hang at a container destination: of a fabric source of the
family by the hang that it announced, else by its start, 100 µs before the boundary or later (R146). -/
def inHangFrame (s : State) (d n : Nat) : Bool :=
  let fam := destFamily s d
  let next := (familyOf s fam).boundary + periodRoot (familyRate s fam)
  let ref := if next ≤ rootNow s + 475200 then next else (familyOf s fam).boundary
  (n < 1280 && (fabricSource s n).family == fam) || decide (ref ≤ (essenceOf s n).beganAt + 475200)

/-- A container destination whose switch comes after its new source has begun the frame takes that frame from its start
(R146). -/
def joinFrame (d : Nat) (hung : Bool) (s : State) : State :=
  match shownSource s d with
  | some n =>
    if hung && (sendingContainers s n).contains d && inHangFrame s d n then resumeFrame d n s else s
  | none => s

/-- The switch point of a video destination; its ancillary destination and its run switch with it. -/
def switchDest (d : Nat) (s : State) : State :=
  let old := (destOf s .anc d).active
  let s := applyPendingDest d s
  let (s, hung) := switchVideo d s
  let s := switchAnc d s
  let s := (runChannels (destAudio s d)).foldl readyChannel s
  let s := if hung then s else protectAt d s
  let s := joinFrame d hung (keepAncBefore d old (judgeAtSwitch d s))
  sendDue (if 1280 ≤ d ∧ d < 1440 then followFormat (d - 1280) s else s)

/-- A destination's switch point can come now (R147). -/
def switchesNow (s : State) (d : Nat) : Bool := !decide (1280 ≤ d ∧ d < 1440) || fieldOne s (d - 1280)

/-- SWITCH_POINT (R147, R152). -/
def execSwitchPoint (mx : Matrix) (dest : Fin 32768) (s : State) : Host.Outcome State Fault Refusal :=
  .next (match mx with
    | .video => if dest.val < videoDests ∧ switchesNow s dest.val then switchDest dest.val s else s
    | .anc =>
      if dest.val < videoDests ∧ switchesNow s dest.val then
        sendDue (keepAncBefore dest.val (destOf s .anc dest.val).active (switchAnc dest.val s))
      else s
    | .audio => readyChannel s dest.val)

/-! ## HANG_BOUNDARY (R139, R140, R277, R278) -/

/-- Shift and number of a realignment, computed at ref(M − 1) (R277). -/
def computeRealign (s : State) (fam : Nat) (r : Realign) : Int × Word :=
  let f := familyOf s fam
  let rate := familyRate s fam
  let p : Int := periodRoot rate
  let ref := f.boundary + p
  if r.source = 0 then
    let i := nearestIndex s.time.triple rate ref
    (boundaryRoot s.time.triple rate i - ref, BitVec.ofInt 32 i)
  else
    let d := (-(candidateOf s (r.source - 1)).fpOffset) % p
    ((if 2 * d ≤ p then d else d - p), r.target)

/-- At ref(M − 1) the realignment is computed. (DEDUCED, log entry 54.) -/
def prepareRealign (fam : Nat) (s : State) : State :=
  let f := familyOf s fam
  match f.realign with
  | some r =>
    if r.target = f.hang + 1 ∧ r.computed.isNone then
      putFamily s fam { f with realign := some { r with computed := some (computeRealign s fam r) } }
    else s
  | none => s

/-- The frame of hang M − 1 that the running SDI outputs of a family have in progress ends at the moved boundary (R278). -/
def shiftOutputs (fam : Nat) (d : Int) (s : State) : State :=
  { s with sdi := { s.sdi with outputs := s.sdi.outputs.map (fun e =>
      if e.2.running && (sdiOutCfg s e.1).family == fam then (e.1, { e.2 with shift := d }) else e) } }

/-- The boundary and its number; a computed realignment moves it. -/
def advanceFamily (fam : Nat) (s : State) : State :=
  let f := familyOf s fam
  let f := { f with cutoffPassed := false }
  let b : Int := f.boundary + periodRoot (familyRate s fam)
  match f.realign with
  | some { target := m, computed := some (d, n), .. } =>
    if m = f.hang + 1 then
      putFamily (shiftOutputs fam d s) fam { f with
        boundary := b + d, hang := n, realign := none, realigns := sat32 f.realigns 1, lastShift := d, lastNumber := n
        stepped := false }
    else putFamily s fam { f with boundary := b, hang := f.hang + 1 }
  | _ => putFamily s fam { f with boundary := b, hang := f.hang + 1 }

/-- Loaded channels of no run switch at ref(N) (R149). -/
def readyLoose (fam : Nat) (s : State) : State :=
  (listed s .audio).foldl (fun s c =>
    match (destOf s .audio c).shadow with
    | some e => if e.family = fam ∧ (assocDest s c).isNone then readyChannel s c else s
    | none => s) s

/-- A boundary of a family starts. -/
def doBoundary (fam : Nat) (s : State) : State :=
  let s := prepareRealign fam (advanceFamily fam s)
  let f := familyOf s fam
  let s := setAligned fam false (isAligned s (familyRate s fam) f.boundary f.hang && !f.stepped) s
  let s := settleHang fam f.hang (raiseIrq (irqHang fam) s)
  let s := pulseOutputs fam (readyLoose fam s)
  sendDue (applySettings fam f.hang s)

/-- HANG_BOUNDARY (R139). -/
def execHangBoundary (fam : Fin 4) (s : State) : Host.Outcome State Fault Refusal :=
  .next (if familyOn s fam.val then doBoundary fam.val s else s)

/-! ## PRESENTATION_POINT (R120, R122, R146, R198, R308) -/

/-- Destinations of a family with settings that wait for its frame start (R167). -/
def applyPendingDests (fam : Nat) (s : State) : State :=
  (s.mtx.destRun.map (fun e => e.1)).foldl (fun s d => if destFamily s d = fam then applyPendingDest d s else s) s

/-- A frame synchronizer's frame leaves with its ancillary data and its audio; at a seam the audio starts anew
(R121). (DESIGN CHOICE, log entry 149.) -/
def presentStored (e : Nat) (anew : Bool) (f : MediaFrame) (s : State) : State :=
  let n := sdiSource e
  let s := presentFrame n f s
  let s := if anew then putEssence s n { essenceOf s n with audio := [] } else s
  f.audio.foldl (fun s a => presentSamples n a.1 a.2 s) s

/-- The audio of a frame that is presented again: silence in every channel (R121). -/
def silenced (f : MediaFrame) : MediaFrame :=
  { f with audio := f.audio.map (fun a => (a.1, a.2.map (fun _ => 0))) }

/-- The audio of a frame after a repeat or a drop: each channel but a non-audio one fades in (R121). -/
def fadedIn (s : State) (e : Nat) (f : MediaFrame) : MediaFrame :=
  { f with audio := f.audio.map (fun a => (a.1, if sdiNonAudio s e a.1 then a.2 else fadeIn a.2)) }

/-- Frozen: the last complete frame again, with no ancillary data and no audio (R122). (DEDUCED, log entry 41.) -/
def presentFrozen (e : Nat) (s : State) : State :=
  let i := sdiInOf s e
  let f := if i.completed = 0 then i.shown else i.stored
  presentFrame (sdiSource e) { f with anc := [], audio := [] } (putSdiIn s e { i with completed := 0, shown := f })

/-- No frame has been completed since the last PP: the frame presented at it is presented again (R120, R121). -/
def presentAgain (e : Nat) (s : State) : State :=
  let s := putSdiIn s e { sdiInOf s e with seam := true }
  presentStored e true (silenced (sdiInOf s e).shown)
    (countSdiIn e (fun c => { c with repeats := sat32 c.repeats 1 }) s)

/-- The newest complete frame is presented; older ones are dropped. The first one after a stable detect makes the
source usable; of a frozen source with another payload ID it is a change of format at every destination (R120 to
R122). (DEDUCED, log entry 40; DEDUCED, log entry 41.) -/
def presentNewest (e : Nat) (s : State) : State :=
  let i := sdiInOf s e
  let n := sdiSource e
  let first := i.usablePending
  let s := putSdiIn s e { i with completed := 0, usablePending := false, frozen := false, haveFrame := true
                                 shown := i.stored, seam := false }
  let s := if first then
      let s := if i.frozen && (sourceOf s n).pid != i.pid then loseSource n s else s
      gainSource n (i.detected.getD 0) (sdiInCfg s e).family i.pid s
    else countSdiIn e (fun c => { c with drops := sat32 c.drops (i.completed - 1) }) s
  let anew := i.seam || first || decide (1 < i.completed)
  presentStored e anew (if i.seam || decide (1 < i.completed) || i.frozen then fadedIn s e i.stored else i.stored) s

/-- A frame synchronizer at PP (R120, R122). (DEDUCED, log entry 40; DEDUCED, log entry 41.) -/
def presentSync (e : Nat) (s : State) : State :=
  let i := sdiInOf s e
  if i.frozen && (i.state != .usable || i.completed == 0) then presentFrozen e s
  else if i.completed = 0 then (if i.usablePending then s else presentAgain e s)
  else presentNewest e s

/-- The frame synchronizers of a family: usable or frozen FRAMESYNC inputs whose format starts a frame now. -/
def presentSyncs (fam : Nat) (n : Word) (s : State) : State :=
  (s.sdi.inputs.map (fun e => e.1)).foldl (fun s e =>
    let i := sdiInOf s e
    let c := sdiInCfg s e
    if isSdi s e && c.mode == 2 && c.family == fam && (i.state == .usable || i.frozen)
        && !(isHalf s fam i.detected && n.getLsbD 0) then presentSync e s
    else s) s

/-! ## Record and playback (R19, R165, R169, R391) -/

/-- Channel lists of sample periods. -/
def byChannel (n : Nat) (periods : List (List Word)) : Tab (List Word) :=
  (List.range n).map (fun k => (k, periods.map (fun p => p.getD k 0)))

/-- A playback source of a family presents the frame recorded DELAY frames earlier (R391). (DEDUCED, log entry 57.) -/
def presentPlayback (n : Nat) (s : State) : State :=
  match playFrame s n with
  | some f => f.audio.foldl (fun s a => presentSamples n a.1 a.2 s) (presentFrame n f s)
  | none => s

/-- The frame that a record destination writes: the last one of the source that it shows with that of its
ancillary selection, black in its fallback, none under MUTE or where it knows no format (R16, R169).
(DESIGN CHOICE, log entry 147.) -/
def frameToRecord (s : State) (d : Nat) : Option MediaFrame :=
  let black := ((recordOf s (d - 2080)).head?).map
    (fun f => { pid := f.pid, lines := blackPicture (Config.formatOfPid f.pid) : MediaFrame })
  let v := match shownSource s d with
    | some n =>
      if !(destRun s d).inFallback && !lostAt s d n then some { (essenceOf s n).done with anc := [], audio := [] }
      else if (destCfg s d).fallback = 2 then none else black
    | none => if (destCfg s d).fallback = 2 then none else black
  let anc := match (destOf s .anc d).active with
    | some n => if ancUsable s n then (essenceOf s n).done.anc else []
    | none => []
  let audio := match destAudio s d with
    | some (_, n) => byChannel n (tget (fun _ => []) s.mtx.recordAudio (d - 2080))
    | none => []
  v.map (fun f => { f with anc := anc, audio := audio })

/-- Playback sources of a record slot. -/
def playersOf (s : State) (k : Nat) : List Nat :=
  (s.set.sources.filter (fun e => decide (1760 ≤ e.1) && e.2.playSlot == some k)).map (fun e => e.1)

/-- A record destination writes a frame, of DEPTH kept; a playback source is usable once it has its frame
(R19, R391). (DEDUCED, log entry 57.) -/
def recordFrame (d : Nat) (s : State) : State :=
  let k := d - 2080
  match frameToRecord s d with
  | none => s
  | some f =>
    let had := (playersOf s k).filter (fun n => (playFrame s n).isSome)
    let m := s.mtx
    let s := { s with mtx := { m with
      records := tset (fun _ => []) m.records k ((f :: recordOf s k).take (destCfg s d).depth)
      recordAudio := tput m.recordAudio k [] } }
    ((playersOf s k).filter (fun n => (playFrame s n).isSome && !had.contains n)).foldl
      (fun s n => judgeAll n (putSource s n { sourceOf s n with usableSince := s.time.count })) s

/-- Playback and record destinations of a family at its PP; those of half its rate at even hangs only. -/
def presentRecords (fam : Nat) (n : Word) (s : State) : State :=
  let due := fun (s : State) (f : Option Nat) => !(isHalf s fam f && n.getLsbD 0)
  let s := ((s.set.sources.map (fun e => e.1)).filter (fun x => (playDest s x).isSome)).foldl (fun s x =>
    if sourceFamily s x = fam ∧ due s (sourceFormat s x) then presentPlayback x s else s) s
  ((s.mtx.video.map (fun e => e.1)).filter (fun d => decide (2080 ≤ d ∧ d < 2176))).foldl (fun s d =>
    if destFamily s d = fam ∧ due s (destFormat s d) then recordFrame d s else s) s

/-! ## Fallback frames of container destinations (R146, R169) -/

/-- The source that a destination shows sends no frames, or there is none. -/
def noFrames (s : State) (d : Nat) : Bool :=
  match shownSource s d with | some n => !sourceUsable s n | none => true

/-- Container destinations of a family without a source that sends frames start one at its PP, of half the family
rate at that of even hangs only. (DEDUCED, log entry 167.) -/
def presentFallback (fam : Nat) (n : Word) (s : State) : State :=
  (s.fab.tx.map (fun e => e.1)).foldl (fun s d =>
    if destFamily s d = fam ∧ noFrames s d
        ∧ !(isHalf s fam (some (Config.formatOfPid (txOf s d).pid)) && n.getLsbD 0) then fallbackFrame d s
    else s) s

/-- The frame of a transmit flow that starts at a boundary: at its own frame start a stopped flow ends (R141, R206,
R209). -/
def startTxFlow (n : Nat) (s : State) : State :=
  match txFlowOf s n with
  | none => s
  | some f =>
    let fam := familyOf s f.family
    if txHalf s n f && fam.hang.getLsbD 0 then s
    else if f.stopping then endTxFlow n s
    else putTxFlow s n (startTxFrame fam.boundary f)

/-- Receive flows of a family present their frames, ancillary ones behind those of the pictures, and its transmit
flows start theirs (R198, R202, R206). -/
def presentFlows (fam : Nat) (s : State) : State :=
  let flows := s.pkt.rxFlows.filter (fun e => e.2.family == fam)
  let order := flows.filter (fun e => e.2.kind != .anc) ++ flows.filter (fun e => e.2.kind == .anc)
  let s := (order.map (fun e => e.1)).foldl (fun s n => presentFlow n s) s
  ((s.pkt.txFlows.filter (fun e => e.2.family == fam)).map (fun e => e.1)).foldl (fun s n => startTxFlow n s) s

/-- PP of a family. -/
def presentation (fam : Nat) (s : State) : State :=
  let n := (familyOf s fam).hang
  let s := presentSyncs fam n (applyPendingDests fam s)
  let s := presentGenerators fam n (presentFlows fam s)
  compPresent fam n (presentFallback fam n (presentRecords fam n s))

/-- PRESENTATION_POINT (R120). -/
def execPresentationPoint (fam : Fin 4) (s : State) : Host.Outcome State Fault Refusal :=
  .next (if familyOn s fam.val then presentation fam.val s else s)

end Sys2Proof.Machine
end

