-- ==== Sys2Proof/Machine/Rings.lean ====
section
/-! DEFINITION. Rings.lean: what a write or a read of a BAR0 register does: the rings, the interrupt
block, the snapshots and the uptime (R43, R143 to R145, R243 to R245, R357 to R360, R378 to R380). -/

namespace Sys2Proof.Machine

/-! ## Rings (R357 to R360) -/

/-- A TAIL that names a place in the ring (R358, R359). (DEDUCED, log entry 12.) -/
def tailOk (size tail : Nat) : Bool := tail % 64 == 0 && decide (tail < size)

/-- A packet that the host has written to ring c. -/
def inRing (c : Fin 4) (h : HostPacket) : HostPacket := { h with body := { h.body with endpoint := .pcie, ring := c } }

/-- RINGc_TAIL is written: `published` are the packets up to it, and `readError` says that the device's
next read of the ring meets a PCIe error (R358, R359). (DEDUCED, log entry 12.) -/
def writeTail (c : Fin 4) (tail : Word) (published : List HostPacket) (readError : Bool) (s : State) : State :=
  let r := ringOf s c.val
  let r := { r with tail := tail, unread := r.unread ++ published.map (inRing c) }
  if r.halted then putRing s c.val r
  else if !tailOk r.size.toNat tail.toNat then haltRing c.val 1 (putRing s c.val r)
  else
    let s := putRing s c.val r
    if readError && canReadRing s c.val then haltRing c.val 3 s else readRings s

/-- RING_TAIL_WRITE (R358). -/
def execRingTailWrite (c : Fin 4) (tail : Word) (published : List HostPacket) (readError : Bool) (s : State) :
    Host.Outcome State Fault Refusal := .next (clocked (writeTail c tail published readError) s)

/-- SIZE is written: HEAD, TAIL and HALTED are cleared, and unread packets discarded (R357, R359). -/
def sizedRing (r : Ring) (v : Word) : Ring :=
  { r with size := v, head := 0, tail := 0, halted := false, haltReason := 0, unread := [] }

/-- RING_SIZE_WRITE: rings 0 to 3, and 4 for the reply ring. (DEDUCED, log entry 12.) -/
def writeSize (c : Nat) (v : Word) (s : State) : State :=
  if c = 4 then { s with cmd := { s.cmd with replyRing := sizedRing s.cmd.replyRing v } }
  else putRing s c (sizedRing (ringOf s c) v)

def execRingSizeWrite (ring : Fin 5) (value : Word) (s : State) : Host.Outcome State Fault Refusal :=
  .next (clocked (writeSize ring.val value) s)

/-- REPLY_HEAD is written (R360). (DEDUCED, log entry 12.) -/
def writeReplyHead (v : Word) (s : State) : State :=
  readRings { s with cmd := { s.cmd with replyRing := { s.cmd.replyRing with head := v } } }

def execReplyHeadWrite (value : Word) (s : State) : Host.Outcome State Fault Refusal := .next (clocked (writeReplyHead value) s)

/-- Free bytes of the reply ring: all but the 64 that tell a full ring from an empty one (R358). -/
def replyRoom (r : Ring) : Nat :=
  if ringSizeOk r.size.toNat then (r.head.toNat + r.size.toNat - r.tail.toNat % r.size.toNat - 64) % r.size.toNat
  else 0

/-- The oldest reply that waits is written to the reply ring, or stalls (R360).
(DEDUCED, log entry 13.) -/
def writeReply (s : State) : State :=
  match s.cmd.waiting with
  | [] => s
  | r :: rest =>
    let q := s.cmd.replyRing
    let n := ringUnits (36 + r.results.length)
    if replyRoom q < n then raiseIrq irqReplyStall s
    else
      let q := { q with tail := BitVec.ofNat 32 ((q.tail.toNat + n) % q.size.toNat) }
      let s := { s with cmd := { s.cmd with replyRing := q, waiting := rest, written := s.cmd.written ++ [r] } }
      readRings (raiseIrq irqReply s)

/-- REPLY_WRITE (R360): nothing leaves while the link is down (R512). -/
def execReplyWrite (s : State) : Host.Outcome State Fault Refusal := .next (if s.chip.pcieLink then writeReply s else s)

/-! ## Interrupts (R378 to R380) -/

/-- IRQ_STATUS is written: ones clear. -/
def clearIrq (v : Word) (s : State) : State := { s with cmd := { s.cmd with irqStatus := s.cmd.irqStatus &&& ~~~v } }

def execIrqStatusClear (value : Word) (s : State) : Host.Outcome State Fault Refusal := .next (clocked (clearIrq value) s)

/-- IRQ_MASK is written: one message on each vector of the pending events that it unmasks (R380). -/
def writeIrqMask (v : Word) (s : State) : State :=
  let v := v &&& 0x0000_0FFF
  let freed := eventsOf (s.cmd.irqStatus &&& s.cmd.irqMask &&& ~~~v)
  let s := { s with cmd := { s.cmd with irqMask := v } }
  sendVectors (freed.map (irqVector s)) s

def execIrqMaskWrite (value : Word) (s : State) : Host.Outcome State Fault Refusal := .next (clocked (writeIrqMask value) s)

/-! ## Uptime and snapshots (R43, R143 to R145, R243 to R245) -/

/-- UPTIME_LO is read: UPTIME_HI is latched (R43). -/
def readUptime (s : State) : State :=
  { s with time := { s.time with uptimeHi := (s.time.count >>> 32).truncate 32 } }

def execUptimeLoRead (s : State) : Host.Outcome State Fault Refusal := .next (clocked readUptime s)

/-- Ticks to the next boundary of a family; 0 where it is not enabled (R143).
(DEDUCED, log entry 24.) -/
def remainOf (s : State) (n : Nat) : Word :=
  if familyOn s n then
    let f := familyOf s n
    let shift : Int := match f.realign with
      | some { target := m, computed := some (d, _), .. } => if m = f.hang + 1 then d else 0
      | _ => 0
    let b : Int := f.boundary + periodRoot (familyCfg s n).rate + shift
    BitVec.ofNat 32 ((b - rootNow s) / 8).toNat
  else 0

/-- A mask with one bit per family. -/
def familyMask (f : Nat → Bool) : BitVec 4 := BitVec.ofNat 4 (natOfBits ((List.range 4).map f))

/-- Capture of the hang snapshot (R144, R145). (DEDUCED, log entry 24.) -/
def captureHang (s : State) : State :=
  let lo : Word := s.time.count.truncate 32
  let hi : Word := (s.time.count >>> 32).truncate 32
  let snap : HangSnap := {
      capture := false
      valid := true
      aligned := familyMask (fun n => familyOn s n && (familyOf s n).aligned)
      pastCutoff := familyMask (fun n => familyOn s n && (familyOf s n).cutoffPassed)
      enabled := familyMask (familyOn s)
      hang0 := hangNumber s 0
      hang1 := hangNumber s 1
      hang2 := hangNumber s 2
      hang3 := hangNumber s 3
      countLo := lo
      countHi := hi
      remain0 := remainOf s 0
      remain1 := remainOf s 1
      remain2 := remainOf s 2
      remain3 := remainOf s 3 }
  { s with mtx := { s.mtx with snap := snap } }

/-- HANG_SNAP is written (R144). -/
def writeHangSnap (v : Word) (s : State) : State := if v.getLsbD 0 then captureHang s else s

def execHangSnapCapture (value : Word) (s : State) : Host.Outcome State Fault Refusal := .next (clocked (writeHangSnap value) s)

/-- Capture of the time snapshot (R244, R245). (DEDUCED, log entry 24.) -/
def captureTime (withHang : Bool) (s : State) : State :=
  let b := s.time
  let t := timeAt b.triple b.count
  let snap : TimeSnap := {
      capture := false
      valid := true
      withHang := withHang
      servo := b.servo
      secHi := BitVec.ofNat 32 (t.sec / 2 ^ 32 % 2 ^ 16)
      secLo := BitVec.ofNat 32 t.sec
      ns := BitVec.ofNat 32 t.ns
      frac := BitVec.ofNat 32 t.frac
      countLo := b.count.truncate 32
      countHi := (b.count >>> 32).truncate 32 }
  { s with time := { b with snap := snap } }

/-- TIME_SNAP_CTRL is written: WITH_HANG takes its value, and CAPTURE captures, the hang snapshot too
where WITH_HANG is 1 (R244, R245). -/
def writeTimeSnap (v : Word) (s : State) : State :=
  let hang := v.getLsbD 2
  if v.getLsbD 0 then (if hang then captureHang (captureTime hang s) else captureTime hang s)
  else { s with time := { s.time with snap := { s.time.snap with withHang := hang } } }

def execTimeSnapCapture (value : Word) (s : State) : Host.Outcome State Fault Refusal := .next (clocked (writeTimeSnap value) s)

end Sys2Proof.Machine
end

