-- ==== Sys2Proof/Machine/Bus.lean ====
section
/-! DEFINITION. Bus.lean: the bus matrix: its map, what each master reaches, its errors, the SYSCTL and
bus-matrix registers, the BAR0 registers and the BAR2 windows (R11, R407 to R418). -/

namespace Sys2Proof.Machine

/-! ## The map (R407 to R411) -/

/-- Targets of R412. -/
inductive BusTarget where
  | rom | sram | registers | engines | shared | reserve | secure | outbound | none
  deriving DecidableEq, Repr

def targetCode : BusTarget → Nat
  | .rom => 0 | .sram => 1 | .registers => 2 | .engines => 3 | .shared => 4 | .reserve => 5 | .secure => 6
  | .outbound => 7 | .none => 8

/-- a lies in the n bytes from base. -/
def inside (a base n : Nat) : Bool := decide (base ≤ a ∧ a < base + n)

/-- A gallery register window, its last 128 KiB aside (R410). -/
def galleryBlock (a : Nat) : Bool := inside a 0x5000_0000 0x100_0000 && decide (a % 0x10_0000 < 0xE_0000)

/-- An engine's local memory, the upper half of its window aside (R407). -/
def engineBlock (a : Nat) : Bool := inside a 0x7000_0000 0x100_0000 && decide (a % 0x2_0000 < 0x1_0000)

/-- Target of an address (R407, R408). (DEDUCED, log entry 111; PRESUMED, log entry 116.) -/
def busTarget (s : State) (a : Nat) : BusTarget :=
  if a < 0x40_0000 then (if s.cur.remap then .sram else if a < 0x4_0000 then .rom else .none)
  else if inside a 0x1000_0000 0x4_0000 then .rom
  else if inside a 0x2000_0000 0x40_0000 then .sram
  else if inside a 0x4000_0000 0xE_0000 || galleryBlock a then .registers
  else if inside a 0x6000_0000 0x10_0000 then .secure
  else if engineBlock a then .engines
  else if inside a 0x8000_0000 0x530_0000 then .shared
  else if inside a 0x10_0000_0000 0xC_0000_0000 then .reserve
  else if inside a 0x80_0000_0000 0x80_0000_0000 then .outbound
  else .none

/-- An address of Curator SRAM in the low window, as its always-mapped address. -/
def busAddr (a : Nat) : Nat := if a < 0x40_0000 then sramBase + a else a

/-- MEMORY source of the region that an address lies in (R411, R440); the cell pool has none. The Reserve
interleaves its stacks in 4 KiB units (R26). (PRESUMED, log entry 116.) -/
def memorySource (a : Nat) : Option Nat :=
  if inside a sramBase sramSize then some (faultId 0x0C 31 2)
  else if inside a 0x6000_0000 0x10_0000 then some (faultId 0x0C 31 3)
  else if inside a 0x7000_0000 0x100_0000 then
    let e := (a - 0x7000_0000) / 0x2_0000
    some (faultId 0x0C (e / 8) (1 + e % 8))
  else if inside a 0x8000_0000 0x200_0000 then some (faultId 0x0C ((a - 0x8000_0000) / 0x20_0000) 0)
  else if inside a 0x8380_0000 0xC0_0000 then
    let h := (a - 0x8380_0000) / 0x6_0000
    some (faultId 0x0C (h / 2) (9 + h % 2))
  else if inside a 0x8440_0000 0x80_0000 then some (faultId 0x0C ((a - 0x8440_0000) / 0x8_0000) 11)
  else if inside a 0x84C0_0000 0x40_0000 then some (faultId 0x0C 31 1)
  else if inside a 0x8500_0000 0x20_0000 then some (faultId 0x0C 31 0)
  else if inside a 0x8520_0000 0x10_0000 then some (faultId 0x0C 31 3)
  else if inside a 0x10_0000_0000 0xC_0000_0000 then some (faultId 0x0C 31 (4 + a / 4096 % 2))
  else none

/-! ## What a master reaches (R413) -/

/-- The bridge is open: FIELD_DEBUG, or BLANK with JTAG debug unlocked. (DEDUCED, log entry 117.) -/
def bridgeOpen (s : State) : Bool := lifeState s == 2 || (lifeState s == 0 && s.life.testRoot)

/-- The shadow code bank, control block or kernel data of an engine (R333). -/
def engineWritable (s : State) (a : Nat) : Bool :=
  let e := engineOf s ((a - 0x7000_0000) / 0x2_0000)
  let off := a % 0x2_0000
  if off < 0x4000 then e.bank1 else if off < 0x8000 then !e.bank1 else true

/-- The flash controller block of R409. -/
def flashBlock (a : Nat) : Bool := inside a 0x400B_0000 0x1_0000

/-- SYSCTL is written by Curator data only (R417). -/
def sysctlBlock (a : Nat) : Bool := inside a 0x4000_0000 0x1_0000

/-- A master may make this access of a target. (DEDUCED, log entry 111.) -/
def permitted (s : State) (m : Nat) (t : BusTarget) (a : Nat) (write : Bool) : Bool :=
  match m with
  | 0 => !write && (t == .rom || t == .sram)
  | 1 => t != .engines || !write || engineWritable s a
  | 3 => bridgeOpen s && t != .secure && (!write || t != .engines || engineWritable s a)
      && (!write || !sysctlBlock a)
  | 4 => if write then t == .engines && engineWritable s a else t == .sram || t == .reserve
  | 5 => t == .secure || t == .sram || t == .reserve || (t == .registers && flashBlock a)
  | _ => false

/-- REASON of BM_ERR_INFO, where an access of n bytes gets the default-target response (R410, R413).
(DEDUCED, log entry 111.) -/
def busRefusal (s : State) (m a n : Nat) (write : Bool) : Option (Nat × BusTarget) :=
  let t := busTarget s a
  if t = .none ∨ busTarget s (a + (n - 1)) ≠ t then some (0, .none)
  else if !permitted s m t a write then some (if t = .secure then 2 else 1, t)
  else if t = .registers ∧ (n ≠ 4 ∨ a % 4 ≠ 0) then some (3, t)
  else none

/-! ## Errors (R415, R416) -/

/-- Bus-error source of a master (R422). -/
def busErrorSource (m : Nat) : Nat := if m < 2 then 2 else if m = 2 then 3 else 4

/-- The default target answers: the error is counted, captured and raised. -/
def busError (m reason : Nat) (t : BusTarget) (write : Bool) (addr : BitVec 40) (s : State) : State :=
  let c := s.cur
  let e : BusError := {
    reason := reason, write := write, target := targetCode t, master := m, valid := true, addr := addr }
  let counts := tput c.errorCounts m (sat32 ((tfind c.errorCounts m).getD 0) 1)
  note 0x0D (busErrorSource m) { s with cur := { c with
    errorCounts := counts
    error := if c.error.valid then c.error else e } }

/-- An error of PCIe inbound. The address captured for it is not stated: a free value.
(DESIGN CHOICE, log entry 112.) -/
def hostError (reason : Nat) (t : BusTarget) (write : Bool) (s : State) : State :=
  let (a, s) := draw 40 s
  busError 2 reason t write a s

/-- The target parks on the master that it served (R414). (DEDUCED, log entry 113.) -/
def park (m : Nat) (t : BusTarget) (s : State) : State :=
  let k := 3 * targetCode t
  let cleared := s.cur.park &&& ~~~(7#32 <<< k)
  { s with cur := { s.cur with park := cleared ||| (BitVec.ofNat 32 m <<< k) } }

/-! ## Memory behind the bus -/

/-- The audio sample memory: 32 words of 4 bytes per source channel (R17, R24). -/
def audioBase : Nat := 0x84C0_0000
def inAudio (a : Nat) : Bool := inside a audioBase 0x40_0000

/-- DEDUCED, log entry 115. -/
def memoryWord (s : State) (k : Nat) : Word := tget (fun _ => (0 : Word)) s.aud.memory k

/-- The payload cells of the egress cell pool, 128 bytes each, and the queue link RAM, in 64-bit words (R24, R217,
R218, R411). -/
def poolBase : Nat := 0x8200_0000
def inPool (a : Nat) : Bool := inside a poolBase 0x180_0000
def linkBase : Nat := 0x8500_0000
def inLinks (a : Nat) : Bool := inside a linkBase 0x20_0000

/-- One byte of a memory target. (DEDUCED, log entry 115.) -/
def busByte (s : State) (a : Nat) : Byte :=
  if inAudio a then (memoryWord s ((a - audioBase) / 4)).extractLsb' (8 * (a % 4)) 8
  else if inLinks a then (linkRamWord s ((a - linkBase) / 8)).extractLsb' (8 * (a % 8)) 8
  else if inPool a then (cellByte s ((a - poolBase) / 128) (a % 128)).getD (mread s.mem a)
  else mread s.mem a

/-- A word with one byte replaced. -/
def withByte (w : Word) (i : Nat) (b : Byte) : Word :=
  (w &&& ~~~(0xFF#32 <<< (8 * i))) ||| (b.zeroExtend 32 <<< (8 * i))

/-- Write one byte of a memory target; a write of the queue link RAM changes no queue.
(DEDUCED, log entry 107; DEDUCED, log entry 115; DESIGN CHOICE, log entry 152.) -/
def putBusByte (a : Nat) (b : Byte) (s : State) : State :=
  if inAudio a then
    let k := (a - audioBase) / 4
    let w := withByte (memoryWord s k) (a % 4) b
    { s with aud := { s.aud with memory := tset (fun _ => (0 : Word)) s.aud.memory k w } }
  else if inLinks a then s
  else if inPool a && (cellByte s ((a - poolBase) / 128) (a % 128)).isSome then
    changeCell ((a - poolBase) / 128) (a % 128) (fun _ => b) s
  else { s with mem := mwrite s.mem a b }

/-- Write bytes from an address on. -/
def putBusBytes (a : Nat) : Bytes → State → State
  | [], s => s
  | b :: r, s => putBusBytes (a + 1) r (putBusByte a b s)

/-- Write the low n bytes of a value to memory, check bits included (R439). -/
def storeMemory (a n : Nat) (v : Word) (s : State) : State :=
  let s := putBusBytes a (leBytes n v.toNat) s
  match memorySource a with | some id => useInversion id 1 s | none => s

/-! ## Bus-matrix and SYSCTL registers (R416, R417, R479) -/

/-- BM_ERR_INFO is written: a 1 in VALID clears it. -/
def clearBusError (v : Word) (s : State) : State :=
  if v.getLsbD 0 then { s with cur := { s.cur with error := { s.cur.error with valid := false } } } else s

/-- BM_ERR_INFO_CLEAR (R416). -/
def execBmErrInfoClear (value : Word) (s : State) : Host.Outcome State Fault Refusal := .next (clocked (clearBusError value) s)

/-- BM_ERR_COUNTm is read: it is cleared. -/
def clearErrorCount (m : Nat) (s : State) : State :=
  { s with cur := { s.cur with errorCounts := tdel s.cur.errorCounts m } }

/-- BM_ERR_COUNT_READ (R416). -/
def execBmErrCountRead (master : Fin 6) (s : State) : Host.Outcome State Fault Refusal :=
  .next (clocked (clearErrorCount master.val) s)

/-- SYSCTL is written: REMAP and RESTART are W1S. -/
def writeSysctl (v : Word) (s : State) : State :=
  let s := if v.getLsbD 0 then { s with cur := { s.cur with remap := true } } else s
  if v.getLsbD 1 then startRestart .request s else s

/-- BOOT_STATE is written (R479). -/
def writeBootState (v : Word) (s : State) : State :=
  { s with store := { s.store with
      bootSlot := bit (v.getLsbD 0), trial := v.getLsbD 1, switched := v.getLsbD 2 } }

/-- BOOT_STATE (R479). -/
def bootStateWord (s : State) : Word :=
  BitVec.ofNat 32 (bit s.store.switched * 4 + bit s.store.trial * 2 + s.store.bootSlot % 2)

/-- What a register access does: a value or a change, a hole, or a register whose behaviour the manual
does not give. -/
inductive RegAccess (α : Type) where
  | gives (x : α)
  | hole
  | undescribed
  deriving DecidableEq, Repr

/-- A write of the register at an address of the register fabric. BM_OB_BASE_LO keeps bits [11:0] as written.
(DESIGN CHOICE, log entry 176.) -/
def writeRegister (a : Nat) (v : Word) (s : State) : RegAccess State :=
  if sysctlBlock a then
    match a % 0x1_0000 with
    | 0x00 => .gives (writeSysctl v s)
    | 0x04 => .gives { s with cur := { s.cur with wdogPeriod := v } }
    | 0x08 => .gives (kickWatchdog v s)
    | 0x0C | 0x10 | 0x14 | 0x18 => .gives s
    | 0x1C => .gives (writeBootState v s)
    | _ => .hole
  else if inside a 0x4001_0000 0x1_0000 then
    match a % 0x1_0000 with
    | 0x00 => .gives { s with cur := { s.cur with prio := v &&& 0x3F } }
    | 0x08 => .gives (clearBusError v s)
    | 0x04 | 0x0C | 0x10 | 0x14 | 0x18 | 0x1C | 0x20 | 0x24 | 0x28 => .gives s
    | 0x2C => .gives { s with cur := { s.cur with obBaseLo := v } }
    | 0x30 => .gives { s with cur := { s.cur with obBaseHi := v } }
    | 0x34 => .gives { s with cur := { s.cur with starve := v &&& 0xFFFF } }
    | _ => .hole
  else .undescribed

/-- A read of the register at an address of the register fabric, and what the read leaves. -/
def readRegister (a : Nat) (s : State) : RegAccess (Word × State) :=
  let c := s.cur
  let ro := fun (n : Nat) => RegAccess.gives (BitVec.ofNat 32 n, s)
  if sysctlBlock a then
    match a % 0x1_0000 with
    | 0x00 => ro (bit c.remap)
    | 0x04 => .gives (c.wdogPeriod, s)
    | 0x08 => ro 0
    | 0x0C => .gives (c.wdogRemain, s)
    | 0x10 => ro (restartCode c.restartCause)
    | 0x14 => ro c.restartCount
    | 0x18 => ro c.confirmRemain
    | 0x1C => .gives (bootStateWord s, s)
    | _ => .hole
  else if inside a 0x4001_0000 0x1_0000 then
    let off := a % 0x1_0000
    if off % 4 = 0 ∧ 0x14 ≤ off ∧ off ≤ 0x28 then
      let m := (off - 0x14) / 4
      .gives (BitVec.ofNat 32 ((tfind c.errorCounts m).getD 0), clearErrorCount m s)
    else
      match off with
      | 0x00 => .gives (c.prio, s)
      | 0x04 => .gives (c.park, s)
      | 0x08 => .gives (busErrorWord c.error, s)
      | 0x0C => ro (c.error.addr.toNat % 2 ^ 32)
      | 0x10 => ro (c.error.addr.toNat / 2 ^ 32)
      | 0x2C => .gives (c.obBaseLo, s)
      | 0x30 => .gives (c.obBaseHi, s)
      | 0x34 => .gives (c.starve, s)
      | _ => .hole
  else .undescribed

/-! ## BAR0 (R41, R143, R243, R357, R371, R378, R380, R435) -/

/-- A ring's register is written, at its offset in the ring's block. -/
def writeRingReg (c off : Nat) (v : Word) (s : State) : Option State :=
  let r := ringOf s c
  match off with
  | 0x00 => some (putRing s c { r with baseLo := v })
  | 0x04 => some (putRing s c { r with baseHi := v })
  | 0x08 => some (writeSize c v s)
  | 0x0C | 0x14 => some s
  | 0x10 => some (writeTail (Fin.ofNat 4 c) v [] false s)
  | _ => none

/-- A register of the reply ring is written (R357). -/
def writeReplyReg (off : Nat) (v : Word) (s : State) : Option State :=
  let r := s.cmd.replyRing
  match off with
  | 0x00 => some { s with cmd := { s.cmd with replyRing := { r with baseLo := v } } }
  | 0x04 => some { s with cmd := { s.cmd with replyRing := { r with baseHi := v } } }
  | 0x08 => some (writeSize 4 v s)
  | 0x0C => some (writeReplyHead v s)
  | 0x10 | 0x14 => some s
  | _ => none

/-- A word of the MSI-X table is written (R380). An entry that is unmasked while its message is pending
sends it. (PRESUMED, log entry 14.) -/
def writeMsix (off : Nat) (v : Word) (s : State) : State :=
  let i := off / 16
  let e := msixEntry s i
  let e := match off % 16 / 4 with
    | 0 => { e with addrLo := v }
    | 1 => { e with addrHi := v }
    | 2 => { e with data := v }
    | _ => { e with control := v }
  let s := { s with cmd := { s.cmd with msix := tset (fun _ => {}) s.cmd.msix i e } }
  if s.cmd.msixPending.getLsbD i && !e.control.getLsbD 0 then
    sendVector i { s with cmd := { s.cmd with msixPending := s.cmd.msixPending &&& ~~~(1#16 <<< i) } }
  else s

/-- Offsets of read-only BAR0 registers. -/
def bar0ReadOnly (off : Nat) : Bool :=
  decide (off ≤ 0x14) || (decide (0x3000 ≤ off ∧ off ≤ 0x3038) && off != 0x3010) || off == 0x4000 || off == 0x4004
    || decide (0x5004 ≤ off ∧ off ≤ 0x5018) || off == 0x6004 || off == 0x9000 || off == 0x9004

/-- A BAR0 register is written. (DESIGN CHOICE, log entry 26.) -/
def writeBar0 (off : Nat) (v : Word) (s : State) : Option State :=
  if 0x1000 ≤ off ∧ off < 0x1100 then writeRingReg ((off - 0x1000) / 0x40) (off % 0x40) v s
  else if 0x1100 ≤ off ∧ off < 0x1140 then writeReplyReg (off % 0x40) v s
  else if 0x8000 ≤ off ∧ off < 0x8100 then some (writeMsix (off - 0x8000) v s)
  else if bar0ReadOnly off then some s
  else
    match off with
    | 0x2000 => some (clearIrq v s)
    | 0x2004 => some (writeIrqMask v s)
    | 0x2008 => some { s with cmd := { s.cmd with irqMap0 := v } }
    | 0x200C => some { s with cmd := { s.cmd with irqMap1 := v &&& 0xFFFF } }
    | 0x3010 => some (writeHangSnap v s)
    | 0x5000 => some (writeTimeSnap v s)
    | 0x6000 => some (if v.getLsbD 0 then doorbellReset s else s)
    | _ => none

/-- TIME_SNAP_CTRL (R244). (DEDUCED, log entry 24.) -/
def timeSnapWord (s : State) : Word :=
  let t := s.time.snap
  let b := s.time
  BitVec.ofNat 32 (servoCode t.servo * 4096 + bit b.pathStep * 2048 + bit b.staged.isSome * 1024 + bit b.timeSet * 512
    + bit t.withHang * 4 + bit t.valid * 2 + bit t.capture)

/-- A ring's register as read. -/
def ringReg (r : Ring) (off : Nat) : Option Word :=
  match off with
  | 0x00 => some r.baseLo
  | 0x04 => some r.baseHi
  | 0x08 => some r.size
  | 0x0C => some r.head
  | 0x10 => some r.tail
  | 0x14 => some (ringStatus r)
  | _ => none

/-- What a BAR0 register shows; none outside the registers that the manual gives. -/
def bar0Word (s : State) (off : Nat) : Option Word :=
  let h := s.mtx.snap
  let t := s.time.snap
  if off % 4 ≠ 0 then none
  else if 0x1000 ≤ off ∧ off < 0x1100 then ringReg (ringOf s ((off - 0x1000) / 0x40)) (off % 0x40)
  else if 0x1100 ≤ off ∧ off < 0x1140 then ringReg s.cmd.replyRing (off % 0x40)
  else if 0x8000 ≤ off ∧ off < 0x8100 then
    let e := msixEntry s ((off - 0x8000) / 16)
    some (match off % 16 / 4 with | 0 => e.addrLo | 1 => e.addrHi | 2 => e.data | _ => e.control)
  else
    match off with
    | 0x0000 => some devId
    | 0x0004 => some devStepping
    | 0x0008 => some (devState s)
    | 0x000C => some (lifecycleWord s)
    | 0x0010 => some (s.time.count.truncate 32)
    | 0x0014 => some s.time.uptimeHi
    | 0x2000 => some s.cmd.irqStatus
    | 0x2004 => some s.cmd.irqMask
    | 0x2008 => some s.cmd.irqMap0
    | 0x200C => some s.cmd.irqMap1
    | 0x3000 => some (hangNumber s 0)
    | 0x3004 => some (hangNumber s 1)
    | 0x3008 => some (hangNumber s 2)
    | 0x300C => some (hangNumber s 3)
    | 0x3010 => some (hangSnapWord s)
    | 0x3014 => some h.hang0
    | 0x3018 => some h.hang1
    | 0x301C => some h.hang2
    | 0x3020 => some h.hang3
    | 0x3024 => some h.countLo
    | 0x3028 => some h.countHi
    | 0x302C => some h.remain0
    | 0x3030 => some h.remain1
    | 0x3034 => some h.remain2
    | 0x3038 => some h.remain3
    | 0x4000 => some (faultSummary s)
    | 0x4004 => some (faultClassSticky s)
    | 0x5000 => some (timeSnapWord s)
    | 0x5004 => some t.secHi
    | 0x5008 => some t.secLo
    | 0x500C => some t.ns
    | 0x5010 => some t.frac
    | 0x5014 => some t.countLo
    | 0x5018 => some t.countHi
    | 0x6000 => some (doorbellWord s)
    | 0x6004 => some (sessionState s)
    | 0x9000 => some (s.cmd.msixPending.zeroExtend 32)
    | 0x9004 => some 0
    | _ => none

/-! ## REGISTER_WRITE -/

/-- A write of BAR0 by the host: 32-bit and aligned, or an error (R410, R415).
(DESIGN CHOICE, log entry 26.) -/
def hostWrite (off width : Nat) (v : Word) (s : State) : State :=
  if width ≠ 4 ∨ off % 4 ≠ 0 then hostError 3 .registers true s
  else match writeBar0 off v s with | some t => park 2 .registers t | none => hostError 0 .none true s

/-- A write of BAR2 by the host, inside a window that has been handed out (R388, R413). -/
def windowWrite (off width : Nat) (v : Word) (s : State) : State :=
  let n := off / 4194304 + 1
  if n ≤ 16 ∧ (sessionOf s n).window = true ∧ (off + (width - 1)) / 4194304 + 1 = n then
    let bytes := leBytes width v.toNat
    let m := (List.range width).foldl (fun m i => mwrite m (off + i) (bytes.getD i 0)) s.bar2
    park 2 .reserve { s with bar2 := m }
  else hostError 1 .reserve true s

/-- A write through the bus matrix by a master other than PCIe inbound: whether it was done, and the state
after it; none where the manual does not give the register's behaviour. (DEDUCED, log entry 114.) -/
def busWrite (m : Nat) (a : BitVec 40) (width : Nat) (v : Word) (s : State) : Option (Bool × State) :=
  match busRefusal s m a.toNat width true with
  | some (reason, t) => some (false, busError m reason t true a s)
  | none =>
    let t := busTarget s a.toNat
    match t with
    | .registers =>
      match writeRegister a.toNat v (park m t s) with
      | .gives s => some (true, s)
      | .hole => some (false, busError m 0 .none true a s)
      | .undescribed => none
    | .rom => some (true, park m t s)
    | .outbound => some (true, park m t s)
    | _ => some (true, park m t (storeMemory (busAddr a.toNat) width v s))

/-- A write at an address that only another kind of master uses. (DESIGN CHOICE, log entry 4.) -/
def foreignWrite (m : Nat) (t : BusTarget) (s : State) : State :=
  let (a, s) := draw 40 s
  busError m 1 t true a s

/-- REGISTER_WRITE: a write by a master, of `width` bytes (R11, R32, R413, R415). -/
def execRegisterWrite (master : Fin 6) (addr : BusAddr) (width : Nat) (value : Word) (s : State) :
    Host.Outcome State Fault Refusal :=
  if s.chip.rootLocked = false then .next s else
  match addr with
  | .bar0 off => .next (if master.val = 2 then hostWrite off width value s else foreignWrite master.val .registers s)
  | .bar2 off => .next (if master.val = 2 then windowWrite off width value s else foreignWrite master.val .reserve s)
  | .bus a =>
    if master.val = 2 then .next (busError 2 1 (busTarget s a.toNat) true a s)
    else
      match busWrite master.val a width value s with
      | some r => .next r.2
      | none => .refused .undescribedRegister

/-! ## The bridge (R413, R415, R518, R522) -/

/-- A word as the bridge reads it. The boot ROM's contents and host memory are free values.
(DESIGN CHOICE, log entry 5.) -/
def readTargetWord (t : BusTarget) (a : Nat) (s : State) : RegAccess (Word × State) :=
  match t with
  | .registers => readRegister a s
  | .rom => .gives (Config.bootRom (a % 0x4_0000), s)
  | .outbound => .gives (draw 32 s)
  | _ =>
    let b := busAddr a
    .gives (busByte s (b + 3) ++ busByte s (b + 2) ++ busByte s (b + 1) ++ busByte s b, s)

/-- The bridge reads one aligned word: none where it gets the default-target error. A register whose
behaviour the manual does not give reads as a free value.
(DESIGN CHOICE, log entry 5; DEDUCED, log entry 114.) -/
def bridgeRead (a : BitVec 40) (s : State) : Option Word × State :=
  match busRefusal s 3 a.toNat 4 false with
  | some (reason, t) => (none, busError 3 reason t false a s)
  | none =>
    let t := busTarget s a.toNat
    match readTargetWord t a.toNat (park 3 t s) with
    | .gives (w, s) => (some w, s)
    | .hole => (none, busError 3 0 .none false a s)
    | .undescribed => let (w, s) := draw 32 s; (some w, s)

/-- The bridge writes one word: whether it was done. (DESIGN CHOICE, log entry 4.) -/
def bridgeWrite (a : BitVec 40) (v : Word) (s : State) : Option (Bool × State) := busWrite 3 a 4 v s

end Sys2Proof.Machine
end

