-- ==== Sys2Proof/Machine/PortRx.lean ====
section
/-! DEFINITION. PortRx.lean: PORT_FRAME_RX, the port and leg events, PAUSE (R184 to R194, R201,
R205). -/

namespace Sys2Proof.Machine

/-! ## PAUSE (R193, R194) -/

/-- Start or replace a pause. (DEDUCED, log entry 60.) -/
def loadPause (n quanta : Nat) (s : State) : State :=
  let s := countPort n (fun c => { c with pauseHonoured := sat48 c.pauseHonoured 1 }) s
  if quanta = 0 then endPause n s
  else
    let p := portOf s n
    putPort s n { p with paused := true, pauseQuanta := quanta, pauseStart := if p.paused then p.pauseStart else s.time.count }

/-- A MAC control frame (R193). (DEDUCED, log entry 60.) -/
def macControl (n : Nat) (b : Bytes) (s : State) : State :=
  let op := be16 b 14
  if op = 0x0101 then countPort n (fun c => { c with pfcIgnored := sat48 c.pfcIgnored 1 }) s
  else if op ≠ 1 then countPort n (fun c => { c with macCtrlUnknown := sat48 c.macCtrlUnknown 1 }) s
  else
    let mac := (macCfg s n).macAddr
    if b.take 6 = [0x01, 0x80, 0xC2, 0x00, 0x00, 0x01] ∨ (mac ≠ 0 ∧ macAt b 0 = mac) then
      let s := countPort n (fun c => { c with pauseRcvd := sat48 c.pauseRcvd 1 }) s
      let s := raisePacket (portFault n 8) s
      if honours s n then loadPause n (be16 b 16) s else s
    else s

/-! ## Trap queues (R189, R192) -/

def trapQueue (s : State) (g : Nat) : List Trapped := tget (fun _ => []) s.pkt.trapQueues g
def putTrapQueue (s : State) (g : Nat) (v : List Trapped) : State :=
  { s with pkt := { s.pkt with trapQueues := tset (fun _ => []) s.pkt.trapQueues g v } }

/-- Drop a frame as TRAP_FULL, which raises the port's trap source (R189, R211). -/
def dropTrapFull (n : Nat) (s : State) : State := raisePacket (portFault n 4) (countDropped n 12 s)

/-- A trap queue has room for a frame: 64 frames, 64 KiB (R189). -/
def trapRoom (q : List Trapped) (b : Bytes) : Bool :=
  decide (q.length < 64) && decide (q.foldl (fun t x => t + x.bytes.length) 0 + b.length ≤ 65536)

/-- Trap a frame to the Curator (R189). -/
def trapFrame (n : Nat) (t : Trapped) (s : State) : State :=
  let q := trapQueue s (n / 4)
  if s.cur.restarting || !trapRoom q t.bytes then dropTrapFull n s
  else countTrapped n (putTrapQueue s (n / 4) (q ++ [t]))

/-- A frame of the fixed classifiers is trapped; a PTP event message with its ingress time (R188, R247). -/
def trapFixed (port : Nat) (b : Bytes) (l : L2) (n : Option L3) (s : State) : State :=
  let event := match ptpOffset b l n with | some o => decide (ptpType b o < 4) | none => false
  let (t, s) := stampIngress port s
  trapFrame port { port := port, bytes := b, ptpTime := if event then some t else none } s

/-- A frame trapped with action COMMAND: class TAKE goes to the take gate's queue of 256 (R161, R192).
(DEDUCED, log entry 61.) -/
def trapCommand (port : Fin 64) (b : Bytes) (s : State) : State :=
  match framePacket port b with
  | some h =>
    if h.body.cls = 0 then
      if gateRoom s then countTrapped port.val (takeIn h s)
      else
        let s := { s with mtx := { s.mtx with takeQueueDrop := sat32 s.mtx.takeQueueDrop 1 } }
        note 0x04 4 (dropTrapFull port.val s)
    else trapFrame port.val { port := port.val, bytes := b, command := true } s
  | none => trapFrame port.val { port := port.val, bytes := b, command := true } s

/-! ## Flow lookup (R185 step 9) -/

/-- A leg's key matches a frame. (DEDUCED, log entry 62.) -/
def legMatches (l : RxLeg) (port : Nat) (b : Bytes) (e : L2) (n : L3) : Bool :=
  l.port == port % 4 && l.vid == e.vid && l.ipv6 == n.ipv6 && l.dstPort == be16 b (n.off + 2)
    && l.dstIp == dstIp b e n && (l.srcIp == 0 || l.srcIp == srcIp b e n)

/-- The flow and leg to which a frame goes: flow number, whether leg B. A leg that names the source comes
before one that takes any. (DEDUCED, log entry 62.) -/
def findLeg (s : State) (port : Nat) (b : Bytes) (e : L2) (n : L3) : Option (Nat × Bool) :=
  let legs := (s.pkt.rxFlows.filter (fun f => f.1 / 1024 == port / 4)).flatMap
    (fun f => (f.1, false, f.2.legA) :: (f.2.legB.toList.map (fun l => (f.1, true, l))))
  let hits := legs.filter (fun x => legMatches x.2.2 port b e n)
  match hits.find? (fun x => x.2.2.srcIp != 0) with
  | some x => some (x.1, x.2.1)
  | none => hits.head?.map (fun x => (x.1, x.2.1))

/-! ## Classification (R185) -/

/-- Steps 10 and 11. -/
def classifyTrap (port : Fin 64) (b : Bytes) (s : State) : State :=
  match trapAction s port.val b with
  | some 1 => trapCommand port b s
  | some 2 => trapFrame port.val { port := port.val, bytes := b } s
  | some _ => countDropped port.val 11 s
  | none => countDropped port.val 10 s

/-- Step 9 and what follows for UDP. -/
def classifyUdp (port : Fin 64) (b : Bytes) (e : L2) (n : L3) (s : State) : State :=
  match findLeg s port.val b e n with
  | none => classifyTrap port b s
  | some (flow, legB) =>
    match rxFlowOf s flow with
    | none => classifyTrap port b s
    | some f =>
      let u := udpPayload b n
      if byteAt u 0 / 64 ≠ 2 ∨ headersFit f.kind u = false ∨ rtpPt u ≠ f.pt then countDropped port.val 9 s
      else deliver flow legB u (countForwarded port.val s)

/-- Steps 6 to 11. -/
def classifyNetwork (port : Fin 64) (b : Bytes) (e : L2) (s : State) : State :=
  let n := readL3 b e
  if n.any (fun x => x.malformed) then countDropped port.val 7 s
  else if fixedTrap b e n then trapFixed port.val b e n s
  else
    match n with
    | some x =>
      if x.proto = 17 then
        if udpMalformed b e x then countDropped port.val 8 s else classifyUdp port b e x s
      else classifyTrap port b s
    | none => classifyTrap port b s

/-- The classification of R185. -/
def classifyFrame (port : Fin 64) (f : RxFrame) (s : State) : State :=
  let n := port.val
  let c := macCfg s n
  let b := f.bytes
  let e := readL2 b
  if f.wireLength < 64 then countDropped n 0 s
  else if c.maxFrame < f.wireLength then countDropped n 1 s
  else if !f.fcsOk || f.errored || decide (0 < f.fecUncorrected) then countDropped n 2 s
  else if (portOf s n).isolated then countDropped n 13 s
  else if be16 b 12 = 0x8808 then countDropped n 3 (macControl n b s)
  else if !destAdmits c b then countDropped n 4 s
  else if be16 b 12 = 0x88A8 then countDropped n 6 s
  else if !vlanAdmits c e then countDropped n 5 s
  else if e.malformed then countDropped n 6 s
  else classifyNetwork port b e s

/-- PORT_FRAME_RX: a frame reaches a port that exists and has link (R182, R184, R185). -/
def receiveFrame (port : Fin 64) (f : RxFrame) (s : State) : State :=
  let n := port.val
  if portExists s n && (portOf s n).link then
    let bytes := min f.wireLength (macCfg s n).maxFrame
    classifyFrame port f (countPort n (fun c => { c with
      rxBytes := sat32 c.rxBytes bytes, fecCorrected := sat32 c.fecCorrected f.fecCorrected
      fecUncorrected := sat32 c.fecUncorrected f.fecUncorrected }) s)
  else s

/-- PORT_FRAME_RX (R185). A frame on which the receive FIFO of a lane filled is errored (R38).
(DEDUCED, log entry 36.) -/
def execPortFrameRx (port : Fin 64) (f : RxFrame) (s : State) : Host.Outcome State Fault Refusal :=
  .next (match f.overflow with
    | none => receiveFrame port f s
    | some k =>
      let s' := receiveFrame port { f with errored := true, overflow := none } s
      match (portLanes s port.val)[k.val]? with
      | some l => if portExists s port.val && (portOf s port.val).link then fifoOverflow l s' else s'
      | none => s')

/-- PAUSE_EXPIRY (R194): the timer reaches zero. -/
def execPauseExpiry (port : Fin 64) (s : State) : Host.Outcome State Fault Refusal :=
  .next (endPause port.val s)

/-- A lane of a port loses block lock: LOCK_LOSS, and its LANE source (R72, R74). (DEDUCED, log entry 170.) -/
def loseEthLock (l : Nat) (s : State) : State :=
  if laneLocked s l then
    let s := countLane l (fun c => { c with lockLoss := sat32 c.lockLoss 1 }) s
    raiseLane (laneFault l) (putLane s l { laneOf s l with state := .hunt })
  else s

/-- A port's PCS loses or regains link, and its lanes block lock with it; a lane in DOWN gives none
(R72, R74, R182, R184). (DEDUCED, log entry 170.) -/
def changeLink (n : Nat) (up : Bool) (s : State) : State :=
  if !up then
    let s := portLinkDown n s
    if portExists s n then (portLanes s n).foldl (fun s l => loseEthLock l s) s else s
  else if portExists s n && (portLanes s n).all (fun l => (laneOf s l).state != .down) then
    let s := putPort s n { portOf s n with link := true }
    (portLanes s n).foldl (fun s l =>
      if laneLocked s l then s
      else restartAdaptation l (putLane s l { laneOf s l with state := .locked })) s
  else s

/-- LINK_LOSS (R184). -/
def execLinkLoss (port : Fin 64) (up : Bool) (s : State) : Host.Outcome State Fault Refusal :=
  .next (changeLink port.val up s)

/-- A leg without packets for 10 ms goes DOWN (R205). -/
def takeLegDown (n : Nat) (legB : Bool) (s : State) : State :=
  match rxFlowOf s n with
  | none => s
  | some f =>
    let up := if legB then f.legB.isSome && f.legBUp else f.legAUp
    if up then
      let f := if legB then { f with legBUp := false } else { f with legAUp := false }
      raisePacket (faultId 0x05 (n / 1024) 13) (putRxFlow s n f)
    else s

/-- LEG_DOWN (R205). -/
def execLegDown (flow : Fin 16384) (legB : Bool) (s : State) : Host.Outcome State Fault Refusal :=
  .next (takeLegDown flow.val legB s)

/-- An audio channel without a sample for 10 ms carries silence; the flow's source counts as lost (R201). -/
def silenceChannel (n c : Nat) (s : State) : State :=
  match rxFlowOf s n with
  | none => s
  | some f =>
    if f.kind = .audio ∧ c < f.chCount ∧ c ∉ f.silent then
      let s := putRxFlow s n { f with silent := f.silent ++ [c] }
      if f.report && f.silent.isEmpty then raisePacket (faultId 0x05 (n / 1024) 12) s else s
    else s

/-- AUDIO_FLOW_SILENCE (R201). -/
def execAudioFlowSilence (flow : Fin 16384) (c : Fin 64) (s : State) : Host.Outcome State Fault Refusal :=
  .next (silenceChannel flow.val c.val s)

end Sys2Proof.Machine
end

