-- ==== Sys2Proof/Machine/Control.lean ====
section
/-! DEFINITION. Control.lean: what the Curator does with trapped frames and at PTP intervals (R188 to
R192, R249 to R256). -/

namespace Sys2Proof.Machine

/-! ## PTP intervals (R251) -/

/-- Whether a port sends a message by itself in its role (R251). -/
def sendsMessage (s : State) (n : Nat) (m : PtpMessage) : Bool :=
  let c := ptpPortCfg s n
  let slave := (ptpPortOf s n).slave
  c.enable && (match m with
    | .sync => !slave
    | .announce => !slave
    | .delayReq => slave && !c.p2p
    | .pdelayReq => c.p2p
    | _ => false)

/-- PTP_MESSAGE_INTERVAL (R251): an interval of a port ends, and it sends its message. -/
def execPtpMessageInterval (port : Fin 320) (m : PtpMessage) (s : State) : Host.Outcome State Fault Refusal :=
  let n := port.val
  .next (if s.chip.curatorServing && sendsMessage s n m then sendPtp n m {} (readEgress n s) else s)

/-! ## Answers for the port addresses (R188) -/

/-- IPv4 and IPv6 address of a port as the bytes of a frame spell them. -/
def ownV4 (s : State) (n : Nat) : Option (BitVec 32) := if (macCfg s n).ipv4 = 0 then none else some (macCfg s n).ipv4
def ownV6 (s : State) (n : Nat) : Option (BitVec 128) := if (macCfg s n).ipv6 = 0 then none else some (macCfg s n).ipv6

/-- A multicast address. -/
def isGroup (v6 : Bool) (a : BitVec 128) : Bool :=
  let first := (a.extractLsb' 0 8).toNat
  if v6 then first == 0xFF else decide (224 ≤ first ∧ first < 240)

/-- Multicast legs of receive flows with JOIN on a port. (DEDUCED, log entry 62.) -/
def joinedLegs (s : State) (n : Nat) (v6 : Bool) : List RxLeg :=
  (s.pkt.rxFlows.filter (fun e => e.1 / 1024 == n / 4 && e.2.join)).flatMap (fun e =>
    (e.2.legA :: e.2.legB.toList).filter (fun l => l.port == n % 4 && l.ipv6 == v6 && isGroup v6 l.dstIp))

/-- The groups of a report that answers a query, each with its number of named sources: every group held, or of a query
for one group that one where it is held (R188). -/
def reportGroups (s : State) (n : Nat) (v6 : Bool) (asked : Nat) : List Nat :=
  let legs := (joinedLegs s n v6).filter (fun l => asked == 0 || l.dstIp.toNat == asked)
  ((legs.map (fun l => l.dstIp)).dedup).map (fun g =>
    (((legs.filter (fun l => l.dstIp == g && l.srcIp != 0)).map (fun l => l.srcIp)).dedup).length)

/-- Stored bytes of a report with some groups behind its fixed part; no report without a group. (PRESUMED, log entry
22.) -/
def reportSize (fixed record source : Nat) (groups : List Nat) : Option Nat :=
  if groups.isEmpty then none else some (fixed + (groups.map (fun k => record + source * k)).sum)

/-- Stored bytes of the Curator's answer to an IPv4 message, if it answers.
(PRESUMED, log entry 22.) -/
def answerV4 (s : State) (n : Nat) (b : Bytes) (l : L2) (x : L3) : Option Nat :=
  let mine := match ownV4 s n with | some a => (dstIp b l x).extractLsb' 0 32 == a | none => false
  if x.proto = 1 ∧ byteAt b x.off = 8 ∧ mine = true then some (l.off + 20 + x.size)
  else if x.proto = 2 ∧ byteAt b x.off = 0x11 then reportSize (l.off + 32) 8 4 (reportGroups s n false (field b (x.off + 4) 4))
  else none

/-- Where the ICMPv6 message of a frame begins. -/
def icmp6Offset (b : Bytes) (l : L2) : Nat :=
  if byteAt b (l.off + 6) = 0 then l.off + 40 + 8 * (byteAt b (l.off + 41) + 1) else l.off + 40

/-- Stored bytes of the Curator's answer to an ICMPv6 message, if it answers.
(PRESUMED, log entry 22.) -/
def answerV6 (s : State) (n : Nat) (b : Bytes) (l : L2) (x : L3) : Option Nat :=
  let o := icmp6Offset b l
  let own := fun (a : BitVec 128) => match ownV6 s n with | some m => a == m | none => false
  match byteAt b o with
  | 128 => if own (dstIp b l x) then some (l.off + 40 + x.size) else none
  | 130 => reportSize (l.off + 56) 20 16 (reportGroups s n true (field b (o + 8) 16))
  | 135 => if own (BitVec.ofNat 128 (field b (o + 8) 16)) then some (l.off + 72) else none
  | _ => none

/-- Stored bytes of the Curator's answer to a trapped frame, if it answers (R188).
(PRESUMED, log entry 22.) -/
def curatorAnswer (s : State) (n : Nat) (b : Bytes) : Option Nat :=
  let l := readL2 b
  if l.etherType = 0x0806 then
    match ownV4 s n with
    | some a => if be16 b (l.off + 6) = 1 ∧ field b (l.off + 24) 4 = a.toNat then some (l.off + 28) else none
    | none => none
  else
    match readL3 b l with
    | none => none
    | some x => if x.icmp6 then answerV6 s n b l x else if x.ipv6 then none else answerV4 s n b l x

/-- The Curator takes a trapped frame. The bytes of its answer to an ARP, ICMP or IGMP frame are a free value.
(DEDUCED, log entry 61; DESIGN CHOICE, log entry 175.) -/
def serveTrapped (t : Trapped) (s : State) : State :=
  let l := readL2 t.bytes
  match ptpOffset t.bytes l (readL3 t.bytes l) with
  | some o => ptpProcess t.port (t.bytes.drop o) t.ptpTime s
  | none =>
    match curatorAnswer s t.port t.bytes with
    | some k =>
      let (w, s) := draw (8 * k) s
      sendControl t.port (leBytes k w.toNat) false s
    | none => s

/-- The Curator takes the first frame of a gallery's trap queue. A command packet goes to the work queue
of 64; while that is full, it stays (R189, R192, R374). -/
def serveTrapQueue (g : Nat) (s : State) : State :=
  match trapQueue s g with
  | [] => s
  | t :: r =>
    let rest := putTrapQueue s g r
    if t.command then
      match framePacket (Fin.ofNat 64 t.port) t.bytes with
      | none => rest
      | some h =>
        if workRoom s then takeIn h rest else s
    else serveTrapped t rest

/-- TRAP_QUEUE_SERVICE (R188, R189). -/
def execTrapQueueService (gallery : Fin 16) (s : State) : Host.Outcome State Fault Refusal :=
  .next (if s.chip.curatorServing then serveTrapQueue gallery.val s else s)

end Sys2Proof.Machine
end

