-- ==== Sys2Proof/Machine/Docent.lean ====
section
/-! DEFINITION. Docent.lean: the Docent monitor: its characters, its commands and DOCENT_ENABLE (R520 to
R523). The wording of its output lines is the model's; the manual gives what they hold. -/

namespace Sys2Proof.Machine

/-! ## Text -/

def hexDigit (n : Nat) : Char := Nat.digitChar (n % 16)

/-- n hex digits of a number, most significant first. -/
def hexDigits : Nat → Nat → List Char
  | 0, _ => []
  | n + 1, v => hexDigit (v / 16 ^ n) :: hexDigits n v

def hexText (digits v : Nat) : String := "0x" ++ String.ofList (hexDigits digits v)
def wordText (w : Word) : String := hexText 8 w.toNat

/-- Items as the hex of their bytes, first byte first. -/
def itemsText (b : Bytes) : String := String.ofList ((b.map (fun x => hexDigits 2 x.toNat)).flatten)

/-! ## Replies (R521, R523) -/

def putDoc (d : Docent) (s : State) : State := { s with doc := d }

/-- The monitor runs: enabled, with the Curator serving (R520, R521). -/
def docentRuns (s : State) : Bool := s.doc.mode != 0 && s.chip.curatorServing

/-- The monitor reads a command: it runs and no output waits. -/
def docentReads (s : State) : Bool := docentRuns s && s.doc.output.isEmpty

/-- A reply: lines, then OK or an error, then the prompt. (DESIGN CHOICE, log entry 20.) -/
def docentReply (lines : List String) (last : String) (s : State) : State :=
  putDoc { s.doc with line := [], overlong := false, output := s.doc.output ++ lines ++ [last, "zv> "] } s

def docentOk (lines : List String) (s : State) : State := docentReply lines "OK" s
def docentError (reason : String) (s : State) : State := docentReply [] ("ERR " ++ reason) s

/-- Run a command of a mode: nothing while the monitor does not read; ERR SYNTAX for a bad argument form,
ERR MODE for a command of mode 2 in mode 1 (R521, R523). -/
def docentRun (mode : Nat) (form : Bool) (f : State → State) (s : State) : State :=
  if !docentReads s then s
  else if !form then docentError "SYNTAX" s
  else if s.doc.mode < mode then docentError "MODE" s
  else f s

/-- An argument form with lo to hi numbers. -/
def argForm (a : DocentArgs) (lo hi : Nat) : Bool := !a.bad && decide (lo ≤ a.nums.length ∧ a.nums.length ≤ hi)

/-! ## Commands of mode 1 (R522) -/

/-- DESIGN CHOICE, log entry 20. -/
def helpLines (mode : Nat) : List String :=
  ["help", "status", "faults [class]", "ledger", "lanes [first [count]]", "time", "ref"]
    ++ (if mode = 2 then ["peek <addr> [words]", "poke <addr> <value>", "trace on", "trace off", "trace dump [lines]", "reset"]
        else [])

/-- DOCENT_HELP. -/
def execDocentHelp (s : State) : Host.Outcome State Fault Refusal :=
  .next (docentRun 1 true (fun s => docentOk (helpLines s.doc.mode) s) s)

/-- DESIGN CHOICE, log entry 20. -/
def statusLines (s : State) : List String :=
  [ "DEV_STATE " ++ wordText (devState s),
    "LIFECYCLE " ++ wordText (lifecycleWord s),
    "UPTIME " ++ hexText 16 s.time.count.toNat,
    "CATALOGUE_VERSION " ++ hexText 8 (catalogueVersion s),
    "BOOT_STATE " ++ wordText (bootStateWord s),
    "RESTART_CAUSE " ++ hexText 1 (restartCode s.cur.restartCause),
    "RESTART_COUNT " ++ hexText 8 s.cur.restartCount,
    "BM_ERR_INFO " ++ wordText (busErrorWord s.cur.error),
    "BM_ERR_ADDR " ++ hexText 10 s.cur.error.addr.toNat ]

/-- DOCENT_STATUS. -/
def execDocentStatus (s : State) : Host.Outcome State Fault Refusal :=
  .next (docentRun 1 true (fun s => docentOk (statusLines s) s) s)

/-- DESIGN CHOICE, log entry 20. -/
def faultLines (s : State) (cls : Nat) : List String :=
  ("FAULT_SUMMARY " ++ wordText (faultSummary s)) :: (stickyFrom s 0 cls).map (fun e => itemsText (faultEntry e))

/-- DOCENT_FAULTS. -/
def execDocentFaults (a : DocentArgs) (s : State) : Host.Outcome State Fault Refusal :=
  .next (docentRun 1 (argForm a 0 1) (fun s =>
    match a.nums with
    | c :: _ => if 1 ≤ c ∧ c ≤ 0x12 then docentOk (faultLines s c) s else docentError "RANGE" s
    | [] => docentOk (faultLines s 0) s) s)

/-- DOCENT_LEDGER. -/
def execDocentLedger (s : State) : Host.Outcome State Fault Refusal :=
  .next (docentRun 1 true (fun s => docentOk [itemsText (ledgerResults s)] s) s)

/-- DOCENT_LANES: without a count, every lane from the first on. -/
def execDocentLanes (a : DocentArgs) (s : State) : Host.Outcome State Fault Refusal :=
  .next (docentRun 1 (argForm a 0 2) (fun s =>
    let first := a.nums.getD 0 0
    let count := a.nums.getD 1 (416 - first)
    if first < 416 ∧ 1 ≤ count ∧ first + count ≤ 416 then
      docentOk ((List.range count).map (fun i => hexText 3 (first + i) ++ " " ++ itemsText (laneItems s (first + i)))) s
    else docentError "RANGE" s) s)

/-- DOCENT_TIME. -/
def execDocentTime (s : State) : Host.Outcome State Fault Refusal :=
  .next (docentRun 1 true (fun s => docentOk [itemsText (timeItems s)] s) s)

/-- DOCENT_REF. -/
def execDocentRef (s : State) : Host.Outcome State Fault Refusal :=
  .next (docentRun 1 true (fun s => docentOk [itemsText (refItems s)] s) s)

/-! ## Commands of mode 2 (R522) -/

/-- Read n words from an address through the bridge; none of the rest after an error. -/
def peekWords : Nat → Nat → List String → State → Option (List String) × State
  | 0, _, acc, s => (some acc, s)
  | n + 1, a, acc, s =>
    match bridgeRead (BitVec.ofNat 40 a) s with
    | (some w, s) => peekWords n (a + 4) (acc ++ [wordText w]) s
    | (none, s) => (none, s)

/-- An aligned address of n words. -/
def wordsFit (a n : Nat) : Bool := a % 4 == 0 && decide (a + 4 * n ≤ 2 ^ 40)

/-- DOCENT_PEEK. -/
def execDocentPeek (a : DocentArgs) (s : State) : Host.Outcome State Fault Refusal :=
  .next (docentRun 2 (argForm a 1 2) (fun s =>
    let addr := a.nums.getD 0 0
    let n := a.nums.getD 1 1
    if 1 ≤ n ∧ n ≤ 64 ∧ wordsFit addr n = true then
      match peekWords n addr [] s with
      | (some lines, s) => docentOk lines s
      | (none, s) => docentError "BUS" s
    else docentError "RANGE" s) s)

/-- DOCENT_POKE: a register whose behaviour the manual does not give is refused. -/
def execDocentPoke (a : DocentArgs) (s : State) : Host.Outcome State Fault Refusal :=
  let addr := a.nums.getD 0 0
  let v := a.nums.getD 1 0
  if docentReads s && argForm a 2 2 && s.doc.mode == 2 && wordsFit addr 1 && decide (v < 2 ^ 32) then
    match bridgeWrite (BitVec.ofNat 40 addr) (BitVec.ofNat 32 v) s with
    | some (true, s) => .next (docentOk [] s)
    | some (false, s) => .next (docentError "BUS" s)
    | none => .refused .undescribedRegister
  else .next (docentRun 2 (argForm a 2 2) (docentError "RANGE") s)

def setTrace (b : Bool) (s : State) : State := docentOk [] (putDoc { s.doc with trace := b } s)

/-- DOCENT_TRACE_ON. -/
def execDocentTraceOn (s : State) : Host.Outcome State Fault Refusal := .next (docentRun 2 true (setTrace true) s)

/-- DOCENT_TRACE_OFF. -/
def execDocentTraceOff (s : State) : Host.Outcome State Fault Refusal := .next (docentRun 2 true (setTrace false) s)

/-- Lines of the firmware trace, whose contents the manual does not give: free values.
(DESIGN CHOICE, log entry 20.) -/
def traceText : Nat → List String → State → List String × State
  | 0, acc, s => (acc, s)
  | n + 1, acc, s => let (w, s) := draw 64 s; traceText n (acc ++ [hexText 16 w.toNat]) s

/-- DOCENT_TRACE_DUMP: how many lines the buffer holds is a free value; the count asked for bounds it. -/
def execDocentTraceDump (a : DocentArgs) (s : State) : Host.Outcome State Fault Refusal :=
  .next (docentRun 2 (argForm a 0 1) (fun s =>
    if a.nums = [0] then docentError "RANGE" s
    else
      let (held, s) := drawBelow 1048577 s
      let (lines, s) := traceText (min held (a.nums.getD 0 held)) [] s
      docentOk lines s) s)

/-- DOCENT_RESET: a device reset follows 10 ms after OK. -/
def execDocentReset (s : State) : Host.Outcome State Fault Refusal :=
  .next (docentRun 2 true (fun s => docentOk [] (putDoc { s.doc with resetDue := true } s)) s)

/-! ## Characters and output (R520, R521) -/

/-- The bytes of a keyword. -/
def asciiBytes (t : String) : Bytes := t.toList.map (fun c => BitVec.ofNat 8 c.toNat)

def docentKeywords : List Bytes :=
  ["help", "status", "faults", "ledger", "lanes", "time", "ref", "peek", "poke", "trace", "reset"].map asciiBytes

/-- The first word of a line, and what follows it. -/
def firstWord (l : Bytes) : Bytes := l.takeWhile (fun b => b != 0x20)
def afterWord (l : Bytes) : Bytes := (l.dropWhile (fun b => b != 0x20)).dropWhile (fun b => b == 0x20)

/-- A line names a command; what it does is its own event. -/
def knownLine (l : Bytes) : Bool :=
  let w := firstWord l
  docentKeywords.contains w
    && (w != asciiBytes "trace" || [asciiBytes "on", asciiBytes "off", asciiBytes "dump"].contains (firstWord (afterWord l)))

/-- The end of a line. -/
def endLine (s : State) : State :=
  if s.doc.overlong then docentError "LONG" s
  else if s.doc.line.isEmpty || knownLine s.doc.line then s
  else docentError "SYNTAX" s

/-- A character arrives: discarded while output waits. -/
def receiveChar (c : Byte) (s : State) : State :=
  let d := s.doc
  if !docentReads s then s
  else if c = 0x0D ∨ c = 0x0A then endLine s
  else if c = 0x08 then putDoc { d with line := d.line.dropLast } s
  else if 128 ≤ d.line.length then putDoc { d with overlong := true } s
  else putDoc { d with line := d.line ++ [c] } s

/-- DOCENT_CHARACTER_RX. -/
def execDocentCharacterRx (char : Byte) (s : State) : Host.Outcome State Fault Refusal := .next (receiveChar char s)

/-- The output has left; a new rate applies (R520). (DESIGN CHOICE, log entry 20.) -/
def drainOutput (s : State) : State :=
  let d := s.doc
  putDoc { d with output := [], baud := d.newBaud.getD d.baud, newBaud := none } s

/-- DOCENT_OUTPUT_DRAINED. -/
def execDocentOutputDrained (s : State) : Host.Outcome State Fault Refusal := .next (drainOutput s)

/-! ## DOCENT_ENABLE (R402, R403, R520) -/

def specDocentEnable : OpSpec :=
  { code := 0xE004, cls := 1, auth := true, lengthOk := fixedLength 8
    lockedOut := fun p s => u8 p 0 == 2 && lifeState s != 2
    checks := fun p _ => firstFail [
      noTarget p, fieldIn (u8 p 0) 0 2 0, reserved p 1 3, fieldIn (u32 p 4) 9600 3000000 4]
    effect := atOnce (fun p s => (putDoc { s.doc with mode := u8 p 0, newBaud := some (u32 p 4) } s, done)) }

/-- DOCENT_ENABLE (R520). -/
def execDocentEnable (p : Packet) (s : State) : Host.Outcome State Fault Refusal := .next (runHost specDocentEnable p s)

end Sys2Proof.Machine
end

