-- ==== Sys2Proof/Machine/Jtag.lean ====
section
/-! DEFINITION. Jtag.lean: the JTAG port (R413, R518, R519). -/

namespace Sys2Proof.Machine

/-- The IDCODE register. -/
def idcodeWord : Word := 0x1153_6A6F

/-- EXTEST, CLAMP and HIGHZ take the balls from the device logic (R519).
(DEDUCED, log entry 135.) -/
def takesBalls (i : JtagInstr) : Bool := i == .extest || i == .clamp || i == .highz

/-- The balls are taken: the data plane has no outputs. -/
def ballsTaken (s : State) : Bool := takesBalls s.chip.jtag

/-- A cause starts a device reset, unless a start is in progress (R505). -/
def beginReset (s : State) : State := if starting s then s else deviceReset s

/-- Another instruction is loaded at Update-IR: leaving a boundary-scan instruction starts a device reset
(R519). (DEDUCED, log entry 135.) -/
def loadInstr (i : JtagInstr) (s : State) : State :=
  let left := ballsTaken s && !takesBalls i
  let s := { s with chip := { s.chip with jtag := i } }
  if left then beginReset s else s

/-- EXTEST. -/
def execExtest (s : State) : Host.Outcome State Fault Refusal := .next (loadInstr .extest s)

/-- CLAMP. -/
def execClamp (s : State) : Host.Outcome State Fault Refusal := .next (loadInstr .clamp s)

/-- HIGHZ. -/
def execHighz (s : State) : Host.Outcome State Fault Refusal := .next (loadInstr .highz s)

/-- The IDCODE register is selected. (DEDUCED, log entry 135.) -/
def selectIdcode (s : State) : State :=
  let s := loadInstr .idcode s
  { s with chip := { s.chip with jtagData := idcodeWord } }

/-- IDCODE. -/
def execIdcode (s : State) : Host.Outcome State Fault Refusal := .next (selectIdcode s)

/-- SAMPLE/PRELOAD disturbs nothing. -/
def execSamplePreload (s : State) : Host.Outcome State Fault Refusal := .next (loadInstr .sample s)

/-- BYPASS. -/
def execBypass (s : State) : Host.Outcome State Fault Refusal := .next (loadInstr .bypass s)

/-- TRST_N low, or Test-Logic-Reset: IDCODE is selected (R518, R519). -/
def execTestLogicReset (s : State) : Host.Outcome State Fault Refusal := .next (selectIdcode s)

/-- DBG_UNLOCK sets UNLOCK_PENDING in BLANK; in every other state it acts as BYPASS. -/
def debugUnlock (s : State) : State :=
  if lifeState s = 0 then
    let s := loadInstr .dbgUnlock s
    { s with life := { s.life with unlockPending := true } }
  else loadInstr .bypass s

/-- DBG_UNLOCK. -/
def execDbgUnlock (s : State) : Host.Outcome State Fault Refusal := .next (debugUnlock s)

/-- A read by DBG_ACCESS: all ones with an error (R415). (DEDUCED, log entry 117.) -/
def debugRead (a : BitVec 40) (s : State) : State :=
  let (w, s) := bridgeRead a s
  { s with chip := { s.chip with jtagData := w.getD 0xFFFF_FFFF } }

/-- DBG_ACCESS: one access through the bridge in a start whose root is the test root; in every other it acts
as BYPASS. -/
def execDbgAccess (write : Bool) (addr : BitVec 40) (value : Word) (s : State) : Host.Outcome State Fault Refusal :=
  if !s.life.testRoot then .next (loadInstr .bypass s)
  else
    let s := loadInstr .dbgAccess s
    if !s.life.testRoot then .next s
    else if write then
      match bridgeWrite addr value s with
      | some r => .next r.2
      | none => .refused .undescribedRegister
    else .next (debugRead addr s)

end Sys2Proof.Machine
end

