-- ==== Sys2Proof/Machine/Dispatch.lean ====
section
/-! DEFINITION. Dispatch.lean: one arm per command. -/

namespace Sys2Proof.Machine

def exec (i : Instr) (s : State) : Host.Outcome State Fault Refusal :=
  match i with
  | .sessionOpen p => Sys2Proof.Machine.execSessionOpen p s
  | .sessionClose p => Sys2Proof.Machine.execSessionClose p s
  | .sessionReset p => Sys2Proof.Machine.execSessionReset p s
  | .restateBegin p => Sys2Proof.Machine.execRestateBegin p s
  | .restateCommit p => Sys2Proof.Machine.execRestateCommit p s
  | .ping p => Sys2Proof.Machine.execPing p s
  | .identify p => Sys2Proof.Machine.execIdentify p s
  | .takeVideo p => Sys2Proof.Machine.execTakeVideo p s
  | .takeAudio p => Sys2Proof.Machine.execTakeAudio p s
  | .takeAnc p => Sys2Proof.Machine.execTakeAnc p s
  | .takeBundle p => Sys2Proof.Machine.execTakeBundle p s
  | .hangAt p => Sys2Proof.Machine.execHangAt p s
  | .unstage p => Sys2Proof.Machine.execUnstage p s
  | .protectSet p => Sys2Proof.Machine.execProtectSet p s
  | .destConfig p => Sys2Proof.Machine.execDestConfig p s
  | .sourceConfig p => Sys2Proof.Machine.execSourceConfig p s
  | .destLock p => Sys2Proof.Machine.execDestLock p s
  | .hangRefConfig p => Sys2Proof.Machine.execHangRefConfig p s
  | .laneConfig p => Sys2Proof.Machine.execLaneConfig p s
  | .laneBringup p => Sys2Proof.Machine.execLaneBringup p s
  | .lanePrbs p => Sys2Proof.Machine.execLanePrbs p s
  | .laneStatus p => Sys2Proof.Machine.execLaneStatus p s
  | .laneEq p => Sys2Proof.Machine.execLaneEq p s
  | .fabricMap p => Sys2Proof.Machine.execFabricMap p s
  | .fabricPlanePair p => Sys2Proof.Machine.execFabricPlanePair p s
  | .fabricStatus p => Sys2Proof.Machine.execFabricStatus p s
  | .sdiInConfig p => Sys2Proof.Machine.execSdiInConfig p s
  | .sdiOutConfig p => Sys2Proof.Machine.execSdiOutConfig p s
  | .framesyncConfig p => Sys2Proof.Machine.execFramesyncConfig p s
  | .sdiStatus p => Sys2Proof.Machine.execSdiStatus p s
  | .macConfig p => Sys2Proof.Machine.execMacConfig p s
  | .trapPatternSet p => Sys2Proof.Machine.execTrapPatternSet p s
  | .flowRxAdd p => Sys2Proof.Machine.execFlowRxAdd p s
  | .flowRxDel p => Sys2Proof.Machine.execFlowRxDel p s
  | .flowTxAdd p => Sys2Proof.Machine.execFlowTxAdd p s
  | .flowTxDel p => Sys2Proof.Machine.execFlowTxDel p s
  | .queueConfig p => Sys2Proof.Machine.execQueueConfig p s
  | .pausePolicy p => Sys2Proof.Machine.execPausePolicy p s
  | .macCounters p => Sys2Proof.Machine.execMacCounters p s
  | .timeRead p => Sys2Proof.Machine.execTimeRead p s
  | .timeAdjust p => Sys2Proof.Machine.execTimeAdjust p s
  | .ptpPortConfig p => Sys2Proof.Machine.execPtpPortConfig p s
  | .asymmetrySet p => Sys2Proof.Machine.execAsymmetrySet p s
  | .pathStepAccept p => Sys2Proof.Machine.execPathStepAccept p s
  | .refConfig p => Sys2Proof.Machine.execRefConfig p s
  | .refStatus p => Sys2Proof.Machine.execRefStatus p s
  | .dpllConfig p => Sys2Proof.Machine.execDpllConfig p s
  | .pulseConfig p => Sys2Proof.Machine.execPulseConfig p s
  | .pulseRealign p => Sys2Proof.Machine.execPulseRealign p s
  | .audioEmbedConfig p => Sys2Proof.Machine.execAudioEmbedConfig p s
  | .audioDeembedConfig p => Sys2Proof.Machine.execAudioDeembedConfig p s
  | .tdmPortConfig p => Sys2Proof.Machine.execTdmPortConfig p s
  | .tdmStartGroup p => Sys2Proof.Machine.execTdmStartGroup p s
  | .tdmSlotMask p => Sys2Proof.Machine.execTdmSlotMask p s
  | .tdmRestart p => Sys2Proof.Machine.execTdmRestart p s
  | .audioStatus p => Sys2Proof.Machine.execAudioStatus p s
  | .headConfig p => Sys2Proof.Machine.execHeadConfig p s
  | .layerConfig p => Sys2Proof.Machine.execLayerConfig p s
  | .lutLoad p => Sys2Proof.Machine.execLutLoad p s
  | .flip p => Sys2Proof.Machine.execFlip p s
  | .flipGroup p => Sys2Proof.Machine.execFlipGroup p s
  | .headStatus p => Sys2Proof.Machine.execHeadStatus p s
  | .engineAssign p => Sys2Proof.Machine.execEngineAssign p s
  | .engineParam p => Sys2Proof.Machine.execEngineParam p s
  | .displayListSubmit p => Sys2Proof.Machine.execDisplayListSubmit p s
  | .fenceQuery p => Sys2Proof.Machine.execFenceQuery p s
  | .engineStatus p => Sys2Proof.Machine.execEngineStatus p s
  | .faultRead p => Sys2Proof.Machine.execFaultRead p s
  | .faultAck p => Sys2Proof.Machine.execFaultAck p s
  | .faultSeveritySet p => Sys2Proof.Machine.execFaultSeveritySet p s
  | .faultForce p => Sys2Proof.Machine.execFaultForce p s
  | .checkInvert p => Sys2Proof.Machine.execCheckInvert p s
  | .ledgerRead p => Sys2Proof.Machine.execLedgerRead p s
  | .storeRead p => Sys2Proof.Machine.execStoreRead p s
  | .storeWrite p => Sys2Proof.Machine.execStoreWrite p s
  | .imageBegin p => Sys2Proof.Machine.execImageBegin p s
  | .imageChunk p => Sys2Proof.Machine.execImageChunk p s
  | .imageStatus p => Sys2Proof.Machine.execImageStatus p s
  | .imageVerify p => Sys2Proof.Machine.execImageVerify p s
  | .activate p => Sys2Proof.Machine.execActivate p s
  | .confirmHealth p => Sys2Proof.Machine.execConfirmHealth p s
  | .settingsConfirm p => Sys2Proof.Machine.execSettingsConfirm p s
  | .keySlotWrite p => Sys2Proof.Machine.execKeySlotWrite p s
  | .keySlotStatus p => Sys2Proof.Machine.execKeySlotStatus p s
  | .attest p => Sys2Proof.Machine.execAttest p s
  | .lifecycleAdvance p => Sys2Proof.Machine.execLifecycleAdvance p s
  | .twinPair p => Sys2Proof.Machine.execTwinPair p s
  | .twinRole p => Sys2Proof.Machine.execTwinRole p s
  | .twinStatus p => Sys2Proof.Machine.execTwinStatus p s
  | .twinSwap p => Sys2Proof.Machine.execTwinSwap p s
  | .countersRead p => Sys2Proof.Machine.execCountersRead p s
  | .probeRead p => Sys2Proof.Machine.execProbeRead p s
  | .tempRead p => Sys2Proof.Machine.execTempRead p s
  | .docentEnable p => Sys2Proof.Machine.execDocentEnable p s
  | .ringTailWrite ring tail published readError => Sys2Proof.Machine.execRingTailWrite ring tail published readError s
  | .ringSizeWrite ring value => Sys2Proof.Machine.execRingSizeWrite ring value s
  | .replyHeadWrite value => Sys2Proof.Machine.execReplyHeadWrite value s
  | .replyWrite => Sys2Proof.Machine.execReplyWrite s
  | .sessionResetDoorbell value => Sys2Proof.Machine.execSessionResetDoorbell value s
  | .irqStatusClear value => Sys2Proof.Machine.execIrqStatusClear value s
  | .irqMaskWrite value => Sys2Proof.Machine.execIrqMaskWrite value s
  | .uptimeLoRead => Sys2Proof.Machine.execUptimeLoRead s
  | .hangSnapCapture value => Sys2Proof.Machine.execHangSnapCapture value s
  | .timeSnapCapture value => Sys2Proof.Machine.execTimeSnapCapture value s
  | .remap => Sys2Proof.Machine.execRemap s
  | .sysctlRestart => Sys2Proof.Machine.execSysctlRestart s
  | .wdogKick value => Sys2Proof.Machine.execWdogKick value s
  | .bmErrInfoClear value => Sys2Proof.Machine.execBmErrInfoClear value s
  | .bmErrCountRead master => Sys2Proof.Machine.execBmErrCountRead master s
  | .registerWrite master addr width value => Sys2Proof.Machine.execRegisterWrite master addr width value s
  | .powerOnReset => Sys2Proof.Machine.execPowerOnReset s
  | .rootLock => Sys2Proof.Machine.execRootLock s
  | .deviceReset cause => Sys2Proof.Machine.execDeviceReset cause s
  | .startPhaseAdvance obs => Sys2Proof.Machine.execStartPhaseAdvance obs s
  | .pcieReset => Sys2Proof.Machine.execPcieReset s
  | .lockstepMismatch => Sys2Proof.Machine.execLockstepMismatch s
  | .watchdogExpiry => Sys2Proof.Machine.execWatchdogExpiry s
  | .confirmTimeout => Sys2Proof.Machine.execConfirmTimeout s
  | .commandServiceResumed => Sys2Proof.Machine.execCommandServiceResumed s
  | .slowRestart => Sys2Proof.Machine.execSlowRestart s
  | .hangBoundary family => Sys2Proof.Machine.execHangBoundary family s
  | .cutoff family => Sys2Proof.Machine.execCutoff family s
  | .switchPoint mx dest => Sys2Proof.Machine.execSwitchPoint mx dest s
  | .presentationPoint family => Sys2Proof.Machine.execPresentationPoint family s
  | .flipPoint family => Sys2Proof.Machine.execFlipPoint family s
  | .restateTimeout => Sys2Proof.Machine.execRestateTimeout s
  | .idleTimeout session => Sys2Proof.Machine.execIdleTimeout session s
  | .blockSlotTx lane rawBits => Sys2Proof.Machine.execBlockSlotTx lane rawBits s
  | .fabricBlockRx lane slot => Sys2Proof.Machine.execFabricBlockRx lane slot s
  | .retryTimeout lane => Sys2Proof.Machine.execRetryTimeout lane s
  | .huntTimeout lane => Sys2Proof.Machine.execHuntTimeout lane s
  | .fallbackStageTimer lane => Sys2Proof.Machine.execFallbackStageTimer lane s
  | .fabricSourceTimeout source => Sys2Proof.Machine.execFabricSourceTimeout source s
  | .lanePllLoss gallery ref => Sys2Proof.Machine.execLanePllLoss gallery ref s
  | .cdrLock lane rate => Sys2Proof.Machine.execCdrLock lane rate s
  | .sdiSignalLoss lane why => Sys2Proof.Machine.execSdiSignalLoss lane why s
  | .sdiLineRx lane line => Sys2Proof.Machine.execSdiLineRx lane line s
  | .sdiFrameRx lane frame => Sys2Proof.Machine.execSdiFrameRx lane frame s
  | .sdiOutputFrameStart lane arrivalNs fillPercent slip => Sys2Proof.Machine.execSdiOutputFrameStart lane arrivalNs fillPercent slip s
  | .portFrameRx port frame => Sys2Proof.Machine.execPortFrameRx port frame s
  | .pauseExpiry port => Sys2Proof.Machine.execPauseExpiry port s
  | .linkLoss port up => Sys2Proof.Machine.execLinkLoss port up s
  | .legDown flow legB => Sys2Proof.Machine.execLegDown flow legB s
  | .audioFlowSilence flow channel => Sys2Proof.Machine.execAudioFlowSilence flow channel s
  | .packetizerPacket flow written => Sys2Proof.Machine.execPacketizerPacket flow written s
  | .heldPacketExpiry flow legB => Sys2Proof.Machine.execHeldPacketExpiry flow legB s
  | .ctrlDropTimeout queue => Sys2Proof.Machine.execCtrlDropTimeout queue s
  | .schedulerPick port => Sys2Proof.Machine.execSchedulerPick port s
  | .frameTxComplete port => Sys2Proof.Machine.execFrameTxComplete port s
  | .headLate queue => Sys2Proof.Machine.execHeadLate queue s
  | .flushSweepComplete queue => Sys2Proof.Machine.execFlushSweepComplete queue s
  | .tripleApply => Sys2Proof.Machine.execTripleApply s
  | .ptpMeasurement masterRate => Sys2Proof.Machine.execPtpMeasurement masterRate s
  | .portBecomesSlave port slave => Sys2Proof.Machine.execPortBecomesSlave port slave s
  | .refselAdopt value => Sys2Proof.Machine.execRefselAdopt value s
  | .activityLoss candidate glitch => Sys2Proof.Machine.execActivityLoss candidate glitch s
  | .activityRegained candidate => Sys2Proof.Machine.execActivityRegained candidate s
  | .frequencyGate readings rootOffset => Sys2Proof.Machine.execFrequencyGate readings rootOffset s
  | .loopLocked => Sys2Proof.Machine.execLoopLocked s
  | .xoInLoss => Sys2Proof.Machine.execXoInLoss s
  | .freqValidReturn => Sys2Proof.Machine.execFreqValidReturn s
  | .refFpEdge input rootCycle => Sys2Proof.Machine.execRefFpEdge input rootCycle s
  | .refFpTimeout input => Sys2Proof.Machine.execRefFpTimeout input s
  | .audioGridPeriod sources din => Sys2Proof.Machine.execAudioGridPeriod sources din s
  | .zcTimeout port transmit slot => Sys2Proof.Machine.execZcTimeout port transmit slot s
  | .tdmPortStart port => Sys2Proof.Machine.execTdmPortStart port s
  | .engineInvocation engine run => Sys2Proof.Machine.execEngineInvocation engine run s
  | .kernelLoadComplete engine => Sys2Proof.Machine.execKernelLoadComplete engine s
  | .engineSwitch engine => Sys2Proof.Machine.execEngineSwitch engine s
  | .engineStop engine cause => Sys2Proof.Machine.execEngineStop engine cause s
  | .listCommandTimeout engine => Sys2Proof.Machine.execListCommandTimeout engine s
  | .engineTakeover engine => Sys2Proof.Machine.execEngineTakeover engine s
  | .displayListRun engine => Sys2Proof.Machine.execDisplayListRun engine s
  | .fenceSignal engine => Sys2Proof.Machine.execFenceSignal engine s
  | .faultRaise source => Sys2Proof.Machine.execFaultRaise source s
  | .ledgerCheck => Sys2Proof.Machine.execLedgerCheck s
  | .eccUncorrected site => Sys2Proof.Machine.execEccUncorrected site s
  | .thermalThreshold sensor tenths => Sys2Proof.Machine.execThermalThreshold sensor tenths s
  | .railOutOfTolerance rail => Sys2Proof.Machine.execRailOutOfTolerance rail s
  | .bankWriteComplete good => Sys2Proof.Machine.execBankWriteComplete good s
  | .bitmapWriteTimer => Sys2Proof.Machine.execBitmapWriteTimer s
  | .twinStateTx => Sys2Proof.Machine.execTwinStateTx s
  | .twinStateRx message => Sys2Proof.Machine.execTwinStateRx message s
  | .partnerLost => Sys2Proof.Machine.execPartnerLost s
  | .twinCommandRx twinSeq packet => Sys2Proof.Machine.execTwinCommandRx twinSeq packet s
  | .partnerFailoverN => Sys2Proof.Machine.execPartnerFailoverN s
  | .partnerHbLoss => Sys2Proof.Machine.execPartnerHbLoss s
  | .swapPoint => Sys2Proof.Machine.execSwapPoint s
  | .docentHelp => Sys2Proof.Machine.execDocentHelp s
  | .docentStatus => Sys2Proof.Machine.execDocentStatus s
  | .docentFaults args => Sys2Proof.Machine.execDocentFaults args s
  | .docentLedger => Sys2Proof.Machine.execDocentLedger s
  | .docentLanes args => Sys2Proof.Machine.execDocentLanes args s
  | .docentTime => Sys2Proof.Machine.execDocentTime s
  | .docentRef => Sys2Proof.Machine.execDocentRef s
  | .docentPeek args => Sys2Proof.Machine.execDocentPeek args s
  | .docentPoke args => Sys2Proof.Machine.execDocentPoke args s
  | .docentTraceOn => Sys2Proof.Machine.execDocentTraceOn s
  | .docentTraceOff => Sys2Proof.Machine.execDocentTraceOff s
  | .docentTraceDump args => Sys2Proof.Machine.execDocentTraceDump args s
  | .docentReset => Sys2Proof.Machine.execDocentReset s
  | .extest => Sys2Proof.Machine.execExtest s
  | .idcode => Sys2Proof.Machine.execIdcode s
  | .samplePreload => Sys2Proof.Machine.execSamplePreload s
  | .clamp => Sys2Proof.Machine.execClamp s
  | .highz => Sys2Proof.Machine.execHighz s
  | .dbgAccess write addr value => Sys2Proof.Machine.execDbgAccess write addr value s
  | .dbgUnlock => Sys2Proof.Machine.execDbgUnlock s
  | .bypass => Sys2Proof.Machine.execBypass s
  | .testLogicReset => Sys2Proof.Machine.execTestLogicReset s
  | .prbsCheckerRx lane bits => Sys2Proof.Machine.execPrbsCheckerRx lane bits s
  | .adaptationFreeze lane => Sys2Proof.Machine.execAdaptationFreeze lane s
  | .xoInRestored => Sys2Proof.Machine.execXoInRestored s
  | .lanePllLock gallery ref => Sys2Proof.Machine.execLanePllLock gallery ref s
  | .pcieLinkUp => Sys2Proof.Machine.execPcieLinkUp s
  | .twinReplyRx twinSeq status hang => Sys2Proof.Machine.execTwinReplyRx twinSeq status hang s
  | .trapQueueService gallery => Sys2Proof.Machine.execTrapQueueService gallery s
  | .ptpMessageInterval port message => Sys2Proof.Machine.execPtpMessageInterval port message s
  | .docentCharacterRx char => Sys2Proof.Machine.execDocentCharacterRx char s
  | .docentOutputDrained => Sys2Proof.Machine.execDocentOutputDrained s

end Sys2Proof.Machine
end

