-- ==== Sys2Proof/Machine/Step.lean ====
section
/-! DEFINITION. Step.lean: one step of the block, and the command that a word spells put in front. -/

namespace Sys2Proof.Machine

/-- A step takes the command at the front of the queue. With none waiting, one TIMECLK cycle passes.
(DESIGN CHOICE, log entry 1; DESIGN CHOICE, log entry 141.) -/
def step (s : State) : Host.Outcome State Fault Refusal :=
  match s.pending with
  | [] => .next (idle s)
  | c :: rest => exec c { s with pending := rest }

/-- Put the command that a word spells in front of the queue. -/
def State.withFetchWord (s : State) (nbits w : Nat) : State :=
  match decodeTableWord nbits w with
  | some c => { s with pending := c :: s.pending }
  | none => s

end Sys2Proof.Machine
end

