-- ==== Sys2Proof/Safety.lean ====
section
/-! DEFINITION. Safety.lean: what counts as a safe run, and the words in which the statements speak of a
host command: when it passes every check, what a reply may touch, and what has been answered. -/

namespace Sys2Proof

open Machine

/-- The machine goes on from a state: its next step is neither a fault nor a refusal. -/
def Safe (s : State) : Prop := ∃ t, Machine.step s = .next t

/-- The machine goes on for k steps. -/
def SafeFor : Nat → State → Prop
  | 0, _ => True
  | k + 1, s => ∃ t, Machine.step s = .next t ∧ SafeFor k t

namespace Machine

/-! ## Host commands (R373) -/

/-- The command belongs to a stream, whose sequence it consumes (R365, R367). -/
def inStream (o : OpSpec) (p : Packet) : Bool := decide (o.rule ≠ .names) && sess p != 0

/-- The state that the effect of a fresh command meets: the packet out of its queue, its sequence
consumed. -/
def taken (o : OpSpec) (p : Packet) (s : State) : State :=
  let s := takeFromQueues { opcode := o.code, body := p } s
  if inStream o p then consumeSeq p s else s

/-- A command that passes checks 1 to 8 of R373 as a fresh one, while its server runs, no earlier reply
of its stream is owed, and no packet waits unread in a ring. -/
structure Runs (o : OpSpec) (p : Packet) (s : State) : Prop where
  served : serves o s = true
  front : frontGate o p (takeFromQueues { opcode := o.code, body := p } s) = .go (inStream o p)
  cls : classCheck o p = none
  room : busyNow o (takeFromQueues { opcode := o.code, body := p } s) = false
  checks : opcodeChecks o p (taken o p s) = none
  alone : (streamOf (sessionOf s (sess p)) p.cls.toNat).owed = []
  noUnread : ∀ c, (ringOf s c).unread = []

/-- The replies posted on a transport, oldest first. -/
def posted (s : State) (e : Endpoint) : List Reply :=
  match e with | .pcie => s.cmd.waiting | _ => s.cmd.left

/-- The last reply posted on the command's transport is its reply, with an answer (R364). -/
def Answered (o : OpSpec) (p : Packet) (a : Answer) (t : State) : Prop :=
  ∃ l, posted t p.endpoint = l ++ [firstReply (replyHeader o.code p) a]

/-- A state with everything blanked that a reply, a mirrored copy or the consumption of a sequence may
touch: sessions and replies, interrupts, egress queues and cells, message channels, the fault sources,
the hold, and the twin unit's role, swap and mirror. Two states with the same `settled` agree on
everything else. -/
def settled (s : State) : State :=
  { s with
    cmd := { s.cmd with waiting := [], left := [], sessions := [], workQueue := [], takeQueue := [],
                        irqStatus := 0, msixPending := 0, messages := [] }
    pkt := { s.pkt with queues := [], pool := {} }
    fab := { s.fab with links := [] }
    flt := { s.flt with sources := [], hold := [] }
    twin := { s.twin with active := false, swap := none, cancelled := [], txSeq := 0, mirrored := 0,
                          mirrorDropped := 0, awaiting := [] } }

/-- A state without its command channel: everything that a command read from a ring leaves to its own
effect. -/
def beyondCmd (s : State) : State := { s with cmd := {} }

/-- What a command leaves behind beside its reply: a state that agrees with `e` on all that a reply may not
touch, and, for a command read from a ring and not mirrored, on everything but the command channel. -/
def Leaves (p : Packet) (e t : State) : Prop :=
  settled t = settled e ∧ (p.endpoint = .pcie → mirrorFlag p = false → beyondCmd t = beyondCmd e)

/-- A host command goes on to a next state, leaves `e` behind, and is answered at once with `a`. -/
def Effects (o : OpSpec) (p : Packet) (s : State) (i : Instr) (e : State) (a : Answer) : Prop :=
  ∃ t, exec i s = .next t ∧ Leaves p e t ∧ Answered o p a t

/-- The reply of a command is owed: it follows a later event (R364). -/
def Owing (p : Packet) (t : State) : Prop :=
  (streamOf (sessionOf t (sess p)) p.cls.toNat).owed = [(p.seq, none)]

/-- A host command goes on to a next state, leaves `e` behind, and owes its reply. -/
def Defers (p : Packet) (s : State) (i : Instr) (e : State) : Prop :=
  ∃ t, exec i s = .next t ∧ Leaves p e t ∧ Owing p t

/-! ## Which command is which opcode (R384) -/

/-- The opcode and the packet of a command that the host sends as a packet. -/
def hostCommand : Instr → Option (OpSpec × Packet)
  | .sessionOpen p => some (specSessionOpen, p)
  | .sessionClose p => some (specSessionClose, p)
  | .sessionReset p => some (specSessionReset, p)
  | .restateBegin p => some (specRestateBegin, p)
  | .restateCommit p => some (specRestateCommit, p)
  | .ping p => some (specPing, p)
  | .identify p => some (specIdentify, p)
  | .takeVideo p => some (specTakeVideo, p)
  | .takeAudio p => some (specTakeAudio, p)
  | .takeAnc p => some (specTakeAnc, p)
  | .takeBundle p => some (specTakeBundle, p)
  | .hangAt p => some (specHangAt, p)
  | .unstage p => some (specUnstage, p)
  | .protectSet p => some (specProtectSet, p)
  | .destConfig p => some (specDestConfig, p)
  | .sourceConfig p => some (specSourceConfig, p)
  | .destLock p => some (specDestLock, p)
  | .hangRefConfig p => some (specHangRefConfig, p)
  | .laneConfig p => some (specLaneConfig, p)
  | .laneBringup p => some (specLaneBringup, p)
  | .lanePrbs p => some (specLanePrbs, p)
  | .laneStatus p => some (specLaneStatus, p)
  | .laneEq p => some (specLaneEq, p)
  | .fabricMap p => some (specFabricMap, p)
  | .fabricPlanePair p => some (specFabricPlanePair, p)
  | .fabricStatus p => some (specFabricStatus, p)
  | .sdiInConfig p => some (specSdiInConfig, p)
  | .sdiOutConfig p => some (specSdiOutConfig, p)
  | .framesyncConfig p => some (specFramesyncConfig, p)
  | .sdiStatus p => some (specSdiStatus, p)
  | .macConfig p => some (specMacConfig, p)
  | .trapPatternSet p => some (specTrapPatternSet, p)
  | .flowRxAdd p => some (specFlowRxAdd, p)
  | .flowRxDel p => some (specFlowRxDel, p)
  | .flowTxAdd p => some (specFlowTxAdd, p)
  | .flowTxDel p => some (specFlowTxDel, p)
  | .queueConfig p => some (specQueueConfig, p)
  | .pausePolicy p => some (specPausePolicy, p)
  | .macCounters p => some (specMacCounters, p)
  | .timeRead p => some (specTimeRead, p)
  | .timeAdjust p => some (specTimeAdjust, p)
  | .ptpPortConfig p => some (specPtpPortConfig, p)
  | .asymmetrySet p => some (specAsymmetrySet, p)
  | .pathStepAccept p => some (specPathStepAccept, p)
  | .refConfig p => some (specRefConfig, p)
  | .refStatus p => some (specRefStatus, p)
  | .dpllConfig p => some (specDpllConfig, p)
  | .pulseConfig p => some (specPulseConfig, p)
  | .pulseRealign p => some (specPulseRealign, p)
  | .audioEmbedConfig p => some (specEmbed, p)
  | .audioDeembedConfig p => some (specDeembed, p)
  | .tdmPortConfig p => some (specTdmPort, p)
  | .tdmStartGroup p => some (specGroup, p)
  | .tdmSlotMask p => some (specSlotMask, p)
  | .tdmRestart p => some (specRestart, p)
  | .audioStatus p => some (specAudioStatus, p)
  | .headConfig p => some (specHeadConfig, p)
  | .layerConfig p => some (specLayerConfig, p)
  | .lutLoad p => some (specLutLoad, p)
  | .flip p => some (specFlip, p)
  | .flipGroup p => some (specFlipGroup, p)
  | .headStatus p => some (specHeadStatus, p)
  | .engineAssign p => some (specAssign, p)
  | .engineParam p => some (specParam, p)
  | .displayListSubmit p => some (specSubmit, p)
  | .fenceQuery p => some (specQuery, p)
  | .engineStatus p => some (specEngineStatus, p)
  | .faultRead p => some (specFaultRead, p)
  | .faultAck p => some (specFaultAck, p)
  | .faultSeveritySet p => some (specSeverity, p)
  | .faultForce p => some (specForce, p)
  | .checkInvert p => some (specInvert, p)
  | .ledgerRead p => some (specLedgerRead, p)
  | .storeRead p => some (specStoreRead, p)
  | .storeWrite p => some (specStoreWrite, p)
  | .imageBegin p => some (specImageBegin, p)
  | .imageChunk p => some (specImageChunk, p)
  | .imageStatus p => some (specImageStatus, p)
  | .imageVerify p => some (specImageVerify, p)
  | .activate p => some (specActivate, p)
  | .confirmHealth p => some (specConfirmHealth, p)
  | .settingsConfirm p => some (specSettingsConfirm, p)
  | .keySlotWrite p => some (specKeySlot, p)
  | .keySlotStatus p => some (specKeySlotStatus, p)
  | .attest p => some (specAttest, p)
  | .lifecycleAdvance p => some (specLifecycle, p)
  | .twinPair p => some (specTwinPair, p)
  | .twinRole p => some (specTwinRole, p)
  | .twinStatus p => some (specTwinStatus, p)
  | .twinSwap p => some (specTwinSwap, p)
  | .countersRead p => some (specCountersRead, p)
  | .probeRead p => some (specProbeRead, p)
  | .tempRead p => some (specTempRead, p)
  | .docentEnable p => some (specDocentEnable, p)
  | _ => none

/-- What follows the handling of a host command in the same step: the completions that a restate commit has
made due (R178). -/
def afterReply : Instr → State → State
  | .restateCommit _, s => sendDue s
  | _, s => s

/-- A host command that its server reads, not one that the twin has forwarded, with no packet waiting unread in a
ring. -/
def Arrives (i : Instr) (o : OpSpec) (p : Packet) (s : State) : Prop :=
  hostCommand i = some (o, p) ∧ (∀ q, p.endpoint ≠ .twin q) ∧ serves o s = true ∧ ∀ c, (ringOf s c).unread = []

/-- A command that is answered, has no effect, and leaves every session as it was (R373). -/
def TurnedAway (i : Instr) (o : OpSpec) (p : Packet) (s : State) (a : Answer) : Prop :=
  ∃ t, exec i s = .next (afterReply i t) ∧ Leaves p s t ∧ Answered o p a t ∧ ∀ n, sessionOf t n = sessionOf s n

/-- The expected sequence of a command's stream (R367). -/
def expectedSeq (p : Packet) (s : State) : Word := (streamOf (sessionOf s (sess p)) p.cls.toNat).expected

/-- A command that is answered and has no effect, and whose sequence is consumed (R367, R373). -/
def Refused (i : Instr) (o : OpSpec) (p : Packet) (s : State) (a : Answer) : Prop :=
  ∃ t, exec i s = .next (afterReply i t) ∧ Leaves p s t ∧ Answered o p a t
    ∧ expectedSeq p t = if inStream o p then expectedSeq p s + 1 else expectedSeq p s

/-! ## The bus -/

/-- The low w bytes of a value stand at an address of the memory behind the bus and every other byte reads as before;
the queue link RAM keeps its own, and in the cell pool only the bytes of stored frames change. -/
def Written (w v a : Nat) (s u : State) : Prop :=
  (∀ i < w, inLinks (a + i) = false → busByte u (a + i) = (leBytes w v).getD i 0) ∧
  (∀ b, (b < a ∨ a + w ≤ b ∨ inLinks b = true) → busByte u b = busByte s b) ∧
  { u.aud with memory := s.aud.memory } = s.aud ∧ { u.flt with invert := s.flt.invert } = s.flt ∧
  { u.pkt with queues := s.pkt.queues, ports := s.pkt.ports } = s.pkt ∧
  (∀ q, { queueOf u q with frames := [] } = { queueOf s q with frames := [] }
    ∧ (queueOf u q).frames.map (fun f => { f with data := [] }) = (queueOf s q).frames.map (fun f => { f with data := [] })) ∧
  (∀ n, { portOf u n with sending := none } = { portOf s n with sending := none }) ∧
  ((∀ i < w, inPool (a + i) = false) → u.pkt = s.pkt)

end Machine

end Sys2Proof
end

