-- ==== Sys2Proof/Certificates/Slice0/Obligations.lean ====
section
/-! DEFINITION. Obligations.lean: what is claimed of the device, rule by rule; each claim stands for a prover. -/

open Sys2Proof Sys2Proof.Machine

set_option linter.unusedVariables false

/-! ## The queue, reset, and what every step keeps -/

/-- A step with a command in front of the queue is that command's effect on the state with the queue's rest. With an
empty queue the device idles for one TIMECLK cycle, which the counter counts once ROOT has locked (R32). That an empty
queue stands for one cycle is the model's choice (log entry 1). -/
def Obligations.FrontCommandRuns : Prop :=
  (∀ (c : Instr) (rest : List Instr) (s : State), s.pending = c :: rest →
    Machine.step s = Machine.exec c { s with pending := rest }) ∧
  (∀ s : State, s.pending = [] →
    (s.chip.rootLocked = true →
      Machine.step s = .next { s with time := { s.time with count := s.time.count + 1 } }) ∧
    (s.chip.rootLocked = false → Machine.step s = .next s))

/-- Whatever a command does, it leaves the queue behind it as it stands, so that commands are taken first in,
first out, and none is lost or added. The queue is the model's own (log entry 1). -/
def Obligations.StepTakesOnlyTheFront : Prop :=
  ∀ s t : State, Machine.step s = .next t → t.pending = s.pending.tail

/-- Every step keeps the byte memories, the bus's and that behind BAR2, in their canonical form: addresses
strictly rising, no entry equal to what an unlisted address reads as. -/
def Obligations.MemoryKeepsCanonicalForm : Prop :=
  ∀ s t : State, memWf s.mem = true → memWf s.bar2 = true → Machine.step s = .next t →
    memWf t.mem = true ∧ memWf t.bar2 = true

/-- The fuses of the life cycle only burn: no step, a reset or a power-on among them, takes back PROVISIONED,
RETIRED, or an entry into or exit from FIELD_DEBUG (R514: the state is held in fuses). -/
def Obligations.FusesOnlyBurn : Prop :=
  ∀ s t : State, Machine.step s = .next t →
    (s.life.provisioned = true → t.life.provisioned = true) ∧
    (s.life.retired = true → t.life.retired = true) ∧
    s.life.entries ≤ t.life.entries ∧ s.life.exits ≤ t.life.exits

/-! ## The front desk (R355 to R376) -/

/-- Checks 1 to 5 of R373 in their order: a command that fails one is answered with that check's status, has no
effect, and consumes no sequence. -/
def Obligations.EarlyChecksAnswerInOrder : Prop :=
  ∀ (i : Instr) (o : OpSpec) (p : Packet) (s : State), Arrives i o p s →
    (crc32c (packetBody o.code p) ≠ p.crc → TurnedAway i o p s badCrc) ∧
    (crc32c (packetBody o.code p) = p.crc →
      (p.params.length ≠ p.paramLength.toNat ∨ o.lengthOk p = false) → TurnedAway i o p s badLength) ∧
    (crc32c (packetBody o.code p) = p.crc → p.params.length = p.paramLength.toNat → o.lengthOk p = true →
      (p.version ≠ 1 ∨ p.flags &&& 0xFFFC ≠ 0 ∨ p.rsvd17 ≠ 0 ∨ p.rsvd20 ≠ 0) →
      TurnedAway i o p s (badParam 0xFFFF)) ∧
    (formChecks o p = none → o.rule = .bound →
      (sess p = 0 ∨ 16 < sess p ∨ (sessionOf s (sess p)).isOpen = false
        ∨ (sessionOf s (sess p)).endpoint ≠ p.endpoint) → TurnedAway i o p s staleSession) ∧
    (formChecks o p = none → o.rule ≠ .names → 1 ≤ sess p → sess p ≤ 16 → (sessionOf s (sess p)).isOpen = true →
      (sessionOf s (sess p)).endpoint = p.endpoint → p.cls.toNat ≤ 3 → 16 < (expectedSeq p s - p.seq).toNat →
      standingBusy s (streamOf (sessionOf s (sess p)) p.cls.toNat) = none →
      TurnedAway i o p s (outOfSequence (expectedSeq p s)))

/-- Checks 6 to 8 of R373 in their order: a fresh command that fails one is answered with that check's status,
has no effect, and its sequence is consumed. -/
def Obligations.LaterChecksConsumeTheSequence : Prop :=
  ∀ (i : Instr) (o : OpSpec) (p : Packet) (s : State), Arrives i o p s → frontGate o p s = .go (inStream o p) →
    (streamOf (sessionOf s (sess p)) p.cls.toNat).owed = [] →
    (p.cls.toNat ≠ o.cls → Refused i o p s (badOpcode 1)) ∧
    (p.cls.toNat = o.cls → p.endpoint = .pcie → p.ring.val ≠ o.cls → Refused i o p s (badOpcode 2)) ∧
    (classCheck o p = none → busyNow o (takeFromQueues { opcode := o.code, body := p } s) = false →
      (o.auth = true → (sessionOf s (sess p)).authenticated = false → Refused i o p s (denied 0)) ∧
      ((o.auth = true → (sessionOf s (sess p)).authenticated = true) →
        (inHold s = true → holdAllows o.code.toNat = false → Refused i o p s (denied 2)) ∧
        ((inHold s = true → holdAllows o.code.toNat = true) →
          (o.lockedOut p (taken o p s) = true → Refused i o p s (locked (lifeState s))) ∧
          (o.lockedOut p (taken o p s) = false → mirrorCheck o p = none →
            ∀ a, o.checks p (taken o p s) = some a → Refused i o p s a))))

/-- A duplicate receives its cached reply again, with REPLAY set and no results, and is not executed again; one
without a cached reply is handled as if its sequence were the expected one, and consumes none (R368). The
stream keeps the headers of its last 16 replies. -/
def Obligations.DuplicateIsReplayed : Prop :=
  (∀ (i : Instr) (o : OpSpec) (p : Packet) (s : State), Arrives i o p s → formChecks o p = none →
    o.rule ≠ .names → 1 ≤ sess p → sess p ≤ 16 → (sessionOf s (sess p)).isOpen = true →
    (sessionOf s (sess p)).endpoint = p.endpoint → p.cls.toNat ≤ 3 →
    1 ≤ (expectedSeq p s - p.seq).toNat → (expectedSeq p s - p.seq).toNat ≤ 16 →
    (∀ r, cachedReply (streamOf (sessionOf s (sess p)) p.cls.toNat) p.seq = some r →
      ∃ t, exec i s = .next (afterReply i t) ∧ settled t = settled s ∧ (∀ n, sessionOf t n = sessionOf s n)
        ∧ ∃ l, posted t r.endpoint = l ++ [{ r with replay := true, results := [] }]) ∧
    (cachedReply (streamOf (sessionOf s (sess p)) p.cls.toNat) p.seq = none →
      exec i s = .next (afterReply i
        (readRings (executeCommand o false p (takeFromQueues { opcode := o.code, body := p } s)))))) ∧
  (∀ (r : Reply) (t : Stream), (cacheReply r t).cache = ({ r with results := [] } :: t.cache).take 16)

/-- A BULK or DIAG command read with fewer than 16 of the 64 places of the work queue free, or past its opcode's own
limit, is answered BUSY with a hint of 1 to 65,535 µs; it consumes no sequence, and its stream stands under that hint
(R375). A command whose server does not run stays where it is: nothing happens (R376). The take gate serves class
TAKE, the Curator every other class. -/
def Obligations.FullWorkQueueAnswersBusy : Prop :=
  (∀ (i : Instr) (o : OpSpec) (p : Packet) (s : State), Arrives i o p s → frontGate o p s = .go true →
    classCheck o p = none → (o.cls = 2 ∨ o.cls = 3) →
    (48 < (takeFromQueues { opcode := o.code, body := p } s).cmd.workQueue.length
      ∨ overLimit o (takeFromQueues { opcode := o.code, body := p } s) = true) →
    ∃ t hint, 1 ≤ hint ∧ hint ≤ 65535 ∧ exec i s = .next (afterReply i t)
      ∧ settled t = settled { s with draws := s.draws + 1 } ∧ Answered o p (busy hint) t
      ∧ expectedSeq p t = expectedSeq p s
      ∧ (streamOf (sessionOf t (sess p)) p.cls.toNat).busy
          = some (hint, s.time.count + BitVec.ofNat 64 (594 * hint))) ∧
  (∀ (i : Instr) (o : OpSpec) (p : Packet) (s : State), hostCommand i = some (o, p) →
    (o.cls = 0 → s.chip.dataPlaneReady = false → exec i s = .next (afterReply i s)) ∧
    (o.cls ≠ 0 → s.chip.curatorServing = false → exec i s = .next (afterReply i s)))

/-! ## Sessions (R365 to R371, R388, R389) -/

/-- SESSION_OPEN opens the session it names for its endpoint, with every stream's expected sequence at 1, and
answers with the session's BAR2 window; an authenticated open needs a good MAC, uses up the endpoint's nonce,
and a bad one is DENIED and raises the authentication source (R365, R388, R457). Other sessions stay. -/
def Obligations.SessionOpenOpens : Prop :=
  ∀ (p : Packet) (s : State), Runs specSessionOpen p s →
    let window := if p.endpoint = .pcie then leBytes 4 ((sess p - 1) * 4194304) ++ leBytes 4 4194304 else leBytes 8 0
    let opened : Session := { isOpen := true, endpoint := p.endpoint, idleTimeout := u16 p 0,
                              window := (sessionOf s (sess p)).window || p.endpoint == .pcie }
    (u8 p 2 = 0 →
      ∃ t, exec (.sessionOpen p) s = .next t ∧ Leaves p s t ∧ Answered specSessionOpen p (done window) t
        ∧ sessionOf t (sess p) = opened ∧ ∀ n, n ≠ sess p → sessionOf t n = sessionOf s n) ∧
    (u8 p 2 = 1 → authRefused s = false → openMacGood s p = true →
      ∃ t, exec (.sessionOpen p) s = .next t ∧ Leaves p (spendNonce p.endpoint (checkSlot (u8 p 3) s)) t
        ∧ Answered specSessionOpen p (done window) t
        ∧ sessionOf t (sess p) = { opened with authenticated := true, keySlot := u8 p 3, debugSlot := underTestRoot s }
        ∧ ∀ n, n ≠ sess p → sessionOf t n = sessionOf s n) ∧
    (u8 p 2 = 1 → authRefused s = false → openMacGood s p = false →
      ∃ t, exec (.sessionOpen p) s = .next t
        ∧ Leaves p (note 0x0E 3 (spendNonce p.endpoint (checkSlot (u8 p 3) s))) t
        ∧ Answered specSessionOpen p (denied 0) t ∧ ∀ n, sessionOf t n = sessionOf s n) ∧
    (∀ c, (streamOf opened c).expected = 1)

/-- SESSION_CLOSE, SESSION_RESET, IDLE_TIMEOUT and the doorbell close sessions: a closed session keeps its BAR2
window and nothing else, its restate is discarded, and a reset drops its waiting commands and no others; the doorbell
resets every session bound to the PCIe rings, empties the rings and raises SESSION_RESET (R366, R370, R371). Until ROOT
has locked, a write of the doorbell does nothing (R32). -/
def Obligations.SessionsClose : Prop :=
  (∀ (p : Packet) (s : State), Runs specSessionClose p s →
    ∃ t, exec (.sessionClose p) s = .next t ∧ Leaves p (dropRestate (sess p) s) t
      ∧ Answered specSessionClose p (done []) t
      ∧ sessionOf t (sess p) = { window := (sessionOf s (sess p)).window }
      ∧ ∀ n, n ≠ sess p → sessionOf t n = sessionOf s n) ∧
  (∀ (p : Packet) (s : State), Runs specSessionReset p s →
    ∃ t, exec (.sessionReset p) s = .next t ∧ Leaves p (dropRestate (sess p) s) t
      ∧ Answered specSessionReset p (done []) t
      ∧ sessionOf t (sess p) = { window := (sessionOf s (sess p)).window }
      ∧ (∀ n, n ≠ sess p → sessionOf t n = sessionOf s n)
      ∧ t.cmd.workQueue = s.cmd.workQueue.filter (fun h => sess h.body != sess p)
      ∧ t.cmd.takeQueue = s.cmd.takeQueue.filter (fun h => sess h.body != sess p)) ∧
  (∀ (n : Fin 17) (s : State), (sessionOf s n.val).isOpen = true → (sessionOf s n.val).idleTimeout ≠ 0 →
    exec (.idleTimeout n) s = .next (dropRestate n.val (putSession s n.val { window := (sessionOf s n.val).window }))) ∧
  (∀ (n : Fin 17) (s : State), ((sessionOf s n.val).isOpen = false ∨ (sessionOf s n.val).idleTimeout = 0) →
    exec (.idleTimeout n) s = .next s) ∧
  (∀ (v : Word) (s : State), v.getLsbD 0 = true → s.chip.rootLocked = true →
    let ended := fun (n : Nat) =>
      decide (1 ≤ n ∧ n ≤ 16) && (sessionOf s n).isOpen && (sessionOf s n).endpoint == .pcie
    ∃ t, exec (.sessionResetDoorbell v) s = .next t
      ∧ (∀ n, sessionOf t n = if ended n then { window := (sessionOf s n).window } else sessionOf s n)
      ∧ t.mtx.restate = s.mtx.restate.filter (fun r => !ended r.session)
      ∧ t.cmd.workQueue = s.cmd.workQueue.filter (fun h => !ended (sess h.body))
      ∧ t.cmd.takeQueue = s.cmd.takeQueue.filter (fun h => !ended (sess h.body))
      ∧ (∀ c, (ringOf t c).unread = [] ∧ (ringOf t c).head = 0 ∧ (ringOf t c).tail = 0
          ∧ (ringOf t c).baseLo = (ringOf s c).baseLo ∧ (ringOf t c).baseHi = (ringOf s c).baseHi
          ∧ (ringOf t c).size = (ringOf s c).size)
      ∧ t.cmd.waiting = [] ∧ t.cmd.irqStatus.getLsbD 2 = true
      ∧ ({ t with mtx := { t.mtx with restate := none }, cmd := {} } : State)
          = { s with mtx := { s.mtx with restate := none }, cmd := {} }) ∧
  (∀ (v : Word) (s : State), (v.getLsbD 0 = false ∨ s.chip.rootLocked = false) →
    exec (.sessionResetDoorbell v) s = .next s)

/-! ## Restates (R176 to R179) -/

/-- RESTATE_BEGIN opens the restate for its session; commands of its session that it collects are answered
ACCEPTED with hang 0 (settings: DONE) and staged nowhere; a restate that is 600 s old is discarded (R176, R179). -/
def Obligations.RestateCollects : Prop :=
  (∀ (p : Packet) (s : State), Runs specRestateBegin p s →
    Effects specRestateBegin p s (.restateBegin p)
      { s with mtx := { s.mtx with restate := some { session := sess p, openedAt := s.time.count } } } (done [])) ∧
  (∀ (i : Instr) (o : OpSpec) (p : Packet) (r : Restate) (s : State),
    (i, o) ∈ [(.takeVideo p, specTakeVideo), (.takeAudio p, specTakeAudio), (.takeAnc p, specTakeAnc),
              (.takeBundle p, specTakeBundle), (.protectSet p, specProtectSet)] →
    Runs o p s → s.mtx.restate = some r → r.session = sess p →
    Effects o p s i
      { s with mtx := { s.mtx with
          restate := some { r with collected := r.collected ++ [{ opcode := o.code, body := p }] } } }
      (accepted 0 p.family.toNat)) ∧
  (∀ (i : Instr) (o : OpSpec) (p : Packet) (r : Restate) (s : State),
    (i, o) ∈ [(.destConfig p, specDestConfig), (.sourceConfig p, specSourceConfig), (.destLock p, specDestLock)] →
    Runs o p s → s.mtx.restate = some r → r.session = sess p →
    Effects o p s i
      { s with mtx := { s.mtx with
          restate := some { r with collected := r.collected ++ [{ opcode := o.code, body := p }] } } } (done [])) ∧
  (∀ (r : Restate) (s : State), s.mtx.restate = some r →
    exec .restateTimeout s = .next
      (if 600 * 594000000 ≤ (s.time.count - r.openedAt).toNat then { s with mtx := { s.mtx with restate := none } }
       else s)) ∧
  (∀ s : State, s.mtx.restate = none → exec .restateTimeout s = .next s)

/-- RESTATE_COMMIT ends the restate. Entries for later hangs on the destinations that it names are unstaged; the
settings that differ wait for their hangs; of the takes what differs then is staged, one take a destination. It answers
DONE, or LATE where the target's cutoff had passed, with the destinations that differ, those named and unchanged, those
that lost an entry, and the first and last hang used (R177, R178, R389); the completions that it makes due follow its
reply. It touches the matrices, the take counts and the Reserve alone. A restate that says nothing stages nothing. -/
def Obligations.RestateCommitAnswers : Prop :=
  ∀ (p : Packet) (r : Restate) (s : State), Runs specRestateCommit p s → s.mtx.restate = some r →
    let fam := p.family.toNat
    let u := taken specRestateCommit p s
    let hang := commitHangOf u p
    let view := restatedView u p r
    let said := statedOf view r
    let sets := settingDiffs u view p said
    let (s2, lost) := unstageLater u p said
      { u with mtx := { u.mtx with nextCmd := u.mtx.nextCmd + 1, restate := none } }
    let (s3, more) := prepareSettings sets s2
    let takes := takeDiffs s3 view p said
    let waits := sets.map (fun e =>
      ({ family := e.1, hang := hang e.1, cmd := u.mtx.nextCmd, change := e.2.2 } : SettingDue))
    let (s4, used, gone) := stageDiffs p u.mtx.nextCmd (commitHang u p).2 hang takes
      { s3 with mtx := { s3.mtx with settings := s3.mtx.settings ++ waits } }
    let differ := (takes.map (fun d => d.unit) ++ sets.filterMap (fun e => e.2.1)).dedup
    let same := ((said.units.map (fun x => x.2)).dedup).filter (fun x => !differ.contains x)
    let hangs := usedIn u fam (commitHang u p).1 (sets.map (fun e => (e.1, hang e.1, hang e.1)) ++ used)
    ∃ t e, exec (.restateCommit p) s = .next (sendDue t) ∧ Leaves p e t
      ∧ Answered specRestateCommit p
          { status := if (commitHang u p).2 then 0x0101 else 0, hang := hangs.1, family := fam,
            results := leBytes 4 differ.length ++ leBytes 4 same.length ++ leBytes 4 (lost ++ more ++ gone).dedup.length
              ++ leBytes 4 hangs.1.toNat ++ leBytes 4 hangs.2.toNat } t
      ∧ ({ e with mtx := { e.mtx with owed := s.mtx.owed } } : State) = { s4 with mtx := { s4.mtx with owed := s.mtx.owed } }
      ∧ e.mtx.restate = none
      ∧ settled { e with mtx := s.mtx, led := s.led, reserveFree := s.reserveFree } = settled s
      ∧ (r.collected = [] → differ = [] ∧ same = [] ∧ lost ++ more ++ gone = []
          ∧ hangs = ((commitHang u p).1, (commitHang u p).1)
          ∧ e.reserveFree = s.reserveFree ∧ e.mtx.video = s.mtx.video
          ∧ e.mtx.anc = s.mtx.anc ∧ e.mtx.audio = s.mtx.audio ∧ e.mtx.settings = s.mtx.settings)

/-! ## Takes (R151 to R160, R164, R172) -/

/-- A take command outside a restate stages every move of its entries at its hang, or HELD under its tag, as one
take, and answers ACCEPTED or LATE with that hang. It changes no selection, and no destination that it does not
move (R153, R156, R164, R172). -/
def Obligations.TakesAreStaged : Prop :=
  ∀ (i : Instr) (o : OpSpec) (read : Bytes → TakeReq) (size : Nat) (p : Packet) (s : State),
    (i, o, read, size) ∈ [(.takeVideo p, specTakeVideo, readVideo, 8), (.takeAudio p, specTakeAudio, readAudio, 8),
      (.takeAnc p, specTakeAnc, readAnc, 8), (.takeBundle p, specTakeBundle, readBundle, 12),
      (.protectSet p, specProtectSet, readProtect, 12)] →
    Runs o p s → restating s (sess p) = false →
    let reqs := (entries p size).map read
    let fam := p.family.toNat
    let hang := commandHang s p reqs
    ∃ t e, exec i s = .next t ∧ Leaves p e t
      ∧ Answered o p (if p.target = 0xFFFFFFFF then accepted 0xFFFFFFFF fam else answerFor hang fam) t
      ∧ { e with mtx := s.mtx, led := s.led } = s
      ∧ e.mtx.restate = s.mtx.restate ∧ e.mtx.settings = s.mtx.settings ∧ e.mtx.families = s.mtx.families
      ∧ e.mtx.destRun = s.mtx.destRun ∧ e.mtx.sources = s.mtx.sources
      ∧ (∀ m d, (destOf e m d).active = (destOf s m d).active ∧ (destOf e m d).shadow = (destOf s m d).shadow
          ∧ (destOf e m d).lock = (destOf s m d).lock)
      ∧ (∀ m d, (∀ r ∈ reqs, ∀ x ∈ movesOf s r, (x.1, x.2.1) ≠ (m, d)) → destOf e m d = destOf s m d)
      ∧ (∀ r, reqs = [r] → ∀ x ∈ movesOf s r, ∃ y ∈ (destOf e x.1 x.2.1).staged,
          y.source = x.2.2 ∧ y.kind = r.kind ∧ y.family = fam ∧ y.session = sess p ∧ y.take = s.mtx.nextTake
            ∧ y.aim = if p.target = 0xFFFFFFFF then Aim.held r.tag else Aim.hang hang.1)

/-- HANG_AT gives every entry that its session holds under the tag, at a destination of its family, the hang, and
answers with it and the number of takes; UNSTAGE takes the selected staged entries out, leaves loaded ones, and answers
with both counts. Neither changes a selection (R157, R158). -/
def Obligations.HeldTakesAreReleasedAndUnstaged : Prop :=
  (∀ (p : Packet) (s : State), Runs specHangAt p s →
    let fam := p.family.toNat
    let f := heldBy s (sess p) (u16 p 0) fam
    (takesWhere s f = [] → Effects specHangAt p s (.hangAt p) s (done (leBytes 4 0))) ∧
    (takesWhere s f ≠ [] →
      ∃ t e, exec (.hangAt p) s = .next t ∧ Leaves p e t
        ∧ Answered specHangAt p
            { answerFor (hangAtHang s p) fam with results := leBytes 4 (takesWhere s f).length } t
        ∧ { e with mtx := s.mtx, led := s.led } = s
        ∧ (∀ m d, (destOf e m d).active = (destOf s m d).active ∧ (destOf e m d).shadow = (destOf s m d).shadow
            ∧ (destOf e m d).lock = (destOf s m d).lock)
        ∧ (∀ m d, ∀ y ∈ (destOf e m d).staged, f m d y = false)
        ∧ (∀ m d, (∀ y ∈ (destOf s m d).staged, f m d y = false) → destOf e m d = destOf s m d)
        ∧ (∀ m d, ∀ x, (destOf s m d).staged.find? (f m d) = some x → ∃ y ∈ (destOf e m d).staged,
            y.source = x.source ∧ y.take = x.take ∧ y.family = fam ∧ y.aim = .hang (hangAtHang s p).1))) ∧
  (∀ (p : Packet) (s : State), Runs specUnstage p s →
    ∃ t e, exec (.unstage p) s = .next t ∧ Leaves p e t
      ∧ Answered specUnstage p
          (done (leBytes 4 (((allEntries s).map (fun x => x.take)).dedup.filter
              (fun k => !((allEntries e).map (fun x => x.take)).contains k)).length
            ++ leBytes 4 (tooLate p s).length)) t
      ∧ settled { e with mtx := s.mtx, led := s.led } = settled s
      ∧ (∀ m d, destOf e m d = { destOf s m d with
          staged := (destOf s m d).staged.filter (fun x => !unstagePick s p m d x) }))

/-! ## Settings of the matrices (R137 to R140, R163 to R171) -/

/-- DEST_LOCK locks or unlocks one destination and SOURCE_CONFIG sets one source, at once; DEST_CONFIG sets one
destination, its FAMILY, BOND and audio run from the next frame start where its family runs. None changes a
selection (R166, R167, R171, R391). -/
def Obligations.MatrixSettingsApply : Prop :=
  (∀ (p : Packet) (s : State), Runs specDestLock p s → restating s (sess p) = false →
    let m := matrixCode (u8 p 2)
    Effects specDestLock p s (.destLock p)
      (putDest s m (u16 p 0) { destOf s m (u16 p 0) with lock := if u8 p 3 = 1 then some (sess p) else none })
      (done [])) ∧
  (∀ (p : Packet) (s : State), Runs specSourceConfig p s → restating s (sess p) = false →
    ∃ t e, exec (.sourceConfig p) s = .next t ∧ Leaves p e t ∧ Answered specSourceConfig p (done []) t
      ∧ sourceCfg e (u16 p 0) = readSourceCfg s p ∧ (∀ n, n ≠ u16 p 0 → sourceCfg e n = sourceCfg s n)
      ∧ (∀ m d, destOf e m d = destOf s m d)
      ∧ settled { e with fab := { e.fab with tx := s.fab.tx }, mtx := s.mtx,
                         set := { e.set with sources := s.set.sources } } = settled s) ∧
  (∀ (p : Packet) (s : State), Runs specDestConfig p s → restating s (sess p) = false →
    let d := u16 p 0
    let c := readDestCfg s p
    let old := destCfg s d
    let waits := (c.family ≠ old.family ∨ c.bond ≠ old.bond ∨ c.run ≠ old.run) ∧ familyOn s (destFamily s d) = true
    ∃ t e, exec (.destConfig p) s = .next t ∧ Leaves p e t ∧ Answered specDestConfig p (done []) t
      ∧ (waits → destCfg e d = { c with family := old.family, bond := old.bond, run := old.run }
          ∧ (destRun e d).pendingCfg = some c)
      ∧ (¬ waits → destCfg e d = c ∧ (destRun e d).pendingCfg = none)
      ∧ (∀ n, n ≠ d → destCfg e n = destCfg s n)
      ∧ (∀ m k, (destOf e m k).active = (destOf s m k).active ∧ (destOf e m k).shadow = (destOf s m k).shadow
          ∧ (destOf e m k).lock = (destOf s m k).lock)
      ∧ e.reserveFree = s.reserveFree + old.depth * frameBuffer - c.depth * frameBuffer
      ∧ settled { e with fab := { e.fab with tx := s.fab.tx }, mtx := s.mtx, led := s.led, reserveFree := s.reserveFree,
                         set := { e.set with dests := s.set.dests } } = settled s)

/-- HANG_REF_CONFIG: a new CUTOFF of a running family waits; enabling a family, or changing the rate of an unused
one, places its boundaries and numbers under the active triple; disabling it leaves only what its realignments
counted. Other families stay (R137, R140). -/
def Obligations.HangReferencesAreSet : Prop :=
  ∀ (p : Packet) (s : State), Runs specHangRefConfig p s →
    let n := u8 p 0
    let old := familyCfg s n
    let c : FamilyCfg := { enable := u8 p 1 == 1, rate := u8 p 2, cutoff := orDefault (u16 p 4) 250 }
    let put := fun (t : State) => { t with set := { t.set with families := tset familyCfgDefault t.set.families n c } }
    (old.enable = true → c.enable = true → old.rate = c.rate →
      Effects specHangRefConfig p s (.hangRefConfig p)
        (putFamily s n { familyOf s n with newCutoff := if c.cutoff = old.cutoff then none else some (c.cutoff, 1) })
        (done [])) ∧
    (c.enable = false →
      Effects specHangRefConfig p s (.hangRefConfig p)
        (put (putFamily s n { realigns := (familyOf s n).realigns, lastShift := (familyOf s n).lastShift,
                              lastNumber := (familyOf s n).lastNumber })) (done [])) ∧
    (c.enable = true → (old.enable = false ∨ old.rate ≠ c.rate) →
      ∃ t e, exec (.hangRefConfig p) s = .next t ∧ Leaves p e t ∧ Answered specHangRefConfig p (done []) t
        ∧ familyCfg e n = c
        ∧ (let i := hangIndexAt s.time.triple c.rate (rootNow s)
           let b := boundaryRoot s.time.triple c.rate i
           let f := familyOf e n
           f.hang = BitVec.ofInt 32 i ∧ f.boundary = b ∧ f.realign = none ∧ f.newCutoff = none
             ∧ f.cutoffPassed = decide (b + periodRoot c.rate - 4752 * c.cutoff ≤ rootNow s))
        ∧ (∀ k, k ≠ n → familyOf e k = familyOf s k ∧ familyCfg e k = familyCfg s k)
        ∧ settled { e with mtx := { e.mtx with families := s.mtx.families },
                           set := { e.set with families := s.set.families } } = settled s)

/-! ## Events of the hangs (R139, R146 to R152) -/

/-- At a family's cutoff every entry that targets its next hang is loaded into its destination's shadow selection;
selections stay, and the rest of the staging stays (R152). -/
def Obligations.CutoffLoadsShadows : Prop :=
  (∀ (fam : Fin 4) (s : State), familyOn s fam.val = true → (familyOf s fam.val).cutoffPassed = false →
    let n := nextNumber s fam.val (familyOf s fam.val).hang
    ∃ t, exec (.cutoff fam) s = .next t
      ∧ (familyOf t fam.val).cutoffPassed = true
      ∧ (∀ m d, m ≠ Matrix.audio → destOf t m d =
          match (destOf s m d).staged.find? (loadsAt s fam.val n) with
          | none => destOf s m d
          | some x => { destOf s m d with
              staged := (destOf s m d).staged.filter (fun y => !loadsAt s fam.val n y)
              shadow := some (loadedEntry n x), ready := false })
      ∧ (∀ d, (destOf t .audio d).active = (destOf s .audio d).active
          ∧ (∀ x, (destOf s .audio d).staged.find? (loadsAt s fam.val n) = some x →
              (destOf t .audio d).shadow.map (fun y => y.source) = some x.source)
          ∧ ((destOf s .audio d).staged.find? (loadsAt s fam.val n) = none →
              (destOf t .audio d).staged = (destOf s .audio d).staged))
      ∧ (∀ k, k ≠ fam.val → familyOf t k = familyOf s k)
      ∧ settled { t with mtx := s.mtx, aud := s.aud, set := { t.set with families := s.set.families } } = settled s) ∧
  (∀ (fam : Fin 4) (s : State), (familyOn s fam.val = false ∨ (familyOf s fam.val).cutoffPassed = true) →
    exec (.cutoff fam) s = .next s)

/-- At its switch point a loaded selection whose frame has begun becomes active; a loaded protection setting takes
effect without changing the selection; an audio channel becomes ready for the next grid period. Other
destinations of the matrix keep their selections. The frame of a container destination that shows a fabric source is
the one whose FRAME_START announces the hang. An output that is past field 1 has no switch point, and numbers without a
destination have none (R147 to R150, R152). -/
def Obligations.SwitchPointMovesSelection : Prop :=
  (∀ (d : Fin 32768) (x : Entry) (s : State), d.val < 2304 → (destRun s d.val).pendingCfg = none →
    (destOf s .video d.val).shadow = some x → switchesNow s d.val = true →
    frameReached s d.val (match x.kind with | .take => x.source | .protect .. => (destOf s .video d.val).active) x = true →
    ∃ t, exec (.switchPoint .video d) s = .next t
      ∧ (x.kind = .take → destOf t .video d.val = { destOf s .video d.val with active := x.source, shadow := none })
      ∧ (∀ a b w, x.kind = .protect a b w →
          destOf t .video d.val = { destOf s .video d.val with shadow := none }
            ∧ (destRun t d.val).protSource = x.source ∧ (destRun t d.val).revert = a
            ∧ (destRun t d.val).followAudio = b ∧ (destRun t d.val).wtr = w)
      ∧ (destRun t d.val).onProtection = false
      ∧ ∀ k, k ≠ d.val → destOf t .video k = destOf s .video k) ∧
  (∀ (d : Fin 32768) (x : Entry) (s : State), d.val < 2304 → (destOf s .anc d.val).shadow = some x →
    switchesNow s d.val = true → frameReached s d.val (destOf s .video d.val).active x = true →
    ∃ t, exec (.switchPoint .anc d) s = .next t
      ∧ destOf t .anc d.val = { destOf s .anc d.val with active := x.source, shadow := none }
      ∧ (∀ k, k ≠ d.val → destOf t .anc k = destOf s .anc k)
      ∧ (∀ k, destOf t .video k = destOf s .video k) ∧ settled { t with mtx := s.mtx, sdi := s.sdi } = settled s) ∧
  (∀ (d : Fin 32768) (x : Entry) (s : State), (destOf s .audio d.val).shadow = some x →
    (let k := (assocDest s d.val).getD 2304
     frameReached s k (destOf s .video k).active x = true) →
    exec (.switchPoint .audio d) s = .next (putDest s .audio d.val { destOf s .audio d.val with ready := true })) ∧
  (∀ (m : Matrix) (d : Fin 32768) (s : State), m ≠ Matrix.audio → (2304 ≤ d.val ∨ switchesNow s d.val = false) →
    exec (.switchPoint m d) s = .next s) ∧
  (∀ (s : State) (d n : Nat) (x : Entry) (h : Word), d < 1280 → n < 1280 → sourceUsable s n = true →
    (fabricSource s n).family = x.family → x.aim = .hang h →
    frameReached s d (some n) x = !later h (fabricSource s n).hang)

/-- A hang boundary gives the family its next number, moves the boundary on by one period or to where a computed
realignment puts it, reopens the cutoff and raises the family's hang interrupt; other families stay. A family that
is not enabled has no boundaries (R139, R277). -/
def Obligations.BoundaryAdvancesFamily : Prop :=
  (∀ (fam : Fin 4) (s : State), familyOn s fam.val = true →
    ∃ t, exec (.hangBoundary fam) s = .next t
      ∧ (familyOf t fam.val).hang = nextNumber s fam.val (familyOf s fam.val).hang
      ∧ (familyOf t fam.val).cutoffPassed = false
      ∧ (familyOf t fam.val).boundary = (familyOf s fam.val).boundary + periodRoot (familyRate s fam.val)
          + (match (familyOf s fam.val).realign with
              | some { target := m, computed := some (d, _), .. } =>
                  if m = (familyOf s fam.val).hang + 1 then d else 0
              | _ => 0)
      ∧ t.cmd.irqStatus.getLsbD (8 + fam.val) = true
      ∧ ∀ k, k ≠ fam.val → familyOf t k = familyOf s k) ∧
  (∀ (fam : Fin 4) (s : State), familyOn s fam.val = false → exec (.hangBoundary fam) s = .next s)

/-- At a family's presentation point the settings that waited for a destination's frame start apply, and every
usable frame synchronizer of the family presents its newest complete frame; hang numbers stay (R120, R167). -/
def Obligations.PresentationAppliesAndPresents : Prop :=
  (∀ (fam : Fin 4) (s : State), familyOn s fam.val = true →
    ∃ t, exec (.presentationPoint fam) s = .next t
      ∧ (∀ d c, (destRun s d).pendingCfg = some c → destFamily s d = fam.val →
          destCfg t d = c ∧ (destRun t d).pendingCfg = none)
      ∧ (∀ e, isSdi s e = true → (sdiInCfg s e).mode = 2 → (sdiInCfg s e).family = fam.val →
          (sdiInOf s e).state = .usable → (sdiInOf s e).completed ≠ 0 →
          (isHalf s fam.val (sdiInOf s e).detected && (familyOf s fam.val).hang.getLsbD 0) = false →
          (sdiInOf t e).completed = 0 ∧ (sdiInOf t e).haveFrame = true ∧ (sdiInOf t e).usablePending = false
            ∧ (sdiInOf t e).frozen = false)
      ∧ (∀ k, familyOf t k = familyOf s k)) ∧
  (∀ (fam : Fin 4) (s : State), familyOn s fam.val = false → exec (.presentationPoint fam) s = .next s)

/-! ## Lanes (R45 to R74, R541) -/

/-- LANE_CONFIG resets its lane and starts it in the state of its mode, with counters cleared and, on a fabric
lane, the link as at reset but for the segments in progress of a pair, which a lane without one loses with its lock;
overrides survive only an unchanged mode and rate, a FROZEN receiver keeps its taps, and what the lane's sources
isolated ends. LANE_BRINGUP starts a lane again, by the mode in which it runs, which of a lane that ETH100 binds is
ETH100 (model's choice, log entry 144), and keeps its settings, counters and attempts (R51, R62, R66, R72, R96, R427,
R541). -/
def Obligations.LanesAreConfiguredAndBroughtUp : Prop :=
  (∀ (p : Packet) (s : State), Runs specLaneConfig p s →
    let l := u16 p 0
    let c := readLaneCfg p
    ∃ t e, exec (.laneConfig p) s = .next t ∧ Leaves p e t ∧ Answered specLaneConfig p (done []) t
      ∧ laneCfg e l = c
      ∧ laneOf e l = { state := startState c.mode, rate := c.rate, adaptFrozen := decide (adaptMode e l = 2)
                       dfe := if adaptMode e l = 2 then (laneOf s l).dfe else [] }
      ∧ (l < 256 → { linkOf e l with segments := [] } = {})
      ∧ (l < 256 → pairWith s l = none → laneLocked s l = true → (linkOf e l).segments = [])
      ∧ eqOf e l = (if c.mode = (laneCfg s l).mode ∧ c.rate = (laneCfg s l).rate then eqOf s l else {})
      ∧ (faultOf e (laneFault l)).isolating = false
      ∧ (∀ k, k ≠ l → laneCfg e k = laneCfg s k ∧ eqOf e k = eqOf s k)
      ∧ (∀ k, (k < l ∨ l + 3 < k ∨ (l < 256 ∧ k ≠ l)) → laneOf e k = laneOf s k)
      ∧ (∀ m d, destOf e m d = destOf s m d)
      ∧ settled { e with draws := s.draws, fab := s.fab, mtx := s.mtx, pkt := s.pkt, ref := s.ref, sdi := s.sdi,
                         set := { e.set with lanes := s.set.lanes, eq := s.set.eq } } = settled s) ∧
  (∀ (p : Packet) (s : State), Runs specLaneBringup p s →
    let l := u16 p 0
    let m := laneMode s l
    (m = 0 → Effects specLaneBringup p s (.laneBringup p) (endLaneIsolation l s) (done [])) ∧
    (m ≠ 0 →
      ∃ t e, exec (.laneBringup p) s = .next t ∧ Leaves p e t ∧ Answered specLaneBringup p (done []) t
        ∧ laneOf e l = { state := if l < 256 then .hunt else startState m, rate := (laneCfg s l).rate,
                         counters := (laneOf s l).counters, attempts := (laneOf s l).attempts,
                         prbs := { prbsReload (laneOf s l).prbs with gen := none, genBits := 0 }
                         adaptFrozen := decide (adaptMode e l = 2)
                         dfe := if adaptMode e l = 2 then (laneOf s l).dfe else [] }
        ∧ (l < 256 → (linkOf e l).txSlot = 0 ∧ (linkOf e l).txCal = 0 ∧ (linkOf e l).rxPos = none)
        ∧ (faultOf e (laneFault l)).isolating = false
        ∧ (∀ k, k ≠ l → { laneOf e k with sent := (laneOf s k).sent } = laneOf s k
            ∧ (m ≠ 4 → laneOf e k = laneOf s k))
        ∧ (∀ m d, destOf e m d = destOf s m d)
        ∧ settled { e with draws := s.draws, fab := s.fab, mtx := s.mtx, pkt := s.pkt, ref := s.ref, sdi := s.sdi }
            = settled s))

/-- LANE_PRBS sets the patterns of a lane in TEST and starts its checker anew; LANE_EQ sets the overrides that its
mask selects: in CONTINUOUS a frozen lane adapts again, in FROZEN the taps stand from now on; the checker takes the bits that reach it in TEST,
and those of FB_CHECK as bring-up says; the generator of an edge lane sends as many bits; in mode ONCE adaptation
freezes in LOCKED, once, with as many taps as the lane has (R66 to R70, R392). -/
def Obligations.LanePatternsAndEqualizersApply : Prop :=
  (∀ (p : Packet) (s : State), Runs specLanePrbs p s →
    Effects specLanePrbs p s (.lanePrbs p)
      (putLane s (u16 p 0) { laneOf s (u16 p 0) with
        prbs := { tx := u8 p 2 % 8, txInvert := decide (128 ≤ u8 p 2), rx := u8 p 3 % 8,
                  rxInvert := decide (128 ≤ u8 p 3), insert := u8 p 4 } }) (done [])) ∧
  (∀ (p : Packet) (s : State), Runs specLaneEq p s →
    let e := { s with set := { s.set with eq := tset (fun _ => {}) s.set.eq (u16 p 0) (newEq s p) } }
    let l := u16 p 0
    let v := laneOf s l
    eqOf e l = newEq s p ∧
    ((adaptMode e l = 1 ∨ (adaptMode e l = 2 ∧ v.adaptFrozen = true)) → Effects specLaneEq p s (.laneEq p) e (done [])) ∧
    (adaptMode e l = 2 → v.adaptFrozen = false → ∃ taps n, taps.length = dfeTaps s l
      ∧ Effects specLaneEq p s (.laneEq p)
          (putLane { e with draws := n } l { v with adaptFrozen := true, dfe := taps }) (done [])) ∧
    (adaptMode e l ≠ 1 → adaptMode e l ≠ 2 →
      Effects specLaneEq p s (.laneEq p) (putLane e l { v with adaptFrozen := false, dfe := [] }) (done []))) ∧
  (∀ (l : Fin 416) (bits : List Bool) (s : State), (laneOf s l.val).state = .test →
    let v := laneOf s l.val
    let seen := bits.map (fun b => xor b (rxInverts s l.val))
    let r := prbsRun v.prbs.rx v.prbs.rxInvert seen (v.prbs, v.counters)
    let e := putLane s l.val { v with prbs := r.1, counters := r.2 }
    exec (.prbsCheckerRx l bits) s = .next
      (if l.val < 256 then e else sendPattern l.val v.prbs.tx v.prbs.txInvert bits.length e)) ∧
  (∀ (l : Fin 416) (bits : List Bool) (s : State), (laneOf s l.val).state = .fbCheck →
    (laneOf s l.val).stageWaiting = false →
    exec (.prbsCheckerRx l bits) s = .next (putLane s l.val
      ((bits.map (fun b => xor b (rxInverts s l.val))).foldl stageBit (laneOf s l.val)))) ∧
  (∀ (l : Fin 416) (bits : List Bool) (s : State), (laneOf s l.val).state ≠ .test →
    ((laneOf s l.val).state ≠ .fbCheck ∨ (laneOf s l.val).stageWaiting = true) →
    exec (.prbsCheckerRx l bits) s = .next s) ∧
  (∀ (l : Fin 416) (s : State),
    (laneLocked s l.val = true → adaptMode s l.val = 1 → (laneOf s l.val).adaptFrozen = false →
      ∃ taps n, taps.length = dfeTaps s l.val ∧ exec (.adaptationFreeze l) s
        = .next (putLane { s with draws := n } l.val { laneOf s l.val with adaptFrozen := true, dfe := taps })) ∧
    ((laneLocked s l.val = false ∨ adaptMode s l.val ≠ 1 ∨ (laneOf s l.val).adaptFrozen = true) →
      exec (.adaptationFreeze l) s = .next s))

/-- The timers of bring-up: the hunt timer starts the fallback, or hunts on in mode BLIND; the stage timers lead
through the wait, the check and the verdict of each rate; a retry timer makes every cell in flight due again (R62,
R100, R102). The raise that starting a fallback makes isolates nothing below MAJOR. When a lane PLL loses lock its
source is raised and no lane that used it stays LOCKED; when it has lock again only that is recorded (R74). Until
ROOT has locked, the lane PLLs do nothing (R32). -/
def Obligations.LaneTimersMoveBringup : Prop :=
  (∀ (l : Fin 256) (s : State),
    let v := laneOf s l.val
    ((v.state = .hunt ∨ v.state = .verify) → (laneCfg s l.val).blindOnly = true →
      exec (.huntTimeout l) s = .next (putLane s l.val { v with
        state := .hunt, goodRun := 0
        counters := { v.counters with huntTimeout := sat32 v.counters.huntTimeout 1 } })) ∧
    ((v.state = .hunt ∨ v.state = .verify) → (laneCfg s l.val).blindOnly = false →
      effectiveSeverity s (laneFault l.val) < 2 →
      ∃ t, exec (.huntTimeout l) s = .next t
        ∧ laneOf t l.val = { v with
            state := .fbBase, rate := 0, goodRun := 0, attempts := v.attempts + 1, partnerCeiling := none
            partnerPass := false, counters := { v.counters with fallback := sat32 v.counters.fallback 1 } }
        ∧ (linkOf t l.val).txCapability = true ∧ (faultOf t (laneFault l.val)).sticky = true
        ∧ (∀ k, k ≠ l.val → laneOf t k = laneOf s k) ∧ settled { t with fab := s.fab } = settled s) ∧
    (v.state = .fbBase → exec (.huntTimeout l) s = .next (putLane s l.val { v with
        attempts := v.attempts + 1, counters := { v.counters with fallback := sat32 v.counters.fallback 1 } })) ∧
    (v.state ≠ .hunt → v.state ≠ .verify → v.state ≠ .fbBase → exec (.huntTimeout l) s = .next s)) ∧
  (∀ (l : Fin 256) (s : State),
    let v := laneOf s l.val
    (v.state = .fbCheck → v.stageWaiting = true →
      exec (.fallbackStageTimer l) s = .next (putLane s l.val { v with
        rate := min 3 (v.rate + 1), stageWaiting := false, stageBits := 0, stageErrors := 0, stageSync := false
        prbs := { prbsReload v.prbs with gen := none, genBits := 0, insert := 0 } })) ∧
    (v.state = .fbCheck → v.stageWaiting = false →
      exec (.fallbackStageTimer l) s = .next
        (putLink (putLane s l.val { v with
            state := .fbVerdict, goodRun := 0, ownPass := v.stageSync && v.stageErrors == 0, partnerPass := false })
          l.val { linkOf s l.val with txCapability := true })) ∧
    (v.state = .fbVerdict → (v.ownPass && v.partnerPass) = true → v.rate < agreedCeiling s l.val →
      exec (.fallbackStageTimer l) s = .next (putLane s l.val { v with
        state := .fbCheck, lastPassed := v.rate, stageWaiting := true, goodRun := 0 })) ∧
    (v.state = .fbVerdict → (v.ownPass && v.partnerPass) = true → agreedCeiling s l.val ≤ v.rate →
      exec (.fallbackStageTimer l) s = .next (putLane s l.val { v with state := .hunt, goodRun := 0 })) ∧
    (v.state = .fbVerdict → (v.ownPass && v.partnerPass) = false →
      exec (.fallbackStageTimer l) s = .next (putLane s l.val { v with
        state := .hunt, rate := v.lastPassed, goodRun := 0 })) ∧
    (v.state ≠ .fbCheck → v.state ≠ .fbVerdict → exec (.fallbackStageTimer l) s = .next s)) ∧
  (∀ (l : Fin 256) (s : State),
    let k := linkOf s l.val
    (laneLocked s l.val = true → 0 < k.inFlight → k.rewinds + 1 ≠ 16 →
      exec (.retryTimeout l) s = .next (putLink s l.val { k with
        sendCredits := k.sendCredits + k.inFlight, inFlight := 0, resend := k.retry.length
        rewinds := k.rewinds + 1 })) ∧
    (laneLocked s l.val = true → 0 < k.inFlight → k.rewinds + 1 = 16 →
      ∃ t, exec (.retryTimeout l) s = .next t ∧ (faultOf t (linkFault l.val)).sticky = true
        ∧ (linkOf t l.val).inFlight = 0 ∧ (linkOf t l.val).rewinds = 16) ∧
    ((laneLocked s l.val = false ∨ k.inFlight = 0) → exec (.retryTimeout l) s = .next s)) ∧
  (∀ (g : Fin 16) (r : LaneRef) (s : State), s.chip.rootLocked = true → pllUp s g.val r = true →
    ∃ t, exec (.lanePllLoss g r) s = .next t ∧ pllUp t g.val r = false
      ∧ (faultOf t (faultId 0x01 g.val (pllIndex r))).sticky = true
      ∧ (∀ l ∈ galleryLanes g.val, usesRefNow s r l = true → laneLocked t l = false)
      ∧ (∀ m d, destOf t m d = destOf s m d)) ∧
  (∀ (g : Fin 16) (r : LaneRef) (s : State), (pllUp s g.val r = false ∨ s.chip.rootLocked = false) →
    exec (.lanePllLoss g r) s = .next s) ∧
  (∀ (g : Fin 16) (r : LaneRef) (s : State), s.chip.rootLocked = false → exec (.lanePllLock g r) s = .next s) ∧
  (∀ (g : Fin 16) (r : LaneRef) (s : State), s.chip.rootLocked = true →
    ∃ t, exec (.lanePllLock g r) s = .next t ∧ pllUp t g.val r = true
      ∧ (∀ k q, (k ≠ g.val ∨ q ≠ r) → pllUp t k q = pllUp s k q) ∧ (∀ l, laneOf t l = laneOf s l)
      ∧ { t with fab := s.fab } = s)

/-! ## The fabric link (R52 to R106) -/

/-- FABRIC_MAP sets the plane of a fabric lane; FABRIC_PLANE_PAIR that changes a pair starts its schedule anew and
loses the sources of the lanes that join or leave; a source that stops announcing itself is lost (R75, R92, R94). -/
def Obligations.FabricSettingsApply : Prop :=
  (∀ (p : Packet) (s : State), Runs specFabricMap p s →
    Effects specFabricMap p s (.fabricMap p)
      { s with set := { s.set with planes := tset (fun _ => false) s.set.planes (u8 p 0) (u8 p 1 == 1) } } (done [])) ∧
  (∀ (p : Packet) (s : State), Runs specFabricPlanePair p s →
    let k := 8 * u8 p 0 + u8 p 1
    let lanes := if u8 p 3 = 0xFF then none else some (u8 p 2, u8 p 3)
    ((pairCfg s k).lanes = lanes → Effects specFabricPlanePair p s (.fabricPlanePair p) s (done [])) ∧
    ((pairCfg s k).lanes ≠ lanes →
      ∃ t e, exec (.fabricPlanePair p) s = .next t ∧ Leaves p e t ∧ Answered specFabricPlanePair p (done []) t
        ∧ (pairCfg e k).lanes = lanes ∧ pairOf e k = {} ∧ (∀ j, j ≠ k → pairCfg e j = pairCfg s j ∧ pairOf e j = pairOf s j)
        ∧ (∀ a b, lanes = some (a, b) →
            ((linkOf e (16 * (k / 8) + b)).txSlot, (linkOf e (16 * (k / 8) + b)).txCal)
              = ((linkOf s (16 * (k / 8) + a)).txSlot, (linkOf s (16 * (k / 8) + a)).txCal))
        ∧ (∀ a b c, ((pairCfg s k).lanes = some (a, b) ∨ lanes = some (a, b)) → c < 5 →
            (sourceOf e (5 * (16 * (k / 8) + a) + c)).usable = false
              ∧ (sourceOf e (5 * (16 * (k / 8) + b) + c)).usable = false)
        ∧ (∀ m d, destOf e m d = destOf s m d)
        ∧ settled { e with fab := s.fab, mtx := s.mtx, set := { e.set with pairs := s.set.pairs } } = settled s)) ∧
  (∀ (n : Fin 1280) (s : State),
    let v := fabricSource s n.val
    (v.starts = 0 → exec (.fabricSourceTimeout n) s = .next s) ∧
    (v.starts ≠ 0 → v.good = false →
      exec (.fabricSourceTimeout n) s = .next (putFabricSource s n.val
        { v with starts := 0, good := false, line := none, ancPart := [] })) ∧
    (v.starts ≠ 0 → v.good = true →
      ∃ t, exec (.fabricSourceTimeout n) s = .next t
        ∧ fabricSource t n.val = { v with starts := 0, good := false, line := none, ancPart := [] }
        ∧ (∀ k ∈ bondMembers s n.val, (sourceOf t k).usable = false)
        ∧ (∀ k ∈ bondMembers s n.val, ∀ d, shownSource s d = some k → (destRun t d).inFallback = true)
        ∧ settled { t with fab := s.fab, mtx := s.mtx } = settled s))

/-- A fabric lane that sends, sends the next block: its slot goes out on the line with its comma, stuff bits and fill,
it counts the stuff bits, and it goes on to the next slot of the calendar while the stuffing has not used one up. In
FB_CHECK it sends raw PRBS31, in TEST its pattern. A hunting receiver takes its key from a slot that shows the seed;
in LOCKED a good block counts as good, and the fourth bad one among 64 ends LOCKED. A lane in another state neither
sends nor receives blocks; a receive FIFO that fills is counted and raises the lane's source (R38, R47, R50, R52 to
R62, R68, R72, R74). That the row says so of the FIFO and how many raw bits are sent, and what a hunting receiver makes
of stuff violations, is the model's choice (log entries 36, 145 and 172). -/
def Obligations.BlocksAreSentAndReceived : Prop :=
  (∀ (f : Fin 256) (raw : Nat) (s : State),
    (laneOf s f.val).state ∈ [LaneState.hunt, .verify, .locked, .fbBase, .fbVerdict] →
    (laneOf s f.val).stuffLag < 8432 →
    let at0 := linkOf (followPrimary f.val s) f.val
    ∃ t bits, exec (.blockSlotTx f raw) s = .next t
      ∧ (laneOf t f.val).sent = lineLevels (laneOf s f.val).rate (laneCfg s f.val).txInvert (slotBits bits)
      ∧ (laneOf t f.val).counters.stuffBits = sat48 (laneOf s f.val).counters.stuffBits (stuffCount bits)
      ∧ (laneOf t f.val).counters.stuffOver
          = sat32 (laneOf s f.val).counters.stuffOver (if 128 < stuffCount bits then 1 else 0)
      ∧ (stuffCount bits ≤ 128 → ((linkOf t f.val).txSlot, (linkOf t f.val).txCal) = nextSlot (at0.txSlot, at0.txCal))
      ∧ (linkOf t f.val).sent.isSome = true
      ∧ (∀ k, k ≠ f.val → laneOf t k = laneOf s k ∧ linkOf t k = linkOf s k)) ∧
  (∀ (f : Fin 256) (raw : Nat) (s : State),
    ((laneOf s f.val).state ∈ [LaneState.reset, .down]
      ∨ ((laneOf s f.val).state = .fbCheck ∧ (laneOf s f.val).stageWaiting = true)) →
    exec (.blockSlotTx f raw) s = .next s) ∧
  (∀ (f : Fin 256) (raw : Nat) (s : State),
    ((laneOf s f.val).state = .fbCheck → (laneOf s f.val).stageWaiting = false →
      exec (.blockSlotTx f raw) s = .next (sendPattern f.val 3 false raw s)) ∧
    ((laneOf s f.val).state = .test → exec (.blockSlotTx f raw) s
      = .next (sendPattern f.val (laneOf s f.val).prbs.tx (laneOf s f.val).prbs.txInvert raw s))) ∧
  (∀ (f : Fin 256) (r : RxSlot) (k : BitVec 31) (inv : Bool) (s : State),
    (laneOf s f.val).state = .hunt → (laneOf s f.val).goodRun = 0 → r.overflow = false →
    seedOf (seenSlot (rxInverts s f.val) r) = some (k, inv) →
    exec (.fabricBlockRx f r) s = .next (putLane s f.val { laneOf s f.val with
      rxKey := k, goodRun := 1, polarityAuto := xor (laneOf s f.val).polarityAuto inv, rxOver := false
      state := .verify })) ∧
  (∀ (f : Fin 256) (r : RxSlot) (s : State),
    (laneOf s f.val).state = .hunt → (laneOf s f.val).goodRun = 0 → r.overflow = false →
    seedOf (seenSlot (rxInverts s f.val) r) = none → exec (.fabricBlockRx f r) s = .next s) ∧
  (∀ (f : Fin 256) (r : RxSlot) (s : State), (laneOf s f.val).state = .locked → r.overflow = false →
    let v := laneOf s f.val
    let b := (readBlock (seenSlot (rxInverts s f.val) r) v.rxOver v.rxKey).1
    let bad := (((b.good :: v.recent).take 64).filter (fun g => !g)).length
    (b.good = true → bad < 4 →
      ∃ t, exec (.fabricBlockRx f r) s = .next t
        ∧ (laneOf t f.val).counters.blocksGood = sat48 v.counters.blocksGood 1) ∧
    (4 ≤ bad →
      ∃ t, exec (.fabricBlockRx f r) s = .next t ∧ laneLocked t f.val = false
        ∧ (laneOf t f.val).counters.lockLoss = sat32 v.counters.lockLoss 1
        ∧ (faultOf t (laneFault f.val)).sticky = true)) ∧
  (∀ (f : Fin 256) (r : RxSlot) (s : State),
    (laneOf s f.val).state ∈ [LaneState.reset, .fbCheck, .test, .down] → r.overflow = false →
    exec (.fabricBlockRx f r) s = .next s) ∧
  (∀ (f : Fin 256) (r : RxSlot) (s : State), (laneOf s f.val).state ∈ [LaneState.fbCheck, .test] →
    r.overflow = true → laneMode s f.val ≠ 0 → exec (.fabricBlockRx f r) s = .next (fifoOverflow f.val s)) ∧
  (∀ (f : Fin 256) (s : State),
    (faultOf (fifoOverflow f.val s) (laneFault f.val)).sticky = true
      ∧ (laneOf (fifoOverflow f.val s) f.val).counters.fifoOverflow
          = sat32 (laneOf s f.val).counters.fifoOverflow 1)

/-! ## SDI (R107 to R136) -/

/-- SDI_IN_CONFIG and FRAMESYNC_CONFIG set an input, whose source is lost and whose detection starts again;
SDI_OUT_CONFIG sets an output at once, or at its next frame start where it runs and stays enabled; ENABLE 0 brings its
transmitter to electrical idle (R112, R117, R122, R123). -/
def Obligations.SdiSettingsApply : Prop :=
  (∀ (i : Instr) (o : OpSpec) (p : Packet) (s : State),
    (i, o) ∈ [(.sdiInConfig p, specSdiInConfig), (.framesyncConfig p, specFramesyncConfig)] → Runs o p s →
    let n := u8 p 0
    let c := if o.code = 0x3001 then readSdiInCfg s p else { sdiInCfg s n with freeze := u8 p 1 == 1 }
    ∃ t e, exec i s = .next t ∧ Leaves p e t ∧ Answered o p (done []) t
      ∧ sdiInCfg e n = c ∧ (∀ k, k ≠ n → sdiInCfg e k = sdiInCfg s k ∧ sdiInOf e k = sdiInOf s k)
      ∧ (sdiInOf e n).state = (if cdrLocked s n then .detecting else .noSignal)
      ∧ (sdiInOf e n).haveFrame = false ∧ (sdiInOf e n).completed = 0 ∧ (sdiInOf e n).same = 0
      ∧ (sourceOf e (1280 + n)).usable = false
      ∧ (∀ m d, destOf e m d = destOf s m d)
      ∧ settled { e with fab := { e.fab with tx := s.fab.tx }, mtx := s.mtx, sdi := s.sdi,
                         set := { e.set with sdiIn := s.set.sdiIn } } = settled s) ∧
  (∀ (p : Packet) (s : State), Runs specSdiOutConfig p s →
    let n := u8 p 0
    let c := readSdiOutCfg p
    let waits := (sdiOutOf s n).running = true ∧ (sdiOutCfg s n).enable = true ∧ c.enable = true
    (waits →
      Effects specSdiOutConfig p s (.sdiOutConfig p)
        (let e := putSdiOut s n { sdiOutOf s n with pendingCfg := some c }
         { e with set := { e.set with
            sdiOut := tset (fun _ => {}) s.set.sdiOut n { sdiOutCfg s n with defaultFormat := c.defaultFormat } } })
        (done [])) ∧
    (¬ waits →
      ∃ t e, exec (.sdiOutConfig p) s = .next t ∧ Leaves p e t ∧ Answered specSdiOutConfig p (done []) t
        ∧ sdiOutCfg e n = c ∧ (sdiOutOf e n).running = false ∧ (sdiOutOf e n).pendingCfg = none
        ∧ (∀ k, k ≠ n → sdiOutCfg e k = sdiOutCfg s k ∧ sdiOutOf e k = sdiOutOf s k)
        ∧ (∀ m d, destOf e m d = destOf s m d)
        ∧ (∀ k, laneOf e k = laneOf s k ∨ laneOf e k = { laneOf s k with sent := [] })
        ∧ (c.enable = false → (laneOf e (256 + n)).sent = [])
        ∧ settled { e with fab := { e.fab with lanes := s.fab.lanes, tx := s.fab.tx }, mtx := s.mtx, sdi := s.sdi,
                           set := { e.set with sdiOut := s.set.sdiOut } } = settled s))

/-- The receiver of an SDI lane: the clock recovered makes it detect; a lost signal loses the source, unless it
freezes, and counts a loss of lock; a lane of a quad-link input that is lost takes the input with it. Lines are counted
at the base lane, and three in a row with the TRS missing or moved end USABLE; the second of two identical frames of a
fitting structure makes the input USABLE; a payload ID that differs from the detected one, a frame of another structure, or links out of order, end that, and a frame
synchronizer collects frames (R110, R111, R112, R115, R116, R119, R120). A lane that is not in mode SDI receives
nothing, and a frame is received on its base lane. At a frame start an enabled SDI output runs: the frame that ends has
been sent on its lanes, the settings and the embedding that waited apply, its elastic stage is judged, and the new
frame's line 1 leaves at the output timing point. An output that is not enabled, or whose lane is down, starts no frame
(R123, R125, R128, R291). That the row says which way the line slips is the model's choice (log entry 169). -/
def Obligations.SdiInputsAndOutputsRun : Prop :=
  (∀ (l : Fin 160) (rate : SdiRate) (s : State), isSdi s l.val = true → (laneOf s (256 + l.val)).state ≠ .down →
    let v := laneOf s (256 + l.val)
    let e := restartAdaptation (256 + l.val)
      (putLane s (256 + l.val) { v with state := .locked, counters := { v.counters with cdrRate := some rate } })
    let i := sdiInOf s l.val
    exec (.cdrLock l rate) s = .next
      (if i.state = .noSignal then
        putSdiIn e l.val { restartDetection i with state := .detecting, reason := if i.isolated then 11 else 3 }
       else e)) ∧
  (∀ (l : Fin 160) (why : SignalLoss) (s : State), isSdi s l.val = true → why ≠ .link →
    laneLocked s (256 + l.val) = true →
    ∃ t, exec (.sdiSignalLoss l why) s = .next t ∧ laneLocked t (256 + l.val) = false
      ∧ (laneOf t (256 + l.val)).counters.lockLoss = sat32 (laneOf s (256 + l.val)).counters.lockLoss 1
      ∧ (faultOf t (laneFault (256 + l.val))).sticky = true
      ∧ (sdiInOf t l.val).state = .noSignal
      ∧ (quadMemberIn s l.val = false → freezes s l.val = false → (sourceOf t (1280 + l.val)).usable = false)
      ∧ (quadMemberIn s l.val = true → (sdiInOf s (quadBaseIn s l.val)).state = .usable →
          (sdiInOf t (quadBaseIn s l.val)).state = .detecting)
      ∧ (∀ m d, destOf t m d = destOf s m d)) ∧
  (∀ (l : Fin 160) (x : SdiLine) (s : State), isSdi s l.val = true →
    let b := quadBaseIn s l.val
    let c := (sdiInOf (countLine b (l.val - b) x s) b).counters
    let run := if trsBad x then (sdiInOf s l.val).trsRun + 1 else 0
    let runs := (sdiInOf s l.val).state ≠ .noSignal ∨ (sdiInOf s b).state = .usable
    let carries := (sdiInOf s b).state = .usable ∨ (sdiInOf s b).state = .outOfWindow
    let samePids := ∀ y ∈ x.anc, y.good = true → ancKind (receivesSd s b) y.packet = .payloadId →
      samePid ((sdiInOf s b).detected.getD 0) (packetPid y.packet) (sdiInOf s b).pid = true
    (¬ runs → exec (.sdiLineRx l x) s = .next s) ∧
    (runs → x.overflow = false → l.val = b → carries → ¬ samePids →
      ∃ t, exec (.sdiLineRx l x) s = .next t ∧ (sdiInOf t b).state = .detecting
        ∧ ((sdiInOf s b).state = .usable →
            (sdiInOf t b).counters.losses = sat32 (sdiInOf s b).counters.losses 1)) ∧
    (runs → x.overflow = false → run < 3 → (l.val = b → carries → samePids) →
      ∃ t, exec (.sdiLineRx l x) s = .next t ∧ (sdiInOf t l.val).trsRun = run
        ∧ (sdiInOf t b).state = (sdiInOf s b).state
        ∧ (sdiInOf t b).counters.trsErrors = c.trsErrors ∧ (sdiInOf t b).counters.lnErrors = c.lnErrors
        ∧ (sdiInOf t b).counters.crcErrors = c.crcErrors ∧ (sdiInOf t b).counters.audioAsync = c.audioAsync
        ∧ (∀ k, k ≠ l.val → k ≠ b → sdiInOf t k = sdiInOf s k) ∧ (∀ m d, destOf t m d = destOf s m d)) ∧
    (runs → x.overflow = false → 3 ≤ run → (sdiInOf s b).state = .usable →
      ∃ t, exec (.sdiLineRx l x) s = .next t ∧ (sdiInOf t b).state = .detecting
        ∧ (sdiInOf t b).counters.losses = sat32 (sdiInOf s b).counters.losses 1) ∧
    (runs → x.overflow = true →
      ∃ t, exec (.sdiLineRx l x) s = .next t ∧ (faultOf t (laneFault (256 + l.val))).sticky = true
        ∧ (laneOf t (256 + l.val)).counters.fifoOverflow
            = sat32 (laneOf s (256 + l.val)).counters.fifoOverflow 1)) ∧
  (∀ (l : Fin 160) (x : SdiFrame) (s : State), isSdi s l.val = true → quadMemberIn s l.val = false →
    let c := sdiInCfg s l.val
    let s1 := if x.pid.isNone then countSdiIn l.val (fun k => { k with pidAbsent := sat32 k.pidAbsent 1 }) s else s
    let i := sdiInOf s1 l.val
    let seen := { i with
      last := some (x.format, x.pid), same := if i.last = some (x.format, x.pid) then i.same + 1 else 1
      offset := sdiOffset s c.family x.format x.arrival }
    let s2 := putSdiIn s1 l.val seen
    let pid := carriedPid c.pidFill x.format x.pid
    (i.state = .noSignal → exec (.sdiFrameRx l x) s = .next s) ∧
    (i.state = .detecting → 2 ≤ seen.same → (detectVerdict s2 l.val x).1 = .usable →
      ∃ t, exec (.sdiFrameRx l x) s = .next t ∧ (sdiInOf t l.val).state = .usable
        ∧ (sdiInOf t l.val).detected = some x.format ∧ (sdiInOf t l.val).pid = pid
        ∧ (sdiInOf t l.val).offset = seen.offset
        ∧ (sdiInOf t l.val).counters.detects = sat32 i.counters.detects 1
        ∧ (c.mode ≠ 2 → (sourceOf t (1280 + l.val)).usable = true
            ∧ (sourceOf t (1280 + l.val)).format = some x.format)) ∧
    (i.state = .usable → linksGood s l.val x = true → some x.format = i.detected → pid = i.pid →
      (c.mode = 1 → withinLines x.format 16 seen.offset = true) →
      exec (.sdiFrameRx l x) s = .next (if c.mode = 2 then completeFrame l.val s2 else s2)) ∧
    (i.state = .usable → (linksGood s l.val x = false ∨ some x.format ≠ i.detected ∨ pid ≠ i.pid) →
      ∃ t, exec (.sdiFrameRx l x) s = .next t ∧ (sdiInOf t l.val).state = .detecting
        ∧ (sdiInOf t l.val).counters.losses = sat32 i.counters.losses 1) ∧
    (i.state = .usable → linksGood s l.val x = true → some x.format = i.detected → pid = i.pid → c.mode = 1 →
      withinLines x.format 16 seen.offset = false → effectiveSeverity s (sdiInFault l.val) < 2 →
      ∃ t, exec (.sdiFrameRx l x) s = .next t ∧ (sdiInOf t l.val).state = .outOfWindow
        ∧ (sdiInOf t l.val).counters.losses = sat32 i.counters.losses 1)) ∧
  (∀ (l : Fin 160) (x : SdiFrame) (s : State), quadMemberIn s l.val = true → exec (.sdiFrameRx l x) s = .next s) ∧
  (∀ (l : Fin 160) (rate : SdiRate) (why : SignalLoss) (x : SdiLine) (y : SdiFrame) (s : State), isSdi s l.val = false →
    exec (.cdrLock l rate) s = .next s ∧ exec (.sdiSignalLoss l why) s = .next s
      ∧ exec (.sdiLineRx l x) s = .next s ∧ exec (.sdiFrameRx l y) s = .next s) ∧
  (∀ (l : Fin 160) (arrival : Int) (fill : Nat) (slip : LineSlip) (s : State), isSdi s l.val = true →
    (sdiOutCfg s l.val).enable = true → (laneOf s (256 + l.val)).state ≠ .down →
    ∃ t, exec (.sdiOutputFrameStart l arrival fill slip) s = .next t
      ∧ (sdiOutOf t l.val).running = true ∧ (sdiOutOf t l.val).pendingCfg = none
      ∧ (sdiOutOf t l.val).fill = (if 90 < fill then 50 else fill) ∧ (sdiOutOf t l.val).slips = (if 90 < fill then some slip else none)
      ∧ (sdiOutOf t l.val).startAt = outputTiming t l.val
      ∧ (let o := sdiOutOf s l.val
         let sent := (sentFrame (keepPid l.val s) l.val).1
         (o.running = true → (sdiOutOf t l.val).raster = sent ∨ (sdiOutOf t l.val).raster = [])
           ∧ (o.running = true → o.pendingCfg = none →
               (sdiOutOf t l.val).raster = (if (sdiOutOf t l.val).current = o.current then sent else [])
               ∧ (laneOf t (256 + l.val)).sent = lineLevels 0 (laneCfg s (256 + l.val)).txInvert
                   (nrziBits ((linkWords o.current 0 sent).flatMap (fun w => bitsOf 10 w.toNat)) o.scrambler o.level).1))
      ∧ ((sdiOutOf s l.val).running = false → (sdiOutOf s l.val).pendingCfg = none → ∀ k, laneOf t k = laneOf s k)
      ∧ sdiOutCfg t l.val = ((sdiOutOf s l.val).pendingCfg).getD (sdiOutCfg s l.val)
      ∧ tfind t.sdi.pendingEmbed l.val = none
      ∧ (∀ c, tfind s.sdi.pendingEmbed l.val = some c → tget (fun _ => {}) t.set.embed l.val = c)
      ∧ (∀ k, k ≠ l.val → sdiOutCfg t k = sdiOutCfg s k)
      ∧ (∀ k, k < l.val ∨ l.val + 3 < k → sdiOutOf t k = sdiOutOf s k)
      ∧ (∀ k, k < 256 + l.val ∨ 259 + l.val < k → laneOf t k = laneOf s k)
      ∧ (∀ m d, destOf t m d = destOf s m d)) ∧
  (∀ (l : Fin 160) (arrival : Int) (fill : Nat) (slip : LineSlip) (s : State),
    (isSdi s l.val = false ∨ (sdiOutCfg s l.val).enable = false ∨ (laneOf s (256 + l.val)).state = .down) →
    exec (.sdiOutputFrameStart l arrival fill slip) s = .next s)


/-! ## Packet ports and flows (R182 to R211, R393, R394) -/

/-- MAC_CONFIG, TRAP_PATTERN_SET and PAUSE_POLICY set their port; a change of FEC on a port that is not 100 Gb/s takes
its link down until its lane has block lock again, and COUNT_ONLY ends a running pause (R183, R190, R194). A pattern
that the host has not set is as the firmware installs it (R191). -/
def Obligations.PortSettingsApply : Prop :=
  (∀ (p : Packet) (s : State), Runs specMacConfig p s →
    let n := u8 p 0
    let c := readMac p
    let e := { s with set := { s.set with mac := tset (fun _ => {}) s.set.mac n c } }
    ((macCfg s n).fec = c.fec ∨ portIs100 s n = true → Effects specMacConfig p s (.macConfig p) e (done [])) ∧
    ((macCfg s n).fec ≠ c.fec → portIs100 s n = false →
      ∃ t u, exec (.macConfig p) s = .next t ∧ Leaves p u t ∧ Answered specMacConfig p (done []) t
        ∧ macCfg u n = c ∧ (portOf u n).link = false ∧ laneLocked u (256 + 10 * (n / 4) + n % 4) = false
        ∧ (portOf u n).counters.linkLoss
            = (if (portOf s n).link then sat32 (portOf s n).counters.linkLoss 1 else (portOf s n).counters.linkLoss)
        ∧ (∀ k, k ≠ n → macCfg u k = macCfg s k ∧ portOf u k = portOf s k)
        ∧ (∀ k, k ≠ 256 + 10 * (n / 4) + n % 4 → laneOf u k = laneOf s k)
        ∧ settled { u with draws := s.draws, pkt := s.pkt, fab := s.fab, set := { u.set with mac := s.set.mac } }
            = settled s)) ∧
  (∀ (p : Packet) (s : State), Runs specTrapPatternSet p s →
    let v : TrapPattern :=
      { mask := BitVec.ofNat 128 (field p.params 8 16), check := BitVec.ofNat 16 (u16 p 4), action := u8 p 2 }
    Effects specTrapPatternSet p s (.trapPatternSet p)
        { s with set := { s.set with
            traps := tset (fun k => installedTrap (k % 32)) s.set.traps (32 * u8 p 0 + u8 p 1) v } } (done [])
      ∧ (∀ n i, (n, i) ≠ (u8 p 0, u8 p 1) → i < 32 → tfind s.set.traps (32 * n + i) = none →
          trapPattern s n i = installedTrap i)) ∧
  (∀ (p : Packet) (s : State), Runs specPausePolicy p s →
    let n := u8 p 0
    let e := { s with set := { s.set with honourPause := tset (fun _ => false) s.set.honourPause n (u8 p 1 == 1) } }
    (u8 p 1 = 1 ∨ (portOf s n).paused = false → Effects specPausePolicy p s (.pausePolicy p) e (done [])) ∧
    (u8 p 1 = 0 → (portOf s n).paused = true →
      Effects specPausePolicy p s (.pausePolicy p) (endPause n e) (done [])
        ∧ (portOf (endPause n e) n).paused = false ∧ (portOf (endPause n e) n).pauseQuanta = 0
        ∧ (portOf (endPause n e) n).counters.pauseTime = sat32 (portOf s n).counters.pauseTime
            ((s.time.count - (portOf s n).pauseStart).toNat * 1000 / 594)))

/-- FLOW_RX_ADD and FLOW_TX_ADD create the flow that their parameters say; FLOW_RX_DEL deletes one, loses its
sources and returns its space; FLOW_TX_DEL stops one at its family's next frame start, or at once where the family
does not run (R197, R206). -/
def Obligations.FlowsAreAddedAndDeleted : Prop :=
  (∀ (p : Packet) (s : State), Runs specFlowRxAdd p s →
    Effects specFlowRxAdd p s (.flowRxAdd p)
      (putRxFlow { s with reserveFree := s.reserveFree - flowSpace (readRxFlow p).kind (readRxFlow p).chCount }
        (u16 p 0) (readRxFlow p)) (done [])) ∧
  (∀ (p : Packet) (f : RxFlow) (s : State), Runs specFlowRxDel p s → rxFlowOf s (u16 p 0) = some f →
    ∃ t e, exec (.flowRxDel p) s = .next t ∧ Leaves p e t ∧ Answered specFlowRxDel p (done []) t
      ∧ rxFlowOf e (u16 p 0) = none ∧ (∀ k, k ≠ u16 p 0 → rxFlowOf e k = rxFlowOf s k)
      ∧ (∀ x ∈ flowSources (u16 p 0) f, (sourceOf e x).usable = false)
      ∧ (f.report = true → (audioPlays f = true ∨ (∃ x ∈ flowSources (u16 p 0) f, (sourceOf s x).usable = true)
            ∨ (f.kind = .anc ∧ ∃ k, f.slot = some k ∧ ancUsable s (slotSource (u16 p 0 / 1024) k) = true)) →
          (faultOf e (faultId 0x05 (u16 p 0 / 1024) 12)).sticky = true)
      ∧ e.reserveFree = s.reserveFree + flowSpace f.kind f.chCount
      ∧ (∀ m d, destOf e m d = destOf s m d)
      ∧ settled { e with fab := { e.fab with tx := s.fab.tx }, mtx := s.mtx, pkt := s.pkt, reserveFree := s.reserveFree }
          = settled s) ∧
  (∀ (p : Packet) (s : State), Runs specFlowTxAdd p s →
    Effects specFlowTxAdd p s (.flowTxAdd p) (putTxFlow s (u16 p 0) (readTxFlow p)) (done [])) ∧
  (∀ (p : Packet) (f : TxFlow) (s : State), Runs specFlowTxDel p s → txFlowOf s (u16 p 0) = some f →
    (familyOn s f.family = true →
      Effects specFlowTxDel p s (.flowTxDel p) (putTxFlow s (u16 p 0) { f with stopping := true }) (done [])) ∧
    (familyOn s f.family = false →
      ∃ t e, exec (.flowTxDel p) s = .next t ∧ Leaves p e t ∧ Answered specFlowTxDel p (done []) t
        ∧ txFlowOf e (u16 p 0) = none ∧ settled { e with pkt := s.pkt } = settled s))

/-- A frame that reaches a port with link counts in RECEIVED, and in exactly one of FORWARDED, TRAPPED and DROPPED by
its reason; the first reasons are a frame too short, too long or damaged, and an isolated port. A frame on which the
receive FIFO of a lane of the port filled is a damaged one, and the lane counts and raises it (R38; that the row says so
is the model's choice, log entry 36). A port that does not exist or has no link receives nothing (R184, R185, R187,
R212). -/
def Obligations.ReceivedFrameCountsOnce : Prop :=
  (∀ (n : Fin 64) (f : RxFrame) (s : State), portExists s n.val = true → (portOf s n.val).link = true →
    f.overflow = none →
    let a := (portOf s n.val).counters
    let base := countPort n.val (fun c => { c with
      rxBytes := sat32 c.rxBytes (min f.wireLength (macCfg s n.val).maxFrame)
      fecCorrected := sat32 c.fecCorrected f.fecCorrected
      fecUncorrected := sat32 c.fecUncorrected f.fecUncorrected }) s
    (∃ t, exec (.portFrameRx n f) s = .next t ∧
      let b := (portOf t n.val).counters
      b.received = sat48 a.received 1 ∧
        ((b.forwarded = sat48 a.forwarded 1 ∧ b.trapped = a.trapped ∧ b.dropped = a.dropped) ∨
         (b.forwarded = a.forwarded ∧ b.trapped = sat48 a.trapped 1 ∧ b.dropped = a.dropped) ∨
         (∃ r, r < 14 ∧ b.forwarded = a.forwarded ∧ b.trapped = a.trapped
            ∧ b.dropped = tput a.dropped r (sat48 ((tfind a.dropped r).getD 0) 1)))) ∧
    (f.wireLength < 64 → exec (.portFrameRx n f) s = .next (countDropped n.val 0 base)) ∧
    (64 ≤ f.wireLength → (macCfg s n.val).maxFrame < f.wireLength →
      exec (.portFrameRx n f) s = .next (countDropped n.val 1 base)) ∧
    (64 ≤ f.wireLength → f.wireLength ≤ (macCfg s n.val).maxFrame →
      (f.fcsOk = false ∨ f.errored = true ∨ 0 < f.fecUncorrected) →
      exec (.portFrameRx n f) s = .next (countDropped n.val 2 base)) ∧
    (64 ≤ f.wireLength → f.wireLength ≤ (macCfg s n.val).maxFrame → f.fcsOk = true → f.errored = false →
      f.fecUncorrected = 0 →
      (portOf s n.val).isolated = true → exec (.portFrameRx n f) s = .next (countDropped n.val 13 base))) ∧
  (∀ (n : Fin 64) (f : RxFrame) (k : Fin 4) (l : Nat) (s : State), portExists s n.val = true →
    (portOf s n.val).link = true → (portLanes s n.val)[k.val]? = some l → f.overflow = some k →
    ∃ t, exec (.portFrameRx n { f with errored := true, overflow := none }) s = .next t
      ∧ exec (.portFrameRx n f) s = .next (fifoOverflow l t)) ∧
  (∀ (n : Fin 64) (f : RxFrame) (s : State), (portExists s n.val = false ∨ (portOf s n.val).link = false) →
    exec (.portFrameRx n f) s = .next s)

/-- A port loses its link, cutting off what it sends and raising its source, and its lanes count a loss of lock; it
regains it unless a lane of it is in DOWN; a pause ends with its timer; a silent leg goes down and a silent channel of an audio flow carries silence, each once (R184, R194, R201,
R205, R211). The Curator takes the frames of a trap queue in order; a command frame waits while the work queue is full
(R188, R189, R192, R374). -/
def Obligations.PortAndLegEvents : Prop :=
  (∀ (n : Fin 64) (s : State),
    (∃ t, exec (.linkLoss n false) s = .next t ∧ (portOf t n.val).link = false
        ∧ ((portOf s n.val).link = true → (portOf t n.val).sending = none
            ∧ (portOf t n.val).counters.linkLoss = sat32 (portOf s n.val).counters.linkLoss 1
            ∧ (faultOf t (portFault n.val 0)).sticky = true)
        ∧ (∀ k, k ≠ n.val → portOf t k = portOf s k)
        ∧ (portExists s n.val = true → ∀ l ∈ portLanes s n.val, laneLocked t l = false
            ∧ (laneLocked s l = true → (laneOf t l).counters.lockLoss = sat32 (laneOf s l).counters.lockLoss 1
                ∧ (faultOf t (laneFault l)).sticky = true))
        ∧ (∀ l, l ∉ portLanes s n.val → laneOf t l = laneOf s l)
        ∧ ((portOf s n.val).link = false →
            (portExists s n.val = false ∨ ∀ l ∈ portLanes s n.val, laneLocked s l = false) → t = s)
        ∧ settled { t with draws := s.draws, pkt := s.pkt, fab := s.fab } = settled s) ∧
    (portExists s n.val = true → (∀ l ∈ portLanes s n.val, (laneOf s l).state ≠ .down) →
      ∃ t, exec (.linkLoss n true) s = .next t ∧ portOf t n.val = { portOf s n.val with link := true }
        ∧ (∀ l ∈ portLanes s n.val, laneLocked t l = true) ∧ (∀ l, l ∉ portLanes s n.val → laneOf t l = laneOf s l)
        ∧ { t with fab := s.fab, pkt := s.pkt } = s) ∧
    ((portExists s n.val = false ∨ ∃ l ∈ portLanes s n.val, (laneOf s l).state = .down) →
      exec (.linkLoss n true) s = .next s)) ∧
  (∀ (n : Fin 64) (s : State),
    ((portOf s n.val).paused = true → exec (.pauseExpiry n) s = .next (endPause n.val s)
      ∧ (portOf (endPause n.val s) n.val).paused = false) ∧
    ((portOf s n.val).paused = false → exec (.pauseExpiry n) s = .next s)) ∧
  (∀ (n : Fin 16384) (legB : Bool) (s : State),
    (∀ f, rxFlowOf s n.val = some f → (if legB then f.legB.isSome && f.legBUp else f.legAUp) = true →
      ∃ t, exec (.legDown n legB) s = .next t
        ∧ rxFlowOf t n.val = some (if legB then { f with legBUp := false } else { f with legAUp := false })
        ∧ (faultOf t (faultId 0x05 (n.val / 1024) 13)).sticky = true
        ∧ (∀ k, k ≠ n.val → rxFlowOf t k = rxFlowOf s k) ∧ settled { t with pkt := s.pkt } = settled s) ∧
    (∀ f, rxFlowOf s n.val = some f → (if legB then f.legB.isSome && f.legBUp else f.legAUp) = false →
      exec (.legDown n legB) s = .next s) ∧
    (rxFlowOf s n.val = none → exec (.legDown n legB) s = .next s)) ∧
  (∀ (n : Fin 16384) (c : Fin 64) (s : State),
    (∀ f, rxFlowOf s n.val = some f → f.kind = .audio → c.val < f.chCount → c.val ∉ f.silent →
      ∃ t, exec (.audioFlowSilence n c) s = .next t
        ∧ rxFlowOf t n.val = some { f with silent := f.silent ++ [c.val] }
        ∧ (f.report = true → f.silent = [] → (faultOf t (faultId 0x05 (n.val / 1024) 12)).sticky = true)
        ∧ (∀ k, k ≠ n.val → rxFlowOf t k = rxFlowOf s k) ∧ settled { t with pkt := s.pkt } = settled s) ∧
    (∀ f, rxFlowOf s n.val = some f → (f.kind ≠ .audio ∨ f.chCount ≤ c.val ∨ c.val ∈ f.silent) →
      exec (.audioFlowSilence n c) s = .next s)) ∧
  (∀ (g : Fin 16) (s : State),
    ((s.chip.curatorServing = false ∨ trapQueue s g.val = []) → exec (.trapQueueService g) s = .next s) ∧
    (∀ x rest, s.chip.curatorServing = true → trapQueue s g.val = x :: rest →
      (x.command = false → ∃ t, exec (.trapQueueService g) s = .next t
        ∧ settled { t with draws := s.draws, time := s.time } = settled (putTrapQueue s g.val rest)) ∧
      (x.command = true → framePacket (Fin.ofNat 64 x.port) x.bytes = none →
        exec (.trapQueueService g) s = .next (putTrapQueue s g.val rest)) ∧
      (∀ h, x.command = true → framePacket (Fin.ofNat 64 x.port) x.bytes = some h →
        (64 ≤ s.cmd.workQueue.length → exec (.trapQueueService g) s = .next s) ∧
        (s.cmd.workQueue.length < 64 → isOpcode h.opcode.toNat = true → h.body.endpoint ≠ .pcie →
          let u := putTrapQueue s g.val rest
          exec (.trapQueueService g) s = .next (if h.body.cls = 0
            then { u with cmd := { u.cmd with takeQueue := s.cmd.takeQueue ++ [h] } }
            else { u with cmd := { u.cmd with workQueue := s.cmd.workQueue ++ [h] } })))))

/-! ## Egress queues (R213 to R233) -/

/-- QUEUE_CONFIG sets a queue; FLUSH, or disabling it, empties it and counts what it held in FLUSHED; on a frozen
queue FLUSH starts the sweep, which the reply follows, and whose end thaws the queue and retires those of its bad
cells that no frame holds (R214, R220, R228). -/
def Obligations.QueuesAreConfiguredAndSwept : Prop :=
  (∀ (p : Packet) (s : State), Runs specQueueConfig p s → sess p ≠ 0 → (sessionOf s (sess p)).isOpen = true →
    let q := u16 p 0
    let r := queueOf s q
    let c := readQueueCfg p
    let sweeps := u8 p 6 = 1 ∧ r.frozen = true ∧ r.sweeping = none
    let empties := u8 p 6 = 1 ∨ (r.cfg.enable = true ∧ c.enable = false)
    ∃ t e, exec (.queueConfig p) s = .next t ∧ Leaves p e t
      ∧ (¬ sweeps → Answered specQueueConfig p (done []) t) ∧ (sweeps → Owing p t)
      ∧ (queueOf e q).cfg = c ∧ ((queueOf e q).sweeping.isSome = true ↔ (sweeps ∨ r.sweeping.isSome = true))
      ∧ (queueOf e q).frozen = r.frozen
      ∧ (empties → (queueOf e q).counters.flushed = sat48 r.counters.flushed r.frames.length)
      ∧ (∀ k, k ≠ q → (queueOf e k).cfg = (queueOf s k).cfg ∧ (queueOf e k).counters.flushed = (queueOf s k).counters.flushed)
      ∧ settled { e with pkt := s.pkt } = settled s) ∧
  (∀ (q : Fin 65536) (h : Reply) (s : State), (queueOf s q.val).sweeping = some h →
    ∃ t, exec (.flushSweepComplete q) s = .next t
      ∧ (queueOf t q.val).frozen = false ∧ (queueOf t q.val).sweeping = none ∧ (queueOf t q.val).stranded = []
      ∧ (let mine := ((s.pkt.pool.badCells.filter (fun x => x.1 == q.val)).map (fun x => x.2)).filter
           (fun c => (cellFrame s c).isNone)
         t.pkt.pool.gone = s.pkt.pool.gone ++ mine
           ∧ t.pkt.pool.badCells = s.pkt.pool.badCells.filter (fun x => !(x.1 == q.val && mine.contains x.2)))
      ∧ settled { t with pkt := s.pkt } = settled s) ∧
  (∀ (q : Fin 65536) (s : State), (queueOf s q.val).sweeping = none → exec (.flushSweepComplete q) s = .next s)

/-- A flow's packet in writing is linked to the tail of its queue. The next packet that the flow builds is linked to
its leg's queue where the queue admits it and its EOP cell is written, kept with its cells in flight where it is
admitted and not yet written, held where it is refused, and discarded and counted where the queue is frozen; a
stopped flow ends where its next frame would start. A
held packet that is late is discarded and counted in WRITE_LATE; a control frame still refused after 1 ms, of the
writer that has waited longer (model's choice, log entry 190), is dropped and counted in CTRL_DROP. A flow that does not exist, is muted, or has no packet due sends nothing (R206 to
R209, R218, R219, R221, R222, R225). That the row says when the EOP cell is written is the model's choice (log entry
158). -/
def Obligations.PacketsAreQueuedOrHeld : Prop :=
  (∀ (n : Fin 16384) (w : Bool) (f0 f1 : TxFlow) (b : BuiltPacket) (r s : State), s = finishFlow n.val r →
    txFlowOf s n.val = some f0 →
    let f := midpointFrame s n.val f0
    (f.stopping = false ∨ f.frameAt = f0.frameAt) → isMuted s n.val f = false →
    buildPacket s n.val f = some (b, f1) → f.legB = none → f.legA.held = [] →
    let q := f.legA.queue
    let g := legFrame f.legA b
    let own := { f1 with timeUnset := !s.time.timeSet, ancOverflow := sat48 f1.ancOverflow b.excess }
    (askCells s q g.cells = .admitted → w = true →
      ∃ t, exec (.packetizerPacket n w) r = .next t
        ∧ (queueOf t q).frames = (queueOf s q).frames
            ++ [{ g with launch := roundLaunch (if (queueOf s q).cfg.asap then s.time.count else b.launch)
                         at' := nextCells s.pkt.pool g.cells }]
        ∧ t.pkt.pool.free = s.pkt.pool.free - g.cells
        ∧ (queueOf t q).counters.framesIn = sat48 (queueOf s q).counters.framesIn 1
        ∧ txFlowOf t n.val = some own
        ∧ (∀ k, k ≠ q → queueOf t k = queueOf s k) ∧ settled { t with pkt := s.pkt } = settled s) ∧
    (askCells s q g.cells = .admitted → w = false →
      ∃ t, exec (.packetizerPacket n w) r = .next t
        ∧ txFlowOf t n.val
          = some { own with legA := { own.legA with writing := some { g with at' := nextCells s.pkt.pool g.cells } } }
        ∧ t.pkt.pool.free = s.pkt.pool.free - g.cells ∧ t.pkt.pool.inFlight = s.pkt.pool.inFlight + g.cells
        ∧ t.pkt.queues = s.pkt.queues ∧ settled { t with pkt := s.pkt } = settled s) ∧
    (∀ sh, askCells s q g.cells = .refused sh →
      ∃ t, exec (.packetizerPacket n w) r = .next t
        ∧ txFlowOf t n.val = some { own with legA := { own.legA with held := [g] } }
        ∧ (sh = true → (faultOf t (faultId 0x06 31 0)).sticky = true)
        ∧ t.pkt.queues = s.pkt.queues ∧ t.pkt.pool = s.pkt.pool ∧ settled { t with pkt := s.pkt } = settled s) ∧
    (askCells s q g.cells = .discarded →
      ∃ t, exec (.packetizerPacket n w) r = .next t ∧ txFlowOf t n.val = some own
        ∧ (queueOf t q).frames = (queueOf s q).frames ∧ t.pkt.pool = s.pkt.pool
        ∧ (queueOf t q).counters.frozenDrop = sat48 (queueOf s q).counters.frozenDrop 1
        ∧ (∀ k, k ≠ q → queueOf t k = queueOf s k) ∧ settled { t with pkt := s.pkt } = settled s)) ∧
  (∀ (n : Fin 16384) (f : TxFlow) (g : QFrame) (s : State), txFlowOf s n.val = some f → f.legB = none →
    (f.legA.writing = none → finishFlow n.val s = s) ∧
    (f.legA.writing = some g →
      let t := finishFlow n.val s
      let q := f.legA.queue
      (queueOf t q).frames = (queueOf s q).frames
          ++ [{ g with launch := roundLaunch (if (queueOf s q).cfg.asap then s.time.count else g.launch) }]
        ∧ t.pkt.pool = { s.pkt.pool with inFlight := s.pkt.pool.inFlight - g.cells }
        ∧ txFlowOf t n.val = some { f with legA := { f.legA with writing := none } }
        ∧ (∀ k, k ≠ q → queueOf t k = queueOf s k) ∧ settled { t with pkt := s.pkt } = settled s)) ∧
  (∀ (n : Fin 16384) (w : Bool) (s : State), txFlowOf s n.val = none → exec (.packetizerPacket n w) s = .next s) ∧
  (∀ (n : Fin 16384) (w : Bool) (f0 : TxFlow) (r s : State), s = finishFlow n.val r → txFlowOf s n.val = some f0 →
    let f := midpointFrame s n.val f0
    (f.stopping = true → f.frameAt ≠ f0.frameAt →
      ∃ t, exec (.packetizerPacket n w) r = .next t ∧ txFlowOf t n.val = none
        ∧ settled { t with pkt := s.pkt } = settled s) ∧
    ((f.stopping = false ∨ f.frameAt = f0.frameAt) → (isMuted s n.val f = true ∨ buildPacket s n.val f = none) →
      exec (.packetizerPacket n w) r = .next s)) ∧
  (∀ (n : Fin 16384) (legB : Bool) (f : TxFlow) (l : TxLeg) (g : QFrame) (r : List QFrame) (s : State),
    txFlowOf s n.val = some f → (if legB then f.legB else some f.legA) = some l → l.held = g :: r →
    (isLate s l.queue g = true →
      ∃ t f' l', exec (.heldPacketExpiry n legB) s = .next t
        ∧ txFlowOf t n.val = some f' ∧ (if legB then f'.legB else some f'.legA) = some l'
        ∧ l'.held <:+ r ∧ { l' with held := l.held } = l
        ∧ (queueOf t l.queue).counters.writeLate = sat48 (queueOf s l.queue).counters.writeLate 1
        ∧ (faultOf t (queueFault l.queue 0)).sticky = true ∧ settled { t with pkt := s.pkt } = settled s) ∧
    (isLate s l.queue g = false → exec (.heldPacketExpiry n legB) s = .next s)) ∧
  (∀ (n : Fin 16384) (legB : Bool) (s : State),
    (txFlowOf s n.val = none ∨ ∃ f, txFlowOf s n.val = some f ∧
      ((if legB then f.legB else some f.legA) = none
        ∨ ∃ l, (if legB then f.legB else some f.legA) = some l ∧ l.held = [])) →
    exec (.heldPacketExpiry n legB) s = .next s) ∧
  (∀ (q : Fin 65536) (g : QFrame) (r : List QFrame) (s : State),
    let gate := gateOlder (queueOf s q.val)
    stalledOf (queueOf s q.val) gate = g :: r →
    ∃ t, exec (.ctrlDropTimeout q) s = .next t
      ∧ (queueOf t q.val).counters.ctrlDrop = sat48 (queueOf s q.val).counters.ctrlDrop 1
      ∧ stalledOf (queueOf t q.val) gate <:+ r
      ∧ (faultOf t (queueFault q.val 2)).sticky = true ∧ settled { t with pkt := s.pkt } = settled s) ∧
  (∀ (q : Fin 65536) (s : State), (queueOf s q.val).stalled = [] → (queueOf s q.val).gateStalled = [] →
    exec (.ctrlDropTimeout q) s = .next s)

/-- A port with link first discards the late head frames of its host queues, and then starts the head frame of the queue
that its scheduler picks: its cells go in flight, the shaper pays for it, a PTP event message for one-step insertion
carries its egress time, and the writers that wait ask again (R217, R222, R226, R248). When the frame has left the port
it counts as sent, with preamble and FCS on its lanes, and its cells are free together (model's choice, log entry 191).
A port that is paused, busy or without an eligible queue starts nothing; one without link, or isolated, discards what is
due (R223, R224, R227, R231). -/
def Obligations.SchedulerSendsHeadFrames : Prop :=
  (∀ (n : Fin 64) (s : State), (portOf s n.val).link = true → (portOf s n.val).isolated = false →
    ((portOf s n.val).paused = true ∨ (portOf s n.val).sending.isSome = true ∨ portExists s n.val = false
      ∨ pickQueue (dropLatePort n.val s) n.val = none) →
    exec (.schedulerPick n) s = .next (dropLatePort n.val s)) ∧
  (∀ (n : Fin 64) (s : State),
    (∀ e ∈ portQueues s n.val, ∀ f rest, (queueOf s e.1).frames = f :: rest →
      isControlQueue e.1 = true ∨ isLate s e.1 f = false) → dropLatePort n.val s = s) ∧
  (∀ (n : Fin 64) (q : Nat) (f : QFrame) (rest : List QFrame) (s u : State), u = dropLatePort n.val s →
    (portOf s n.val).link = true →
    (portOf s n.val).isolated = false → (portOf s n.val).paused = false → (portOf s n.val).sending = none →
    portExists s n.val = true → pickQueue u n.val = some q → (queueOf u q).frames = f :: rest →
    ∃ t v time, exec (.schedulerPick n) s = .next t ∧ t = retryAll v
      ∧ (portOf t n.val).sending = some (q, egressFrame u n.val time f) ∧ (queueOf v q).frames = rest
      ∧ v.pkt.pool.inFlight = u.pkt.pool.inFlight + f.cells ∧ v.pkt.pool.free = u.pkt.pool.free
      ∧ (0 < (queueOf u q).cfg.rate →
          (queueOf v q).balance = balanceNow u (queueOf u q) - ((f.bytes + 24 : Nat) : Int) * 4752)
      ∧ (∀ k, k ≠ q → queueOf v k = queueOf u k) ∧ (∀ k, k ≠ n.val → portOf t k = portOf s k)
      ∧ settled { t with draws := s.draws, pkt := s.pkt, time := s.time } = settled s) ∧
  (∀ (n : Fin 64) (s : State), ((portOf s n.val).link = false ∨ (portOf s n.val).isolated = true) →
    exec (.schedulerPick n) s = .next (discardPort n.val s)
      ∧ settled { discardPort n.val s with pkt := s.pkt } = settled s) ∧
  (∀ (n : Fin 64) (q : Nat) (f : QFrame) (s : State), (portOf s n.val).sending = some (q, f) →
    let bad := f.at'.filter (fun c => s.pkt.pool.badCells.contains (q, c))
    ∃ t v, exec (.frameTxComplete n) s = .next t ∧ t = retryAll v
      ∧ (portOf t n.val).sending = none ∧ (portOf t n.val).wire = wireFrame f.data
      ∧ (portOf t n.val).counters.txFrames = sat48 (portOf s n.val).counters.txFrames 1
      ∧ (portOf t n.val).counters.txBytes = sat32 (portOf s n.val).counters.txBytes (f.bytes + 4)
      ∧ (queueOf t q).counters.framesOut = sat48 (queueOf s q).counters.framesOut 1
      ∧ t.pkt.pool.inFlight = s.pkt.pool.inFlight - f.cells
      ∧ v.pkt.pool.free = s.pkt.pool.free + (f.cells - bad.length)
      ∧ (∀ l, l ∉ portLanes s n.val → laneOf t l = laneOf s l)
      ∧ settled { t with fab := { t.fab with lanes := s.fab.lanes }, pkt := s.pkt } = settled s) ∧
  (∀ (n : Fin 64) (s : State), (portOf s n.val).sending = none → exec (.frameTxComplete n) s = .next s)

/-- The head frame of a host queue that is past its launch time and the queue's LATE_LIMIT is discarded and counted
in HEAD_LATE, whether or not the port is paused or the queue frozen; its cells are returned, but for those with an
uncorrectable link word (R220); a control queue, and a frame in time, are left alone (R226). -/
def Obligations.LateHeadFrameIsDiscarded : Prop :=
  (∀ (q : Fin 65536) (f : QFrame) (rest : List QFrame) (s : State), (queueOf s q.val).frames = f :: rest →
    isControlQueue q.val = false → isLate s q.val f = true →
    let bad := f.at'.filter (fun c => s.pkt.pool.badCells.contains (q.val, c))
    let u := dropHead q.val s
    ∃ t, exec (.headLate q) s = .next t ∧ t = retryAll (countHeadLate q.val u)
      ∧ (queueOf u q.val).frames = rest ∧ u.pkt.pool.free = s.pkt.pool.free + (f.cells - bad.length)
      ∧ (queueOf t q.val).counters.headLate = sat48 (queueOf s q.val).counters.headLate 1
      ∧ (faultOf t (queueFault q.val 1)).sticky = true ∧ settled { t with pkt := s.pkt } = settled s) ∧
  (∀ (q : Fin 65536) (s : State),
    (isControlQueue q.val = true ∨ (queueOf s q.val).frames = []
      ∨ ∃ f rest, (queueOf s q.val).frames = f :: rest ∧ isLate s q.val f = false) →
    exec (.headLate q) s = .next s)

/-! ## Reset (R41, R144, R357, R371, R378, R417, R436) -/

/-- After reset every BAR0 register reads the reset value of the manual's tables, the command and reply rings
and the clocks and snapshots 0, the bus matrix, the watchdog and BM_STARVE their own; no session is open, no
family is enabled, and no destination has a selection, a staged entry, a shadow or a lock (R41, R143, R144, R174,
R243, R357, R371, R378, R380, R416, R417, R435). -/
def Obligations.ResetValues : Prop :=
  (∀ x ∈ [(0x0, 0x7A561536), (0x4, 0xB1), (0x8, 0), (0x10, 0), (0x14, 0), (0x2000, 0), (0x2004, 0xFFF),
      (0x2008, 0x41321110), (0x200C, 0x8765), (0x3000, 0), (0x3004, 0), (0x3008, 0), (0x300C, 0), (0x3010, 0),
      (0x3014, 0), (0x3018, 0), (0x301C, 0), (0x3020, 0), (0x3024, 0), (0x3028, 0), (0x302C, 0), (0x3030, 0),
      (0x3034, 0), (0x3038, 0), (0x4000, 0), (0x4004, 0), (0x5000, 0), (0x5004, 0), (0x5008, 0), (0x500C, 0),
      (0x5010, 0), (0x5014, 0), (0x5018, 0), (0x6000, 0), (0x6004, 0)],
    bar0Word State.reset x.1 = some (BitVec.ofNat 32 x.2)) ∧
  (∀ c, c < 5 → ∀ o ∈ [0x00, 0x04, 0x08, 0x0C, 0x10, 0x14], bar0Word State.reset (0x1000 + 0x40 * c + o) = some 0) ∧
  State.reset.cur.prio = 0x23 ∧ State.reset.cur.starve = 0x400 ∧ State.reset.cur.park = 0
    ∧ State.reset.cur.obBaseLo = 0 ∧ State.reset.cur.obBaseHi = 0 ∧ busErrorWord State.reset.cur.error = 0
    ∧ State.reset.cur.wdogPeriod = 2000000 ∧ State.reset.cur.wdogRemain = 2000000
    ∧ restartCode State.reset.cur.restartCause = 0 ∧ State.reset.cur.restartCount = 0
    ∧ State.reset.cur.confirmRemain = 0 ∧ bootStateWord State.reset = 0 ∧
  (∀ n, (sessionOf State.reset n).isOpen = false) ∧ (∀ n, familyOn State.reset n = false) ∧
  (∀ m d, destOf State.reset m d = {}) ∧
  memWf State.reset.mem = true ∧ memWf State.reset.bar2 = true ∧ State.reset.pending = []

/-! ## Reads (R72, R386, R387, R400 to R404) -/

/-- A status read answers whole records, the device record first where there is one, as many as its count and
32,768 bytes admit, with their number in DETAIL; with CLEAR it clears the counters of what it returned, and
otherwise changes nothing (R72, R386). -/
def Obligations.StatusReadsReturnRecords : Prop :=
  ∀ (i : Instr) (o : OpSpec) (code : BitVec 16) (space : Nat → Option StatusSpace) (sp : StatusSpace) (p : Packet)
    (s : State),
    (i, o) ∈ [(.laneStatus p, specLaneStatus), (.fabricStatus p, specFabricStatus), (.sdiStatus p, specSdiStatus),
      (.macCounters p, specMacCounters), (.timeRead p, specTimeRead), (.refStatus p, specRefStatus),
      (.audioStatus p, specAudioStatus), (.headStatus p, specHeadStatus), (.engineStatus p, specEngineStatus),
      (.twinStatus p, specTwinStatus), (.countersRead p, specCountersRead)] →
    o = specStatus code space → Runs o p s → space (u8 p 5) = some sp →
    let u := taken o p s
    let head := match sp.device with | some d => record 0xFFFF (d u) | none => []
    let rs := recordsFrom (sp.items u) (u16 p 0) (u16 p 2) (32768 - head.length)
    let cleared := (List.range rs.length).foldl (fun t k => sp.clear (u16 p 0 + k) t) (sp.clearDevice u)
    Effects o p s i (if u8 p 4 = 1 then cleared else s) (done (head ++ rs.flatten) rs.length)
      ∧ head.length + rs.flatten.length ≤ max head.length 32768 ∧ rs.length ≤ u16 p 2

/-- The other reads answer what the state holds and change nothing: the sticky sources, the Ledger, the banks, the
image that arrives, the key slots, a PROBE's results, the temperatures, and the states of fences (R349, R352, R400,
R401, R403, R538). A fence that was never issued has a free state. PING returns its parameters; IDENTIFY returns the
identity of the device and a fresh nonce, which it issues to the endpoint (R388, R389, R457). The nonce is a free
value. -/
def Obligations.ReadsAnswerAndChangeNothing : Prop :=
  (∀ (p : Packet) (s : State), Runs specFaultRead p s →
    Effects specFaultRead p s (.faultRead p) s (done (faultReadResults s (u16 p 0) (u8 p 2)))) ∧
  (∀ (p : Packet) (s : State), Runs specLedgerRead p s →
    Effects specLedgerRead p s (.ledgerRead p) s (done (ledgerResults s))) ∧
  (∀ (p : Packet) (s : State), Runs specStoreRead p s →
    Effects specStoreRead p s (.storeRead p) s (done (storeReadResults s))) ∧
  (∀ (p : Packet) (s : State), Runs specImageStatus p s →
    Effects specImageStatus p s (.imageStatus p) s (done (imageStatusResults s (u32 p 0)))) ∧
  (∀ (p : Packet) (s : State), Runs specKeySlotStatus p s →
    Effects specKeySlotStatus p s (.keySlotStatus p) s (done (slotStatusResults s))) ∧
  (∀ (p : Packet) (s : State), Runs specProbeRead p s →
    Effects specProbeRead p s (.probeRead p) s (done (record (u8 p 0) (probeItems (engineOf s (u8 p 0)))))) ∧
  (∀ (p : Packet) (s : State), Runs specTempRead p s →
    Effects specTempRead p s (.tempRead p) s (done (tempResults s))) ∧
  (∀ (p : Packet) (s : State), Runs specQuery p s →
    ∃ t e bs, exec (.fenceQuery p) s = .next t ∧ Leaves p e t
      ∧ Answered specQuery p (done (bs ++ List.replicate ((4 - bs.length % 4) % 4) 0)) t
      ∧ bs.length = u16 p 0 ∧ { e with draws := s.draws } = s
      ∧ (∀ k, k < u16 p 0 → bs[k]? =
          (match fenceView s (u32 p (4 + 4 * k)) with
          | .pending => some 0
          | .signalled => some 1
          | .cancelled => some 2
          | .retired => some 3
          | .unknown => bs[k]? : Option Byte))) ∧
  (∀ (p : Packet) (s : State), Runs specPing p s → Effects specPing p s (.ping p) s (done p.params)) ∧
  (∀ (p : Packet) (s : State), Runs specIdentify p s →
    ∃ (nonce : BitVec 128) (e : State), (nonce, e) = issueNonce p.endpoint s
      ∧ { beyondCmd e with draws := s.draws } = beyondCmd s
      ∧ (∃ n ∈ e.cmd.nonces, n.endpoint = p.endpoint ∧ n.value = nonce ∧ n.issuedAt = s.time.count ∧ n.used = false)
      ∧ Effects specIdentify p s (.identify p) e
        (done (leBytes 4 0x7A561536 ++ leBytes 4 0x000000B1 ++ leBytes 1 (lifeState s) ++ leBytes 1 s.chip.startPhase
          ++ leBytes 1 s.store.bootSlot ++ [0] ++ leBytes 4 (catalogueVersion s)
          ++ leBytes 16 Config.deviceUid.toNat ++ leBytes 16 nonce.toNat)))
/-! ## Time (R234 to R256) -/

/-- TIME_ADJUST stages its triple and answers with the count at which it applies; PTP_PORT_CONFIG sets the device or
a port, a host that owns the time stops the servo, and a port that may no longer be SLAVE leaves it; ASYMMETRY_SET sets
a port; it and PATH_STEP_ACCEPT accept a path step of the SLAVE port, which then tracks again (R239, R240, R242,
R251 to R253). -/
def Obligations.TimeSettingsApply : Prop :=
  (∀ (p : Packet) (s : State), Runs specTimeAdjust p s →
    let c0 := if u64 p 8 = 0 then s.time.count.toNat + 594000 else u64 p 8
    (adjustTriple p s).c0 = BitVec.ofNat 64 c0 ∧
    (u8 p 0 = 0 → (adjustTriple p s).t0 = { sec := u64 p 16, ns := u32 p 24, frac := u16 p 28 }) ∧
    (u64 p 40 = 0 → (adjustTriple p s).rate = s.time.triple.rate) ∧
    (u64 p 40 ≠ 0 → (adjustTriple p s).rate = u64 p 40) ∧
    Effects specTimeAdjust p s (.timeAdjust p)
      { s with time := { s.time with staged := some { triple := adjustTriple p s, absolute := u8 p 0 == 0 } } }
      (done (leBytes 8 c0))) ∧
  (∀ (p : Packet) (s : State), Runs specPtpPortConfig p s → u16 p 0 = 0xFFFF →
    let e := { s with set := { s.set with ptpDev := readPtpDev p } }
    (u8 p 4 = 1 → s.time.servo ≠ .disabled →
      Effects specPtpPortConfig p s (.ptpPortConfig p)
        { e with time := { s.time with servo := .disabled, pathStep := false } } (done [])) ∧
    ((u8 p 4 ≠ 1 ∨ s.time.servo = .disabled) → Effects specPtpPortConfig p s (.ptpPortConfig p) e (done []))) ∧
  (∀ (p : Packet) (s : State), Runs specPtpPortConfig p s → u16 p 0 ≠ 0xFFFF →
    let n := u16 p 0
    let c := readPtpPort p
    let e := { s with set := { s.set with ptpPorts := tset (fun _ => {}) s.set.ptpPorts n c } }
    let a := done [] (if n < 64 && !portExists s n then 1 else 0)
    ((mayBeSlave e n = true ∨ s.time.slavePort ≠ some n) → Effects specPtpPortConfig p s (.ptpPortConfig p) e a) ∧
    (mayBeSlave e n = false → s.time.slavePort = some n →
      ∃ t u, exec (.ptpPortConfig p) s = .next t ∧ Leaves p u t ∧ Answered specPtpPortConfig p a t
        ∧ ptpPortCfg u n = c ∧ u.time.slavePort = none ∧ (ptpPortOf u n).slave = false
        ∧ u.time.servo = (if s.time.servo = .tracking then .timeHoldover else s.time.servo)
        ∧ settled { u with time := s.time, ref := s.ref, set := s.set } = settled s)) ∧
  (∀ (i : Instr) (o : OpSpec) (p : Packet) (s : State),
    (i, o) ∈ [(.asymmetrySet p, specAsymmetrySet), (.pathStepAccept p, specPathStepAccept)] → Runs o p s →
    let n := u16 p 0
    let b := if o.code = 0x5004 then
        { s with set := { s.set with asymmetry := tset (fun _ => (0 : Int)) s.set.asymmetry n (i64 p 4) } } else s
    let accepts := s.time.slavePort = some n ∧ s.time.pathStep = true ∧ s.time.servo = .timeHoldover
    (¬ accepts → Effects o p s i b (done [])) ∧
    (accepts →
      ∃ t e, exec i s = .next t ∧ Leaves p e t ∧ Answered o p (done []) t
        ∧ e.time.servo = .tracking ∧ e.time.pathStep = false ∧ e.time.overLimit = 0
        ∧ (ptpPortOf e n).baseline = s.time.lastMeasurement ∧ (∀ k, k ≠ n → ptpPortOf e k = ptpPortOf s k)
        ∧ { e with time := s.time } = b))

/-- A staged triple applies when the counter reaches its count, raises TIME_APPLIED, and drops ALIGNED alone; a
measurement of the SLAVE port, of the median of eight samples, makes the servo track, step to the master, or hold after
a path step, and tells the reference unit its offset; a port becomes or
leaves SLAVE, at most one at a time; a port sends its message at its interval (R239, R241, R251 to R254). -/
def Obligations.TimeEventsMoveTheServo : Prop :=
  (∀ s : State, (s.time.staged = none ∨ ∃ r, s.time.staged = some r ∧ countReached s.time.count r.triple.c0 = false) →
    exec .tripleApply s = .next s) ∧
  (∀ (r : Rebase) (s : State), s.time.staged = some r → countReached s.time.count r.triple.c0 = true →
    ∃ t, exec .tripleApply s = .next t ∧ t.cmd.irqStatus.getLsbD 7 = true
      ∧ t.time = { s.time with triple := r.triple, timeSet := s.time.timeSet || r.absolute, staged := none }
      ∧ (∀ n, (familyOf t n).hang = (familyOf s n).hang ∧ (familyOf t n).boundary = (familyOf s n).boundary
          ∧ ((familyOf t n).aligned = true → (familyOf s n).aligned = true))
      ∧ (isForced s 4 = false → t.ref = s.ref)
      ∧ settled { t with time := s.time, mtx := { t.mtx with families := s.mtx.families }, ref := s.ref } = settled s) ∧
  (∀ (rate : Nat) (s : State),
    (s.time.slavePort = none ∨ s.chip.curatorServing = false ∨ s.time.servo = .disabled
      ∨ ∃ n, s.time.slavePort = some n ∧ ((ptpPortOf s n).synced = none ∨ (ptpPortOf s n).samples.length < 8)) →
    exec (.ptpMeasurement rate) s = .next s) ∧
  (∀ (rate n : Nat) (y : PtpSync) (s : State), s.time.slavePort = some n → s.chip.curatorServing = true →
    s.time.servo ≠ .disabled → (ptpPortOf s n).synced = some y → 8 ≤ (ptpPortOf s n).samples.length →
    let mean := medianOf ((ptpPortOf s n).samples.take 8)
    let offset := y.device - y.master - mean - asymmetryOf s n
    let m : Measurement := { mean := mean, offset := offset, rate := rate, sync := y }
    let large := s.set.ptpDev.stepLimit * 65536 < offset.natAbs
    let stepped := s.time.servo = .tracking ∧ isPathStep s n mean = true
    ∃ t, exec (.ptpMeasurement rate) s = .next t
      ∧ (ptpPortOf t n).meanPathDelay = mean ∧ (ptpPortOf t n).lastOffset = offset
      ∧ (ptpPortOf t n).samples = (ptpPortOf s n).samples.drop 8
      ∧ t.time.lastMeasurement = some mean ∧ t.time.slavePort = some n ∧ t.time.triple = s.time.triple
      ∧ ((stepped ∨ s.time.servo = .timeHoldover) → (ptpPortOf t n).baseline = (ptpPortOf s n).baseline)
      ∧ (¬ stepped → s.time.servo ≠ .timeHoldover → (ptpPortOf t n).baseline = some mean
          ∧ t.ref.ptpOffset = offset)
      ∧ (s.time.servo = .acquiring → t.time.servo = .tracking ∧ ((s.time.timeSet = false ∨ large) →
          ∃ r, t.time.staged = some r ∧ r.absolute = true
            ∧ r.triple.t0 = timeOfUnits (masterUnits s n m r.triple.c0).toNat))
      ∧ (s.time.servo = .tracking → ¬ stepped → t.time.servo = .tracking ∧ t.time.overLimit =
          (if large then (if s.time.overLimit + 1 = 4 then 0 else s.time.overLimit + 1) else 0))
      ∧ (stepped → t.time.servo = .timeHoldover ∧ t.time.pathStep = true
          ∧ (ptpPortOf t n).pathSteps = sat32 (ptpPortOf s n).pathSteps 1 ∧ (faultOf t (faultId 0x07 31 0)).sticky = true)
      ∧ (s.time.servo = .timeHoldover → t.time.servo = .timeHoldover ∧ t.time.staged = s.time.staged)
      ∧ (∀ k, k ≠ n → ptpPortOf t k = ptpPortOf s k)
      ∧ settled { t with time := s.time, ref := s.ref, draws := s.draws } = settled s) ∧
  (∀ (n : Fin 320) (s : State),
    (mayBeSlave s n.val = false → exec (.portBecomesSlave n true) s = .next s) ∧
    (mayBeSlave s n.val = true →
      ∃ t, exec (.portBecomesSlave n true) s = .next t ∧ t.time.slavePort = some n.val
        ∧ (ptpPortOf t n.val).slave = true ∧ t.time.lastMeasurement = none
        ∧ (∀ m, s.time.slavePort = some m → m ≠ n.val → (ptpPortOf t m).slave = false)
        ∧ (s.time.servo = .disabled → s.set.ptpDev.host = false → t.time.servo = .acquiring)
        ∧ (s.time.servo = .timeHoldover → s.time.pathStep = false → t.time.servo = .acquiring)
        ∧ settled { t with time := s.time, ref := s.ref } = settled s) ∧
    (s.time.slavePort ≠ some n.val → exec (.portBecomesSlave n false) s = .next s) ∧
    (s.time.slavePort = some n.val →
      ∃ t, exec (.portBecomesSlave n false) s = .next t ∧ t.time.slavePort = none
        ∧ (ptpPortOf t n.val).slave = false
        ∧ t.time.servo = (if s.time.servo = .tracking then .timeHoldover else s.time.servo)
        ∧ settled { t with time := s.time, ref := s.ref } = settled s)) ∧
  (∀ (n : Fin 320) (m : PtpMessage) (s : State),
    ((s.chip.curatorServing && sendsMessage s n.val m) = false → exec (.ptpMessageInterval n m) s = .next s) ∧
    ((s.chip.curatorServing && sendsMessage s n.val m) = true →
      ∃ t, exec (.ptpMessageInterval n m) s = .next t ∧ (ptpPortOf t n.val).egress = []
        ∧ (ptpPortOf t n.val).sent
            = (ptpPortOf s n.val).sent + ((ptpPortOf s n.val).egress.filter (fun e => e.message == .sync)).length + 1
        ∧ (∀ k, k ≠ n.val → ptpPortOf t k = ptpPortOf s k)
        ∧ settled { t with time := s.time, draws := s.draws } = settled s))

/-! ## The reference unit (R258 to R280) -/

/-- REF_CONFIG sets a candidate and keeps partners naming each other, and a change of its enable, frequency or lane
restarts its monitors; DPLL_CONFIG sets the loop; PULSE_CONFIG sets a pulse, its family, division, phase and offset
waiting for their boundary; PULSE_REALIGN stages a realignment at an even hang (R260, R264, R276, R277). -/
def Obligations.ReferenceSettingsApply : Prop :=
  (∀ (p : Packet) (s : State), Runs specRefConfig p s →
    let c := u8 p 0
    let v := readRefCfg p
    let old := refCfg s c
    let restarts := old.enable ≠ v.enable ∨ old.freqNum ≠ v.freqNum ∨ old.freqDen ≠ v.freqDen ∨ old.fabLane ≠ v.fabLane
    ∃ t e, exec (.refConfig p) s = .next t ∧ Leaves p e t ∧ Answered specRefConfig p (done []) t
      ∧ refCfg e c = v
      ∧ (∀ d, v.partner = some d → refCfg e d = { refCfg s d with partner := some c })
      ∧ (∀ d, old.partner = some d → d ≠ c → v.partner ≠ some d → refCfg e d = { refCfg s d with partner := none })
      ∧ (∀ d, d ≠ c → old.partner ≠ some d → v.partner ≠ some d → refCfg e d = refCfg s d)
      ∧ (restarts → (candidateOf e c).active = false ∧ (candidateOf e c).qualified = false
          ∧ (candidateOf e c).gates = 0 ∧ (candidateOf e c).lastReason = 3)
      ∧ (¬ restarts → (candidateOf e c).active = (candidateOf s c).active
          ∧ (candidateOf e c).qualified = (candidateOf s c).qualified ∧ e.ref.loop = s.ref.loop)
      ∧ (∀ k, k ≠ c → candidateOf e k = candidateOf s k)
      ∧ settled { e with ref := s.ref, set := { e.set with refs := s.set.refs } } = settled s) ∧
  (∀ (p : Packet) (s : State), Runs specDpllConfig p s →
    Effects specDpllConfig p s (.dpllConfig p)
      { s with set := { s.set with
          dpll := { bandwidth := orDefault (u16 p 0) 10, freqSlew := orDefault (u16 p 2) 100 } } } (done [])) ∧
  (∀ (p : Packet) (s : State), Runs specPulseConfig p s →
    let n := u8 p 0
    let c := readPulse p
    let now := pulseCfg s n
    let r := applyTarget s c.family false (readTarget s c.family p.target)
    let e := putPulseCfg s n { now with enable := c.enable, width := c.width, activeLow := c.activeLow }
    let moves := c.family ≠ now.family ∨ c.divide ≠ now.divide ∨ c.phase ≠ now.phase ∨ c.offset ≠ now.offset
    (moves → Effects specPulseConfig p s (.pulseConfig p)
      { e with ref := { s.ref with pendingPulse := tput s.ref.pendingPulse n (r.1, c) } } (answerFor r c.family)) ∧
    (¬ moves → Effects specPulseConfig p s (.pulseConfig p)
      { e with ref := { s.ref with pendingPulse := tdel s.ref.pendingPulse n } } (answerFor r c.family))) ∧
  (∀ (p : Packet) (s : State), Runs specPulseRealign p s →
    let n := p.family.toNat
    let m := if p.target = 0 then evenUp ((familyOf s n).hang + 2) else p.target
    m.getLsbD 0 = false ∧
    Effects specPulseRealign p s (.pulseRealign p)
      (putFamily s n { familyOf s n with realign := some { source := u8 p 0, target := m } })
      { done with hang := m, family := n })

/-- An adopted REFSEL makes the loop follow its candidate, run free, or enter HOLDOVER or LOST by its history; a
candidate loses or regains activity, VREF_PTP while the servo tracks alone, and is qualified and disqualified at
frequency gates, of which none reads while FREQ_VALID is 0, though the loop runs on; the loop locks; XO_IN is
lost and returns; frame pulses are measured and missed (R259 to R275). Entering ACQUIRING makes the phase that the loop
reads its target, and each second moves ROOT's frequency by FREQ_SLEW at most (R268; the model's reading, log entry
150); ROOT's own reading lies between the frequencies at the ends of its gate, to the resolution (the model's reading, log
entry 78). Until ROOT has locked, the reference unit does nothing (R32). -/
def Obligations.ReferenceEventsMoveTheLoop : Prop :=
  (∀ (i : Instr) (s : State), s.chip.rootLocked = false →
    ((∃ v, i = .refselAdopt v) ∨ (∃ c g, i = .activityLoss c g) ∨ (∃ c, i = .activityRegained c)
      ∨ (∃ r o, i = .frequencyGate r o) ∨ i = .loopLocked ∨ i = .xoInLoss ∨ i = .xoInRestored ∨ i = .freqValidReturn
      ∨ (∃ n e, i = .refFpEdge n e) ∨ (∃ n, i = .refFpTimeout n)) →
    exec i s = .next s) ∧
  (∀ (v : Fin 8) (s : State), s.chip.rootLocked = true →
    (s.ref.refsel = some v → exec (.refselAdopt v) s = .next s) ∧
    (s.ref.refsel ≠ some v →
      ∃ t, exec (.refselAdopt v) s = .next t ∧ t.ref.refsel = some v
        ∧ t.ref.loop = (if v.val = 7 then .freeRun else if refUsable s v.val = true then .acquiring
            else if s.ref.loop = .holdover ∨ s.ref.loop = .lost then s.ref.loop
            else if historyValid s = true then .holdover else .lost)
        ∧ t.ref.frequency = s.ref.frequency
        ∧ (t.ref.loop = .acquiring → t.ref.phaseTarget = phaseOf s v.val ∧ t.ref.phaseError = 0)
        ∧ (s.ref.refsel.isSome = true → (faultOf t (faultId 0x08 31 20)).sticky = true)
        ∧ (∀ c, candidateOf t c = candidateOf s c) ∧ settled { t with ref := s.ref } = settled s)) ∧
  (∀ (c : Fin 7) (glitch : Bool) (s : State), s.chip.rootLocked = true →
    let v := candidateOf s c.val
    let on := ((refCfg s c.val).enable && v.active) = true
    (¬ on → ((refCfg s c.val).enable && glitch) = false → exec (.activityLoss c glitch) s = .next s) ∧
    (¬ on → ((refCfg s c.val).enable && glitch) = true → exec (.activityLoss c glitch) s
      = .next (putCandidate s c.val { v with glitches := sat32 v.glitches 1 })) ∧
    (on →
      ∃ t, exec (.activityLoss c glitch) s = .next t
        ∧ candidateOf t c.val = { v with
            active := false, losses := sat32 v.losses 1, glitches := sat32 v.glitches (bit glitch), qualified := false
            lastReason := (if v.qualified then 1 else v.lastReason), gates := 0 }
        ∧ t.ref.loop = (if v.qualified = true ∧ isForced s c.val = true ∧ (s.ref.loop = .acquiring ∨ s.ref.loop = .locked)
            then (if historyValid s = true then .holdover else .lost) else s.ref.loop)
        ∧ (v.qualified = true → (faultOf t (faultId 0x08 31 c.val)).sticky = true)
        ∧ (∀ k, k ≠ c.val → candidateOf t k = candidateOf s k) ∧ settled { t with ref := s.ref } = settled s) ∧
    (let held := c.val = 4 ∧ s.time.servo ≠ .tracking
     ((refCfg s c.val).enable = true → v.active = false → ¬ held → exec (.activityRegained c) s
        = .next (putCandidate s c.val { v with active := true, partGate := true, gates := 0 }))
      ∧ (((refCfg s c.val).enable = false ∨ v.active = true ∨ held) → exec (.activityRegained c) s = .next s))) ∧
  (∀ (readings : List (Option Int)) (offset : Int) (s : State), s.chip.rootLocked = true →
    (s.ref.freqValid = false → exec (.frequencyGate readings offset) s = .next (nextGate (stepLoop s))) ∧
    (s.ref.freqValid = true →
      let root := rootReading s.ref.frequency (stepLoop s).ref.frequency offset
      ∃ t, exec (.frequencyGate readings offset) s = .next t ∧ t.ref.rootOffset = root ∧ t.ref.ptpReadings = []
        ∧ (t.ref.frequency - s.ref.frequency).natAbs ≤ s.set.dpll.freqSlew
        ∧ (s.ref.loop = .locked → t.ref.historySeconds = s.ref.historySeconds + 1
            ∧ t.ref.history = (root :: s.ref.history).take 60)
        ∧ (s.ref.loop ≠ .locked → t.ref.historySeconds = s.ref.historySeconds ∧ t.ref.history = s.ref.history)
        ∧ (∀ c, c < 7 →
            let v := candidateOf s c
            let w := candidateOf t c
            match gateReading s readings c with
            | none => w.gates = 0 ∧ w.qualified = v.qualified
            | some r =>
              let g := if r.natAbs ≤ (refCfg s c).accept then v.gates + 1 else 0
              w.reading = some r
                ∧ ((refCfg s c).reject < r.natAbs → w.qualified = false ∧ w.gates = 0)
                ∧ (r.natAbs ≤ (refCfg s c).reject →
                    w.gates = g ∧ w.qualified = (v.qualified || (decide ((refCfg s c).acceptTime ≤ g)
                      && (c != 4 || s.time.servo == .tracking)))))
        ∧ settled { t with ref := s.ref } = settled s)) ∧
  (∀ s : State, s.chip.rootLocked = true →
    (s.ref.loop = .acquiring → exec .loopLocked s = .next { s with ref := { s.ref with loop := .locked } }) ∧
    (s.ref.loop ≠ .acquiring → exec .loopLocked s = .next s) ∧
    (s.ref.xoGood = true →
      ∃ t, exec .xoInLoss s = .next t
        ∧ { t.ref with candidates := s.ref.candidates } = { s.ref with xoGood := false, freqValid := false }
        ∧ (∀ c, candidateOf t c = { candidateOf s c with gates := 0, partGate := true }
            ∨ (candidateOf t c = candidateOf s c ∧ candidateOf s c = {}))
        ∧ (faultOf t (faultId 0x08 31 19)).sticky = true ∧ settled { t with ref := s.ref } = settled s) ∧
    (s.ref.xoGood = false → exec .xoInLoss s = .next s) ∧
    exec .xoInRestored s = .next { s with ref := { s.ref with xoGood := true } } ∧
    (s.ref.xoGood = true → exec .freqValidReturn s = .next { s with ref := { s.ref with freqValid := true } }) ∧
    (s.ref.xoGood = false → exec .freqValidReturn s = .next s)) ∧
  (∀ (n : Fin 4) (edge : Nat) (s : State), s.chip.rootLocked = true →
    let c := refCfg s n.val
    let v := candidateOf s n.val
    let on := (c.fpEnable && familyOn s c.fpFamily) = true
    let off := fpOffset s c.fpFamily c.fpDivide edge
    (on →
      ∃ t, exec (.refFpEdge n edge) s = .next t ∧ candidateOf t n.val = { v with fpOffset := off, fpSeen := true }
        ∧ (v.fpSeen = true → 100 * 65536 < rootToUnits ((off - v.fpOffset).natAbs : Int) →
            (faultOf t (faultId 0x08 31 (15 + n.val))).sticky = true)
        ∧ (∀ k, k ≠ n.val → candidateOf t k = candidateOf s k) ∧ settled { t with ref := s.ref } = settled s) ∧
    (¬ on → exec (.refFpEdge n edge) s = .next s) ∧
    (c.fpEnable = true →
      ∃ t, exec (.refFpTimeout n) s = .next t ∧ (faultOf t (faultId 0x08 31 (15 + n.val))).sticky = true
        ∧ settled t = settled s) ∧
    (c.fpEnable = false → exec (.refFpTimeout n) s = .next s))

/-! ## Audio (R281 to R306) -/

/-- AUDIO_EMBED_CONFIG, AUDIO_DEEMBED_CONFIG, TDM_START_GROUP and TDM_SLOT_MASK wait for their frame, period or
boundary; TDM_PORT_CONFIG applies at once where only ZC_TIMEOUT or the off drive changes or the port does not run, and
waits for the frame boundary of a running port, and masks that wait for other SLOTS are dropped; TDM_RESTART is answered once the port runs again (R290 to R292, R298
to R300, R304). -/
def Obligations.AudioSettingsApply : Prop :=
  (∀ (p : Packet) (s : State), Runs specEmbed p s →
    let c : EmbedCfg := { groupEn := BitVec.ofNat 4 (u8 p 1), csMode := BitVec.ofNat 8 (u8 p 2), control := u8 p 3 == 1
                          sdWidth := u8 p 4 == 1 }
    Effects specEmbed p s (.audioEmbedConfig p)
      { s with sdi := { s.sdi with pendingEmbed := tput s.sdi.pendingEmbed (u8 p 0) c } } (done [])) ∧
  (∀ (p : Packet) (s : State), Runs specDeembed p s →
    Effects specDeembed p s (.audioDeembedConfig p)
      { s with sdi := { s.sdi with
          pendingDeembed := tput s.sdi.pendingDeembed (u8 p 0) (BitVec.ofNat 4 (u8 p 1)) } } (done [])) ∧
  (∀ (p : Packet) (s : State), Runs specGroup p s →
    let c : GroupCfg := { mediaAlign := u8 p 1 == 1, align := orDefault (u16 p 2) 48 }
    Effects specGroup p s (.tdmStartGroup p)
      { s with aud := { s.aud with pendingGroups := tput s.aud.pendingGroups (u8 p 0) c } } (done [])) ∧
  (∀ (p : Packet) (s : State), Runs specSlotMask p s →
    let n := u8 p 0
    Effects specSlotMask p s (.tdmSlotMask p)
      (putTdm s n { tdmOf s n with pendingMasks := some (w32 p 4, w32 p 8) }) (done [])) ∧
  (∀ (p : Packet) (s : State), Runs specTdmPort p s →
    let n := u8 p 0
    let c := readTdm p
    let old := tdmCfg s n
    let v := tdmOf s n
    let coming := v.pendingCfg.getD old
    let w := if c.slots = coming.slots ∧ c.fs96 = coming.fs96 then v else { v with pendingMasks := none }
    (sameFrames old c = false → v.state = .running →
      Effects specTdmPort p s (.tdmPortConfig p) (putTdm s n { w with pendingCfg := some c }) (done [])) ∧
    ((sameFrames old c = true ∨ v.state ≠ .running) →
      ∃ t e, exec (.tdmPortConfig p) s = .next t ∧ Leaves p e t ∧ Answered specTdmPort p (done []) t
        ∧ tdmCfg e n = c ∧ (tdmOf e n).pendingCfg = none
        ∧ (sameFrames old c = true → tdmOf e n = { w with pendingCfg := none })
        ∧ (tdmOf e n).pendingMasks = w.pendingMasks
        ∧ (sameFrames old c = false → (tdmOf e n).state =
            (if v.state = .isolated then .isolated else if c.enable = true then .waitingStart else .stopped))
        ∧ (sameFrames old c = false → (c.slots ≠ old.slots ∨ c.fs96 ≠ old.fs96) →
            (tdmOf e n).txMask = onesTo c.slots ∧ (tdmOf e n).rxMask = onesTo c.slots)
        ∧ (∀ k, k ≠ n → tdmCfg e k = tdmCfg s k ∧ tdmOf e k = tdmOf s k)
        ∧ settled { e with aud := s.aud, set := { e.set with tdm := s.set.tdm } } = settled s)) ∧
  (∀ (p : Packet) (s : State), Runs specRestart p s → sess p ≠ 0 → (sessionOf s (sess p)).isOpen = true →
    let v := tdmOf s (u8 p 0)
    Defers p s (.tdmRestart p) (putTdm s (u8 p 0) { v with
      restartPending := true, restartReplies := v.restartReplies ++ [replyHeader 0x7006 p] }))

/-- A grid period applies what waits for it, switches every channel whose take is ready, and runs the TDM frames; a
waiting slot without a zero crossing changes at its timeout and raises the source; a waiting port starts at its group's
boundary, 1 ms after its event or later, and a restart counts. Other ports stay (R149, R282, R290, R294, R298, R300, R301, R304, R439). -/
def Obligations.AudioEventsRunTheGrid : Prop :=
  (∀ (x : List (Fin 32768 × Word)) (din : List (Fin 16 × List Word)) (s : State),
    (s.chip.rootLocked = false → exec (.audioGridPeriod x din) s = .next s) ∧
    (s.chip.rootLocked = true →
      ∃ t, exec (.audioGridPeriod x din) s = .next t ∧ t.aud.period = s.aud.period + 1
        ∧ (∀ d e, (destOf s .audio d).shadow = some e →
            destOf t .audio d = (if (destOf s .audio d).ready = true then
              { destOf s .audio d with active := e.source, shadow := none, ready := false } else destOf s .audio d))
        ∧ (∀ d, (destOf s .audio d).shadow = none → destOf t .audio d = destOf s .audio d)
        ∧ (∀ n, n < 16 → (tdmOf s n).state = .running → (tdmOf s n).pendingCfg = none →
            (tdmOf s n).restartPending = false →
            (tdmOf t n).state = .running
              ∧ (tdmOf t n).frames = sat48 (tdmOf s n).frames (if (tdmCfg s n).fs96 = true then 2 else 1))
        ∧ (∀ n c, n < 16 → (tdmOf s n).pendingCfg = some c → tdmCfg t n = c ∧ (tdmOf t n).pendingCfg = none
            ∧ (tdmOf t n).state = (if (tdmOf s n).state = .isolated then .isolated
                else if c.enable = true then .waitingStart else .stopped))
        ∧ (∀ n, n < 16 → (tdmOf t n).pendingMasks = none)
        ∧ ((s.sdi.pendingDeembed.map Prod.fst).Nodup → t.sdi.pendingDeembed = []
            ∧ ∀ e ∈ s.sdi.pendingDeembed, deembedGroups t e.1 = e.2)
        ∧ tfind t.flt.invert (faultId 0x0C 31 1) = none
        ∧ settled { t with aud := s.aud, led := s.led, mtx := s.mtx, pkt := s.pkt, sdi := s.sdi, set := s.set
                           flt := s.flt, fab := s.fab, eng := s.eng } = settled s)) ∧
  (∀ (n : Fin 16) (tx : Bool) (k : Fin 32) (s : State),
    let v := tdmOf s n.val
    let ws := if tx then v.txWaiting else v.rxWaiting
    let timedOut := fun (w : SlotWait) => w.slot == k.val && decide (w.due ≤ s.aud.period)
    (ws.find? timedOut = none → exec (.zcTimeout n tx k) s = .next s) ∧
    (∀ w, ws.find? timedOut = some w →
      ∃ t, exec (.zcTimeout n tx k) s = .next t
        ∧ (tdmOf t n.val).zcTimeouts = sat32 v.zcTimeouts 1
        ∧ (if tx then (tdmOf t n.val).txOn = putBit v.txOn k.val w.target
              ∧ (tdmOf t n.val).txZcSlots = putBit v.txZcSlots k.val true
              ∧ (tdmOf t n.val).txWaiting = v.txWaiting.filter (fun w => w.slot != k.val)
            else (tdmOf t n.val).rxOn = putBit v.rxOn k.val w.target
              ∧ (tdmOf t n.val).rxZcSlots = putBit v.rxZcSlots k.val true
              ∧ (tdmOf t n.val).rxWaiting = v.rxWaiting.filter (fun w => w.slot != k.val))
        ∧ (faultOf t (faultId 0x09 31 16)).sticky = true
        ∧ (∀ j, j ≠ n.val → tdmOf t j = tdmOf s j) ∧ settled { t with aud := s.aud } = settled s)) ∧
  (∀ (n : Fin 16) (s : State),
    let v := tdmOf s n.val
    ((v.state ≠ .waitingStart ∨ atGroupBoundary s n.val = false ∨ 99000 * s.aud.period < v.startFrom) →
      exec (.tdmPortStart n) s = .next s) ∧
    (v.state = .waitingStart → atGroupBoundary s n.val = true → v.startFrom ≤ 99000 * s.aud.period →
      ∃ t, exec (.tdmPortStart n) s = .next t ∧ (tdmOf t n.val).state = .running
        ∧ (v.restartPending = false → (tdmOf t n.val).txOn = v.txMask ∧ (tdmOf t n.val).rxOn = v.rxMask
            ∧ (tdmOf t n.val).restarts = sat32 v.restarts 0)
        ∧ (v.restartPending = true → (tdmOf t n.val).txOn = 0 ∧ (tdmOf t n.val).rxOn = 0
            ∧ (tdmOf t n.val).restarts = sat32 v.restarts 1)
        ∧ (tdmOf t n.val).restartPending = false ∧ (tdmOf t n.val).restartReplies = []
        ∧ (∀ j, j ≠ n.val → tdmOf t j = tdmOf s j) ∧ settled { t with aud := s.aud } = settled s))

/-! ## The compositor (R307 to R332) -/

/-- HEAD_CONFIG, LAYER_CONFIG and LUT_LOAD stage their change at its hang and answer with it; a head's ENABLE, FORMAT
and FAMILY apply at once and a head that stops or changes picture loses its source; the space that a layer needs is
taken at once; FLIP replaces a pending flip of its layer, and FLIP_GROUP adds a group (R307, R317, R322 to R329). -/
def Obligations.CompositorCommandsAreStaged : Prop :=
  (∀ (p : Packet) (s : State), Runs specHeadConfig p s →
    let h := u8 p 0
    let c := readHead p
    let old := headCfg s h
    let gone := c.enable = false ∨ c.format ≠ old.format ∨ c.family ≠ old.family
    let r := applyTarget s c.family (isHalf s c.family (some c.format)) (readTarget s c.family p.target)
    let x : CompStaged := { head := h, hang := r.1, change := .head c
                            reply := completes p (replyHeader 0x8001 p) (answerFor r c.family) }
    ∃ t e, exec (.headConfig p) s = .next t ∧ Leaves p e t ∧ Answered specHeadConfig p (answerFor r c.family) t
      ∧ headCfg e h = { old with enable := c.enable, format := c.format, family := c.family }
      ∧ (headOf e h).showing = ((headOf s h).showing && !decide gone)
      ∧ (gone → (sourceOf e (headSource h)).usable = false)
      ∧ e.comp.staged = s.comp.staged ++ [x]
      ∧ e.comp.flips = (if c.enable = true then s.comp.flips
          else s.comp.flips.filter (fun f => !f.entries.any (fun e => e.head == h)))
      ∧ (∀ k, k ≠ h → headOf e k = headOf s k) ∧ (∀ m d, destOf e m d = destOf s m d)
      ∧ settled { e with comp := s.comp, mtx := s.mtx, fab := { e.fab with tx := s.fab.tx } } = settled s) ∧
  (∀ (p : Packet) (s : State), Runs specLayerConfig p s →
    let h := u8 p 0
    let l := u8 p 1
    let fam := headFamily s h
    let r := applyTarget s fam (headHalf s h) (readTarget s fam p.target)
    let a := answerFor r fam
    let x := fun (v : CompChange) => ({ head := h, hang := r.1, change := v
                                        reply := completes p (replyHeader 0x8002 p) a } : CompStaged)
    let c := readVideoLayer p
    let g := readGraphicLayer p
    let space := if reallocates (graphicBefore p s h l) g = true then vitrineSpace s g else none
    (l < 12 → Effects specLayerConfig p s (.layerConfig p)
      (stageComp (x (.video l c))
        (setExtension h (max (extensionUnits (headTiles s h (withStaged p s (.video l c)))) (headOf s h).extension) s)) a) ∧
    (12 ≤ l → g.enable = true → Effects specLayerConfig p s (.layerConfig p)
      (stageComp (x (.graphic l g space)) (takeSpace (space.getD (0, 0)) s)) a) ∧
    (12 ≤ l → g.enable = false →
      ∃ t e, exec (.layerConfig p) s = .next t ∧ Leaves p e t ∧ Answered specLayerConfig p a t
        ∧ e.comp.staged = s.comp.staged ++ [x (.graphic l g none)]
        ∧ e.comp.flips = s.comp.flips.filter (fun f => !flipNames h l f)
        ∧ settled { e with comp := s.comp } = settled s)) ∧
  (∀ (p : Packet) (s : State), Runs specLutLoad p s →
    let h := u8 p 0
    let k := u8 p 1
    let fam := headFamily s h
    let r := applyTarget s fam (headHalf s h) (readTarget s fam p.target)
    let kept := s.comp.staged.filter (fun c => !sameLoad h k r.1 c)
    let x : CompStaged := { head := h, hang := r.1, change := .table k (tableWords p)
                            reply := completes p (replyHeader 0x8003 p) (answerFor r fam) }
    Effects specLutLoad p s (.lutLoad p) { s with comp := { s.comp with staged := kept ++ [x] } } (answerFor r fam)) ∧
  (∀ (p : Packet) (s : State), Runs specFlip p s →
    let e := flipEntry p
    let fam := headFamily s e.head
    let r := applyTarget s fam (headHalf s e.head) (readTarget s fam p.target)
    let f : Flip := { group := false, family := fam, target := r.1
                      deadline := if u8 p 3 = 255 then none else some (u8 p 3)
                      entries := [e], reply := completes p (replyHeader 0x8004 p) (answerFor r fam) }
    ∃ t u, exec (.flip p) s = .next t ∧ Leaves p u t ∧ Answered specFlip p (answerFor r fam) t
      ∧ u.comp.flips = s.comp.flips.filter (fun x => !flipNames e.head e.layer x) ++ [f]
      ∧ u.comp.staged = s.comp.staged ∧ (∀ k, headOf u k = headOf s k)
      ∧ settled { u with comp := s.comp } = settled s) ∧
  (∀ (p : Packet) (s : State), Runs specFlipGroup p s →
    let es := groupEntries p
    let fam := groupFamily s es
    let r := applyTarget s fam (groupHalf s es) (readTarget s fam p.target)
    let f : Flip := { group := true, family := fam, target := r.1, deadline := some (u8 p 1), entries := es
                      reply := completes p (replyHeader 0x8005 p) (answerFor r fam) }
    Effects specFlipGroup p s (.flipGroup p) { s with comp := { s.comp with flips := s.comp.flips ++ [f] } }
      (answerFor r fam))

/-- At the flip point of its hang a flip whose fence is signalled shows its vitrine; one that is not ready waits, or at
its deadline is abandoned, which raises its layer's source; a staged change of a head or a table applies. A family that
is not enabled has no flip points (R323, R326 to R328). -/
def Obligations.FlipPointShowsVitrines : Prop :=
  (∀ (fam : Fin 4) (s : State), familyOn s fam.val = false → exec (.flipPoint fam) s = .next s) ∧
  (∀ (fam : Fin 4) (f : Flip) (e : FlipEntry) (n : Word) (s : State), familyOn s fam.val = true →
    s.comp.staged = [] → s.comp.flips = [f] → f.family = fam.val → f.entries = [e] →
    flipHang s f (familyOf s fam.val).hang = some n →
    let g := graphicLayer s e.head e.layer
    (notEarlier n f.target = false → exec (.flipPoint fam) s = .next s) ∧
    (notEarlier n f.target = true → fenceReady s e.fence = true →
      ∃ t, exec (.flipPoint fam) s = .next t ∧ t.comp.flips = []
        ∧ graphicLayer t e.head e.layer = { g with
            displayed := e.vitrine, flips := sat32 g.flips 1
            flipsWaited := if n = f.target then g.flipsWaited else sat32 g.flipsWaited 1 }
        ∧ settled { t with comp := s.comp } = settled s) ∧
    (notEarlier n f.target = true → fenceReady s e.fence = false → deadlineAt s f n = false →
      exec (.flipPoint fam) s = .next s) ∧
    (notEarlier n f.target = true → fenceReady s e.fence = false → deadlineAt s f n = true →
      ∃ t, exec (.flipPoint fam) s = .next t ∧ t.comp.flips = []
        ∧ (graphicLayer t e.head e.layer).displayed = g.displayed
        ∧ (graphicLayer t e.head e.layer).flipsAbandoned = sat32 g.flipsAbandoned 1
        ∧ (faultOf t (compFault e.head e.layer)).sticky = true
        ∧ settled { t with comp := s.comp } = settled s)) ∧
  (∀ (fam : Fin 4) (x : CompStaged) (s : State), familyOn s fam.val = true → s.comp.staged = [x] → s.comp.flips = [] →
    x.head < 32 → headFamily s x.head = fam.val → headFrameAt s x.head (familyOf s fam.val).hang = true →
    hangDue ((familyOf s fam.val).hang - BitVec.ofNat 32 (headStep s x.head)) x.hang = true →
    (∀ c, x.change = .head c →
      ∃ t, exec (.flipPoint fam) s = .next t ∧ t.comp.staged = []
        ∧ headCfg t x.head = { c with enable := (headCfg s x.head).enable, format := (headCfg s x.head).format
                                      family := (headCfg s x.head).family }
        ∧ (∀ k, k ≠ x.head → headOf t k = headOf s k)
        ∧ settled { t with comp := s.comp, mtx := s.mtx, fab := { t.fab with tx := s.fab.tx } } = settled s) ∧
    (∀ k words, x.change = .table k words →
      ∃ t, exec (.flipPoint fam) s = .next t ∧ t.comp.staged = []
        ∧ t.comp.tables = tput s.comp.tables (33 * x.head + k) words
        ∧ settled { t with comp := s.comp } = settled s))

/-! ## Engines (R333 to R353) -/

/-- ENGINE_ASSIGN begins a load, and its reply follows the load's end; ENGINE_PARAM keeps its values and stages them
at its hang; DISPLAY_LIST_SUBMIT issues a pending fence per SIGNAL, queues the list, and answers with the fences
(R337, R339, R341, R344, R347). -/
def Obligations.EngineCommandsAreTaken : Prop :=
  (∀ (p : Packet) (s : State), Runs specAssign p s → sess p ≠ 0 → (sessionOf s (sess p)).isOpen = true →
    let n := u8 p 0
    let c := readEngine p
    let e := engineOf s n
    let r := replyHeader 0x9001 p
    let w : Switch := { cfg := c, target := some p.target, slot := s.store.bootSlot, former := e.state, reply := some r
                        notify := if notifyHung p then some r else none }
    Defers p s (.engineAssign p)
      (putEngine { s with set := { s.set with engines := tset (fun _ => {}) s.set.engines n c } } n { e with
        state := .loading, live := e.state == .running || (e.state == .loading && e.live), switch := some w
        loadAborted := false })) ∧
  (∀ (p : Packet) (s : State), Runs specParam p s →
    let n := u8 p 0
    let e := engineOf s n
    let k := (paramKernel s n).getD 0
    let fam := paramFamily s n
    let h := applyTarget s fam false (readTarget s fam p.target)
    let a := answerFor h fam
    let x : ParamSet := { kernel := k, index := u16 p 2, values := paramValues p, hang := h.1
                          reply := if notifyHung p then some (firstReply (replyHeader 0x9002 p) a) else none }
    Effects specParam p s (.engineParam p)
      (putEngine s n { e with
        held := putValues (1024 * k + u16 p 2) (paramValues p) e.held, pendingParams := e.pendingParams ++ [x] }) a) ∧
  (∀ (p : Packet) (s : State), Runs specSubmit p s →
    let n := u8 p 0
    let words := withSignal (listWords s p)
    let r := issueFences (signalCount words) s
    Effects specSubmit p s (.displayListSubmit p)
      (putEngine r.2 n { engineOf s n with
        queue := (engineOf s n).queue ++ [{ vit := u16 p 2, words := words, fences := r.1 }] })
      (done ([BitVec.ofNat 8 r.1.length, 0, 0, 0] ++ (r.1.map (leBytes 4)).flatten))
    ∧ r.1.length = signalCount words ∧ r.2.eng.issued = s.eng.issued + signalCount words
    ∧ r.2.eng.pending = s.eng.pending + signalCount words)

/-- A loaded kernel answers its command and switches at its boundary; an invocation completes, a PROBE with the levels of
what its own input shows (R14, R340), or is skipped, the fourth skip in a row stopping the engine; a stop raises the engine's source; a spare that covers a stopped engine
takes its kernel and ports; lists run, draw, and signal their fences (R337, R338, R342 to R351). -/
def Obligations.EngineEventsRunKernels : Prop :=
  (∀ (p : Fin 128) (s : State),
    ((engineOf s p.val).switch = none → exec (.kernelLoadComplete p) s = .next s) ∧
    (∀ w, (engineOf s p.val).switch = some w → s.store.activation = none →
      let e := putEngine s p.val { engineOf s p.val with
        switch := some { w with loaded := true, hang := (switchHang s w).1, reply := none } }
      (w.loaded = true → exec (.kernelLoadComplete p) s = .next s) ∧
      (w.loaded = false → w.reply = none → exec (.kernelLoadComplete p) s = .next e) ∧
      (w.loaded = false → ∀ r, w.reply = some r →
        exec (.kernelLoadComplete p) s = .next (answerLater r (answerFor (switchHang s w) w.cfg.family) e))) ∧
    (∀ w, (engineOf s p.val).switch = some w → s.store.activation.isSome = true → s.store.fallingBack = false →
      w.loaded = false → w.slot = s.store.bootSlot → Config.kernelGood w.slot w.cfg.kernel = false →
      ∃ t, exec (.kernelLoadComplete p) s = .next t ∧ t.cur.restartCause = .request
        ∧ t.cur.restarting = s.chip.dataPlaneReady ∧ t.chip.curatorServing = false)) ∧
  (∀ (p : Fin 128) (s : State), s.store.activation = none →
    ((engineOf s p.val).switch = none → exec (.engineSwitch p) s = .next s) ∧
    (∀ w, (engineOf s p.val).switch = some w →
      (switchReady s w = false → exec (.engineSwitch p) s = .next s) ∧
      (switchReady s w = true →
        ∃ t, exec (.engineSwitch p) s = .next t
          ∧ (engineOf t p.val).cfg = w.cfg ∧ (engineOf t p.val).slot = w.slot ∧ (engineOf t p.val).switch = none
          ∧ (engineOf t p.val).state = (if w.cfg.kernel = 0 then .unassigned else if w.cfg.kernel = 0xFF then .spare
              else .running)
          ∧ (engineOf t p.val).bank1 = (if w.cfg.kernel = 0 then (engineOf s p.val).bank1
              else !(engineOf s p.val).bank1)
          ∧ (∀ k, k ≠ p.val → engineOf t k = engineOf s k)
          ∧ settled { t with eng := s.eng, aud := s.aud, mtx := s.mtx, fab := { t.fab with tx := s.fab.tx } } = settled s))) ∧
  (∀ (p : Fin 128) (run : EngineRun) (s : State),
    (runningKernel s p.val = none → exec (.engineInvocation p run) s = .next s) ∧
    ((runningKernel s p.val).isSome = true → run.finished = true →
      ∃ t, exec (.engineInvocation p run) s = .next t
        ∧ (engineOf t p.val).skips = 0
        ∧ (∀ picture, runningKernel s p.val = some kernelProbe → (engineOf s p.val).pendingParams = [] →
            destPicture s (2176 + p.val) = some picture →
            (engineOf t p.val).results
              = ((probeRegion (engineOf s p.val) picture).zipIdx).flatMap (fun x => levels x.2 x.1))
        ∧ (engineOf t p.val).glyphMissing = sat32 (engineOf s p.val).glyphMissing run.glyphMissing
        ∧ (engineOf t p.val).dmaBytes = sat48 (engineOf s p.val).dmaBytes run.dmaBytes
        ∧ (∀ k, k ≠ p.val → engineOf t k = engineOf s k) ∧ settled { t with eng := s.eng } = settled s) ∧
    ((runningKernel s p.val).isSome = true → run.finished = false →
      ∃ t, exec (.engineInvocation p run) s = .next t
        ∧ (engineOf t p.val).overruns = sat32 (engineOf s p.val).overruns 1
        ∧ (faultOf t (engineFault p.val)).sticky = true
        ∧ (3 ≤ (engineOf s p.val).skips → runningKernel t p.val = none)
        ∧ (∀ k, k ≠ p.val → engineOf t k = engineOf s k)
        ∧ settled { t with eng := s.eng, aud := s.aud, mtx := s.mtx, fab := { t.fab with tx := s.fab.tx } } = settled s)) ∧
  (∀ (p : Fin 128) (cause : StopCause) (s : State),
    (runningKernel s p.val = none → exec (.engineStop p cause) s = .next s) ∧
    ((runningKernel s p.val).isSome = true →
      ∃ t, exec (.engineStop p cause) s = .next t ∧ runningKernel t p.val = none
        ∧ (engineOf t p.val).cfg = (engineOf s p.val).cfg ∧ (engineOf t p.val).queue = []
        ∧ (faultOf t (engineFault p.val)).sticky = true
        ∧ (cause = .memory → (faultOf t (localMemoryFault p.val)).sticky = true)
        ∧ (∀ k, k ≠ p.val → engineOf t k = engineOf s k)
        ∧ settled { t with eng := s.eng, aud := s.aud, mtx := s.mtx, fab := { t.fab with tx := s.fab.tx } } = settled s) ∧
    ((engineOf s p.val).listRunning = true → exec (.listCommandTimeout p) s = exec (.engineStop p .hang) s) ∧
    ((engineOf s p.val).listRunning = false → exec (.listCommandTimeout p) s = .next s)) ∧
  (∀ (p : Fin 128) (s : State),
    ((needsTakeover s p.val = false ∨ s.chip.curatorServing = false ∨ spareFor s p.val = none) →
      exec (.engineTakeover p) s = .next s) ∧
    (∀ q, needsTakeover s p.val = true → s.chip.curatorServing = true → spareFor s p.val = some q →
      ∃ t, exec (.engineTakeover p) s = .next t
        ∧ (engineOf t q).cfg = (engineOf s p.val).cfg ∧ (engineOf t q).state = .running
        ∧ (engineOf t q).ports = (engineOf s p.val).ports ∧ (engineOf t p.val).ports = (engineOf s q).ports
        ∧ (engineOf t q).takeovers = sat32 (engineOf s q).takeovers 1
        ∧ (engineOf t p.val).cfg.kernel = 0xFF ∧ (engineOf t p.val).cfg.cover = (engineOf s q).cfg.cover
        ∧ (faultOf t (faultId 0x0B (p.val / 8) 8)).sticky = true
        ∧ (∀ k, k ≠ p.val → k ≠ q → engineOf t k = engineOf s k)
        ∧ settled { t with eng := s.eng } = settled s)) ∧
  (∀ (p : Fin 128) (s : State),
    ((runsKernel s p.val 1 = false ∨ (engineOf s p.val).listRunning = true ∨ (engineOf s p.val).queue = []) →
      exec (.displayListRun p) s = .next s) ∧
    (∀ l rest ps, runsKernel s p.val 1 = true → (engineOf s p.val).listRunning = false →
      (engineOf s p.val).queue = l :: rest → drawUntilSignal s l.vit (listCommands l.words) [] = some (ps, []) →
      exec (.displayListRun p) s = .next (putEngine { s with eng := { s.eng with paint := ps ++ s.eng.paint } } p.val
        { engineOf s p.val with
            queue := rest, listRunning := false, listsDone := sat32 (engineOf s p.val).listsDone 1 })) ∧
    (∀ l rest ps c cs, runsKernel s p.val 1 = true → (engineOf s p.val).listRunning = false →
      (engineOf s p.val).queue = l :: rest → drawUntilSignal s l.vit (listCommands l.words) [] = some (ps, c :: cs) →
      exec (.displayListRun p) s = .next (putEngine { s with eng := { s.eng with paint := ps ++ s.eng.paint } } p.val
        { engineOf s p.val with queue := { l with words := (c :: cs).flatten } :: rest, listRunning := true })) ∧
    (∀ l rest, runsKernel s p.val 1 = true → (engineOf s p.val).listRunning = false →
      (engineOf s p.val).queue = l :: rest → drawUntilSignal s l.vit (listCommands l.words) [] = none →
      ∃ t, exec (.displayListRun p) s = .next t ∧ (engineOf t p.val).queue = rest
        ∧ (engineOf t p.val).listsCancelled = sat32 (engineOf s p.val).listsCancelled 1
        ∧ (∀ f ∈ l.fences, fenceView t f ≠ .pending) ∧ t.eng.paint = s.eng.paint
        ∧ settled { t with eng := s.eng } = settled s)) ∧
  (∀ (p : Fin 128) (s : State),
    ((engineOf s p.val).listRunning = false → exec (.fenceSignal p) s = .next s) ∧
    (∀ l rest f fs, (engineOf s p.val).listRunning = true → (engineOf s p.val).queue = l :: rest →
      l.fences = f :: fs → fenceView s f = .pending →
      ∃ t, exec (.fenceSignal p) s = .next t ∧ fenceView t f = .signalled
        ∧ t.eng.signalled = s.eng.signalled + 1 ∧ t.eng.issued = s.eng.issued
        ∧ (∀ k, k ≠ p.val → engineOf t k = engineOf s k) ∧ settled { t with eng := s.eng } = settled s))

/-! ## Faults and the Ledger (R423 to R444) -/

/-- A raise makes its source sticky, counts, escalates while its class is sticky, keeps the highest severity and
interrupts, a CRITICAL one on both events; an ID that names no source raises nothing, nor does any before ROOT has
locked (R32). FAULT_ACK clears the records it names, and the hold of every class without a CRITICAL source; where it
names a QUEUE source the writers that wait ask again, which may raise the device source of R233 anew. FAULT_SEVERITY_SET,
FAULT_FORCE and CHECK_INVERT do what they name (R425 to R439). -/
def Obligations.FaultsAreRaisedAndAcknowledged : Prop :=
  (∀ (id : BitVec 16) (s : State), (defaultSeverity id.toNat = none ∨ s.chip.rootLocked = false) →
    exec (.faultRaise id) s = .next s) ∧
  (∀ (id : BitVec 16) (s : State), s.chip.rootLocked = true → (defaultSeverity id.toNat).isSome = true →
    let n := id.toNat
    let f := faultOf s n
    let eff := effectiveSeverity s n
    eff = (if classSticky s (faultClass n) = true then min 3 (severityOf s n + 1) else severityOf s n) ∧
    (∃ t, exec (.faultRaise id) s = .next t ∧ (faultOf t n).sticky = true
      ∧ (1 ≤ eff → t.cmd.irqStatus.getLsbD 4 = true) ∧ (eff = 3 → t.cmd.irqStatus.getLsbD 5 = true)
      ∧ (eff = 3 → (∃ e ∈ s.flt.sources, e.2.critical = true ∧ faultClass e.1 = faultClass n) →
          faultClass n ∈ t.flt.hold)
      ∧ settled { t with aud := s.aud, comp := s.comp, draws := s.draws, eng := s.eng, fab := s.fab, mtx := s.mtx
                         pkt := s.pkt, ref := s.ref, sdi := s.sdi } = settled s) ∧
    (eff < 2 →
      ∃ t, exec (.faultRaise id) s = .next t
        ∧ faultOf t n = { f with
            sticky := true, events := sat32 f.events 1, escalated := f.escalated || classSticky s (faultClass n)
            maxSeverity := if f.sticky then max f.maxSeverity eff else eff }
        ∧ (∀ k, k ≠ n → faultOf t k = faultOf s k) ∧ settled t = settled s)) ∧
  (∀ (p : Packet) (s : State), Runs specFaultAck p s →
    ∃ t e, exec (.faultAck p) s = .next t ∧ Leaves p e t ∧ Answered specFaultAck p (done []) t
      ∧ (∀ k, k ≠ faultId 0x06 31 0 → k ∈ ackNames s p → (faultOf s k).sticky = true →
          faultOf e k = { isolating := (faultOf s k).isolating && laneIsolates k })
      ∧ (∀ k, k ≠ faultId 0x06 31 0 → (k ∉ ackNames s p ∨ (faultOf s k).sticky = false) → faultOf e k = faultOf s k)
      ∧ ((∃ k ∈ ackNames s p, (faultOf s k).sticky = true) → ∀ c, c ≠ 0x06 →
          (c ∈ e.flt.hold ↔ c ∈ s.flt.hold ∧ ∃ x ∈ e.flt.sources, x.2.critical = true ∧ faultClass x.1 = c))
      ∧ ((∀ k ∈ ackNames s p, faultClass k ≠ 0x06) →
          faultOf e (faultId 0x06 31 0) = faultOf s (faultId 0x06 31 0)
            ∧ (0x06 ∈ e.flt.hold ↔ 0x06 ∈ s.flt.hold ∧ ((∃ k ∈ ackNames s p, (faultOf s k).sticky = true) →
                ∃ x ∈ e.flt.sources, x.2.critical = true ∧ faultClass x.1 = 0x06)))
      ∧ settled { e with aud := s.aud, comp := s.comp, eng := s.eng, pkt := s.pkt, sdi := s.sdi } = settled s) ∧
  (∀ (p : Packet) (s : State), Runs specSeverity p s →
    Effects specSeverity p s (.faultSeveritySet p)
      { s with set := { s.set with severities := tset severityDefault s.set.severities (u16 p 0) (u8 p 2) } }
      (done [])) ∧
  (∀ (p : Packet) (s : State), Runs specForce p s →
    let n := u16 p 0
    ∃ t e, exec (.faultForce p) s = .next t ∧ Leaves p e t ∧ Answered specForce p (done []) t
      ∧ (faultOf e n).sticky = true
      ∧ (faultClass n = 0x0B → faultIndex n < 8 → runningKernel e (8 * faultLoc n + faultIndex n) = none)
      ∧ (faultClass n = 0x09 → faultIndex n < 16 → (tdmOf s (faultIndex n)).state = .running →
          (tdmOf e (faultIndex n)).underruns = sat32 (tdmOf s (faultIndex n)).underruns 1)
      ∧ settled { e with aud := s.aud, comp := s.comp, draws := s.draws, eng := s.eng, fab := s.fab, mtx := s.mtx
                         pkt := s.pkt, ref := s.ref, sdi := s.sdi } = settled s) ∧
  (∀ (p : Packet) (s : State), Runs specInvert p s →
    Effects specInvert p s (.checkInvert p)
      { s with flt := { s.flt with invert := tput s.flt.invert (u16 p 0) (u16 p 2) } } (done []))

/-- The Ledger raises each equation that begins to fail; an uncorrected error of a memory raises its source, stops a
running engine, or freezes its queue, and a corrected one is counted; a flipped bit of a payload cell stays in its
frame; a temperature or a rail raises its source once, until 2 °C below the limit (R25, R26, R219, R440 to R444). None
of these happens before ROOT has locked (R32). -/
def Obligations.MonitorsRaiseTheirSources : Prop :=
  (∀ s : State,
    ((∀ k ∈ failing s, k ∈ s.led.failed) →
      exec .ledgerCheck s = .next { s with led := { s.led with failed := failing s } }) ∧
    (∃ t, exec .ledgerCheck s = .next t ∧ t.led.failed = failing s
      ∧ (∀ k ∈ failing s, k ∉ s.led.failed → (tfind t.led.breaches (k / 1024)).isSome = true
          ∧ (faultOf t (faultId 0x12 31 (k / 1024))).sticky = true)
      ∧ settled { t with led := s.led } = settled s)) ∧
  (∀ (x : EccSite) (s : State), s.chip.rootLocked = false → exec (.eccUncorrected x) s = .next s) ∧
  (∀ (x : EccSite) (s : State), s.chip.rootLocked = true →
    let id := x.source.toNat
    let u := flipPayload x s
    (x.flip = none → u = s) ∧
    (∀ c b v, x.flip = some (c, b) → cellByte s c.val (b.val / 8) = some v →
      cellByte u c.val (b.val / 8) = some (v ^^^ (1#8 <<< (b.val % 8)))) ∧
    (isMemorySource id = false → exec (.eccUncorrected x) s = .next u) ∧
    (isMemorySource id = true → x.corrected = true → exec (.eccUncorrected x) s = .next (countCorrected id u)) ∧
    (tfind (countCorrected id u).flt.corrected id = some ((tfind s.flt.corrected id).getD 0 + 1)) ∧
    (id = faultId 0x0C 31 0 → (countCorrected id u).pkt.pool.linkEccCorrected
      = sat32 s.pkt.pool.linkEccCorrected 1) ∧
    (∀ n : Fin 128, isMemorySource id = true → x.corrected = false → engineOfMemory id = some n.val →
      (runningKernel s n.val).isSome = true → exec (.eccUncorrected x) s = exec (.engineStop n .memory) u) ∧
    (isMemorySource id = true → x.corrected = false →
      ∃ t, exec (.eccUncorrected x) s = .next t ∧ (faultOf t id).sticky = true) ∧
    (id = faultId 0x0C 31 0 → x.corrected = false →
      ∃ t, exec (.eccUncorrected x) s = .next t ∧ (queueOf t x.queue).frozen = true
        ∧ t.pkt.pool.badCells = s.pkt.pool.badCells ++ (x.cell.toList.filter (fun c =>
            !(s.pkt.pool.badCells.contains (x.queue, c) || s.pkt.pool.gone.contains c))).map (fun c => (x.queue, c))
        ∧ (∀ n, sendingPort s x.queue = some n → (portOf t n).sending = none)
        ∧ settled { t with pkt := s.pkt, draws := s.draws, fab := { t.fab with lanes := s.fab.lanes } } = settled s)) ∧
  (∀ (x : Sensor) (tenths : Int) (s : State), s.chip.rootLocked = false →
    exec (.thermalThreshold x tenths) s = .next s) ∧
  (∀ (x : Sensor) (tenths : Int) (s : State), s.chip.rootLocked = true →
    let u := { s with chip := { s.chip with temps := tset (fun _ => (0 : Int)) s.chip.temps (sensorIndex x) tenths } }
    ∃ t, exec (.thermalThreshold x tenths) s = .next t ∧ tempOf t (sensorIndex x) = tenths
      ∧ (∀ c ∈ [(0, 1000, hottest u 0 17), (1, 1050, hottest u 0 17), (2, 950, hottest u 17 2)],
          (c.2.1 ≤ c.2.2 → t.flt.standing.contains c.1 = true
            ∧ (s.flt.standing.contains c.1 = false → (faultOf t (faultId 0x11 31 c.1)).sticky = true)) ∧
          (c.2.2 ≤ c.2.1 - 20 → t.flt.standing.contains c.1 = false) ∧
          (c.2.1 - 20 < c.2.2 → c.2.2 < c.2.1 → t.flt.standing.contains c.1 = s.flt.standing.contains c.1))
      ∧ t.chip = u.chip ∧ settled { t with chip := s.chip, flt := s.flt } = settled s) ∧
  (∀ (r : Rail) (s : State),
    ((s.chip.railsOut.contains r = true ∨ s.chip.rootLocked = false) →
      exec (.railOutOfTolerance r) s = .next s) ∧
    (s.chip.railsOut.contains r = false → s.chip.rootLocked = true →
      ∃ t, exec (.railOutOfTolerance r) s = .next t ∧ t.chip.railsOut = s.chip.railsOut ++ [r]
        ∧ (faultOf t (faultId 0x11 31 (railIndex r))).sticky = true
        ∧ settled { t with chip := s.chip } = settled s))

/-! ## The store, images, keys and the life cycle (R446 to R486, R514, R515) -/

/-- STORE_WRITE, IMAGE_BEGIN, IMAGE_VERIFY, ACTIVATE, CONFIRM_HEALTH, SETTINGS_CONFIRM and KEY_SLOT_WRITE request a bank
write, which their reply follows; a resumed image, a bad image and a bad key are answered at once; IMAGE_CHUNK holds a
new chunk; ATTEST answers with a MAC under the lowest valid slot with ATTEST; LIFECYCLE_ADVANCE blows its fuse (R403,
R454, R459, R466, R468, R474 to R478, R482, R486, R515). -/
def Obligations.StoreCommandsRequestWrites : Prop :=
  (∀ (i : Instr) (o : OpSpec) (p : Packet) (s : State), Runs o p s → sess p ≠ 0 →
    (sessionOf s (sess p)).isOpen = true →
    let r := some (replyHeader o.code p)
    ((i, o) = (.storeWrite p, specStoreWrite) →
      Defers p s i (requestWrite (if u8 p 0 = 0 then .commit s.set else .defaults) r s)) ∧
    ((i, o) = (.settingsConfirm p, specSettingsConfirm) → Defers p s i (requestWrite .settingsConfirm r s)) ∧
    ((i, o) = (.confirmHealth p, specConfirmHealth) →
      Defers p s i (requestWrite .confirm r { s with cur := { s.cur with confirmRemain := 0 } })) ∧
    ((i, o) = (.imageBegin p, specImageBegin) → resumes s p = false →
      let x : ImageRx := { slot := 1 - s.store.bootSlot, state := 1, size := u32 p 0, digest := digestField p, held := [] }
      Defers p s i (requestWrite .imageRx r { s with store := { s.store with
        chunks := s.store.chunks.filter (fun e => e.1 / 6144 != 1 - s.store.bootSlot), rx := some x
        sinceBitmap := 0 } })) ∧
    (∀ x, (i, o) = (.imageVerify p, specImageVerify) → rxNow s = some x → (imageVerdict s x).1 = 0 →
      Defers p s i (requestWrite .verified r s)) ∧
    (∀ x, (i, o) = (.activate p, specActivate) → rxNow s = some x →
      (catalogueSigned (imageBytes s x.slot x.size) && (badPart (imageBytes s x.slot x.size)).isNone) = true →
      Defers p s i (requestWrite (.activate x.slot p.target p.family.toNat (orDefault (u16 p 0) 30)
        (if notifyHung p then r else none)) r s)) ∧
    ((i, o) = (.keySlotWrite p, specKeySlot) →
      let u := checkSlots 32 s
      (u16 p 4 = 0 → Defers p s i (requestWrite (.keySlot (u8 p 0) none) r u)) ∧
      (∀ root kek key, u16 p 4 ≠ 0 → rootKey u = some root → kekKey u p = some kek →
        Config.keyUnwrap kek (p.params.drop 8) = some key →
        Defers p s i (requestWrite (.keySlot (u8 p 0) (some (newRecord root (u8 p 0) (policyField p) key))) r u)))) ∧
  (∀ (p : Packet) (x : ImageRx) (s : State), Runs specImageBegin p s → rxNow s = some x → resumes s p = true →
    Effects specImageBegin p s (.imageBegin p) s
      (done (leBytes 4 (chunkCount x.size) ++ leBytes 4 (chunkCount x.size - x.held.length)))) ∧
  (∀ (p : Packet) (x : ImageRx) (s : State), Runs specImageChunk p s → rxNow s = some x →
    (x.held.contains (u32 p 0) = true → Effects specImageChunk p s (.imageChunk p) s (done [])) ∧
    (x.held.contains (u32 p 0) = false →
      let e := holdChunk x (u32 p 0) (p.params.drop 8) s
      Effects specImageChunk p s (.imageChunk p) e (done [])
        ∧ chunkOf e x.slot (u32 p 0) = some (p.params.drop 8)
        ∧ e.store.rx.map (fun y => (y.held, y.state)) = some (x.held ++ [u32 p 0],
            if (x.held ++ [u32 p 0]).length = chunkCount x.size then 2 else x.state))) ∧
  (∀ (p : Packet) (x : ImageRx) (s : State), Runs specImageVerify p s → rxNow s = some x →
    (imageVerdict s x).1 ≠ 0 →
    let v := imageVerdict s x
    Effects specImageVerify p s (.imageVerify p) (setRxState 2 s)
      { failed v.1 with results := leBytes 1 v.1 ++ leBytes 1 v.2 ++ leBytes 2 0 }) ∧
  (∀ (p : Packet) (x : ImageRx) (s : State), Runs specActivate p s → rxNow s = some x →
    (catalogueSigned (imageBytes s x.slot x.size) && (badPart (imageBytes s x.slot x.size)).isNone) = false →
    Effects specActivate p s (.activate p) (setRxState 2 s) (conflict 0)) ∧
  (∀ (p : Packet) (s : State), Runs specKeySlot p s → u16 p 4 ≠ 0 →
    (rootKey (checkSlots 32 s) = none ∨
      (kekKey (checkSlots 32 s) p).bind (fun kek => Config.keyUnwrap kek (p.params.drop 8)) = none) →
    Effects specKeySlot p s (.keySlotWrite p) (note 0x0E 5 (checkSlots 32 s)) (badParam 8)) ∧
  (∀ (p : Packet) (s : State), Runs specAttest p s →
    let u := checkSlots 32 s
    (attestSlot u = none → Effects specAttest p s (.attest p) u (conflict 0)) ∧
    (∀ n, attestSlot u = some n →
      Effects specAttest p s (.attest p) u (done (leBytes 16 Config.deviceUid.toNat
        ++ leBytes 48 (runningCatalogueDigest s).toNat ++ leBytes 1 (lifeState s) ++ leBytes 3 0
        ++ leBytes 48 (Config.hmacSha384 (inspectSlot s n).2.2 (attestMessage s (p.params.take 32))).toNat)))) ∧
  (∀ (p : Packet) (s : State), Runs specLifecycle p s →
    let l := s.life
    Effects specLifecycle p s (.lifecycleAdvance p)
      { s with life :=
        if lifeState s = 0 ∧ u8 p 0 = 1 then { l with provisioned := true, resetDue := true }
        else if lifeState s = 1 ∧ u8 p 0 = 2 then { l with entries := l.entries + 1, resetDue := true }
        else if lifeState s = 2 ∧ u8 p 0 = 1 then { l with exits := l.exits + 1, resetDue := true }
        else { l with retired := true, resetDue := true } } (done []))

/-- A good bank write leaves the bank that was not the newest as the newest, with the next sequence and its cause's
records, and an activation then starts its trial with a restart; a failed one is abandoned and raises the write source;
the bitmap is written 10 s after the last chunk (R467 to R469, R475, R480). -/
def Obligations.BankWritesComplete : Prop :=
  (∀ (good : Bool) (s : State), s.store.writes = [] → exec (.bankWriteComplete good) s = .next s) ∧
  (∀ (w : BankWrite) (rest : List BankWrite) (s : State), s.store.writes = w :: rest →
    ∃ t, exec (.bankWriteComplete false) s = .next t ∧ t.store = { s.store with writes := rest }
      ∧ (faultOf t (faultId 0x0F 31 2)).sticky = true ∧ settled { t with store := s.store } = settled s) ∧
  (∀ (w : BankWrite) (rest : List BankWrite) (b : Bank) (s : State), s.store.writes = w :: rest →
    baseBank s = some b → underTestRoot s = false →
    let k := changeBank s w.change { b with seq := b.seq + 1 }
    k.seq = b.seq + 1 ∧
    ∃ t, exec (.bankWriteComplete true) s = .next t
      ∧ t.store.selectedB = writesB s ∧ t.store.noBank = false
      ∧ (writesB s = true → t.store.bankB = some k ∧ t.store.bankA = s.store.bankA)
      ∧ (writesB s = false → t.store.bankA = some k ∧ t.store.bankB = s.store.bankB)
      ∧ (∀ slot target fam window notify, w.change = .activate slot target fam window notify →
          t.store.bootSlot = slot ∧ t.store.trial = true ∧ t.store.switched = false ∧ t.store.activation.isSome = true
            ∧ t.cur.restartCause = .activate ∧ t.cur.restarting = s.chip.dataPlaneReady)
      ∧ (w.change = .confirm → t.store.trial = false) ∧ (w.change = .fallBack → t.store.fallingBack = false)
      ∧ ((∀ slot target fam window notify, w.change ≠ .activate slot target fam window notify) →
          t.store.writes = rest ∧ settled { t with store := s.store, strong := s.strong, draws := s.draws } = settled s)) ∧
  (∀ s : State,
    ((s.store.rx.isSome = true ∧ s.store.sinceBitmap ≠ 0) →
      exec .bitmapWriteTimer s = .next (requestWrite .imageRx none { s with store := { s.store with sinceBitmap := 0 } })) ∧
    ((s.store.rx = none ∨ s.store.sinceBitmap = 0) → exec .bitmapWriteTimer s = .next s))

/-! ## Twin pairs (R490 to R504) -/

/-- TWIN_PAIR leaves the pair and, with lanes, seeks a partner as STANDBY; TWIN_ROLE sets the role; TWIN_SWAP proposes
a swap and is answered by the partner; roles change at the swap point, at a takeover by a READY standby, and on a
conflict; TWIN_STATE pairs, mirrored commands run once, and their replies are compared (R490 to R500). -/
def Obligations.TwinPairsWork : Prop :=
  (∀ (p : Packet) (s : State), Runs specTwinPair p s →
    ∃ t e, exec (.twinPair p) s = .next t ∧ Leaves p e t ∧ Answered specTwinPair p (done []) t
      ∧ e.set.twinLanes = namedLanes p ∧ e.twin.pair = (if u8 p 1 = 0 then .unpaired else .seeking)
      ∧ e.set.twinLetter = (if u8 p 1 = 0 then s.set.twinLetter else u8 p 0 == 1)
      ∧ e.twin.partner = none ∧ e.twin.active = false ∧ e.twin.swap = none ∧ e.twin.rxSeq = 0
      ∧ settled { e with twin := s.twin, set := s.set } = settled s
      ∧ { e.set with twinLanes := s.set.twinLanes, twinLetter := s.set.twinLetter } = s.set) ∧
  (∀ (p : Packet) (s : State), Runs specTwinRole p s →
    Effects specTwinRole p s (.twinRole p)
      { s with set := { s.set with twinActive := some (u8 p 0 == 1) }
               twin := { s.twin with active := u8 p 0 == 1 } } (done [])) ∧
  (∀ (p : Packet) (s : State), Runs specTwinSwap p s → sess p ≠ 0 → (sessionOf s (sess p)).isOpen = true →
    let n := p.family.toNat
    let h := applyTarget s n false (readTarget s n p.target)
    Defers p s (.twinSwap p)
      { s with twin := { s.twin with swap := some {
          hang := h.1, family := n, agreed := false, late := h.2, reply := some (replyHeader 0xD004 p)
          notify := notifyHung p } } }) ∧
  (∀ s : State,
    (∃ t, exec .twinStateTx s = .next t ∧ t.twin.pair = s.twin.pair ∧ settled { t with twin := s.twin } = settled s) ∧
    (s.twin.cancelled = [] → s.twin.pair = .unpaired → exec .twinStateTx s = .next s) ∧
    (s.twin.cancelled = [] → s.twin.pair ≠ .unpaired →
      exec .twinStateTx s = .next (sendTwin 4 (twinMessage (ownState s)) s)
        ∧ (twinMessage (ownState s)).length = 64)) ∧
  (∀ (m : Bytes) (s : State),
    let p := readTwinState m s.time.count
    let other := p.letterB ≠ s.set.twinLetter
    ((field m 0 1 ≠ 1 ∨ s.twin.pair = .unpaired) →
      ∃ t, exec (.twinStateRx m) s = .next t ∧ t.twin = s.twin ∧ settled t = settled s) ∧
    (field m 0 1 = 1 → s.twin.pair = .seeking → (¬ other ∨ p.laneCount ≠ s.set.twinLanes.length) →
      ∃ t, exec (.twinStateRx m) s = .next t ∧ t.twin.pair = .seeking ∧ (faultOf t (faultId 0x10 31 6)).sticky = true
        ∧ settled t = settled s) ∧
    (field m 0 1 = 1 → s.twin.pair ≠ .unpaired → other →
      (s.twin.pair = .seeking → p.laneCount = s.set.twinLanes.length) →
      ∃ t, exec (.twinStateRx m) s = .next t ∧ t.twin.pair = .paired ∧ t.twin.partner = some p ∧ t.twin.partnerHb = p.active
        ∧ (s.twin.pair = .paired → s.twin.active = true → p.active = true → s.set.twinLetter = true →
            t.twin.active = false ∧ (p.flags.getLsbD 0 = false → (faultOf t (faultId 0x10 31 2)).sticky = true))
        ∧ settled { t with twin := s.twin } = settled s)) ∧
  (∀ s : State,
    (s.twin.pair ≠ .paired → exec .partnerLost s = .next s) ∧
    (s.twin.pair = .paired →
      ∃ t, exec .partnerLost s = .next t ∧ t.twin.pair = .partnerLost ∧ t.twin.swap = none
        ∧ (faultOf t (faultId 0x10 31 0)).sticky = true ∧ settled { t with twin := s.twin } = settled s) ∧
    (s.twin.pair = .unpaired → exec .partnerFailoverN s = .next s ∧ exec .partnerHbLoss s = .next s) ∧
    (s.twin.pair ≠ .unpaired → (s.twin.active = true ∨ twinReady s = false) →
      exec .partnerFailoverN s = .next { s with twin := { s.twin with partnerFailover := true } }) ∧
    (s.twin.pair ≠ .unpaired → s.twin.active = false → twinReady s = true →
      ∃ t, exec .partnerFailoverN s = .next t ∧ t.twin.takeovers = sat32 s.twin.takeovers 1
        ∧ t.twin.partnerFailover = true ∧ (faultOf t (faultId 0x10 31 5)).sticky = true
        ∧ (s.twin.swap = none → s.twin.cancelled = [] → effectiveSeverity s (faultId 0x10 31 5) < 3 →
            t.twin.active = true)
        ∧ settled { t with twin := s.twin } = settled s) ∧
    (s.twin.pair = .partnerLost → s.twin.active = false → partnerActive s = true → readyAlone s = true →
      ∃ t, exec .partnerHbLoss s = .next t ∧ t.twin.takeovers = sat32 s.twin.takeovers 1 ∧ t.twin.partnerHb = false
        ∧ (faultOf t (faultId 0x10 31 5)).sticky = true ∧ settled { t with twin := s.twin } = settled s) ∧
    (s.twin.pair = .paired → partnerActive s = true →
      ∃ t, exec .partnerHbLoss s = .next t ∧ t.twin.partnerHb = false ∧ (faultOf t (faultId 0x10 31 1)).sticky = true
        ∧ settled { t with twin := s.twin } = settled s) ∧
    (s.twin.pair ≠ .unpaired → partnerActive s = false →
      exec .partnerHbLoss s = .next { s with twin := { s.twin with partnerHb := false } })) ∧
  (∀ s : State,
    (s.twin.swap = none → exec .swapPoint s = .next s) ∧
    (∀ w, s.twin.swap = some w → (w.agreed = false ∨ (familyOf s w.family).hang ≠ w.hang) →
      exec .swapPoint s = .next s) ∧
    (∀ w, s.twin.swap = some w → w.agreed = true → (familyOf s w.family).hang = w.hang →
      let e := { s with twin := { s.twin with swap := none, active := !s.twin.active, swaps := sat32 s.twin.swaps 1 } }
      exec .swapPoint s = .next (if w.notify then complete w.reply (hungAt w.hang w.family) e else e))) ∧
  (∀ (q : Word) (h : HostPacket) (s : State),
    ((s.twin.pair = .unpaired ∨ mirrorServed h s = false) → exec (.twinCommandRx q h) s = .next s) ∧
    (s.twin.pair ≠ .unpaired → mirrorServed h s = true → later q s.twin.rxSeq = false →
      ∃ t, exec (.twinCommandRx q h) s = .next t ∧ t.twin = s.twin ∧ settled t = settled s) ∧
    (s.twin.pair ≠ .unpaired → mirrorServed h s = true → later q s.twin.rxSeq = true → h.body.cls = 0 →
      let u := takeInbox 1 (fun b => b == packetBytes h) s
      let k := { h with body := { h.body with endpoint := .twin q } }
      (gateRoom s = false →
        ∃ t, exec (.twinCommandRx q h) s = .next t ∧ t.mtx = { s.mtx with takeQueueDrop := sat32 s.mtx.takeQueueDrop 1 }
          ∧ t.twin.rxSeq = s.twin.rxSeq ∧ (faultOf t (faultId 0x04 31 4)).sticky = true
          ∧ settled { t with mtx := s.mtx } = settled s) ∧
      (gateRoom s = true → (∃ x ∈ s.cmd.takeQueue, x.body.endpoint ≠ .pcie) →
        exec (.twinCommandRx q h) s = .next { u with
          twin := { u.twin with rxSeq := q }
          cmd := { u.cmd with takeQueue := s.cmd.takeQueue ++ [k] } })) ∧
    (∀ o a, s.twin.pair ≠ .unpaired → mirrorServed h s = true → later q s.twin.rxSeq = true →
      (h.body.cls = 0 → ∀ x ∈ s.cmd.takeQueue, x.body.endpoint = .pcie) →
      (∀ c, (ringOf s c).unread = []) →
      mirrorSpecs.find? (fun o => o.code == h.opcode && mirrorable o) = some o →
      let u := takeInbox 1 (fun b => b == packetBytes h) s
      let v := { u with twin := { u.twin with rxSeq := q } }
      let p := mirroredPacket q h.body
      let r := { replyHeader o.code p with mirrored := true }
      firstFail [formChecks o h.body, classCheck o p, opcodeChecks o p v] = none →
      (o.effect r p v).2 = some a → (∀ c, (ringOf (o.effect r p v).1 c).unread = []) →
      exec (.twinCommandRx q h) s = .next (sendReply (firstReply r a) (o.effect r p v).1))) ∧
  (∀ (q : Word) (status : BitVec 16) (hang : Word) (s : State),
    (s.twin.awaiting.find? (fun m => m.twinSeq == q) = none →
      ∃ t, exec (.twinReplyRx q status hang) s = .next t ∧ t.twin = s.twin ∧ settled t = settled s) ∧
    (∀ m, s.twin.awaiting.find? (fun m => m.twinSeq == q) = some m →
      ∃ t, exec (.twinReplyRx q status hang) s = .next t ∧ t.twin.awaiting = s.twin.awaiting.erase m
        ∧ ((m.status = status.toNat ∧ m.hang = hang) → t.twin.mirrorDiffer = s.twin.mirrorDiffer)
        ∧ (¬ (m.status = status.toNat ∧ m.hang = hang) → t.twin.mirrorDiffer = sat32 s.twin.mirrorDiffer 1
            ∧ (faultOf t (faultId 0x10 31 4)).sticky = true)
        ∧ settled { t with twin := s.twin } = settled s))

/-! ## Register accesses (R41 to R43, R144, R244, R357 to R360, R378 to R380, R407 to R418) -/

/-- A write of RINGc_TAIL publishes packets: a bad TAIL or a failed read halts the ring, and a packet that can be read
goes to its server's queue with HEAD past it; SIZE empties a ring; a reply is written when it has room and stalls
otherwise; interrupt bits clear by ones, and unmasking sends each vector once; the snapshots and the uptime are
captured at one instant; until ROOT has locked a register access does nothing (R32, R43, R144, R244, R357 to R360,
R378, R380). -/
def Obligations.RingAndSnapshotRegistersAct : Prop :=
  (∀ (c : Fin 4) (tail : Word) (new : List HostPacket) (err : Bool) (s : State),
    let r := { ringOf s c.val with tail := tail, unread := (ringOf s c.val).unread ++ new.map (inRing c) }
    let u := putRing s c.val r
    let halts := fun (n : Nat) => ∃ t, exec (.ringTailWrite c tail new err) s = .next t
      ∧ ringOf t c.val = { r with halted := true, haltReason := n } ∧ t.cmd.irqStatus.getLsbD 1 = true
      ∧ settled (putRing t c.val r) = settled u
    (s.chip.rootLocked = false → exec (.ringTailWrite c tail new err) s = .next s) ∧
    (s.chip.rootLocked = true →
    (r.halted = true → exec (.ringTailWrite c tail new err) s = .next u) ∧
    (r.halted = false → tailOk r.size.toNat tail.toNat = false → halts 1) ∧
    (r.halted = false → tailOk r.size.toNat tail.toNat = true → err = true → canReadRing u c.val = true → halts 3) ∧
    (r.halted = false → tailOk r.size.toNat tail.toNat = true → (∀ k, canReadRing u k = false) →
      exec (.ringTailWrite c tail new err) s = .next u) ∧
    (∀ h, r.halted = false → tailOk r.size.toNat tail.toNat = true → err = false → canReadRing u c.val = true →
      (∀ k, k ≠ c.val → k < 4 → (ringOf s k).unread = []) → (2 ≤ c.val → noControlWaits u = true) → r.unread = [h] →
      h.body.endpoint = .pcie → h.body.ring = c → isOpcode h.opcode.toNat = true →
      let n := (36 + h.body.paramLength.toNat + 63) / 64 * 64
      ((32768 < h.body.paramLength.toNat ∨ (tail.toNat + r.size.toNat - r.head.toNat) % r.size.toNat < n) → halts 2) ∧
      (h.body.paramLength.toNat ≤ 32768 → n ≤ (tail.toNat + r.size.toNat - r.head.toNat) % r.size.toNat →
        let v := putRing s c.val { r with
          head := BitVec.ofNat 32 ((r.head.toNat + n) % r.size.toNat), unread := [] }
        exec (.ringTailWrite c tail new err) s = .next (if c.val = 0 then
          { v with cmd := { v.cmd with takeQueue := s.cmd.takeQueue ++ [h] } }
          else { v with cmd := { v.cmd with workQueue := s.cmd.workQueue ++ [h] } }))))) ∧
  (∀ (v : Word) (s : State), s.chip.rootLocked = true →
    (∀ c : Fin 4, exec (.ringSizeWrite (Fin.ofNat 5 c.val) v) s = .next (putRing s c.val { ringOf s c.val with
      size := v, head := 0, tail := 0, halted := false, haltReason := 0, unread := [] })) ∧
    exec (.ringSizeWrite 4 v) s = .next { s with cmd := { s.cmd with replyRing := { s.cmd.replyRing with
      size := v, head := 0, tail := 0, halted := false, haltReason := 0, unread := [] } } } ∧
    (∀ u, u = { s with cmd := { s.cmd with replyRing := { s.cmd.replyRing with head := v } } } →
      (∀ c, canReadRing u c = false) → exec (.replyHeadWrite v) s = .next u)) ∧
  (∀ s : State,
    ((s.chip.pcieLink = false ∨ s.cmd.waiting = []) → exec .replyWrite s = .next s) ∧
    (∀ r rest, s.chip.pcieLink = true → s.cmd.waiting = r :: rest →
      let q := s.cmd.replyRing
      let n := (36 + r.results.length + 63) / 64 * 64
      (replyRoom q < n →
        ∃ t, exec .replyWrite s = .next t ∧ t.cmd.irqStatus.getLsbD 6 = true ∧ t.cmd.waiting = s.cmd.waiting
          ∧ settled t = settled s) ∧
      (∀ v, v = { s with cmd := { s.cmd with
          replyRing := { q with tail := BitVec.ofNat 32 ((q.tail.toNat + n) % q.size.toNat) }
          waiting := rest, written := s.cmd.written ++ [r] } } →
        n ≤ replyRoom q → (∀ c, canReadRing v c = false) →
        ∃ t, exec .replyWrite s = .next t ∧ t.cmd.irqStatus.getLsbD 0 = true ∧ t.cmd.waiting = rest
          ∧ settled t = settled v))) ∧
  (∀ (v : Word) (s : State), s.chip.rootLocked = false →
    ∀ i ∈ [Instr.ringSizeWrite 0 v, .ringSizeWrite 1 v, .ringSizeWrite 2 v, .ringSizeWrite 3 v, .ringSizeWrite 4 v,
      .replyHeadWrite v, .irqStatusClear v, .irqMaskWrite v, .hangSnapCapture v, .timeSnapCapture v, .uptimeLoRead,
      .remap, .wdogKick v], exec i s = .next s) ∧
  (∀ (v : Word) (s : State), s.chip.rootLocked = true →
    exec (.irqStatusClear v) s = .next { s with cmd := { s.cmd with irqStatus := s.cmd.irqStatus &&& ~~~v } } ∧
    (∃ t l, exec (.irqMaskWrite v) s = .next t ∧ t.cmd.irqMask = v &&& 0xFFF ∧ t.cmd.irqStatus = s.cmd.irqStatus
      ∧ t.cmd.messages = s.cmd.messages ++ l ∧ l.Nodup
      ∧ (∀ k, k ∈ l ↔ (msixEntry s k).control.getLsbD 0 = false ∧ ∃ e < 12, s.cmd.irqStatus.getLsbD e = true
          ∧ s.cmd.irqMask.getLsbD e = true ∧ v.getLsbD e = false ∧ irqVector s e = k)
      ∧ settled t = settled { s with cmd := { s.cmd with irqMask := v &&& 0xFFF } }) ∧
    (v.getLsbD 0 = false → exec (.hangSnapCapture v) s = .next s) ∧
    (v.getLsbD 0 = true →
      ∃ t, exec (.hangSnapCapture v) s = .next t ∧ t.mtx.snap.valid = true ∧ t.mtx.snap.capture = false
        ∧ [t.mtx.snap.hang0, t.mtx.snap.hang1, t.mtx.snap.hang2, t.mtx.snap.hang3]
            = [hangNumber s 0, hangNumber s 1, hangNumber s 2, hangNumber s 3]
        ∧ [t.mtx.snap.remain0, t.mtx.snap.remain1, t.mtx.snap.remain2, t.mtx.snap.remain3]
            = [remainOf s 0, remainOf s 1, remainOf s 2, remainOf s 3]
        ∧ (∀ n < 4, t.mtx.snap.enabled.getLsbD n = familyOn s n
            ∧ t.mtx.snap.aligned.getLsbD n = (familyOn s n && (familyOf s n).aligned)
            ∧ t.mtx.snap.pastCutoff.getLsbD n = (familyOn s n && (familyOf s n).cutoffPassed))
        ∧ t.mtx.snap.countHi ++ t.mtx.snap.countLo = s.time.count
        ∧ { t with mtx := { t.mtx with snap := s.mtx.snap } } = s) ∧
    (v.getLsbD 0 = false → exec (.timeSnapCapture v) s
      = .next { s with time := { s.time with snap := { s.time.snap with withHang := v.getLsbD 2 } } }) ∧
    (v.getLsbD 0 = true →
      let b := timeAt s.time.triple s.time.count
      ∃ t, exec (.timeSnapCapture v) s = .next t ∧ t.time.snap.valid = true ∧ t.time.snap.capture = false
        ∧ t.time.snap.withHang = v.getLsbD 2 ∧ t.time.snap.servo = s.time.servo
        ∧ t.time.snap.countHi ++ t.time.snap.countLo = s.time.count
        ∧ t.time.snap.secLo = BitVec.ofNat 32 b.sec ∧ t.time.snap.secHi = BitVec.ofNat 32 (b.sec / 2 ^ 32 % 2 ^ 16)
        ∧ t.time.snap.ns = BitVec.ofNat 32 b.ns ∧ t.time.snap.frac = BitVec.ofNat 32 b.frac
        ∧ (v.getLsbD 2 = true → t.mtx = (captureHang s).mtx) ∧ (v.getLsbD 2 = false → t.mtx = s.mtx)
        ∧ { t with mtx := s.mtx, time := { t.time with snap := s.time.snap } } = s)) ∧
  (∀ s : State, s.chip.rootLocked = true →
    exec .uptimeLoRead s
      = .next { s with time := { s.time with uptimeHi := (s.time.count >>> 32).truncate 32 } } ∧
    exec .remap s = .next { s with cur := { s.cur with remap := true } } ∧
    exec (.wdogKick 0x1536) s = .next { s with cur := { s.cur with
      wdogRemain := BitVec.ofNat 32 (max 10000 (min 10000000 s.cur.wdogPeriod.toNat)) } } ∧
    (∀ v : Word, v ≠ 0x1536 → exec (.wdogKick v) s = exec .watchdogExpiry s))

/-- A write through the bus matrix writes the bytes it names and no other, or the register at its address; a master that
may not, a hole, or a wrong size gets the default target's error, which is counted, captured when none stands, and
raised; the host reaches BAR0 and the BAR2 windows handed out, and nothing else; a write of the queue link RAM changes
no queue, and BM_OB_BASE_LO keeps what is written (model's choices, log entries 152 and 176), and until ROOT has locked no write has an effect (R32, R388, R407 to R417). A
register whose effect the manual does not give stops the write by name. -/
def Obligations.BusWritesReachTheirTarget : Prop :=
  (∀ (m : Fin 6) (a : BusAddr) (w : Nat) (v : Word) (s : State),
    let refused := fun (reason : Nat) (g : BusTarget) => ∃ u, exec (.registerWrite m a w v) s = .next u
      ∧ tfind u.cur.errorCounts m.val = some (sat32 ((tfind s.cur.errorCounts m.val).getD 0) 1)
      ∧ (s.cur.error.valid = true → u.cur.error = s.cur.error)
      ∧ (s.cur.error.valid = false → u.cur.error.valid = true ∧ u.cur.error.reason = reason
          ∧ u.cur.error.target = targetCode g ∧ u.cur.error.master = m.val ∧ u.cur.error.write = true
          ∧ ∀ x, a = .bus x → u.cur.error.addr = x)
      ∧ (faultOf u (faultId 0x0D 31 (busErrorSource m.val))).sticky = true
      ∧ settled { u with cur := s.cur, draws := s.draws } = settled s
    (s.chip.rootLocked = false → exec (.registerWrite m a w v) s = .next s) ∧
    (s.chip.rootLocked = true →
    (∀ x, a = .bus x → m.val = 2 → refused 1 (busTarget s x.toNat)) ∧
    (∀ x reason g, a = .bus x → m.val ≠ 2 → busRefusal s m.val x.toNat w true = some (reason, g) → refused reason g) ∧
    (∀ off, a = .bar0 off → m.val ≠ 2 → refused 1 .registers) ∧
    (∀ off, a = .bar2 off → m.val ≠ 2 → refused 1 .reserve) ∧
    (∀ off, a = .bar0 off → m.val = 2 → (w ≠ 4 ∨ off % 4 ≠ 0) → refused 3 .registers) ∧
    (∀ off, a = .bar2 off → m.val = 2 → (sessionOf s (off / 4194304 + 1)).window = false → refused 1 .reserve) ∧
    (∀ off, a = .bar2 off → m.val = 2 → off < 67108864 → 0 < w → off % 4194304 + w ≤ 4194304 →
      (sessionOf s (off / 4194304 + 1)).window = true →
      ∃ u, exec (.registerWrite m a w v) s = .next u
        ∧ (∀ i < w, mread u.bar2 (off + i) = (leBytes w v.toNat).getD i 0)
        ∧ (∀ b, (b < off ∨ off + w ≤ b) → mread u.bar2 b = mread s.bar2 b)
        ∧ { u with bar2 := s.bar2, cur := { u.cur with park := s.cur.park } } = s) ∧
    (∀ x, a = .bus x → m.val ≠ 2 → busRefusal s m.val x.toNat w true = none →
      busTarget s x.toNat ∈ [.sram, .engines, .shared, .reserve, .secure] →
      ∃ u, exec (.registerWrite m a w v) s = .next u ∧ Written w v.toNat (busAddr x.toNat) s u
        ∧ { u with mem := s.mem, aud := s.aud, flt := s.flt, pkt := s.pkt
                   cur := { u.cur with park := s.cur.park } } = s) ∧
    (∀ x, a = .bus x → m.val ≠ 2 → busRefusal s m.val x.toNat w true = none →
      busTarget s x.toNat ∈ [.rom, .outbound] →
      ∃ u, exec (.registerWrite m a w v) s = .next u ∧ { u with cur := { u.cur with park := s.cur.park } } = s) ∧
    (∀ x, a = .bus x → m.val ≠ 2 → busRefusal s m.val x.toNat w true = none → busTarget s x.toNat = .registers →
      sysctlBlock x.toNat = true → 0x20 ≤ x.toNat % 0x10000 → refused 0 .none) ∧
    (∀ x, a = .bus x → m.val ≠ 2 → busRefusal s m.val x.toNat w true = none → busTarget s x.toNat = .registers →
      sysctlBlock x.toNat = false → inside x.toNat 0x40010000 0x10000 = false →
      exec (.registerWrite m a w v) s = .refused .undescribedRegister))) ∧
  (∀ (v : Word) (s : State), s.chip.rootLocked = true → ∀ e ∈ [
      (0x1008, Instr.ringSizeWrite 0 v), (0x1048, .ringSizeWrite 1 v), (0x1088, .ringSizeWrite 2 v),
      (0x10C8, .ringSizeWrite 3 v), (0x1108, .ringSizeWrite 4 v), (0x1010, .ringTailWrite 0 v [] false),
      (0x1050, .ringTailWrite 1 v [] false), (0x1090, .ringTailWrite 2 v [] false),
      (0x10D0, .ringTailWrite 3 v [] false), (0x110C, .replyHeadWrite v), (0x2000, .irqStatusClear v),
      (0x2004, .irqMaskWrite v), (0x3010, .hangSnapCapture v), (0x5000, .timeSnapCapture v)],
    ∃ t, exec e.2 s = .next t ∧ exec (.registerWrite 2 (.bar0 e.1) 4 v) s = .next (park 2 .registers t)) ∧
  (∀ (v : Word) (s : State), s.chip.rootLocked = true →
    let u := park 1 .registers s
    exec (.registerWrite 1 (.bus 0x40000008) 4 v) s = exec (.wdogKick v) u ∧
    exec (.registerWrite 1 (.bus 0x40010008) 4 v) s = exec (.bmErrInfoClear v) u ∧
    (v.getLsbD 0 = true → v.getLsbD 1 = false →
      exec (.registerWrite 1 (.bus 0x40000000) 4 v) s = exec .remap u) ∧
    (v.getLsbD 0 = false → v.getLsbD 1 = true →
      exec (.registerWrite 1 (.bus 0x40000000) 4 v) s = exec .sysctlRestart u)) ∧
  (∀ (v : Word) (s : State), s.chip.rootLocked = false →
    exec (.bmErrInfoClear v) s = .next s ∧ ∀ m : Fin 6, exec (.bmErrCountRead m) s = .next s) ∧
  (∀ (v : Word) (s : State), s.chip.rootLocked = true →
    exec (.bmErrInfoClear v) s = .next { s with cur := { s.cur with
      error := { s.cur.error with valid := s.cur.error.valid && !v.getLsbD 0 } } } ∧
    (∀ m : Fin 6, ∃ t, exec (.bmErrCountRead m) s = .next t ∧ tfind t.cur.errorCounts m.val = none
      ∧ (∀ k, k ≠ m.val → tfind t.cur.errorCounts k = tfind s.cur.errorCounts k)
      ∧ { t with cur := { t.cur with errorCounts := s.cur.errorCounts } } = s))

/-! ## Resets, starts and restarts (R44, R405, R406, R417 to R422, R505 to R512) -/

/-- A power-on reset keeps the flash and the fuses; ROOT's first lock starts the count at zero; a device reset, for
its causes and outside a start, keeps also the count, the audio grid and the reference unit with its settings, whose
candidates 4 to 6 are lost; a PCIe reset closes the
sessions of the rings and clears the rings and the interrupt registers; the start goes through its phases, and stays
in phase 2 where no image passes (R32, R44, R449, R487, R505, R506, R509 to R512, R520). The temperatures and the JTAG
register lie outside the device's resets, and a pulse of 100 to 999 ns takes a free bit (model's choices, log entry
16). -/
def Obligations.ResetsAndStartPhases : Prop :=
  (∀ s : State,
    let flash : Store := { bankA := s.store.bankA, bankB := s.store.bankB, debugA := s.store.debugA
                           debugB := s.store.debugB, chunks := s.store.chunks }
    let lost := [4, 5, 6].foldl (fun s c => loseActivity c false s) s
    let after : State := { State.reset with
      chip := { State.reset.chip with rootLocked := true, startPhase := 1, pcieLink := s.chip.pcieLink
                                      jtag := s.chip.jtag, jtagData := s.chip.jtagData, temps := s.chip.temps
                                      railsOut := s.chip.railsOut }
      time := { State.reset.time with count := s.time.count, uptimeHi := s.time.uptimeHi }
      ref := lost.ref, aud := { State.reset.aud with period := s.aud.period }
      flt := { State.reset.flt with standing := s.flt.standing }
      set := { State.reset.set with refs := s.set.refs, dpll := s.set.dpll, pulses := s.set.pulses }
      store := flash, life := { s.life with testRoot := false, resetDue := false }
      draws := s.draws, pending := s.pending }
    let inStart := s.chip.startPhase < 6 ∧ s.chip.bootFailed = false
    exec .powerOnReset s = .next { State.reset with
      chip := { State.reset.chip with temps := s.chip.temps, jtag := s.chip.jtag, jtagData := s.chip.jtagData }
      store := flash, life := { s.life with unlockPending := false, testRoot := false, resetDue := false }
      draws := s.draws, pending := s.pending } ∧
    (s.chip.startPhase = 0 → exec .rootLock s = .next { s with
      chip := { s.chip with rootLocked := true, startPhase := 1 }, time := { s.time with count := 0 } }) ∧
    (s.chip.startPhase ≠ 0 → exec .rootLock s = .next s) ∧
    (∀ c, inStart → ∃ n, n ≤ 1 ∧ exec (.deviceReset c) s = .next { s with draws := s.draws + n }) ∧
    (∀ ns, ns < 100 → exec (.deviceReset (.sysrst ns)) s = .next s) ∧
    (∀ ns, 1000 ≤ ns → ¬ inStart → exec (.deviceReset (.sysrst ns)) s = .next after) ∧
    (∀ ns, 100 ≤ ns → ns < 1000 → ¬ inStart → exec (.deviceReset (.sysrst ns)) s
      = .next (if (draw 1 s).1 = 1 then { after with draws := s.draws + 1 } else { s with draws := s.draws + 1 })) ∧
    (¬ inStart → exec (.deviceReset .boundaryScan) s = .next after ∧
      exec (.deviceReset .lifecycle) s = .next (if s.life.resetDue = true then after else s) ∧
      exec (.deviceReset .docent) s = .next (if s.doc.resetDue = true then after else s))) ∧
  (∀ s : State,
    exec .pcieLinkUp s = .next { s with chip := { s.chip with pcieLink := true } } ∧
    ∃ t, exec .pcieReset s = .next t ∧ t.chip = { s.chip with pcieLink := false }
      ∧ [t.cmd.ring0, t.cmd.ring1, t.cmd.ring2, t.cmd.ring3, t.cmd.replyRing] = [{}, {}, {}, {}, {}]
      ∧ t.cmd.waiting = [] ∧ t.cmd.irqStatus = 0 ∧ t.cmd.irqMask = State.reset.cmd.irqMask ∧ t.cmd.msix = []
      ∧ t.cmd.msixPending = 0 ∧ t.cmd.irqMap0 = State.reset.cmd.irqMap0 ∧ t.cmd.irqMap1 = State.reset.cmd.irqMap1
      ∧ (∀ n, 1 ≤ n → n ≤ 16 →
          ((sessionOf s n).isOpen = true ∧ (sessionOf s n).endpoint = .pcie →
            sessionOf t n = { window := (sessionOf s n).window }
              ∧ ∀ h ∈ t.cmd.takeQueue ++ t.cmd.workQueue, sess h.body ≠ n) ∧
          (¬ ((sessionOf s n).isOpen = true ∧ (sessionOf s n).endpoint = .pcie) → sessionOf t n = sessionOf s n))
      ∧ (∀ r, s.mtx.restate = some r →
          t.mtx.restate = if 1 ≤ r.session ∧ r.session ≤ 16 ∧ (sessionOf s r.session).isOpen = true
            ∧ (sessionOf s r.session).endpoint = .pcie then none else some r)
      ∧ { t with cmd := s.cmd, chip := s.chip, mtx := { t.mtx with restate := s.mtx.restate } } = s) ∧
  (∀ (o : BootObs) (s : State),
    (s.chip.startPhase = 1 →
      exec (.startPhaseAdvance o) s = .next { s with chip := { s.chip with startPhase := 2 } }) ∧
    (s.chip.startPhase = 2 → s.chip.bootFailed = true → exec (.startPhaseAdvance o) s = .next s) ∧
    (s.chip.startPhase = 2 → s.chip.bootFailed = false →
      ∃ t, exec (.startPhaseAdvance o) s = .next t
        ∧ settled { t with chip := s.chip, doc := s.doc, draws := s.draws, life := s.life, store := s.store
                           strong := s.strong } = settled s
        ∧ t.store.chunks = s.store.chunks ∧ { t.life with testRoot := s.life.testRoot } = s.life
        ∧ ((lifeState s = 2 ∨ (lifeState s = 0 ∧ s.life.unlockPending = true)) →
            t.strong.root = .test Config.testRoot ∧ t.life.testRoot = true)
        ∧ ((lifeState s = 1 ∨ lifeState s = 3) → t.store.debugA = none ∧ t.store.debugB = none)
        ∧ ((o.slot0Good = false ∧ o.slot1Good = false) → t.chip = { s.chip with bootFailed := true })
        ∧ ((o.slot0Good = true ∨ o.slot1Good = true) → t.chip = { s.chip with startPhase := 3 }
            ∧ (if t.store.bootSlot = 0 then o.slot0Good else o.slot1Good) = true
            ∧ t.doc.mode = (if underTestRoot t then 2 else 1))) ∧
    (s.chip.startPhase = 3 → exec (.startPhaseAdvance o) s
      = .next { s with chip := { s.chip with startPhase := 4 }, cur := { s.cur with remap := true } }) ∧
    (s.chip.startPhase = 4 → exec (.startPhaseAdvance o) s
      = .next { s with chip := { s.chip with startPhase := 5, reserveReady := true } }) ∧
    (s.chip.startPhase = 5 →
      ∃ t, exec (.startPhaseAdvance o) s = .next t
        ∧ t.chip = { s.chip with startPhase := 6, dataPlaneReady := true, curatorServing := true }
        ∧ t.cur = s.cur ∧ t.strong = s.strong ∧ t.life = s.life ∧ t.mem = s.mem ∧ t.bar2 = s.bar2) ∧
    (6 ≤ s.chip.startPhase → exec (.startPhaseAdvance o) s = .next s))

/-- A Curator restart, by a lockstep mismatch, the watchdog, a health-confirmation timeout or a request, raises its
source, records its cause, holds the cores, wipes Curator SRAM and no other memory, empties the work queue and the trap
queues, discards a restate, raises the restart event, and leaves the data plane as it runs; its end serves commands
again, and answers each stream whose last reply is behind its last command FAULT 0xFFFD, with its sequence set back;
until ROOT has locked none of these causes does anything (R32, R376, R405, R406, R417 to R422). -/
def Obligations.CuratorRestartsAndResumes : Prop :=
  (∀ (i : Instr) (c : RestartCause) (fault : Option Nat) (s : State),
    ((i, c, fault) = (.lockstepMismatch, .lockstep, some 0) ∨ (i, c, fault) = (.watchdogExpiry, .watchdog, some 1)
      ∨ ((i, c, fault) = (.confirmTimeout, .confirmTimeout, some 1) ∧ s.cur.confirmRemain ≠ 0)
      ∨ (i, c, fault) = (.sysctlRestart, .request, none)) →
    s.chip.rootLocked = true →
    ∃ t, exec i s = .next t
      ∧ t.chip = { s.chip with startPhase := if s.chip.dataPlaneReady then 7 else bit s.chip.rootLocked
                               curatorServing := false, bootFailed := false }
      ∧ t.cur.restartCause = c ∧ t.cur.restartCount = sat32 s.cur.restartCount 1 ∧ t.cur.remap = false
      ∧ t.cur.restarting = s.chip.dataPlaneReady
      ∧ { t.cur with remap := s.cur.remap, restarting := s.cur.restarting, restartCause := s.cur.restartCause
                     restartCount := s.cur.restartCount, wdogRemain := s.cur.wdogRemain
                     confirmRemain := s.cur.confirmRemain } = s.cur
      ∧ t.cmd.irqStatus.getLsbD 3 = true ∧ t.cmd.workQueue = [] ∧ t.pkt.trapQueues = [] ∧ t.mtx.restate = none
      ∧ t.store.writes = [] ∧ t.doc.line = [] ∧ t.doc.output = []
      ∧ (∀ a, (0x20000000 ≤ a ∧ a < 0x20400000) → mread t.mem a = 0)
      ∧ (∀ a, (a < 0x20000000 ∨ 0x20400000 ≤ a) → mread t.mem a = mread s.mem a)
      ∧ (s.store.trial = true → s.store.fallingBack = false →
          t.store.bootSlot = 1 - s.store.bootSlot ∧ t.store.fallingBack = true ∧ t.cur.confirmRemain = 0)
      ∧ (s.store.trial = false → t.store.bootSlot = s.store.bootSlot ∧ t.store.fallingBack = s.store.fallingBack)
      ∧ (∀ n, fault = some n → (faultOf t (faultId 0x0D 31 n)).sticky = true)
      ∧ settled { t with chip := s.chip, cur := s.cur, doc := s.doc, eng := s.eng, mem := s.mem, store := s.store
                         time := s.time, pkt := { t.pkt with trapQueues := s.pkt.trapQueues }
                         mtx := { t.mtx with restate := s.mtx.restate } } = settled s) ∧
  (∀ s : State,
    (s.chip.rootLocked = false → ∀ i ∈ [Instr.lockstepMismatch, .watchdogExpiry, .confirmTimeout, .sysctlRestart,
      .slowRestart], exec i s = .next s) ∧
    (s.cur.confirmRemain = 0 → exec .confirmTimeout s = .next s) ∧
    (s.cur.restarting = false → exec .slowRestart s = .next s ∧ exec .commandServiceResumed s = .next s) ∧
    (s.cur.restarting = true →
      (s.chip.rootLocked = true → ∃ t, exec .slowRestart s = .next t ∧ (faultOf t (faultId 0x0D 31 5)).sticky = true ∧ settled t = settled s) ∧
      (∃ t, exec .commandServiceResumed s = .next t ∧ t.chip = { s.chip with startPhase := 6, curatorServing := true }
        ∧ t.cur.restarting = false ∧ t.cur.remap = true ∧ t.cmd.irqStatus.getLsbD 3 = true ∧ t.mem = s.mem
        ∧ ((∀ c, (ringOf s c).unread = []) → ∀ n cls last, 1 ≤ n → n ≤ 16 → 1 ≤ cls → cls ≤ 3 →
            (sessionOf s n).isOpen = true → (streamOf (sessionOf s n) cls).taken = some last →
            (streamOf (sessionOf s n) cls).replied ≠ some last →
            let first := match (streamOf (sessionOf s n) cls).replied with | some r => r + 1 | none => 1
            (streamOf (sessionOf t n) cls).expected = first
              ∧ ∃ r ∈ posted t (sessionOf s n).endpoint, r.session = n ∧ r.cls = cls ∧ r.seq = first ∧ r.status = 0x0500
                  ∧ r.detail = 0xFFFD ∧ r.results = leBytes 4 last.toNat)
        ∧ settled { t with chip := s.chip, cur := s.cur, doc := s.doc, draws := s.draws, eng := s.eng, store := s.store
                           cmd := { t.cmd with ring0 := s.cmd.ring0, ring1 := s.cmd.ring1, ring2 := s.cmd.ring2
                                               ring3 := s.cmd.ring3 } } = settled s)))

/-! ## The debug ports (R518 to R523) -/

/-- The Docent reads a command while it is enabled, the Curator serves and no output waits, and nothing otherwise; it
answers with its lines and OK or one error, in mode 1 changes nothing else, in mode 2 reads and writes through the
bridge, and takes characters into a line of at most 128; DOCENT_ENABLE sets mode and rate (R402, R520 to R523). The
wording of its lines is the model's (log entry 20). -/
def Obligations.DocentAnswers : Prop :=
  (∀ (p : Packet) (s : State), Runs specDocentEnable p s →
    Effects specDocentEnable p s (.docentEnable p)
      { s with doc := { s.doc with mode := u8 p 0, newBaud := some (u32 p 4) } } (done [])) ∧
  (∀ (a : DocentArgs) (s : State), ∀ i ∈ [Instr.docentHelp, .docentStatus, .docentFaults a, .docentLedger, .docentLanes a,
      .docentTime, .docentRef, .docentPeek a, .docentPoke a, .docentTraceOn, .docentTraceOff, .docentTraceDump a,
      .docentReset],
    ((s.doc.mode = 0 ∨ s.chip.curatorServing = false ∨ s.doc.output ≠ []) → exec i s = .next s) ∧
    (s.doc.mode ≤ 1 → ∃ t, exec i s = .next t ∧ { t with doc := s.doc } = s)) ∧
  (∀ s : State, s.doc.mode ≠ 0 → s.chip.curatorServing = true → s.doc.output = [] →
    let told := fun (l : List String) => { s.doc with line := [], overlong := false, output := l ++ ["zv> "] }
    let answers := fun (i : Instr) (l : List String) => exec i s = .next { s with doc := told l }
    let lane := fun (l : Nat) => hexText 3 l ++ " " ++ itemsText (laneItems s l)
    answers .docentHelp (helpLines s.doc.mode ++ ["OK"]) ∧ answers .docentStatus (statusLines s ++ ["OK"]) ∧
    answers .docentLedger [itemsText (ledgerResults s), "OK"] ∧ answers .docentTime [itemsText (timeItems s), "OK"] ∧
    answers .docentRef [itemsText (refItems s), "OK"] ∧
    (∀ a, (a.bad = true ∨ 1 < a.nums.length) → answers (.docentFaults a) ["ERR SYNTAX"]) ∧
    answers (.docentFaults { bad := false, nums := [] }) (faultLines s 0 ++ ["OK"]) ∧
    (∀ c, answers (.docentFaults { bad := false, nums := [c] })
      (if 1 ≤ c ∧ c ≤ 0x12 then faultLines s c ++ ["OK"] else ["ERR RANGE"])) ∧
    (∀ first count, answers (.docentLanes { bad := false, nums := [first, count] })
      (if first < 416 ∧ 1 ≤ count ∧ first + count ≤ 416
        then (List.range count).map (fun i => lane (first + i)) ++ ["OK"] else ["ERR RANGE"])) ∧
    (s.doc.mode = 1 →
      (∀ a v, answers (.docentPeek { bad := false, nums := [a] }) ["ERR MODE"] ∧
        answers (.docentPoke { bad := false, nums := [a, v] }) ["ERR MODE"]) ∧
      answers .docentTraceOn ["ERR MODE"] ∧ answers .docentTraceOff ["ERR MODE"] ∧ answers .docentReset ["ERR MODE"] ∧
      answers (.docentTraceDump { bad := false, nums := [] }) ["ERR MODE"]) ∧
    (2 ≤ s.doc.mode →
      exec .docentTraceOn s = .next { s with doc := { told ["OK"] with trace := true } } ∧
      exec .docentTraceOff s = .next { s with doc := { told ["OK"] with trace := false } } ∧
      exec .docentReset s = .next { s with doc := { told ["OK"] with resetDue := true } } ∧
      answers (.docentTraceDump { bad := false, nums := [0] }) ["ERR RANGE"] ∧
      (∀ n, 0 < n → ∃ t l, exec (.docentTraceDump { bad := false, nums := [n] }) s = .next t ∧ l.length ≤ n
        ∧ { t with draws := s.draws } = { s with doc := told (l ++ ["OK"]) }) ∧
      (∀ a n, (n = 0 ∨ 64 < n ∨ a % 4 ≠ 0) → answers (.docentPeek { bad := false, nums := [a, n] }) ["ERR RANGE"]) ∧
      (∀ a : BitVec 40, a.toNat % 4 = 0 → busRefusal s 3 a.toNat 4 false = none →
        busTarget s a.toNat ∈ [.sram, .engines, .shared, .reserve] →
        let b := busAddr a.toNat
        let w := wordText (busByte s (b + 3) ++ busByte s (b + 2) ++ busByte s (b + 1) ++ busByte s b)
        ∃ t, exec (.docentPeek { bad := false, nums := [a.toNat] }) s = .next t ∧ t.doc = told [w, "OK"]
          ∧ { t with doc := s.doc, cur := { t.cur with park := s.cur.park } } = s) ∧
      (∀ (a : BitVec 40) r, a.toNat % 4 = 0 → busRefusal s 3 a.toNat 4 false = some r →
        ∃ t, exec (.docentPeek { bad := false, nums := [a.toNat] }) s = .next t ∧ t.doc = told ["ERR BUS"]
          ∧ (faultOf t (faultId 0x0D 31 4)).sticky = true
          ∧ settled { t with doc := s.doc, cur := s.cur } = settled s))) ∧
  (∀ (a : BitVec 40) (v : Nat) (u s : State), s.doc.mode = 2 → s.chip.curatorServing = true → s.doc.output = [] →
    s.chip.rootLocked = true → a.toNat % 4 = 0 → v < 2 ^ 32 → exec (.registerWrite 3 (.bus a) 4 (BitVec.ofNat 32 v)) s = .next u →
    busTarget s a.toNat ≠ .registers →
    exec (.docentPoke { bad := false, nums := [a.toNat, v] }) s = .next { u with doc := { s.doc with
      line := [], overlong := false
      output := [if busRefusal s 3 a.toNat 4 true = none then "OK" else "ERR BUS", "zv> "] } }) ∧
  (∀ (c : Byte) (s : State),
    ((s.doc.mode = 0 ∨ s.chip.curatorServing = false ∨ s.doc.output ≠ []) → exec (.docentCharacterRx c) s = .next s) ∧
    (s.doc.mode ≠ 0 → s.chip.curatorServing = true → s.doc.output = [] →
      let put := fun (d : Docent) => exec (.docentCharacterRx c) s = .next { s with doc := d }
      let ends := c = 0x0D ∨ c = 0x0A
      (c = 0x08 → put { s.doc with line := s.doc.line.dropLast }) ∧
      (¬ ends → c ≠ 0x08 → s.doc.line.length < 128 → put { s.doc with line := s.doc.line ++ [c] }) ∧
      (¬ ends → c ≠ 0x08 → 128 ≤ s.doc.line.length → put { s.doc with overlong := true }) ∧
      (ends → s.doc.overlong = true →
        put { s.doc with line := [], overlong := false, output := ["ERR LONG", "zv> "] }) ∧
      (ends → s.doc.overlong = false → s.doc.line = [] → put s.doc) ∧
      (ends → s.doc.overlong = false → s.doc.line ≠ [] → knownLine s.doc.line = false →
        put { s.doc with line := [], output := ["ERR SYNTAX", "zv> "] })) ∧
    exec .docentOutputDrained s = .next { s with doc := { s.doc with
      output := [], baud := s.doc.newBaud.getD s.doc.baud, newBaud := none } })

/-- EXTEST, CLAMP and HIGHZ take the balls, and any other instruction after one of them starts a device reset; IDCODE,
also by Test-Logic-Reset, reads 0x1153_6A6F; DBG_UNLOCK sets UNLOCK_PENDING in BLANK, and DBG_ACCESS reads or writes
through the bridge in a start under the test root; each acts as BYPASS otherwise (R415, R505, R518, R519). -/
def Obligations.JtagPortActs : Prop :=
  ∀ s : State,
    let loaded := fun (x : JtagInstr) => { s with chip := { s.chip with jtag := x } }
    (∀ e ∈ [(Instr.extest, JtagInstr.extest), (.clamp, .clamp), (.highz, .highz), (.samplePreload, .sample),
        (.bypass, .bypass)],
      let leaves := s.chip.jtag ∈ [.extest, .clamp, .highz] ∧ e.2 ∉ [JtagInstr.extest, .clamp, .highz]
      (¬ leaves → exec e.1 s = .next (loaded e.2)) ∧
      (leaves → exec e.1 s = exec (.deviceReset .boundaryScan) (loaded e.2))) ∧
    (∀ i ∈ [Instr.idcode, .testLogicReset],
      (s.chip.jtag ∉ [.extest, .clamp, .highz] →
        exec i s = .next { s with chip := { s.chip with jtag := .idcode, jtagData := 0x11536A6F } }) ∧
      (s.chip.jtag ∈ [.extest, .clamp, .highz] →
        ∃ t, exec (.deviceReset .boundaryScan) (loaded .idcode) = .next t
          ∧ exec i s = .next { t with chip := { t.chip with jtagData := 0x11536A6F } })) ∧
    (lifeState s ≠ 0 → exec .dbgUnlock s = exec .bypass s) ∧
    (lifeState s = 0 → s.chip.jtag ∉ [.extest, .clamp, .highz] →
      exec .dbgUnlock s = .next { loaded .dbgUnlock with life := { s.life with unlockPending := true } }) ∧
    (∀ (write : Bool) (a : BitVec 40) (v : Word),
      (s.life.testRoot = false → exec (.dbgAccess write a v) s = exec .bypass s) ∧
      (s.life.testRoot = true → s.chip.jtag ∉ [.extest, .clamp, .highz] →
        let u := loaded .dbgAccess
        (write = true → s.chip.rootLocked = true →
          exec (.dbgAccess write a v) s = exec (.registerWrite 3 (.bus a) 4 v) u) ∧
        (write = true → exec (.dbgAccess write a v) s = match busWrite 3 a 4 v u with
          | some r => .next r.2
          | none => .refused .undescribedRegister) ∧
        (write = false → busRefusal s 3 a.toNat 4 false = none →
          busTarget s a.toNat ∈ [.sram, .engines, .shared, .reserve] →
          let b := busAddr a.toNat
          ∃ t, exec (.dbgAccess write a v) s = .next t
            ∧ t.chip.jtagData = busByte s (b + 3) ++ busByte s (b + 2) ++ busByte s (b + 1) ++ busByte s b
            ∧ { t with chip := { t.chip with jtagData := s.chip.jtagData }
                       cur := { t.cur with park := s.cur.park } } = u) ∧
        (∀ r, write = false → busRefusal s 3 a.toNat 4 false = some r →
          ∃ t, exec (.dbgAccess write a v) s = .next t ∧ t.chip.jtagData = 0xFFFFFFFF
            ∧ (faultOf t (faultId 0x0D 31 4)).sticky = true
            ∧ settled { t with chip := { t.chip with jtagData := s.chip.jtagData }, cur := s.cur } = settled u)))

/-! ## Completion of HEAD_LATE and DOCENT_POKE (R219, R226, R413, R415, R416, R521 to R523) -/

/-- HEAD_LATE goes on in every state: it discards a late head frame of a host queue, and serves the
writers that wait, or changes nothing; its cells with an uncorrectable link word a frozen queue keeps for the sweep, and
another retires (model's choice, log entry 72). DOCENT_POKE goes on, in a monitor of mode 2 that reads, at every aligned address
and value: with OK and the word written, the register set, or nothing changed in ROM and host memory, or with ERR BUS and
the default target's error; at a register that the manual does not describe it stops by name. In every other case it
answers its error, or does nothing (R219, R226, R413, R415, R416, R521 to R523). BM_OB_BASE_LO keeps what is written
(model's choice, log entry 176). -/
def Obligations.LateHeadAndPokeAlwaysAnswer : Prop :=
  (∀ (q : Fin 65536) (s : State),
    let late := isControlQueue q.val = false ∧ ∃ f rest, (queueOf s q.val).frames = f :: rest ∧ isLate s q.val f = true
    (late → exec (.headLate q) s = .next (retryAll (countHeadLate q.val (dropHead q.val s)))) ∧
    (¬ late → exec (.headLate q) s = .next s)) ∧
  (∀ (q : Fin 65536) (f : QFrame) (rest : List QFrame) (s : State), (queueOf s q.val).frames = f :: rest →
    let bad := f.at'.filter (fun c => s.pkt.pool.badCells.contains (q.val, c))
    let u := dropHead q.val s
    ((queueOf s q.val).frozen = true → (queueOf u q.val).stranded = (queueOf s q.val).stranded ++ bad
        ∧ u.pkt.pool.gone = s.pkt.pool.gone) ∧
    ((queueOf s q.val).frozen = false → (queueOf u q.val).stranded = (queueOf s q.val).stranded
        ∧ u.pkt.pool.gone = s.pkt.pool.gone ++ bad)) ∧
  (∀ (d : DocentArgs) (s : State),
    (s.doc.mode = 0 ∨ s.chip.curatorServing = false ∨ s.doc.output ≠ [] → exec (.docentPoke d) s = .next s) ∧
    (s.doc.mode ≠ 0 → s.chip.curatorServing = true → s.doc.output = [] →
      let told := fun (l : String) => { s.doc with line := [], overlong := false, output := [l, "zv> "] }
      let answers := fun (l : String) => exec (.docentPoke d) s = .next { s with doc := told l }
      ((d.bad = true ∨ d.nums.length ≠ 2) → answers "ERR SYNTAX") ∧
      (∀ x v, d.bad = false → d.nums = [x, v] →
        (s.doc.mode = 1 → answers "ERR MODE") ∧
        (s.doc.mode = 2 → (x % 4 ≠ 0 ∨ 2 ^ 40 < x + 4 ∨ 2 ^ 32 ≤ v) → answers "ERR RANGE")) ∧
      (∀ (a : BitVec 40) (v : Word), d.bad = false → d.nums = [a.toNat, v.toNat] → s.doc.mode = 2 → a.toNat % 4 = 0 →
        let refusal := busRefusal s 3 a.toNat 4 true
        let target := busTarget s a.toNat
        let ends := fun (l : String) (P : State → Prop) =>
          ∃ u, exec (.docentPoke d) s = .next u ∧ u.doc = told l ∧ P { u with doc := s.doc }
        (∀ reason g, refusal = some (reason, g) → ends "ERR BUS" (fun u => u = busError 3 reason g true a s)) ∧
        (refusal = none → target ∈ [.sram, .engines, .shared, .reserve] → ends "OK" (fun u =>
          Written 4 v.toNat (busAddr a.toNat) s u
            ∧ { u with mem := s.mem, aud := s.aud, flt := s.flt, pkt := s.pkt
                       cur := { u.cur with park := s.cur.park } } = s)) ∧
        (refusal = none → target ∈ [.rom, .outbound] → ends "OK" (fun u =>
          { u with cur := { u.cur with park := s.cur.park } } = s)) ∧
        (refusal = none → target = .registers → inside a.toNat 0x40010000 0x10000 = true →
          let w := park 3 .registers s
          let sets := fun (c : Curator) => ends "OK" (fun u => u = { w with cur := c })
          (a.toNat = 0x40010000 → sets { w.cur with prio := v &&& 0x3F }) ∧
          (a.toNat = 0x40010008 → sets { w.cur with
            error := { s.cur.error with valid := s.cur.error.valid && !v.getLsbD 0 } }) ∧
          (a.toNat = 0x4001002C → sets { w.cur with obBaseLo := v }) ∧
          (a.toNat = 0x40010030 → sets { w.cur with obBaseHi := v }) ∧
          (a.toNat = 0x40010034 → sets { w.cur with starve := v &&& 0xFFFF }) ∧
          (a.toNat ∈ [0x40010004, 0x4001000C, 0x40010010, 0x40010014, 0x40010018, 0x4001001C, 0x40010020, 0x40010024,
            0x40010028] → sets w.cur) ∧
          (0x40010038 ≤ a.toNat → ends "ERR BUS" (fun u => u = busError 3 0 .none true a s))) ∧
        (refusal = none → target = .registers → inside a.toNat 0x40010000 0x10000 = false →
          exec (.docentPoke d) s = .refused .undescribedRegister))))
end

