-- ==== Sys2Proof/Laws/Tables.lean ====
section
/-! SUPPORT. Tables.lean: what reading and writing a table or a memory does: read after write, and the
canonical form that every write keeps. -/

namespace Sys2Proof.Machine

variable {α : Type}

/-! ## Reading what has been listed -/

theorem tfind_tput (t : Tab α) (k j : Nat) (v : α) :
    tfind (tput t k v) j = if k = j then some v else tfind t j := by
  induction t with
  | nil => simp [tput, tfind]
  | cons e t ih =>
    obtain ⟨i, w⟩ := e
    simp only [tput]
    split
    · simp [tfind]
    · split
      · subst i; by_cases h : k = j <;> simp [tfind, h]
      · by_cases h : i = j
        · have : k ≠ j := by omega
          simp [tfind, h, this]
        · simp [tfind, h, ih]

theorem tfind_tdel (t : Tab α) (k j : Nat) :
    tfind (tdel t k) j = if k = j then none else tfind t j := by
  induction t with
  | nil => simp [tdel, tfind]
  | cons e t ih =>
    obtain ⟨i, w⟩ := e
    simp only [tdel]
    split
    · subst i
      rw [ih]; by_cases h : k = j <;> simp [tfind, h]
    · by_cases h : i = j
      · have : k ≠ j := by omega
        simp [tfind, h, this]
      · simp [tfind, h, ih]

/-- The record of a unit after a record has been set. -/
theorem tget_tset [DecidableEq α] (d : Nat → α) (t : Tab α) (k j : Nat) (v : α) :
    tget d (tset d t k v) j = if k = j then v else tget d t j := by
  unfold tset tget
  split
  · rename_i h; rw [tfind_tdel]; split
    · subst j; simp [h]
    · rfl
  · rw [tfind_tput]; split <;> simp

@[simp] theorem tget_tset_same [DecidableEq α] (d : Nat → α) (t : Tab α) (k : Nat) (v : α) :
    tget d (tset d t k v) k = v := by simp [tget_tset]

theorem tget_tset_other [DecidableEq α] (d : Nat → α) (t : Tab α) (k j : Nat) (v : α) (h : k ≠ j) :
    tget d (tset d t k v) j = tget d t j := by simp [tget_tset, h]

/-! ## The canonical form -/

theorem tsorted_weaken {lo lo' : Nat} {t : Tab α} (h : lo' ≤ lo) (w : tsorted lo t = true) :
    tsorted lo' t = true := by
  cases t with
  | nil => rfl
  | cons e t =>
    obtain ⟨i, v⟩ := e
    simp only [tsorted, Bool.and_eq_true, decide_eq_true_eq] at w ⊢
    exact ⟨by omega, w.2⟩

theorem tsorted_tput {lo k : Nat} (t : Tab α) (v : α) (h : lo ≤ k) (w : tsorted lo t = true) :
    tsorted lo (tput t k v) = true := by
  induction t generalizing lo with
  | nil => simp [tput, tsorted, h]
  | cons e t ih =>
    obtain ⟨i, x⟩ := e
    simp only [tsorted, Bool.and_eq_true, decide_eq_true_eq] at w
    simp only [tput]
    split
    · simp only [tsorted, Bool.and_eq_true, decide_eq_true_eq]; exact ⟨h, by omega, w.2⟩
    · split
      · subst i; simp only [tsorted, Bool.and_eq_true, decide_eq_true_eq]; exact ⟨h, w.2⟩
      · simp only [tsorted, Bool.and_eq_true, decide_eq_true_eq]
        exact ⟨w.1, ih (by omega) w.2⟩

theorem tsorted_tdel {lo : Nat} (t : Tab α) (k : Nat) (w : tsorted lo t = true) :
    tsorted lo (tdel t k) = true := by
  induction t generalizing lo with
  | nil => rfl
  | cons e t ih =>
    obtain ⟨i, x⟩ := e
    simp only [tsorted, Bool.and_eq_true, decide_eq_true_eq] at w
    simp only [tdel]
    split
    · exact tsorted_weaken (by omega) (ih w.2)
    · simp only [tsorted, Bool.and_eq_true, decide_eq_true_eq]; exact ⟨w.1, ih w.2⟩

theorem mem_tput {t : Tab α} {k : Nat} {v : α} {e : Nat × α} (h : e ∈ tput t k v) :
    e = (k, v) ∨ e ∈ t := by
  induction t with
  | nil => simpa [tput] using h
  | cons x t ih =>
    obtain ⟨i, w⟩ := x
    simp only [tput] at h
    split at h
    · simpa using h
    · split at h
      · simp only [List.mem_cons] at h ⊢; tauto
      · simp only [List.mem_cons] at h ⊢
        rcases h with h | h
        · exact .inr (.inl h)
        · rcases ih h with h | h <;> tauto

theorem mem_tdel {t : Tab α} {k : Nat} {e : Nat × α} (h : e ∈ tdel t k) : e ∈ t := by
  induction t with
  | nil => simp [tdel] at h
  | cons x t ih =>
    obtain ⟨i, w⟩ := x
    simp only [tdel] at h
    split at h
    · exact List.mem_cons_of_mem _ (ih h)
    · simp only [List.mem_cons] at h ⊢
      rcases h with h | h
      · exact .inl h
      · exact .inr (ih h)

/-- Setting a record keeps a table's canonical form. -/
theorem twf_tset [DecidableEq α] (d : Nat → α) (t : Tab α) (k : Nat) (v : α) (w : twf d t = true) :
    twf d (tset d t k v) = true := by
  simp only [twf, Bool.and_eq_true, List.all_eq_true, decide_eq_true_eq] at w ⊢
  unfold tset
  split
  · exact ⟨tsorted_tdel _ _ w.1, fun e he => w.2 e (mem_tdel he)⟩
  · rename_i hv
    refine ⟨tsorted_tput _ _ (Nat.zero_le _) w.1, fun e he => ?_⟩
    rcases mem_tput he with rfl | he
    · exact hv
    · exact w.2 e he

/-! ## Memory (R407) -/

@[simp] theorem memWf_nil : memWf [] = true := rfl

/-- A byte written is read back, and every other byte reads as before. -/
theorem mread_mwrite (m : List Host.Cell) (a b : Nat) (v : Byte) :
    mread (mwrite m a v) b = if a = b then v else mread m b := tget_tset _ m a b v

/-- Writing a byte keeps the canonical form. -/
theorem memWf_mwrite (m : List Host.Cell) (a : Nat) (v : Byte) (w : memWf m = true) :
    memWf (mwrite m a v) = true := twf_tset _ m a v w

/-- Writing a word keeps the canonical form. -/
theorem memWf_mwriteWord (m : List Host.Cell) (a : Nat) (v : Word) (w : memWf m = true) :
    memWf (mwriteWord m a v) = true :=
  memWf_mwrite _ _ _ (memWf_mwrite _ _ _ (memWf_mwrite _ _ _ (memWf_mwrite _ _ _ w)))

/-- A word is written to its four bytes and to no other. -/
theorem mread_mwriteWord_other (m : List Host.Cell) (a b : Nat) (v : Word) (h : b < a ∨ a + 3 < b) :
    mread (mwriteWord m a v) b = mread m b := by
  simp only [mwriteWord, mread_mwrite]
  repeat rw [if_neg (by omega)]

/-- A word written is read back. -/
theorem mreadWord_mwriteWord (m : List Host.Cell) (a : Nat) (v : Word) :
    mreadWord (mwriteWord m a v) a = v := by
  have e : ∀ i j : Nat, (a + i = a + j) = (i = j) := fun i j => by simp
  simp only [mreadWord, mwriteWord, mread_mwrite]
  simp only [show a + 2 ≠ a + 3 from by omega, show a + 1 ≠ a + 3 from by omega, show a ≠ a + 3 from by omega,
    show a + 3 ≠ a + 2 from by omega, show a + 1 ≠ a + 2 from by omega, show a ≠ a + 2 from by omega,
    show a + 3 ≠ a + 1 from by omega, show a + 2 ≠ a + 1 from by omega, show a ≠ a + 1 from by omega,
    show a + 3 ≠ a from by omega, show a + 2 ≠ a from by omega, show a + 1 ≠ a from by omega,
    if_true, if_false]
  refine BitVec.eq_of_getLsbD_eq (fun i hi => ?_)
  have hi : i < 32 := hi
  simp only [BitVec.getLsbD_append, BitVec.getLsbD_extractLsb']
  interval_cases i <;> simp

end Sys2Proof.Machine
end

