-- ==== Sys2Proof/Laws/Reply.lean ====
section
/-! SUPPORT. Reply.lean: what answering a command can touch, and what a host command that passes its
checks leaves behind. -/

namespace Sys2Proof.Machine

variable (s : State)

/-! ## What a reply may touch: `settled` -/

@[simp] theorem settled_ite (c : Prop) [Decidable c] (a b : State) :
    settled (if c then a else b) = if c then settled a else settled b := by split <;> rfl

@[simp] theorem sendVector_settled (v : Nat) : settled (sendVector v s) = settled s := by
  unfold sendVector; split <;> rfl

@[simp] theorem raiseIrq_settled (e : Nat) : settled (raiseIrq e s) = settled s := by
  unfold raiseIrq; split
  · rfl
  · dsimp only; split
    · rfl
    · rw [sendVector_settled]; rfl

@[simp] theorem putFault_settled (i : Nat) (v : FaultSource) : settled (putFault s i v) = settled s := rfl
@[simp] theorem putQueue_settled (q : Nat) (v : Queue) : settled (putQueue s q v) = settled s := rfl
@[simp] theorem putPool_settled (v : CellPool) : settled (putPool s v) = settled s := rfl
@[simp] theorem putLink_settled (f : Nat) (v : Link) : settled (putLink s f v) = settled s := rfl
@[simp] theorem putSession_settled (n : Nat) (v : Session) : settled (putSession s n v) = settled s := rfl
@[simp] theorem countQueue_settled (q : Nat) (f : QueueCounters → QueueCounters) :
    settled (countQueue q f s) = settled s := rfl
@[simp] theorem countFrozenDrop_settled (q : Nat) : settled (countFrozenDrop q s) = settled s := rfl
@[simp] theorem noteLow_settled : settled (noteLow s) = settled s := putPool_settled _ _
@[simp] theorem takeCells_settled (c : Nat) : settled (takeCells c s) = settled s := by
  simp only [takeCells, noteLow_settled, putPool_settled]
@[simp] theorem appendFrame_settled (q : Nat) (f : QFrame) : settled (appendFrame q f s) = settled s := by
  simp only [appendFrame, putQueue_settled]
@[simp] theorem admitFrame_settled (f : QFrame) : settled (admitFrame f s).1 = settled s := by
  simp only [admitFrame, putPool_settled, takeCells_settled]
@[simp] theorem linkWritten_settled (q : Nat) (f : QFrame) : settled (linkWritten q f s) = settled s := by
  simp only [linkWritten, appendFrame_settled, putPool_settled]
@[simp] theorem linkFrame_settled (q : Nat) (f : QFrame) : settled (linkFrame q f s) = settled s := by
  simp only [linkFrame, takeCells_settled, appendFrame_settled]
@[simp] theorem sendMessage_settled (f t : Nat) (d : Bytes) : settled (sendMessage f t d s) = settled s := by
  simp only [sendMessage, putLink_settled]
@[simp] theorem takeFromQueues_settled (h : HostPacket) : settled (takeFromQueues h s) = settled s := rfl
@[simp] theorem consumeSeq_settled (p : Packet) : settled (consumeSeq p s) = settled s := rfl

@[simp] theorem postReply_settled (r : Reply) : settled (postReply r s) = settled s := by
  unfold postReply; split <;> rfl

@[simp] theorem cancelSwap_settled : settled (cancelSwap s) = settled s := by
  unfold cancelSwap; split <;> rfl

@[simp] theorem yieldRole_settled : settled (yieldRole s) = settled s := by
  unfold yieldRole; split
  · show settled (cancelSwap s) = _; simp
  · rfl

@[simp] theorem enterHold_settled (c : Nat) : settled (enterHold s c) = settled s := by
  unfold enterHold; split <;> rfl

@[simp] theorem faultIrqs_settled (c : Nat) : settled (faultIrqs c s) = settled s := by
  unfold faultIrqs; (repeat' split) <;> simp

/-- A raise that isolates nothing touches the fault sources, the hold, the interrupts and the role. -/
@[simp] theorem raiseCore_settled (id : Nat) : settled (raiseCore id s) = settled s := by
  unfold raiseCore; dsimp only; split <;> simp

@[simp] theorem note_settled (c i : Nat) : settled (note c i s) = settled s := raiseCore_settled _ _

@[simp] theorem noteShared_settled (b : Bool) : settled (noteShared b s) = settled s := by
  unfold noteShared; split <;> simp

@[simp] theorem putStalled_settled (g : Bool) (q : Nat) (l : List QFrame) (b : Bool) :
    settled (putStalled g q l b s) = settled s := by unfold putStalled; dsimp only; split <;> rfl

/-- The frames of a waiting writer touch queues, cells and the source of the shared cells. -/
@[simp] theorem retryStalled_settled (g : Bool) (q : Nat) (l : List QFrame) (b : Bool) :
    settled (retryStalled g q l b s) = settled s := by
  induction l generalizing s b with
  | nil => simp [retryStalled]
  | cons f r ih => unfold retryStalled; split <;> simp [ih]

@[simp] theorem offerControl_settled (g : Bool) (q : Nat) (f : QFrame) :
    settled (offerControl g q f s) = settled s := by
  unfold offerControl; dsimp only; (repeat' split) <;> simp

@[simp] theorem sendTwin_settled (t : Nat) (d : Bytes) : settled (sendTwin t d s) = settled s := by
  unfold sendTwin; split <;> rfl

/-- Sending a reply touches what `settled` blanks and nothing else (R192, R364). -/
@[simp] theorem sendReply_settled (r : Reply) : settled (sendReply r s) = settled s := by
  unfold sendReply; split <;> simp

@[simp] theorem flushOwed_settled (n c : Nat) (l : List (Word × Option Reply)) :
    settled (flushOwed n c l s) = settled s := by
  induction l generalizing s with
  | nil => rfl
  | cons e l ih =>
    obtain ⟨q, r⟩ := e
    cases r with
    | none => rfl
    | some r => simp only [flushOwed]; rw [ih]; simp

@[simp] theorem oweReply_settled (n c : Nat) (q : Word) (r : Option Reply) :
    settled (oweReply n c q r s) = settled s := by unfold oweReply; simp

@[simp] theorem answerCommand_settled (o : OpSpec) (h : Reply) (p : Packet) (a : Option Answer) :
    settled (answerCommand o h p a s) = settled s := by
  unfold answerCommand; (repeat' split) <;> simp

@[simp] theorem forwardMirror_settled (o : OpSpec) (p : Packet) (a : Answer) :
    settled (forwardMirror o p a s) = settled s := by
  unfold forwardMirror; split
  · dsimp only; rw [sendTwin_settled]; rfl
  · rw [note_settled]; rfl

@[simp] theorem mirrorAfter_settled (o : OpSpec) (p : Packet) (a : Option Answer) :
    settled (mirrorAfter o p a s) = settled s := by
  unfold mirrorAfter; (repeat' split) <;> simp

@[simp] theorem taken_settled (o : OpSpec) (p : Packet) : settled (taken o p s) = settled s := by
  unfold taken; dsimp only; split <;> simp

/-! ## What a reply to a ring touches: the command channel -/

theorem taken_beyondCmd (o : OpSpec) (p : Packet) : beyondCmd (taken o p s) = beyondCmd s := by
  unfold taken; dsimp only; split <;> rfl

theorem sendReply_pcie (r : Reply) (h : r.endpoint = .pcie) :
    sendReply r s = { s with cmd := { s.cmd with waiting := s.cmd.waiting ++ [r] } } := by
  unfold sendReply postReply; rw [h]

theorem answerCommand_pcie (o : OpSpec) (h : Reply) (p : Packet) (a : Option Answer)
    (hp : h.endpoint = .pcie) (ho : (streamOf (sessionOf s (sess p)) p.cls.toNat).owed = []) :
    beyondCmd (answerCommand o h p a s) = beyondCmd s := by
  have hf : ∀ x, (firstReply h x).endpoint = .pcie := fun x => hp
  unfold answerCommand
  split
  · split
    · rw [sendReply_pcie _ _ (hf _)]; rfl
    · rfl
  · unfold oweReply; simp only [ho, List.nil_append]
    cases a with
    | none => rfl
    | some a => simp only [Option.map_some, flushOwed]; rw [sendReply_pcie _ _ (hf _)]; rfl

/-! ## Posting -/

/-- The replies on their way to the host, and the sessions. -/
def mail (s : State) : List Reply × List Reply × Tab Session := (s.cmd.waiting, s.cmd.left, s.cmd.sessions)

theorem mail_posted {s t : State} (h : mail s = mail t) (e : Endpoint) : posted s e = posted t e := by
  have h1 : s.cmd.waiting = t.cmd.waiting := congrArg Prod.fst h
  have h2 : s.cmd.left = t.cmd.left := congrArg (fun x => x.2.1) h
  cases e <;> simp [posted, h1, h2]

theorem mail_sessionOf {s t : State} (h : mail s = mail t) (n : Nat) : sessionOf s n = sessionOf t n := by
  have h1 : s.cmd.sessions = t.cmd.sessions := congrArg (fun x => x.2.2) h
  simp [sessionOf, h1]

@[simp] theorem mail_ite (c : Prop) [Decidable c] (a b : State) :
    mail (if c then a else b) = if c then mail a else mail b := by split <;> rfl

@[simp] theorem sendVector_mail (v : Nat) : mail (sendVector v s) = mail s := by
  unfold sendVector; split <;> rfl

@[simp] theorem raiseIrq_mail (e : Nat) : mail (raiseIrq e s) = mail s := by
  unfold raiseIrq; split
  · rfl
  · dsimp only; split
    · rfl
    · rw [sendVector_mail]; rfl

@[simp] theorem putFault_mail (i : Nat) (v : FaultSource) : mail (putFault s i v) = mail s := rfl
@[simp] theorem putQueue_mail (q : Nat) (v : Queue) : mail (putQueue s q v) = mail s := rfl
@[simp] theorem linkFrame_mail (q : Nat) (f : QFrame) : mail (linkFrame q f s) = mail s := rfl
@[simp] theorem countFrozenDrop_mail (q : Nat) : mail (countFrozenDrop q s) = mail s := rfl

@[simp] theorem yieldRole_mail : mail (yieldRole s) = mail s := by
  unfold yieldRole; split
  · show mail (cancelSwap s) = _; unfold cancelSwap; split <;> rfl
  · rfl

@[simp] theorem raiseCore_mail (id : Nat) : mail (raiseCore id s) = mail s := by
  have e : ∀ s c, mail (enterHold s c) = mail s := fun s c => by unfold enterHold; split <;> rfl
  have f : ∀ s c, mail (faultIrqs c s) = mail s := fun s c => by unfold faultIrqs; (repeat' split) <;> simp
  unfold raiseCore; dsimp only; split <;> simp [e, f]

@[simp] theorem noteShared_mail (b : Bool) : mail (noteShared b s) = mail s := by
  unfold noteShared note; split <;> simp

@[simp] theorem putStalled_mail (g : Bool) (q : Nat) (l : List QFrame) (b : Bool) :
    mail (putStalled g q l b s) = mail s := by unfold putStalled; dsimp only; split <;> rfl

@[simp] theorem retryStalled_mail (g : Bool) (q : Nat) (l : List QFrame) (b : Bool) :
    mail (retryStalled g q l b s) = mail s := by
  induction l generalizing s b with
  | nil => simp [retryStalled]
  | cons f r ih => unfold retryStalled; split <;> simp [ih]

@[simp] theorem offerControl_mail (g : Bool) (q : Nat) (f : QFrame) : mail (offerControl g q f s) = mail s := by
  unfold offerControl; dsimp only; (repeat' split) <;> simp

@[simp] theorem sendTwin_mail (t : Nat) (d : Bytes) : mail (sendTwin t d s) = mail s := by
  unfold sendTwin; split <;> rfl

@[simp] theorem note_mail (c i : Nat) : mail (note c i s) = mail s := raiseCore_mail _ _

/-- Mirroring a command leaves the replies and the sessions. -/
@[simp] theorem mirrorAfter_mail (o : OpSpec) (p : Packet) (a : Option Answer) :
    mail (mirrorAfter o p a s) = mail s := by
  have f : ∀ a, mail (forwardMirror o p a s) = mail s := fun a => by
    unfold forwardMirror; split
    · dsimp only; rw [sendTwin_mail]; rfl
    · rw [note_mail]; rfl
  unfold mirrorAfter; (repeat' split) <;> simp [f]

/-- Sending a reply leaves the sessions. -/
theorem sendReply_sessions (r : Reply) (n : Nat) : sessionOf (sendReply r s) n = sessionOf s n := by
  unfold sendReply
  split <;> rename_i h
  · simp [postReply, h, sessionOf]
  · rw [mail_sessionOf (offerControl_mail _ _ _ _)]; simp [postReply, h, sessionOf]
  · rw [mail_sessionOf (sendTwin_mail _ _ _)]; simp [postReply, h, sessionOf]

/-- A reply is posted last on its transport. -/
theorem sendReply_posted (r : Reply) : posted (sendReply r s) r.endpoint = posted s r.endpoint ++ [r] := by
  unfold sendReply
  split <;> rename_i h
  · rw [h]; simp [postReply, h, posted]
  · rw [mail_posted (offerControl_mail _ _ _ _)]; rw [h]; simp [postReply, h, posted]
  · rw [mail_posted (sendTwin_mail _ _ _)]; rw [h]; simp [postReply, h, posted]

theorem answerCommand_posted (o : OpSpec) (p : Packet) (a : Answer)
    (ho : (streamOf (sessionOf s (sess p)) p.cls.toNat).owed = []) :
    ∃ l, posted (answerCommand o (replyHeader o.code p) p (some a) s) p.endpoint
      = l ++ [firstReply (replyHeader o.code p) a] := by
  have he : (firstReply (replyHeader o.code p) a).endpoint = p.endpoint := rfl
  unfold answerCommand
  split
  · exact ⟨_, by simpa [he] using sendReply_posted s (firstReply (replyHeader o.code p) a)⟩
  · unfold oweReply; simp only [ho, List.nil_append, Option.map_some, flushOwed]
    exact ⟨_, by simpa [he] using sendReply_posted _ (firstReply (replyHeader o.code p) a)⟩

/-! ## Rings -/

theorem ringOf_settled {s t : State} (h : settled s = settled t) (c : Nat) : ringOf s c = ringOf t c := by
  have h' : ∀ f : Command → Ring, f (settled s).cmd = f (settled t).cmd := fun f => by rw [h]
  unfold ringOf
  split
  · exact h' (·.ring0)
  · exact h' (·.ring1)
  · exact h' (·.ring2)
  · exact h' (·.ring3)

/-- With nothing unread in a ring, the device reads nothing. -/
theorem readRings_none (h : ∀ c, (ringOf s c).unread = []) : readRings s = s := by
  simp [readRings, h 0, h 1, h 2, h 3, readRing, readBulk]

/-! ## Streams -/

theorem putStream_owed (x : Session) (c : Nat) (t : Stream) : streamOf (putStream x c t) c = t := by
  unfold streamOf putStream
  match c with
  | 0 => rfl
  | 1 => rfl
  | 2 => rfl
  | _ + 3 => rfl

theorem streamOf_isOpen (x : Session) (c : Nat) (t : Stream) : (putStream x c t).isOpen = x.isOpen := by
  unfold putStream; split <;> rfl

theorem sessionOf_putSession_same (n : Nat) (v : Session) : sessionOf (putSession s n v) n = v := by
  simp [sessionOf, putSession, tget_tset_same]

/-- Taking a command up leaves what its stream owes. -/
theorem taken_owed (o : OpSpec) (p : Packet) :
    (streamOf (sessionOf (taken o p s) (sess p)) p.cls.toNat).owed
      = (streamOf (sessionOf s (sess p)) p.cls.toNat).owed := by
  unfold taken; dsimp only; split
  · unfold consumeSeq; dsimp only; rw [sessionOf_putSession_same, putStream_owed]; rfl
  · rfl

/-! ## A host command that passes its checks -/

variable {s}

/-- What a host command that passes its checks leads to. -/
theorem runHost_runs {o : OpSpec} {p : Packet} (h : Runs o p s) :
    runHost o p s =
      (let q := o.effect (replyHeader o.code p) p (taken o p s)
       readRings (answerCommand o (replyHeader o.code p) p q.2 (mirrorAfter o p q.2 q.1))) := by
  unfold runHost; rw [h.served]; simp only [Bool.not_true, Bool.false_eq_true, if_false]
  congr 1
  unfold handleCommand; rw [h.front]; unfold executeCommand; rw [h.cls]; dsimp only
  rw [h.room]; simp only [Bool.false_eq_true, if_false]
  have hc := h.checks; unfold taken at hc ⊢; dsimp only at hc ⊢
  rw [hc]

/-- The effect of a host command that passes its checks. `u` is what its effect makes of the state; the
effect leaves the command channel as it finds it. -/
theorem effects_of {o : OpSpec} {p : Packet} {i : Instr} {u e : State} {a : Answer}
    (hx : exec i s = .next (runHost o p s)) (h : Runs o p s)
    (he : o.effect (replyHeader o.code p) p (taken o p s) = (u, some a))
    (ho : (streamOf (sessionOf (mirrorAfter o p (some a) u) (sess p)) p.cls.toNat).owed = [])
    (hs : settled u = settled e) (hb : beyondCmd u = beyondCmd e)
    (hr : ∀ c, ringOf e c = ringOf s c) : Effects o p s i e a := by
  have ht := runHost_runs h
  simp only [he] at ht
  have hs' : settled (answerCommand o (replyHeader o.code p) p (some a) (mirrorAfter o p (some a) u))
      = settled e := by rw [answerCommand_settled, mirrorAfter_settled, hs]
  rw [readRings_none _ (fun c => by rw [ringOf_settled hs' c, hr c]; exact h.noUnread c)] at ht
  refine ⟨_, hx.trans (congrArg _ ht), ⟨hs', fun hp hm => ?_⟩, ?_⟩
  · rw [answerCommand_pcie _ _ _ _ _ hp ho]; unfold mirrorAfter; rw [hm]; simpa using hb
  · exact answerCommand_posted _ _ _ _ ho

/-- The same for an effect that leaves the command channel alone. -/
theorem effects_kept {o : OpSpec} {p : Packet} {i : Instr} {u e : State} {a : Answer}
    (hx : exec i s = .next (runHost o p s)) (h : Runs o p s)
    (he : o.effect (replyHeader o.code p) p (taken o p s) = (u, some a))
    (hc : u.cmd = (taken o p s).cmd) (hs : settled u = settled e) (hb : beyondCmd u = beyondCmd e)
    (hr : ∀ c, ringOf e c = ringOf s c) : Effects o p s i e a := by
  refine effects_of hx h he ?_ hs hb hr
  rw [mail_sessionOf (mirrorAfter_mail _ _ _ _)]
  have : sessionOf u (sess p) = sessionOf (taken o p s) (sess p) := by simp [sessionOf, hc]
  rw [this, taken_owed]; exact h.alone

/-- A host command whose reply follows a later event. -/
theorem defers_of {o : OpSpec} {p : Packet} {i : Instr} {u e : State}
    (hx : exec i s = .next (runHost o p s)) (h : Runs o p s) (hn : o.rule ≠ .names) (h0 : sess p ≠ 0)
    (hopen : (sessionOf s (sess p)).isOpen = true)
    (he : o.effect (replyHeader o.code p) p (taken o p s) = (u, none))
    (hc : u.cmd.sessions = (taken o p s).cmd.sessions) (hs : settled u = settled e)
    (hb : beyondCmd u = beyondCmd e) (hr : ∀ c, ringOf e c = ringOf s c) : Defers p s i e := by
  have hu : sessionOf u (sess p) = sessionOf (taken o p s) (sess p) := by simp [sessionOf, hc]
  have hm : sessionOf (mirrorAfter o p none u) (sess p) = sessionOf (taken o p s) (sess p) := by
    rw [mail_sessionOf (mirrorAfter_mail _ _ _ _), hu]
  have ho : (streamOf (sessionOf (mirrorAfter o p none u) (sess p)) p.cls.toNat).owed = [] := by
    rw [hm, taken_owed]; exact h.alone
  have hop : (sessionOf (mirrorAfter o p none u) (sess p)).isOpen = true := by
    rw [hm, ← hopen]; unfold taken; dsimp only; split
    · unfold consumeSeq; dsimp only; rw [sessionOf_putSession_same, streamOf_isOpen]; rfl
    · rfl
  have ht := runHost_runs h
  simp only [he] at ht
  have hs' : settled (answerCommand o (replyHeader o.code p) p none (mirrorAfter o p none u))
      = settled e := by rw [answerCommand_settled, mirrorAfter_settled, hs]
  rw [readRings_none _ (fun c => by rw [ringOf_settled hs' c, hr c]; exact h.noUnread c)] at ht
  refine ⟨_, hx.trans (congrArg _ ht), ⟨hs', fun _ hm => ?_⟩, ?_⟩
  · unfold answerCommand; rw [if_neg (by simp [hn, h0, hop])]; unfold oweReply
    simp only [ho, List.nil_append, Option.map_none, flushOwed]
    unfold mirrorAfter; rw [hm]; simp only [Bool.false_eq_true, if_false]; exact hb
  · unfold Owing answerCommand; rw [if_neg (by simp [hn, h0, hop])]; unfold oweReply
    simp only [ho, List.nil_append, Option.map_none, flushOwed]
    rw [sessionOf_putSession_same, putStream_owed]

/-! ## Host commands as commands -/

/-- A host command is handled by the front desk, and then completions that are due follow. -/
theorem exec_hostCommand {i : Instr} {o : OpSpec} {p : Packet} (h : hostCommand i = some (o, p)) (s : State) :
    exec i s = .next (afterReply i (runHost o p s)) := by
  cases i <;> simp only [hostCommand, Option.some.injEq, Prod.mk.injEq, reduceCtorEq] at h <;>
    obtain ⟨rfl, rfl⟩ := h <;> rfl

/-- A command that an early check rejects is turned away. -/
theorem turnedAway_of {i : Instr} {o : OpSpec} {p : Packet} (h : Arrives i o p s) {a : Answer}
    (hg : frontGate o p s = .reject a) : TurnedAway i o p s a := by
  obtain ⟨hi, _, hs, hu⟩ := h
  have hg' : frontGate o p (takeFromQueues { opcode := o.code, body := p } s) = .reject a := hg
  refine ⟨sendReply (firstReply (replyHeader o.code p) a) (takeFromQueues { opcode := o.code, body := p } s),
    ?_, ⟨?_, ?_⟩, ?_, ?_⟩
  · rw [exec_hostCommand hi]
    congr 2
    unfold runHost; rw [hs]; simp only [Bool.not_true, Bool.false_eq_true, if_false]
    unfold handleCommand; rw [hg']; dsimp only
    apply readRings_none
    intro c; rw [ringOf_settled (t := s) (by simp) c]; exact hu c
  · simp
  · intro hp _; rw [sendReply_pcie _ _ hp]; rfl
  · exact ⟨_, sendReply_posted _ (firstReply (replyHeader o.code p) a)⟩
  · intro n; rw [sendReply_sessions]; rfl

end Sys2Proof.Machine
end

