-- ==== Sys2Proof/Laws/State.lean ====
section
/-! SUPPORT. State.lean: what each record update leaves as it was, one lemma per field, and what it puts
in place; no later proof unfolds an update. -/

namespace Sys2Proof.Machine

variable (s : State)

/-! ## What an update puts in place -/

@[simp] theorem laneOf_putLane (k j : Nat) (v : Lane) : laneOf (putLane s k v) j = if k = j then v else laneOf s j :=
  tget_tset _ _ k j v

@[simp] theorem linkOf_putLink (k j : Nat) (v : Link) : linkOf (putLink s k v) j = if k = j then v else linkOf s j :=
  tget_tset _ _ k j v

@[simp] theorem pairOf_putPair (k j : Nat) (v : Pair) : pairOf (putPair s k v) j = if k = j then v else pairOf s j :=
  tget_tset _ _ k j v

@[simp] theorem fabricSource_putFabricSource (k j : Nat) (v : FabricSource) : fabricSource (putFabricSource s k v) j = if k = j then v else fabricSource s j :=
  tget_tset _ _ k j v

@[simp] theorem pllsOf_putPlls (k j : Nat) (v : Plls) : pllsOf (putPlls s k v) j = if k = j then v else pllsOf s j :=
  tget_tset _ _ k j v

@[simp] theorem sdiInOf_putSdiIn (k j : Nat) (v : SdiIn) : sdiInOf (putSdiIn s k v) j = if k = j then v else sdiInOf s j :=
  tget_tset _ _ k j v

@[simp] theorem sdiOutOf_putSdiOut (k j : Nat) (v : SdiOut) : sdiOutOf (putSdiOut s k v) j = if k = j then v else sdiOutOf s j :=
  tget_tset _ _ k j v

@[simp] theorem portOf_putPort (k j : Nat) (v : Port) : portOf (putPort s k v) j = if k = j then v else portOf s j :=
  tget_tset _ _ k j v

@[simp] theorem queueOf_putQueue (k j : Nat) (v : Queue) : queueOf (putQueue s k v) j = if k = j then v else queueOf s j :=
  tget_tset _ _ k j v

@[simp] theorem familyOf_putFamily (k j : Nat) (v : Family) : familyOf (putFamily s k v) j = if k = j then v else familyOf s j :=
  tget_tset _ _ k j v

@[simp] theorem destRun_putDestRun (k j : Nat) (v : DestRun) : destRun (putDestRun s k v) j = if k = j then v else destRun s j :=
  tget_tset _ _ k j v

@[simp] theorem sourceOf_putSource (k j : Nat) (v : Source) : sourceOf (putSource s k v) j = if k = j then v else sourceOf s j :=
  tget_tset _ _ k j v

@[simp] theorem ptpPortOf_putPtpPort (k j : Nat) (v : PtpPort) : ptpPortOf (putPtpPort s k v) j = if k = j then v else ptpPortOf s j :=
  tget_tset _ _ k j v

@[simp] theorem candidateOf_putCandidate (k j : Nat) (v : Candidate) : candidateOf (putCandidate s k v) j = if k = j then v else candidateOf s j :=
  tget_tset _ _ k j v

@[simp] theorem tdmOf_putTdm (k j : Nat) (v : TdmPort) : tdmOf (putTdm s k v) j = if k = j then v else tdmOf s j :=
  tget_tset _ _ k j v

@[simp] theorem headOf_putHead (k j : Nat) (v : Head) : headOf (putHead s k v) j = if k = j then v else headOf s j :=
  tget_tset _ _ k j v

@[simp] theorem engineOf_putEngine (k j : Nat) (v : Engine) : engineOf (putEngine s k v) j = if k = j then v else engineOf s j :=
  tget_tset _ _ k j v

@[simp] theorem sessionOf_putSession (k j : Nat) (v : Session) : sessionOf (putSession s k v) j = if k = j then v else sessionOf s j :=
  tget_tset _ _ k j v

@[simp] theorem faultOf_putFault (k j : Nat) (v : FaultSource) : faultOf (putFault s k v) j = if k = j then v else faultOf s j :=
  tget_tset _ _ k j v

@[simp] theorem trapQueue_putTrapQueue (k j : Nat) (v : List Trapped) : trapQueue (putTrapQueue s k v) j = if k = j then v else trapQueue s j :=
  tget_tset _ _ k j v

@[simp] theorem essenceOf_putEssence (k j : Nat) (v : Essence) : essenceOf (putEssence s k v) j = if k = j then v else essenceOf s j :=
  tget_tset _ _ k j v

@[simp] theorem txOf_putTx (k j : Nat) (v : TxContainer) : txOf (putTx s k v) j = if k = j then v else txOf s j :=
  tget_tset _ _ k j v

@[simp] theorem destOf_putDest (m q : Matrix) (k j : Nat) (v : Dest) :
    destOf (putDest s m k v) q j = if m = q ∧ k = j then v else destOf s q j := by
  cases m <;> cases q <;> simp [destOf, putDest, tget_tset]

theorem ringOf_putRing (c : Fin 4) (r : Ring) : ringOf (putRing s c.val r) c.val = r := by
  obtain ⟨c, h⟩ := c; match c, h with | 0, _ => rfl | 1, _ => rfl | 2, _ => rfl | 3, _ => rfl

/-- Once ROOT has locked a clocked effect has taken place. -/
@[simp] theorem clocked_locked (f : State → State) (h : s.chip.rootLocked = true) : clocked f s = f s := by
  simp [clocked, h]

/-- Before ROOT has locked nothing happens (R32). -/
theorem clocked_unlocked (f : State → State) (h : s.chip.rootLocked = false) : clocked f s = s := by
  simp [clocked, h]

/-! ## What an update leaves -/

@[simp] theorem putLane_chip (l : Nat) (v : Lane) : (putLane s l v).chip = s.chip := rfl
@[simp] theorem putLane_cmd (l : Nat) (v : Lane) : (putLane s l v).cmd = s.cmd := rfl
@[simp] theorem putLane_mtx (l : Nat) (v : Lane) : (putLane s l v).mtx = s.mtx := rfl
@[simp] theorem putLane_fab_links (l : Nat) (v : Lane) : (putLane s l v).fab.links = s.fab.links := rfl
@[simp] theorem putLane_fab_pairs (l : Nat) (v : Lane) : (putLane s l v).fab.pairs = s.fab.pairs := rfl
@[simp] theorem putLane_fab_sources (l : Nat) (v : Lane) : (putLane s l v).fab.sources = s.fab.sources := rfl
@[simp] theorem putLane_fab_tx (l : Nat) (v : Lane) : (putLane s l v).fab.tx = s.fab.tx := rfl
@[simp] theorem putLane_fab_plls (l : Nat) (v : Lane) : (putLane s l v).fab.plls = s.fab.plls := rfl
@[simp] theorem putLane_sdi (l : Nat) (v : Lane) : (putLane s l v).sdi = s.sdi := rfl
@[simp] theorem putLane_pkt (l : Nat) (v : Lane) : (putLane s l v).pkt = s.pkt := rfl
@[simp] theorem putLane_time (l : Nat) (v : Lane) : (putLane s l v).time = s.time := rfl
@[simp] theorem putLane_ref (l : Nat) (v : Lane) : (putLane s l v).ref = s.ref := rfl
@[simp] theorem putLane_aud (l : Nat) (v : Lane) : (putLane s l v).aud = s.aud := rfl
@[simp] theorem putLane_comp (l : Nat) (v : Lane) : (putLane s l v).comp = s.comp := rfl
@[simp] theorem putLane_eng (l : Nat) (v : Lane) : (putLane s l v).eng = s.eng := rfl
@[simp] theorem putLane_flt (l : Nat) (v : Lane) : (putLane s l v).flt = s.flt := rfl
@[simp] theorem putLane_led (l : Nat) (v : Lane) : (putLane s l v).led = s.led := rfl
@[simp] theorem putLane_cur (l : Nat) (v : Lane) : (putLane s l v).cur = s.cur := rfl
@[simp] theorem putLane_strong (l : Nat) (v : Lane) : (putLane s l v).strong = s.strong := rfl
@[simp] theorem putLane_store (l : Nat) (v : Lane) : (putLane s l v).store = s.store := rfl
@[simp] theorem putLane_twin (l : Nat) (v : Lane) : (putLane s l v).twin = s.twin := rfl
@[simp] theorem putLane_life (l : Nat) (v : Lane) : (putLane s l v).life = s.life := rfl
@[simp] theorem putLane_doc (l : Nat) (v : Lane) : (putLane s l v).doc = s.doc := rfl
@[simp] theorem putLane_set (l : Nat) (v : Lane) : (putLane s l v).set = s.set := rfl
@[simp] theorem putLane_reserveFree (l : Nat) (v : Lane) : (putLane s l v).reserveFree = s.reserveFree := rfl
@[simp] theorem putLane_graphicFree (l : Nat) (v : Lane) : (putLane s l v).graphicFree = s.graphicFree := rfl
@[simp] theorem putLane_mem (l : Nat) (v : Lane) : (putLane s l v).mem = s.mem := rfl
@[simp] theorem putLane_bar2 (l : Nat) (v : Lane) : (putLane s l v).bar2 = s.bar2 := rfl
@[simp] theorem putLane_draws (l : Nat) (v : Lane) : (putLane s l v).draws = s.draws := rfl
@[simp] theorem putLane_pending (l : Nat) (v : Lane) : (putLane s l v).pending = s.pending := rfl
@[simp] theorem putLink_chip (f : Nat) (v : Link) : (putLink s f v).chip = s.chip := rfl
@[simp] theorem putLink_cmd (f : Nat) (v : Link) : (putLink s f v).cmd = s.cmd := rfl
@[simp] theorem putLink_mtx (f : Nat) (v : Link) : (putLink s f v).mtx = s.mtx := rfl
@[simp] theorem putLink_fab_lanes (f : Nat) (v : Link) : (putLink s f v).fab.lanes = s.fab.lanes := rfl
@[simp] theorem putLink_fab_pairs (f : Nat) (v : Link) : (putLink s f v).fab.pairs = s.fab.pairs := rfl
@[simp] theorem putLink_fab_sources (f : Nat) (v : Link) : (putLink s f v).fab.sources = s.fab.sources := rfl
@[simp] theorem putLink_fab_tx (f : Nat) (v : Link) : (putLink s f v).fab.tx = s.fab.tx := rfl
@[simp] theorem putLink_fab_plls (f : Nat) (v : Link) : (putLink s f v).fab.plls = s.fab.plls := rfl
@[simp] theorem putLink_sdi (f : Nat) (v : Link) : (putLink s f v).sdi = s.sdi := rfl
@[simp] theorem putLink_pkt (f : Nat) (v : Link) : (putLink s f v).pkt = s.pkt := rfl
@[simp] theorem putLink_time (f : Nat) (v : Link) : (putLink s f v).time = s.time := rfl
@[simp] theorem putLink_ref (f : Nat) (v : Link) : (putLink s f v).ref = s.ref := rfl
@[simp] theorem putLink_aud (f : Nat) (v : Link) : (putLink s f v).aud = s.aud := rfl
@[simp] theorem putLink_comp (f : Nat) (v : Link) : (putLink s f v).comp = s.comp := rfl
@[simp] theorem putLink_eng (f : Nat) (v : Link) : (putLink s f v).eng = s.eng := rfl
@[simp] theorem putLink_flt (f : Nat) (v : Link) : (putLink s f v).flt = s.flt := rfl
@[simp] theorem putLink_led (f : Nat) (v : Link) : (putLink s f v).led = s.led := rfl
@[simp] theorem putLink_cur (f : Nat) (v : Link) : (putLink s f v).cur = s.cur := rfl
@[simp] theorem putLink_strong (f : Nat) (v : Link) : (putLink s f v).strong = s.strong := rfl
@[simp] theorem putLink_store (f : Nat) (v : Link) : (putLink s f v).store = s.store := rfl
@[simp] theorem putLink_twin (f : Nat) (v : Link) : (putLink s f v).twin = s.twin := rfl
@[simp] theorem putLink_life (f : Nat) (v : Link) : (putLink s f v).life = s.life := rfl
@[simp] theorem putLink_doc (f : Nat) (v : Link) : (putLink s f v).doc = s.doc := rfl
@[simp] theorem putLink_set (f : Nat) (v : Link) : (putLink s f v).set = s.set := rfl
@[simp] theorem putLink_reserveFree (f : Nat) (v : Link) : (putLink s f v).reserveFree = s.reserveFree := rfl
@[simp] theorem putLink_graphicFree (f : Nat) (v : Link) : (putLink s f v).graphicFree = s.graphicFree := rfl
@[simp] theorem putLink_mem (f : Nat) (v : Link) : (putLink s f v).mem = s.mem := rfl
@[simp] theorem putLink_bar2 (f : Nat) (v : Link) : (putLink s f v).bar2 = s.bar2 := rfl
@[simp] theorem putLink_draws (f : Nat) (v : Link) : (putLink s f v).draws = s.draws := rfl
@[simp] theorem putLink_pending (f : Nat) (v : Link) : (putLink s f v).pending = s.pending := rfl
@[simp] theorem putPair_chip (k : Nat) (v : Pair) : (putPair s k v).chip = s.chip := rfl
@[simp] theorem putPair_cmd (k : Nat) (v : Pair) : (putPair s k v).cmd = s.cmd := rfl
@[simp] theorem putPair_mtx (k : Nat) (v : Pair) : (putPair s k v).mtx = s.mtx := rfl
@[simp] theorem putPair_fab_lanes (k : Nat) (v : Pair) : (putPair s k v).fab.lanes = s.fab.lanes := rfl
@[simp] theorem putPair_fab_links (k : Nat) (v : Pair) : (putPair s k v).fab.links = s.fab.links := rfl
@[simp] theorem putPair_fab_sources (k : Nat) (v : Pair) : (putPair s k v).fab.sources = s.fab.sources := rfl
@[simp] theorem putPair_fab_tx (k : Nat) (v : Pair) : (putPair s k v).fab.tx = s.fab.tx := rfl
@[simp] theorem putPair_fab_plls (k : Nat) (v : Pair) : (putPair s k v).fab.plls = s.fab.plls := rfl
@[simp] theorem putPair_sdi (k : Nat) (v : Pair) : (putPair s k v).sdi = s.sdi := rfl
@[simp] theorem putPair_pkt (k : Nat) (v : Pair) : (putPair s k v).pkt = s.pkt := rfl
@[simp] theorem putPair_time (k : Nat) (v : Pair) : (putPair s k v).time = s.time := rfl
@[simp] theorem putPair_ref (k : Nat) (v : Pair) : (putPair s k v).ref = s.ref := rfl
@[simp] theorem putPair_aud (k : Nat) (v : Pair) : (putPair s k v).aud = s.aud := rfl
@[simp] theorem putPair_comp (k : Nat) (v : Pair) : (putPair s k v).comp = s.comp := rfl
@[simp] theorem putPair_eng (k : Nat) (v : Pair) : (putPair s k v).eng = s.eng := rfl
@[simp] theorem putPair_flt (k : Nat) (v : Pair) : (putPair s k v).flt = s.flt := rfl
@[simp] theorem putPair_led (k : Nat) (v : Pair) : (putPair s k v).led = s.led := rfl
@[simp] theorem putPair_cur (k : Nat) (v : Pair) : (putPair s k v).cur = s.cur := rfl
@[simp] theorem putPair_strong (k : Nat) (v : Pair) : (putPair s k v).strong = s.strong := rfl
@[simp] theorem putPair_store (k : Nat) (v : Pair) : (putPair s k v).store = s.store := rfl
@[simp] theorem putPair_twin (k : Nat) (v : Pair) : (putPair s k v).twin = s.twin := rfl
@[simp] theorem putPair_life (k : Nat) (v : Pair) : (putPair s k v).life = s.life := rfl
@[simp] theorem putPair_doc (k : Nat) (v : Pair) : (putPair s k v).doc = s.doc := rfl
@[simp] theorem putPair_set (k : Nat) (v : Pair) : (putPair s k v).set = s.set := rfl
@[simp] theorem putPair_reserveFree (k : Nat) (v : Pair) : (putPair s k v).reserveFree = s.reserveFree := rfl
@[simp] theorem putPair_graphicFree (k : Nat) (v : Pair) : (putPair s k v).graphicFree = s.graphicFree := rfl
@[simp] theorem putPair_mem (k : Nat) (v : Pair) : (putPair s k v).mem = s.mem := rfl
@[simp] theorem putPair_bar2 (k : Nat) (v : Pair) : (putPair s k v).bar2 = s.bar2 := rfl
@[simp] theorem putPair_draws (k : Nat) (v : Pair) : (putPair s k v).draws = s.draws := rfl
@[simp] theorem putPair_pending (k : Nat) (v : Pair) : (putPair s k v).pending = s.pending := rfl
@[simp] theorem putFabricSource_chip (n : Nat) (v : FabricSource) : (putFabricSource s n v).chip = s.chip := rfl
@[simp] theorem putFabricSource_cmd (n : Nat) (v : FabricSource) : (putFabricSource s n v).cmd = s.cmd := rfl
@[simp] theorem putFabricSource_mtx (n : Nat) (v : FabricSource) : (putFabricSource s n v).mtx = s.mtx := rfl
@[simp] theorem putFabricSource_fab_lanes (n : Nat) (v : FabricSource) : (putFabricSource s n v).fab.lanes = s.fab.lanes := rfl
@[simp] theorem putFabricSource_fab_links (n : Nat) (v : FabricSource) : (putFabricSource s n v).fab.links = s.fab.links := rfl
@[simp] theorem putFabricSource_fab_pairs (n : Nat) (v : FabricSource) : (putFabricSource s n v).fab.pairs = s.fab.pairs := rfl
@[simp] theorem putFabricSource_fab_tx (n : Nat) (v : FabricSource) : (putFabricSource s n v).fab.tx = s.fab.tx := rfl
@[simp] theorem putFabricSource_fab_plls (n : Nat) (v : FabricSource) : (putFabricSource s n v).fab.plls = s.fab.plls := rfl
@[simp] theorem putFabricSource_sdi (n : Nat) (v : FabricSource) : (putFabricSource s n v).sdi = s.sdi := rfl
@[simp] theorem putFabricSource_pkt (n : Nat) (v : FabricSource) : (putFabricSource s n v).pkt = s.pkt := rfl
@[simp] theorem putFabricSource_time (n : Nat) (v : FabricSource) : (putFabricSource s n v).time = s.time := rfl
@[simp] theorem putFabricSource_ref (n : Nat) (v : FabricSource) : (putFabricSource s n v).ref = s.ref := rfl
@[simp] theorem putFabricSource_aud (n : Nat) (v : FabricSource) : (putFabricSource s n v).aud = s.aud := rfl
@[simp] theorem putFabricSource_comp (n : Nat) (v : FabricSource) : (putFabricSource s n v).comp = s.comp := rfl
@[simp] theorem putFabricSource_eng (n : Nat) (v : FabricSource) : (putFabricSource s n v).eng = s.eng := rfl
@[simp] theorem putFabricSource_flt (n : Nat) (v : FabricSource) : (putFabricSource s n v).flt = s.flt := rfl
@[simp] theorem putFabricSource_led (n : Nat) (v : FabricSource) : (putFabricSource s n v).led = s.led := rfl
@[simp] theorem putFabricSource_cur (n : Nat) (v : FabricSource) : (putFabricSource s n v).cur = s.cur := rfl
@[simp] theorem putFabricSource_strong (n : Nat) (v : FabricSource) : (putFabricSource s n v).strong = s.strong := rfl
@[simp] theorem putFabricSource_store (n : Nat) (v : FabricSource) : (putFabricSource s n v).store = s.store := rfl
@[simp] theorem putFabricSource_twin (n : Nat) (v : FabricSource) : (putFabricSource s n v).twin = s.twin := rfl
@[simp] theorem putFabricSource_life (n : Nat) (v : FabricSource) : (putFabricSource s n v).life = s.life := rfl
@[simp] theorem putFabricSource_doc (n : Nat) (v : FabricSource) : (putFabricSource s n v).doc = s.doc := rfl
@[simp] theorem putFabricSource_set (n : Nat) (v : FabricSource) : (putFabricSource s n v).set = s.set := rfl
@[simp] theorem putFabricSource_reserveFree (n : Nat) (v : FabricSource) : (putFabricSource s n v).reserveFree = s.reserveFree := rfl
@[simp] theorem putFabricSource_graphicFree (n : Nat) (v : FabricSource) : (putFabricSource s n v).graphicFree = s.graphicFree := rfl
@[simp] theorem putFabricSource_mem (n : Nat) (v : FabricSource) : (putFabricSource s n v).mem = s.mem := rfl
@[simp] theorem putFabricSource_bar2 (n : Nat) (v : FabricSource) : (putFabricSource s n v).bar2 = s.bar2 := rfl
@[simp] theorem putFabricSource_draws (n : Nat) (v : FabricSource) : (putFabricSource s n v).draws = s.draws := rfl
@[simp] theorem putFabricSource_pending (n : Nat) (v : FabricSource) : (putFabricSource s n v).pending = s.pending := rfl
@[simp] theorem putPlls_chip (g : Nat) (v : Plls) : (putPlls s g v).chip = s.chip := rfl
@[simp] theorem putPlls_cmd (g : Nat) (v : Plls) : (putPlls s g v).cmd = s.cmd := rfl
@[simp] theorem putPlls_mtx (g : Nat) (v : Plls) : (putPlls s g v).mtx = s.mtx := rfl
@[simp] theorem putPlls_fab_lanes (g : Nat) (v : Plls) : (putPlls s g v).fab.lanes = s.fab.lanes := rfl
@[simp] theorem putPlls_fab_links (g : Nat) (v : Plls) : (putPlls s g v).fab.links = s.fab.links := rfl
@[simp] theorem putPlls_fab_pairs (g : Nat) (v : Plls) : (putPlls s g v).fab.pairs = s.fab.pairs := rfl
@[simp] theorem putPlls_fab_sources (g : Nat) (v : Plls) : (putPlls s g v).fab.sources = s.fab.sources := rfl
@[simp] theorem putPlls_fab_tx (g : Nat) (v : Plls) : (putPlls s g v).fab.tx = s.fab.tx := rfl
@[simp] theorem putPlls_sdi (g : Nat) (v : Plls) : (putPlls s g v).sdi = s.sdi := rfl
@[simp] theorem putPlls_pkt (g : Nat) (v : Plls) : (putPlls s g v).pkt = s.pkt := rfl
@[simp] theorem putPlls_time (g : Nat) (v : Plls) : (putPlls s g v).time = s.time := rfl
@[simp] theorem putPlls_ref (g : Nat) (v : Plls) : (putPlls s g v).ref = s.ref := rfl
@[simp] theorem putPlls_aud (g : Nat) (v : Plls) : (putPlls s g v).aud = s.aud := rfl
@[simp] theorem putPlls_comp (g : Nat) (v : Plls) : (putPlls s g v).comp = s.comp := rfl
@[simp] theorem putPlls_eng (g : Nat) (v : Plls) : (putPlls s g v).eng = s.eng := rfl
@[simp] theorem putPlls_flt (g : Nat) (v : Plls) : (putPlls s g v).flt = s.flt := rfl
@[simp] theorem putPlls_led (g : Nat) (v : Plls) : (putPlls s g v).led = s.led := rfl
@[simp] theorem putPlls_cur (g : Nat) (v : Plls) : (putPlls s g v).cur = s.cur := rfl
@[simp] theorem putPlls_strong (g : Nat) (v : Plls) : (putPlls s g v).strong = s.strong := rfl
@[simp] theorem putPlls_store (g : Nat) (v : Plls) : (putPlls s g v).store = s.store := rfl
@[simp] theorem putPlls_twin (g : Nat) (v : Plls) : (putPlls s g v).twin = s.twin := rfl
@[simp] theorem putPlls_life (g : Nat) (v : Plls) : (putPlls s g v).life = s.life := rfl
@[simp] theorem putPlls_doc (g : Nat) (v : Plls) : (putPlls s g v).doc = s.doc := rfl
@[simp] theorem putPlls_set (g : Nat) (v : Plls) : (putPlls s g v).set = s.set := rfl
@[simp] theorem putPlls_reserveFree (g : Nat) (v : Plls) : (putPlls s g v).reserveFree = s.reserveFree := rfl
@[simp] theorem putPlls_graphicFree (g : Nat) (v : Plls) : (putPlls s g v).graphicFree = s.graphicFree := rfl
@[simp] theorem putPlls_mem (g : Nat) (v : Plls) : (putPlls s g v).mem = s.mem := rfl
@[simp] theorem putPlls_bar2 (g : Nat) (v : Plls) : (putPlls s g v).bar2 = s.bar2 := rfl
@[simp] theorem putPlls_draws (g : Nat) (v : Plls) : (putPlls s g v).draws = s.draws := rfl
@[simp] theorem putPlls_pending (g : Nat) (v : Plls) : (putPlls s g v).pending = s.pending := rfl
@[simp] theorem putSdiIn_chip (e : Nat) (v : SdiIn) : (putSdiIn s e v).chip = s.chip := rfl
@[simp] theorem putSdiIn_cmd (e : Nat) (v : SdiIn) : (putSdiIn s e v).cmd = s.cmd := rfl
@[simp] theorem putSdiIn_mtx (e : Nat) (v : SdiIn) : (putSdiIn s e v).mtx = s.mtx := rfl
@[simp] theorem putSdiIn_fab (e : Nat) (v : SdiIn) : (putSdiIn s e v).fab = s.fab := rfl
@[simp] theorem putSdiIn_sdi_outputs (e : Nat) (v : SdiIn) : (putSdiIn s e v).sdi.outputs = s.sdi.outputs := rfl
@[simp] theorem putSdiIn_sdi_pendingEmbed (e : Nat) (v : SdiIn) : (putSdiIn s e v).sdi.pendingEmbed = s.sdi.pendingEmbed := rfl
@[simp] theorem putSdiIn_sdi_pendingDeembed (e : Nat) (v : SdiIn) : (putSdiIn s e v).sdi.pendingDeembed = s.sdi.pendingDeembed := rfl
@[simp] theorem putSdiIn_pkt (e : Nat) (v : SdiIn) : (putSdiIn s e v).pkt = s.pkt := rfl
@[simp] theorem putSdiIn_time (e : Nat) (v : SdiIn) : (putSdiIn s e v).time = s.time := rfl
@[simp] theorem putSdiIn_ref (e : Nat) (v : SdiIn) : (putSdiIn s e v).ref = s.ref := rfl
@[simp] theorem putSdiIn_aud (e : Nat) (v : SdiIn) : (putSdiIn s e v).aud = s.aud := rfl
@[simp] theorem putSdiIn_comp (e : Nat) (v : SdiIn) : (putSdiIn s e v).comp = s.comp := rfl
@[simp] theorem putSdiIn_eng (e : Nat) (v : SdiIn) : (putSdiIn s e v).eng = s.eng := rfl
@[simp] theorem putSdiIn_flt (e : Nat) (v : SdiIn) : (putSdiIn s e v).flt = s.flt := rfl
@[simp] theorem putSdiIn_led (e : Nat) (v : SdiIn) : (putSdiIn s e v).led = s.led := rfl
@[simp] theorem putSdiIn_cur (e : Nat) (v : SdiIn) : (putSdiIn s e v).cur = s.cur := rfl
@[simp] theorem putSdiIn_strong (e : Nat) (v : SdiIn) : (putSdiIn s e v).strong = s.strong := rfl
@[simp] theorem putSdiIn_store (e : Nat) (v : SdiIn) : (putSdiIn s e v).store = s.store := rfl
@[simp] theorem putSdiIn_twin (e : Nat) (v : SdiIn) : (putSdiIn s e v).twin = s.twin := rfl
@[simp] theorem putSdiIn_life (e : Nat) (v : SdiIn) : (putSdiIn s e v).life = s.life := rfl
@[simp] theorem putSdiIn_doc (e : Nat) (v : SdiIn) : (putSdiIn s e v).doc = s.doc := rfl
@[simp] theorem putSdiIn_set (e : Nat) (v : SdiIn) : (putSdiIn s e v).set = s.set := rfl
@[simp] theorem putSdiIn_reserveFree (e : Nat) (v : SdiIn) : (putSdiIn s e v).reserveFree = s.reserveFree := rfl
@[simp] theorem putSdiIn_graphicFree (e : Nat) (v : SdiIn) : (putSdiIn s e v).graphicFree = s.graphicFree := rfl
@[simp] theorem putSdiIn_mem (e : Nat) (v : SdiIn) : (putSdiIn s e v).mem = s.mem := rfl
@[simp] theorem putSdiIn_bar2 (e : Nat) (v : SdiIn) : (putSdiIn s e v).bar2 = s.bar2 := rfl
@[simp] theorem putSdiIn_draws (e : Nat) (v : SdiIn) : (putSdiIn s e v).draws = s.draws := rfl
@[simp] theorem putSdiIn_pending (e : Nat) (v : SdiIn) : (putSdiIn s e v).pending = s.pending := rfl
@[simp] theorem putSdiOut_chip (e : Nat) (v : SdiOut) : (putSdiOut s e v).chip = s.chip := rfl
@[simp] theorem putSdiOut_cmd (e : Nat) (v : SdiOut) : (putSdiOut s e v).cmd = s.cmd := rfl
@[simp] theorem putSdiOut_mtx (e : Nat) (v : SdiOut) : (putSdiOut s e v).mtx = s.mtx := rfl
@[simp] theorem putSdiOut_fab (e : Nat) (v : SdiOut) : (putSdiOut s e v).fab = s.fab := rfl
@[simp] theorem putSdiOut_sdi_inputs (e : Nat) (v : SdiOut) : (putSdiOut s e v).sdi.inputs = s.sdi.inputs := rfl
@[simp] theorem putSdiOut_sdi_pendingEmbed (e : Nat) (v : SdiOut) : (putSdiOut s e v).sdi.pendingEmbed = s.sdi.pendingEmbed := rfl
@[simp] theorem putSdiOut_sdi_pendingDeembed (e : Nat) (v : SdiOut) : (putSdiOut s e v).sdi.pendingDeembed = s.sdi.pendingDeembed := rfl
@[simp] theorem putSdiOut_pkt (e : Nat) (v : SdiOut) : (putSdiOut s e v).pkt = s.pkt := rfl
@[simp] theorem putSdiOut_time (e : Nat) (v : SdiOut) : (putSdiOut s e v).time = s.time := rfl
@[simp] theorem putSdiOut_ref (e : Nat) (v : SdiOut) : (putSdiOut s e v).ref = s.ref := rfl
@[simp] theorem putSdiOut_aud (e : Nat) (v : SdiOut) : (putSdiOut s e v).aud = s.aud := rfl
@[simp] theorem putSdiOut_comp (e : Nat) (v : SdiOut) : (putSdiOut s e v).comp = s.comp := rfl
@[simp] theorem putSdiOut_eng (e : Nat) (v : SdiOut) : (putSdiOut s e v).eng = s.eng := rfl
@[simp] theorem putSdiOut_flt (e : Nat) (v : SdiOut) : (putSdiOut s e v).flt = s.flt := rfl
@[simp] theorem putSdiOut_led (e : Nat) (v : SdiOut) : (putSdiOut s e v).led = s.led := rfl
@[simp] theorem putSdiOut_cur (e : Nat) (v : SdiOut) : (putSdiOut s e v).cur = s.cur := rfl
@[simp] theorem putSdiOut_strong (e : Nat) (v : SdiOut) : (putSdiOut s e v).strong = s.strong := rfl
@[simp] theorem putSdiOut_store (e : Nat) (v : SdiOut) : (putSdiOut s e v).store = s.store := rfl
@[simp] theorem putSdiOut_twin (e : Nat) (v : SdiOut) : (putSdiOut s e v).twin = s.twin := rfl
@[simp] theorem putSdiOut_life (e : Nat) (v : SdiOut) : (putSdiOut s e v).life = s.life := rfl
@[simp] theorem putSdiOut_doc (e : Nat) (v : SdiOut) : (putSdiOut s e v).doc = s.doc := rfl
@[simp] theorem putSdiOut_set (e : Nat) (v : SdiOut) : (putSdiOut s e v).set = s.set := rfl
@[simp] theorem putSdiOut_reserveFree (e : Nat) (v : SdiOut) : (putSdiOut s e v).reserveFree = s.reserveFree := rfl
@[simp] theorem putSdiOut_graphicFree (e : Nat) (v : SdiOut) : (putSdiOut s e v).graphicFree = s.graphicFree := rfl
@[simp] theorem putSdiOut_mem (e : Nat) (v : SdiOut) : (putSdiOut s e v).mem = s.mem := rfl
@[simp] theorem putSdiOut_bar2 (e : Nat) (v : SdiOut) : (putSdiOut s e v).bar2 = s.bar2 := rfl
@[simp] theorem putSdiOut_draws (e : Nat) (v : SdiOut) : (putSdiOut s e v).draws = s.draws := rfl
@[simp] theorem putSdiOut_pending (e : Nat) (v : SdiOut) : (putSdiOut s e v).pending = s.pending := rfl
@[simp] theorem putPort_chip (n : Nat) (v : Port) : (putPort s n v).chip = s.chip := rfl
@[simp] theorem putPort_cmd (n : Nat) (v : Port) : (putPort s n v).cmd = s.cmd := rfl
@[simp] theorem putPort_mtx (n : Nat) (v : Port) : (putPort s n v).mtx = s.mtx := rfl
@[simp] theorem putPort_fab (n : Nat) (v : Port) : (putPort s n v).fab = s.fab := rfl
@[simp] theorem putPort_sdi (n : Nat) (v : Port) : (putPort s n v).sdi = s.sdi := rfl
@[simp] theorem putPort_pkt_rxFlows (n : Nat) (v : Port) : (putPort s n v).pkt.rxFlows = s.pkt.rxFlows := rfl
@[simp] theorem putPort_pkt_txFlows (n : Nat) (v : Port) : (putPort s n v).pkt.txFlows = s.pkt.txFlows := rfl
@[simp] theorem putPort_pkt_trapQueues (n : Nat) (v : Port) : (putPort s n v).pkt.trapQueues = s.pkt.trapQueues := rfl
@[simp] theorem putPort_pkt_queues (n : Nat) (v : Port) : (putPort s n v).pkt.queues = s.pkt.queues := rfl
@[simp] theorem putPort_pkt_pool (n : Nat) (v : Port) : (putPort s n v).pkt.pool = s.pkt.pool := rfl
@[simp] theorem putPort_time (n : Nat) (v : Port) : (putPort s n v).time = s.time := rfl
@[simp] theorem putPort_ref (n : Nat) (v : Port) : (putPort s n v).ref = s.ref := rfl
@[simp] theorem putPort_aud (n : Nat) (v : Port) : (putPort s n v).aud = s.aud := rfl
@[simp] theorem putPort_comp (n : Nat) (v : Port) : (putPort s n v).comp = s.comp := rfl
@[simp] theorem putPort_eng (n : Nat) (v : Port) : (putPort s n v).eng = s.eng := rfl
@[simp] theorem putPort_flt (n : Nat) (v : Port) : (putPort s n v).flt = s.flt := rfl
@[simp] theorem putPort_led (n : Nat) (v : Port) : (putPort s n v).led = s.led := rfl
@[simp] theorem putPort_cur (n : Nat) (v : Port) : (putPort s n v).cur = s.cur := rfl
@[simp] theorem putPort_strong (n : Nat) (v : Port) : (putPort s n v).strong = s.strong := rfl
@[simp] theorem putPort_store (n : Nat) (v : Port) : (putPort s n v).store = s.store := rfl
@[simp] theorem putPort_twin (n : Nat) (v : Port) : (putPort s n v).twin = s.twin := rfl
@[simp] theorem putPort_life (n : Nat) (v : Port) : (putPort s n v).life = s.life := rfl
@[simp] theorem putPort_doc (n : Nat) (v : Port) : (putPort s n v).doc = s.doc := rfl
@[simp] theorem putPort_set (n : Nat) (v : Port) : (putPort s n v).set = s.set := rfl
@[simp] theorem putPort_reserveFree (n : Nat) (v : Port) : (putPort s n v).reserveFree = s.reserveFree := rfl
@[simp] theorem putPort_graphicFree (n : Nat) (v : Port) : (putPort s n v).graphicFree = s.graphicFree := rfl
@[simp] theorem putPort_mem (n : Nat) (v : Port) : (putPort s n v).mem = s.mem := rfl
@[simp] theorem putPort_bar2 (n : Nat) (v : Port) : (putPort s n v).bar2 = s.bar2 := rfl
@[simp] theorem putPort_draws (n : Nat) (v : Port) : (putPort s n v).draws = s.draws := rfl
@[simp] theorem putPort_pending (n : Nat) (v : Port) : (putPort s n v).pending = s.pending := rfl
@[simp] theorem putQueue_chip (q : Nat) (v : Queue) : (putQueue s q v).chip = s.chip := rfl
@[simp] theorem putQueue_cmd (q : Nat) (v : Queue) : (putQueue s q v).cmd = s.cmd := rfl
@[simp] theorem putQueue_mtx (q : Nat) (v : Queue) : (putQueue s q v).mtx = s.mtx := rfl
@[simp] theorem putQueue_fab (q : Nat) (v : Queue) : (putQueue s q v).fab = s.fab := rfl
@[simp] theorem putQueue_sdi (q : Nat) (v : Queue) : (putQueue s q v).sdi = s.sdi := rfl
@[simp] theorem putQueue_pkt_ports (q : Nat) (v : Queue) : (putQueue s q v).pkt.ports = s.pkt.ports := rfl
@[simp] theorem putQueue_pkt_rxFlows (q : Nat) (v : Queue) : (putQueue s q v).pkt.rxFlows = s.pkt.rxFlows := rfl
@[simp] theorem putQueue_pkt_txFlows (q : Nat) (v : Queue) : (putQueue s q v).pkt.txFlows = s.pkt.txFlows := rfl
@[simp] theorem putQueue_pkt_trapQueues (q : Nat) (v : Queue) : (putQueue s q v).pkt.trapQueues = s.pkt.trapQueues := rfl
@[simp] theorem putQueue_pkt_pool (q : Nat) (v : Queue) : (putQueue s q v).pkt.pool = s.pkt.pool := rfl
@[simp] theorem putQueue_time (q : Nat) (v : Queue) : (putQueue s q v).time = s.time := rfl
@[simp] theorem putQueue_ref (q : Nat) (v : Queue) : (putQueue s q v).ref = s.ref := rfl
@[simp] theorem putQueue_aud (q : Nat) (v : Queue) : (putQueue s q v).aud = s.aud := rfl
@[simp] theorem putQueue_comp (q : Nat) (v : Queue) : (putQueue s q v).comp = s.comp := rfl
@[simp] theorem putQueue_eng (q : Nat) (v : Queue) : (putQueue s q v).eng = s.eng := rfl
@[simp] theorem putQueue_flt (q : Nat) (v : Queue) : (putQueue s q v).flt = s.flt := rfl
@[simp] theorem putQueue_led (q : Nat) (v : Queue) : (putQueue s q v).led = s.led := rfl
@[simp] theorem putQueue_cur (q : Nat) (v : Queue) : (putQueue s q v).cur = s.cur := rfl
@[simp] theorem putQueue_strong (q : Nat) (v : Queue) : (putQueue s q v).strong = s.strong := rfl
@[simp] theorem putQueue_store (q : Nat) (v : Queue) : (putQueue s q v).store = s.store := rfl
@[simp] theorem putQueue_twin (q : Nat) (v : Queue) : (putQueue s q v).twin = s.twin := rfl
@[simp] theorem putQueue_life (q : Nat) (v : Queue) : (putQueue s q v).life = s.life := rfl
@[simp] theorem putQueue_doc (q : Nat) (v : Queue) : (putQueue s q v).doc = s.doc := rfl
@[simp] theorem putQueue_set (q : Nat) (v : Queue) : (putQueue s q v).set = s.set := rfl
@[simp] theorem putQueue_reserveFree (q : Nat) (v : Queue) : (putQueue s q v).reserveFree = s.reserveFree := rfl
@[simp] theorem putQueue_graphicFree (q : Nat) (v : Queue) : (putQueue s q v).graphicFree = s.graphicFree := rfl
@[simp] theorem putQueue_mem (q : Nat) (v : Queue) : (putQueue s q v).mem = s.mem := rfl
@[simp] theorem putQueue_bar2 (q : Nat) (v : Queue) : (putQueue s q v).bar2 = s.bar2 := rfl
@[simp] theorem putQueue_draws (q : Nat) (v : Queue) : (putQueue s q v).draws = s.draws := rfl
@[simp] theorem putQueue_pending (q : Nat) (v : Queue) : (putQueue s q v).pending = s.pending := rfl
@[simp] theorem putPool_chip (v : CellPool) : (putPool s v).chip = s.chip := rfl
@[simp] theorem putPool_cmd (v : CellPool) : (putPool s v).cmd = s.cmd := rfl
@[simp] theorem putPool_mtx (v : CellPool) : (putPool s v).mtx = s.mtx := rfl
@[simp] theorem putPool_fab (v : CellPool) : (putPool s v).fab = s.fab := rfl
@[simp] theorem putPool_sdi (v : CellPool) : (putPool s v).sdi = s.sdi := rfl
@[simp] theorem putPool_pkt_ports (v : CellPool) : (putPool s v).pkt.ports = s.pkt.ports := rfl
@[simp] theorem putPool_pkt_rxFlows (v : CellPool) : (putPool s v).pkt.rxFlows = s.pkt.rxFlows := rfl
@[simp] theorem putPool_pkt_txFlows (v : CellPool) : (putPool s v).pkt.txFlows = s.pkt.txFlows := rfl
@[simp] theorem putPool_pkt_trapQueues (v : CellPool) : (putPool s v).pkt.trapQueues = s.pkt.trapQueues := rfl
@[simp] theorem putPool_pkt_queues (v : CellPool) : (putPool s v).pkt.queues = s.pkt.queues := rfl
@[simp] theorem putPool_time (v : CellPool) : (putPool s v).time = s.time := rfl
@[simp] theorem putPool_ref (v : CellPool) : (putPool s v).ref = s.ref := rfl
@[simp] theorem putPool_aud (v : CellPool) : (putPool s v).aud = s.aud := rfl
@[simp] theorem putPool_comp (v : CellPool) : (putPool s v).comp = s.comp := rfl
@[simp] theorem putPool_eng (v : CellPool) : (putPool s v).eng = s.eng := rfl
@[simp] theorem putPool_flt (v : CellPool) : (putPool s v).flt = s.flt := rfl
@[simp] theorem putPool_led (v : CellPool) : (putPool s v).led = s.led := rfl
@[simp] theorem putPool_cur (v : CellPool) : (putPool s v).cur = s.cur := rfl
@[simp] theorem putPool_strong (v : CellPool) : (putPool s v).strong = s.strong := rfl
@[simp] theorem putPool_store (v : CellPool) : (putPool s v).store = s.store := rfl
@[simp] theorem putPool_twin (v : CellPool) : (putPool s v).twin = s.twin := rfl
@[simp] theorem putPool_life (v : CellPool) : (putPool s v).life = s.life := rfl
@[simp] theorem putPool_doc (v : CellPool) : (putPool s v).doc = s.doc := rfl
@[simp] theorem putPool_set (v : CellPool) : (putPool s v).set = s.set := rfl
@[simp] theorem putPool_reserveFree (v : CellPool) : (putPool s v).reserveFree = s.reserveFree := rfl
@[simp] theorem putPool_graphicFree (v : CellPool) : (putPool s v).graphicFree = s.graphicFree := rfl
@[simp] theorem putPool_mem (v : CellPool) : (putPool s v).mem = s.mem := rfl
@[simp] theorem putPool_bar2 (v : CellPool) : (putPool s v).bar2 = s.bar2 := rfl
@[simp] theorem putPool_draws (v : CellPool) : (putPool s v).draws = s.draws := rfl
@[simp] theorem putPool_pending (v : CellPool) : (putPool s v).pending = s.pending := rfl
@[simp] theorem putFamily_chip (n : Nat) (v : Family) : (putFamily s n v).chip = s.chip := rfl
@[simp] theorem putFamily_cmd (n : Nat) (v : Family) : (putFamily s n v).cmd = s.cmd := rfl
@[simp] theorem putFamily_mtx_video (n : Nat) (v : Family) : (putFamily s n v).mtx.video = s.mtx.video := rfl
@[simp] theorem putFamily_mtx_anc (n : Nat) (v : Family) : (putFamily s n v).mtx.anc = s.mtx.anc := rfl
@[simp] theorem putFamily_mtx_audio (n : Nat) (v : Family) : (putFamily s n v).mtx.audio = s.mtx.audio := rfl
@[simp] theorem putFamily_mtx_destRun (n : Nat) (v : Family) : (putFamily s n v).mtx.destRun = s.mtx.destRun := rfl
@[simp] theorem putFamily_mtx_sources (n : Nat) (v : Family) : (putFamily s n v).mtx.sources = s.mtx.sources := rfl
@[simp] theorem putFamily_mtx_essences (n : Nat) (v : Family) : (putFamily s n v).mtx.essences = s.mtx.essences := rfl
@[simp] theorem putFamily_mtx_records (n : Nat) (v : Family) : (putFamily s n v).mtx.records = s.mtx.records := rfl
@[simp] theorem putFamily_mtx_recordAudio (n : Nat) (v : Family) : (putFamily s n v).mtx.recordAudio = s.mtx.recordAudio := rfl
@[simp] theorem putFamily_mtx_nextTake (n : Nat) (v : Family) : (putFamily s n v).mtx.nextTake = s.mtx.nextTake := rfl
@[simp] theorem putFamily_mtx_nextCmd (n : Nat) (v : Family) : (putFamily s n v).mtx.nextCmd = s.mtx.nextCmd := rfl
@[simp] theorem putFamily_mtx_counts (n : Nat) (v : Family) : (putFamily s n v).mtx.counts = s.mtx.counts := rfl
@[simp] theorem putFamily_mtx_owed (n : Nat) (v : Family) : (putFamily s n v).mtx.owed = s.mtx.owed := rfl
@[simp] theorem putFamily_mtx_restate (n : Nat) (v : Family) : (putFamily s n v).mtx.restate = s.mtx.restate := rfl
@[simp] theorem putFamily_mtx_settings (n : Nat) (v : Family) : (putFamily s n v).mtx.settings = s.mtx.settings := rfl
@[simp] theorem putFamily_mtx_snap (n : Nat) (v : Family) : (putFamily s n v).mtx.snap = s.mtx.snap := rfl
@[simp] theorem putFamily_mtx_totals (n : Nat) (v : Family) : (putFamily s n v).mtx.totals = s.mtx.totals := rfl
@[simp] theorem putFamily_mtx_protectSwitches (n : Nat) (v : Family) : (putFamily s n v).mtx.protectSwitches = s.mtx.protectSwitches := rfl
@[simp] theorem putFamily_mtx_familyMismatch (n : Nat) (v : Family) : (putFamily s n v).mtx.familyMismatch = s.mtx.familyMismatch := rfl
@[simp] theorem putFamily_mtx_formatRefused (n : Nat) (v : Family) : (putFamily s n v).mtx.formatRefused = s.mtx.formatRefused := rfl
@[simp] theorem putFamily_mtx_takeQueueDrop (n : Nat) (v : Family) : (putFamily s n v).mtx.takeQueueDrop = s.mtx.takeQueueDrop := rfl
@[simp] theorem putFamily_fab (n : Nat) (v : Family) : (putFamily s n v).fab = s.fab := rfl
@[simp] theorem putFamily_sdi (n : Nat) (v : Family) : (putFamily s n v).sdi = s.sdi := rfl
@[simp] theorem putFamily_pkt (n : Nat) (v : Family) : (putFamily s n v).pkt = s.pkt := rfl
@[simp] theorem putFamily_time (n : Nat) (v : Family) : (putFamily s n v).time = s.time := rfl
@[simp] theorem putFamily_ref (n : Nat) (v : Family) : (putFamily s n v).ref = s.ref := rfl
@[simp] theorem putFamily_aud (n : Nat) (v : Family) : (putFamily s n v).aud = s.aud := rfl
@[simp] theorem putFamily_comp (n : Nat) (v : Family) : (putFamily s n v).comp = s.comp := rfl
@[simp] theorem putFamily_eng (n : Nat) (v : Family) : (putFamily s n v).eng = s.eng := rfl
@[simp] theorem putFamily_flt (n : Nat) (v : Family) : (putFamily s n v).flt = s.flt := rfl
@[simp] theorem putFamily_led (n : Nat) (v : Family) : (putFamily s n v).led = s.led := rfl
@[simp] theorem putFamily_cur (n : Nat) (v : Family) : (putFamily s n v).cur = s.cur := rfl
@[simp] theorem putFamily_strong (n : Nat) (v : Family) : (putFamily s n v).strong = s.strong := rfl
@[simp] theorem putFamily_store (n : Nat) (v : Family) : (putFamily s n v).store = s.store := rfl
@[simp] theorem putFamily_twin (n : Nat) (v : Family) : (putFamily s n v).twin = s.twin := rfl
@[simp] theorem putFamily_life (n : Nat) (v : Family) : (putFamily s n v).life = s.life := rfl
@[simp] theorem putFamily_doc (n : Nat) (v : Family) : (putFamily s n v).doc = s.doc := rfl
@[simp] theorem putFamily_set (n : Nat) (v : Family) : (putFamily s n v).set = s.set := rfl
@[simp] theorem putFamily_reserveFree (n : Nat) (v : Family) : (putFamily s n v).reserveFree = s.reserveFree := rfl
@[simp] theorem putFamily_graphicFree (n : Nat) (v : Family) : (putFamily s n v).graphicFree = s.graphicFree := rfl
@[simp] theorem putFamily_mem (n : Nat) (v : Family) : (putFamily s n v).mem = s.mem := rfl
@[simp] theorem putFamily_bar2 (n : Nat) (v : Family) : (putFamily s n v).bar2 = s.bar2 := rfl
@[simp] theorem putFamily_draws (n : Nat) (v : Family) : (putFamily s n v).draws = s.draws := rfl
@[simp] theorem putFamily_pending (n : Nat) (v : Family) : (putFamily s n v).pending = s.pending := rfl
@[simp] theorem putDest_chip (m : Matrix) (d : Nat) (v : Dest) : (putDest s m d v).chip = s.chip := by unfold putDest; split <;> rfl
@[simp] theorem putDest_cmd (m : Matrix) (d : Nat) (v : Dest) : (putDest s m d v).cmd = s.cmd := by unfold putDest; split <;> rfl
@[simp] theorem putDest_mtx_families (m : Matrix) (d : Nat) (v : Dest) : (putDest s m d v).mtx.families = s.mtx.families := by unfold putDest; split <;> rfl
@[simp] theorem putDest_mtx_destRun (m : Matrix) (d : Nat) (v : Dest) : (putDest s m d v).mtx.destRun = s.mtx.destRun := by unfold putDest; split <;> rfl
@[simp] theorem putDest_mtx_sources (m : Matrix) (d : Nat) (v : Dest) : (putDest s m d v).mtx.sources = s.mtx.sources := by unfold putDest; split <;> rfl
@[simp] theorem putDest_mtx_essences (m : Matrix) (d : Nat) (v : Dest) : (putDest s m d v).mtx.essences = s.mtx.essences := by unfold putDest; split <;> rfl
@[simp] theorem putDest_mtx_records (m : Matrix) (d : Nat) (v : Dest) : (putDest s m d v).mtx.records = s.mtx.records := by unfold putDest; split <;> rfl
@[simp] theorem putDest_mtx_recordAudio (m : Matrix) (d : Nat) (v : Dest) : (putDest s m d v).mtx.recordAudio = s.mtx.recordAudio := by unfold putDest; split <;> rfl
@[simp] theorem putDest_mtx_nextTake (m : Matrix) (d : Nat) (v : Dest) : (putDest s m d v).mtx.nextTake = s.mtx.nextTake := by unfold putDest; split <;> rfl
@[simp] theorem putDest_mtx_nextCmd (m : Matrix) (d : Nat) (v : Dest) : (putDest s m d v).mtx.nextCmd = s.mtx.nextCmd := by unfold putDest; split <;> rfl
@[simp] theorem putDest_mtx_counts (m : Matrix) (d : Nat) (v : Dest) : (putDest s m d v).mtx.counts = s.mtx.counts := by unfold putDest; split <;> rfl
@[simp] theorem putDest_mtx_owed (m : Matrix) (d : Nat) (v : Dest) : (putDest s m d v).mtx.owed = s.mtx.owed := by unfold putDest; split <;> rfl
@[simp] theorem putDest_mtx_restate (m : Matrix) (d : Nat) (v : Dest) : (putDest s m d v).mtx.restate = s.mtx.restate := by unfold putDest; split <;> rfl
@[simp] theorem putDest_mtx_settings (m : Matrix) (d : Nat) (v : Dest) : (putDest s m d v).mtx.settings = s.mtx.settings := by unfold putDest; split <;> rfl
@[simp] theorem putDest_mtx_snap (m : Matrix) (d : Nat) (v : Dest) : (putDest s m d v).mtx.snap = s.mtx.snap := by unfold putDest; split <;> rfl
@[simp] theorem putDest_mtx_totals (m : Matrix) (d : Nat) (v : Dest) : (putDest s m d v).mtx.totals = s.mtx.totals := by unfold putDest; split <;> rfl
@[simp] theorem putDest_mtx_protectSwitches (m : Matrix) (d : Nat) (v : Dest) : (putDest s m d v).mtx.protectSwitches = s.mtx.protectSwitches := by unfold putDest; split <;> rfl
@[simp] theorem putDest_mtx_familyMismatch (m : Matrix) (d : Nat) (v : Dest) : (putDest s m d v).mtx.familyMismatch = s.mtx.familyMismatch := by unfold putDest; split <;> rfl
@[simp] theorem putDest_mtx_formatRefused (m : Matrix) (d : Nat) (v : Dest) : (putDest s m d v).mtx.formatRefused = s.mtx.formatRefused := by unfold putDest; split <;> rfl
@[simp] theorem putDest_mtx_takeQueueDrop (m : Matrix) (d : Nat) (v : Dest) : (putDest s m d v).mtx.takeQueueDrop = s.mtx.takeQueueDrop := by unfold putDest; split <;> rfl
@[simp] theorem putDest_fab (m : Matrix) (d : Nat) (v : Dest) : (putDest s m d v).fab = s.fab := by unfold putDest; split <;> rfl
@[simp] theorem putDest_sdi (m : Matrix) (d : Nat) (v : Dest) : (putDest s m d v).sdi = s.sdi := by unfold putDest; split <;> rfl
@[simp] theorem putDest_pkt (m : Matrix) (d : Nat) (v : Dest) : (putDest s m d v).pkt = s.pkt := by unfold putDest; split <;> rfl
@[simp] theorem putDest_time (m : Matrix) (d : Nat) (v : Dest) : (putDest s m d v).time = s.time := by unfold putDest; split <;> rfl
@[simp] theorem putDest_ref (m : Matrix) (d : Nat) (v : Dest) : (putDest s m d v).ref = s.ref := by unfold putDest; split <;> rfl
@[simp] theorem putDest_aud (m : Matrix) (d : Nat) (v : Dest) : (putDest s m d v).aud = s.aud := by unfold putDest; split <;> rfl
@[simp] theorem putDest_comp (m : Matrix) (d : Nat) (v : Dest) : (putDest s m d v).comp = s.comp := by unfold putDest; split <;> rfl
@[simp] theorem putDest_eng (m : Matrix) (d : Nat) (v : Dest) : (putDest s m d v).eng = s.eng := by unfold putDest; split <;> rfl
@[simp] theorem putDest_flt (m : Matrix) (d : Nat) (v : Dest) : (putDest s m d v).flt = s.flt := by unfold putDest; split <;> rfl
@[simp] theorem putDest_led (m : Matrix) (d : Nat) (v : Dest) : (putDest s m d v).led = s.led := by unfold putDest; split <;> rfl
@[simp] theorem putDest_cur (m : Matrix) (d : Nat) (v : Dest) : (putDest s m d v).cur = s.cur := by unfold putDest; split <;> rfl
@[simp] theorem putDest_strong (m : Matrix) (d : Nat) (v : Dest) : (putDest s m d v).strong = s.strong := by unfold putDest; split <;> rfl
@[simp] theorem putDest_store (m : Matrix) (d : Nat) (v : Dest) : (putDest s m d v).store = s.store := by unfold putDest; split <;> rfl
@[simp] theorem putDest_twin (m : Matrix) (d : Nat) (v : Dest) : (putDest s m d v).twin = s.twin := by unfold putDest; split <;> rfl
@[simp] theorem putDest_life (m : Matrix) (d : Nat) (v : Dest) : (putDest s m d v).life = s.life := by unfold putDest; split <;> rfl
@[simp] theorem putDest_doc (m : Matrix) (d : Nat) (v : Dest) : (putDest s m d v).doc = s.doc := by unfold putDest; split <;> rfl
@[simp] theorem putDest_set (m : Matrix) (d : Nat) (v : Dest) : (putDest s m d v).set = s.set := by unfold putDest; split <;> rfl
@[simp] theorem putDest_reserveFree (m : Matrix) (d : Nat) (v : Dest) : (putDest s m d v).reserveFree = s.reserveFree := by unfold putDest; split <;> rfl
@[simp] theorem putDest_graphicFree (m : Matrix) (d : Nat) (v : Dest) : (putDest s m d v).graphicFree = s.graphicFree := by unfold putDest; split <;> rfl
@[simp] theorem putDest_mem (m : Matrix) (d : Nat) (v : Dest) : (putDest s m d v).mem = s.mem := by unfold putDest; split <;> rfl
@[simp] theorem putDest_bar2 (m : Matrix) (d : Nat) (v : Dest) : (putDest s m d v).bar2 = s.bar2 := by unfold putDest; split <;> rfl
@[simp] theorem putDest_draws (m : Matrix) (d : Nat) (v : Dest) : (putDest s m d v).draws = s.draws := by unfold putDest; split <;> rfl
@[simp] theorem putDest_pending (m : Matrix) (d : Nat) (v : Dest) : (putDest s m d v).pending = s.pending := by unfold putDest; split <;> rfl
@[simp] theorem putDestRun_chip (d : Nat) (v : DestRun) : (putDestRun s d v).chip = s.chip := rfl
@[simp] theorem putDestRun_cmd (d : Nat) (v : DestRun) : (putDestRun s d v).cmd = s.cmd := rfl
@[simp] theorem putDestRun_mtx_families (d : Nat) (v : DestRun) : (putDestRun s d v).mtx.families = s.mtx.families := rfl
@[simp] theorem putDestRun_mtx_video (d : Nat) (v : DestRun) : (putDestRun s d v).mtx.video = s.mtx.video := rfl
@[simp] theorem putDestRun_mtx_anc (d : Nat) (v : DestRun) : (putDestRun s d v).mtx.anc = s.mtx.anc := rfl
@[simp] theorem putDestRun_mtx_audio (d : Nat) (v : DestRun) : (putDestRun s d v).mtx.audio = s.mtx.audio := rfl
@[simp] theorem putDestRun_mtx_sources (d : Nat) (v : DestRun) : (putDestRun s d v).mtx.sources = s.mtx.sources := rfl
@[simp] theorem putDestRun_mtx_essences (d : Nat) (v : DestRun) : (putDestRun s d v).mtx.essences = s.mtx.essences := rfl
@[simp] theorem putDestRun_mtx_records (d : Nat) (v : DestRun) : (putDestRun s d v).mtx.records = s.mtx.records := rfl
@[simp] theorem putDestRun_mtx_recordAudio (d : Nat) (v : DestRun) : (putDestRun s d v).mtx.recordAudio = s.mtx.recordAudio := rfl
@[simp] theorem putDestRun_mtx_nextTake (d : Nat) (v : DestRun) : (putDestRun s d v).mtx.nextTake = s.mtx.nextTake := rfl
@[simp] theorem putDestRun_mtx_nextCmd (d : Nat) (v : DestRun) : (putDestRun s d v).mtx.nextCmd = s.mtx.nextCmd := rfl
@[simp] theorem putDestRun_mtx_counts (d : Nat) (v : DestRun) : (putDestRun s d v).mtx.counts = s.mtx.counts := rfl
@[simp] theorem putDestRun_mtx_owed (d : Nat) (v : DestRun) : (putDestRun s d v).mtx.owed = s.mtx.owed := rfl
@[simp] theorem putDestRun_mtx_restate (d : Nat) (v : DestRun) : (putDestRun s d v).mtx.restate = s.mtx.restate := rfl
@[simp] theorem putDestRun_mtx_settings (d : Nat) (v : DestRun) : (putDestRun s d v).mtx.settings = s.mtx.settings := rfl
@[simp] theorem putDestRun_mtx_snap (d : Nat) (v : DestRun) : (putDestRun s d v).mtx.snap = s.mtx.snap := rfl
@[simp] theorem putDestRun_mtx_totals (d : Nat) (v : DestRun) : (putDestRun s d v).mtx.totals = s.mtx.totals := rfl
@[simp] theorem putDestRun_mtx_protectSwitches (d : Nat) (v : DestRun) : (putDestRun s d v).mtx.protectSwitches = s.mtx.protectSwitches := rfl
@[simp] theorem putDestRun_mtx_familyMismatch (d : Nat) (v : DestRun) : (putDestRun s d v).mtx.familyMismatch = s.mtx.familyMismatch := rfl
@[simp] theorem putDestRun_mtx_formatRefused (d : Nat) (v : DestRun) : (putDestRun s d v).mtx.formatRefused = s.mtx.formatRefused := rfl
@[simp] theorem putDestRun_mtx_takeQueueDrop (d : Nat) (v : DestRun) : (putDestRun s d v).mtx.takeQueueDrop = s.mtx.takeQueueDrop := rfl
@[simp] theorem putDestRun_fab (d : Nat) (v : DestRun) : (putDestRun s d v).fab = s.fab := rfl
@[simp] theorem putDestRun_sdi (d : Nat) (v : DestRun) : (putDestRun s d v).sdi = s.sdi := rfl
@[simp] theorem putDestRun_pkt (d : Nat) (v : DestRun) : (putDestRun s d v).pkt = s.pkt := rfl
@[simp] theorem putDestRun_time (d : Nat) (v : DestRun) : (putDestRun s d v).time = s.time := rfl
@[simp] theorem putDestRun_ref (d : Nat) (v : DestRun) : (putDestRun s d v).ref = s.ref := rfl
@[simp] theorem putDestRun_aud (d : Nat) (v : DestRun) : (putDestRun s d v).aud = s.aud := rfl
@[simp] theorem putDestRun_comp (d : Nat) (v : DestRun) : (putDestRun s d v).comp = s.comp := rfl
@[simp] theorem putDestRun_eng (d : Nat) (v : DestRun) : (putDestRun s d v).eng = s.eng := rfl
@[simp] theorem putDestRun_flt (d : Nat) (v : DestRun) : (putDestRun s d v).flt = s.flt := rfl
@[simp] theorem putDestRun_led (d : Nat) (v : DestRun) : (putDestRun s d v).led = s.led := rfl
@[simp] theorem putDestRun_cur (d : Nat) (v : DestRun) : (putDestRun s d v).cur = s.cur := rfl
@[simp] theorem putDestRun_strong (d : Nat) (v : DestRun) : (putDestRun s d v).strong = s.strong := rfl
@[simp] theorem putDestRun_store (d : Nat) (v : DestRun) : (putDestRun s d v).store = s.store := rfl
@[simp] theorem putDestRun_twin (d : Nat) (v : DestRun) : (putDestRun s d v).twin = s.twin := rfl
@[simp] theorem putDestRun_life (d : Nat) (v : DestRun) : (putDestRun s d v).life = s.life := rfl
@[simp] theorem putDestRun_doc (d : Nat) (v : DestRun) : (putDestRun s d v).doc = s.doc := rfl
@[simp] theorem putDestRun_set (d : Nat) (v : DestRun) : (putDestRun s d v).set = s.set := rfl
@[simp] theorem putDestRun_reserveFree (d : Nat) (v : DestRun) : (putDestRun s d v).reserveFree = s.reserveFree := rfl
@[simp] theorem putDestRun_graphicFree (d : Nat) (v : DestRun) : (putDestRun s d v).graphicFree = s.graphicFree := rfl
@[simp] theorem putDestRun_mem (d : Nat) (v : DestRun) : (putDestRun s d v).mem = s.mem := rfl
@[simp] theorem putDestRun_bar2 (d : Nat) (v : DestRun) : (putDestRun s d v).bar2 = s.bar2 := rfl
@[simp] theorem putDestRun_draws (d : Nat) (v : DestRun) : (putDestRun s d v).draws = s.draws := rfl
@[simp] theorem putDestRun_pending (d : Nat) (v : DestRun) : (putDestRun s d v).pending = s.pending := rfl
@[simp] theorem putSource_chip (n : Nat) (v : Source) : (putSource s n v).chip = s.chip := rfl
@[simp] theorem putSource_cmd (n : Nat) (v : Source) : (putSource s n v).cmd = s.cmd := rfl
@[simp] theorem putSource_mtx_families (n : Nat) (v : Source) : (putSource s n v).mtx.families = s.mtx.families := rfl
@[simp] theorem putSource_mtx_video (n : Nat) (v : Source) : (putSource s n v).mtx.video = s.mtx.video := rfl
@[simp] theorem putSource_mtx_anc (n : Nat) (v : Source) : (putSource s n v).mtx.anc = s.mtx.anc := rfl
@[simp] theorem putSource_mtx_audio (n : Nat) (v : Source) : (putSource s n v).mtx.audio = s.mtx.audio := rfl
@[simp] theorem putSource_mtx_destRun (n : Nat) (v : Source) : (putSource s n v).mtx.destRun = s.mtx.destRun := rfl
@[simp] theorem putSource_mtx_essences (n : Nat) (v : Source) : (putSource s n v).mtx.essences = s.mtx.essences := rfl
@[simp] theorem putSource_mtx_records (n : Nat) (v : Source) : (putSource s n v).mtx.records = s.mtx.records := rfl
@[simp] theorem putSource_mtx_recordAudio (n : Nat) (v : Source) : (putSource s n v).mtx.recordAudio = s.mtx.recordAudio := rfl
@[simp] theorem putSource_mtx_nextTake (n : Nat) (v : Source) : (putSource s n v).mtx.nextTake = s.mtx.nextTake := rfl
@[simp] theorem putSource_mtx_nextCmd (n : Nat) (v : Source) : (putSource s n v).mtx.nextCmd = s.mtx.nextCmd := rfl
@[simp] theorem putSource_mtx_counts (n : Nat) (v : Source) : (putSource s n v).mtx.counts = s.mtx.counts := rfl
@[simp] theorem putSource_mtx_owed (n : Nat) (v : Source) : (putSource s n v).mtx.owed = s.mtx.owed := rfl
@[simp] theorem putSource_mtx_restate (n : Nat) (v : Source) : (putSource s n v).mtx.restate = s.mtx.restate := rfl
@[simp] theorem putSource_mtx_settings (n : Nat) (v : Source) : (putSource s n v).mtx.settings = s.mtx.settings := rfl
@[simp] theorem putSource_mtx_snap (n : Nat) (v : Source) : (putSource s n v).mtx.snap = s.mtx.snap := rfl
@[simp] theorem putSource_mtx_totals (n : Nat) (v : Source) : (putSource s n v).mtx.totals = s.mtx.totals := rfl
@[simp] theorem putSource_mtx_protectSwitches (n : Nat) (v : Source) : (putSource s n v).mtx.protectSwitches = s.mtx.protectSwitches := rfl
@[simp] theorem putSource_mtx_familyMismatch (n : Nat) (v : Source) : (putSource s n v).mtx.familyMismatch = s.mtx.familyMismatch := rfl
@[simp] theorem putSource_mtx_formatRefused (n : Nat) (v : Source) : (putSource s n v).mtx.formatRefused = s.mtx.formatRefused := rfl
@[simp] theorem putSource_mtx_takeQueueDrop (n : Nat) (v : Source) : (putSource s n v).mtx.takeQueueDrop = s.mtx.takeQueueDrop := rfl
@[simp] theorem putSource_fab (n : Nat) (v : Source) : (putSource s n v).fab = s.fab := rfl
@[simp] theorem putSource_sdi (n : Nat) (v : Source) : (putSource s n v).sdi = s.sdi := rfl
@[simp] theorem putSource_pkt (n : Nat) (v : Source) : (putSource s n v).pkt = s.pkt := rfl
@[simp] theorem putSource_time (n : Nat) (v : Source) : (putSource s n v).time = s.time := rfl
@[simp] theorem putSource_ref (n : Nat) (v : Source) : (putSource s n v).ref = s.ref := rfl
@[simp] theorem putSource_aud (n : Nat) (v : Source) : (putSource s n v).aud = s.aud := rfl
@[simp] theorem putSource_comp (n : Nat) (v : Source) : (putSource s n v).comp = s.comp := rfl
@[simp] theorem putSource_eng (n : Nat) (v : Source) : (putSource s n v).eng = s.eng := rfl
@[simp] theorem putSource_flt (n : Nat) (v : Source) : (putSource s n v).flt = s.flt := rfl
@[simp] theorem putSource_led (n : Nat) (v : Source) : (putSource s n v).led = s.led := rfl
@[simp] theorem putSource_cur (n : Nat) (v : Source) : (putSource s n v).cur = s.cur := rfl
@[simp] theorem putSource_strong (n : Nat) (v : Source) : (putSource s n v).strong = s.strong := rfl
@[simp] theorem putSource_store (n : Nat) (v : Source) : (putSource s n v).store = s.store := rfl
@[simp] theorem putSource_twin (n : Nat) (v : Source) : (putSource s n v).twin = s.twin := rfl
@[simp] theorem putSource_life (n : Nat) (v : Source) : (putSource s n v).life = s.life := rfl
@[simp] theorem putSource_doc (n : Nat) (v : Source) : (putSource s n v).doc = s.doc := rfl
@[simp] theorem putSource_set (n : Nat) (v : Source) : (putSource s n v).set = s.set := rfl
@[simp] theorem putSource_reserveFree (n : Nat) (v : Source) : (putSource s n v).reserveFree = s.reserveFree := rfl
@[simp] theorem putSource_graphicFree (n : Nat) (v : Source) : (putSource s n v).graphicFree = s.graphicFree := rfl
@[simp] theorem putSource_mem (n : Nat) (v : Source) : (putSource s n v).mem = s.mem := rfl
@[simp] theorem putSource_bar2 (n : Nat) (v : Source) : (putSource s n v).bar2 = s.bar2 := rfl
@[simp] theorem putSource_draws (n : Nat) (v : Source) : (putSource s n v).draws = s.draws := rfl
@[simp] theorem putSource_pending (n : Nat) (v : Source) : (putSource s n v).pending = s.pending := rfl
@[simp] theorem putPtpPort_chip (n : Nat) (v : PtpPort) : (putPtpPort s n v).chip = s.chip := rfl
@[simp] theorem putPtpPort_cmd (n : Nat) (v : PtpPort) : (putPtpPort s n v).cmd = s.cmd := rfl
@[simp] theorem putPtpPort_mtx (n : Nat) (v : PtpPort) : (putPtpPort s n v).mtx = s.mtx := rfl
@[simp] theorem putPtpPort_fab (n : Nat) (v : PtpPort) : (putPtpPort s n v).fab = s.fab := rfl
@[simp] theorem putPtpPort_sdi (n : Nat) (v : PtpPort) : (putPtpPort s n v).sdi = s.sdi := rfl
@[simp] theorem putPtpPort_pkt (n : Nat) (v : PtpPort) : (putPtpPort s n v).pkt = s.pkt := rfl
@[simp] theorem putPtpPort_time_count (n : Nat) (v : PtpPort) : (putPtpPort s n v).time.count = s.time.count := rfl
@[simp] theorem putPtpPort_time_uptimeHi (n : Nat) (v : PtpPort) : (putPtpPort s n v).time.uptimeHi = s.time.uptimeHi := rfl
@[simp] theorem putPtpPort_time_triple (n : Nat) (v : PtpPort) : (putPtpPort s n v).time.triple = s.time.triple := rfl
@[simp] theorem putPtpPort_time_timeSet (n : Nat) (v : PtpPort) : (putPtpPort s n v).time.timeSet = s.time.timeSet := rfl
@[simp] theorem putPtpPort_time_staged (n : Nat) (v : PtpPort) : (putPtpPort s n v).time.staged = s.time.staged := rfl
@[simp] theorem putPtpPort_time_servo (n : Nat) (v : PtpPort) : (putPtpPort s n v).time.servo = s.time.servo := rfl
@[simp] theorem putPtpPort_time_pathStep (n : Nat) (v : PtpPort) : (putPtpPort s n v).time.pathStep = s.time.pathStep := rfl
@[simp] theorem putPtpPort_time_overLimit (n : Nat) (v : PtpPort) : (putPtpPort s n v).time.overLimit = s.time.overLimit := rfl
@[simp] theorem putPtpPort_time_slavePort (n : Nat) (v : PtpPort) : (putPtpPort s n v).time.slavePort = s.time.slavePort := rfl
@[simp] theorem putPtpPort_time_lastMeasurement (n : Nat) (v : PtpPort) : (putPtpPort s n v).time.lastMeasurement = s.time.lastMeasurement := rfl
@[simp] theorem putPtpPort_time_utcOffset (n : Nat) (v : PtpPort) : (putPtpPort s n v).time.utcOffset = s.time.utcOffset := rfl
@[simp] theorem putPtpPort_time_utcValid (n : Nat) (v : PtpPort) : (putPtpPort s n v).time.utcValid = s.time.utcValid := rfl
@[simp] theorem putPtpPort_time_snap (n : Nat) (v : PtpPort) : (putPtpPort s n v).time.snap = s.time.snap := rfl
@[simp] theorem putPtpPort_ref (n : Nat) (v : PtpPort) : (putPtpPort s n v).ref = s.ref := rfl
@[simp] theorem putPtpPort_aud (n : Nat) (v : PtpPort) : (putPtpPort s n v).aud = s.aud := rfl
@[simp] theorem putPtpPort_comp (n : Nat) (v : PtpPort) : (putPtpPort s n v).comp = s.comp := rfl
@[simp] theorem putPtpPort_eng (n : Nat) (v : PtpPort) : (putPtpPort s n v).eng = s.eng := rfl
@[simp] theorem putPtpPort_flt (n : Nat) (v : PtpPort) : (putPtpPort s n v).flt = s.flt := rfl
@[simp] theorem putPtpPort_led (n : Nat) (v : PtpPort) : (putPtpPort s n v).led = s.led := rfl
@[simp] theorem putPtpPort_cur (n : Nat) (v : PtpPort) : (putPtpPort s n v).cur = s.cur := rfl
@[simp] theorem putPtpPort_strong (n : Nat) (v : PtpPort) : (putPtpPort s n v).strong = s.strong := rfl
@[simp] theorem putPtpPort_store (n : Nat) (v : PtpPort) : (putPtpPort s n v).store = s.store := rfl
@[simp] theorem putPtpPort_twin (n : Nat) (v : PtpPort) : (putPtpPort s n v).twin = s.twin := rfl
@[simp] theorem putPtpPort_life (n : Nat) (v : PtpPort) : (putPtpPort s n v).life = s.life := rfl
@[simp] theorem putPtpPort_doc (n : Nat) (v : PtpPort) : (putPtpPort s n v).doc = s.doc := rfl
@[simp] theorem putPtpPort_set (n : Nat) (v : PtpPort) : (putPtpPort s n v).set = s.set := rfl
@[simp] theorem putPtpPort_reserveFree (n : Nat) (v : PtpPort) : (putPtpPort s n v).reserveFree = s.reserveFree := rfl
@[simp] theorem putPtpPort_graphicFree (n : Nat) (v : PtpPort) : (putPtpPort s n v).graphicFree = s.graphicFree := rfl
@[simp] theorem putPtpPort_mem (n : Nat) (v : PtpPort) : (putPtpPort s n v).mem = s.mem := rfl
@[simp] theorem putPtpPort_bar2 (n : Nat) (v : PtpPort) : (putPtpPort s n v).bar2 = s.bar2 := rfl
@[simp] theorem putPtpPort_draws (n : Nat) (v : PtpPort) : (putPtpPort s n v).draws = s.draws := rfl
@[simp] theorem putPtpPort_pending (n : Nat) (v : PtpPort) : (putPtpPort s n v).pending = s.pending := rfl
@[simp] theorem putCandidate_chip (c : Nat) (v : Candidate) : (putCandidate s c v).chip = s.chip := rfl
@[simp] theorem putCandidate_cmd (c : Nat) (v : Candidate) : (putCandidate s c v).cmd = s.cmd := rfl
@[simp] theorem putCandidate_mtx (c : Nat) (v : Candidate) : (putCandidate s c v).mtx = s.mtx := rfl
@[simp] theorem putCandidate_fab (c : Nat) (v : Candidate) : (putCandidate s c v).fab = s.fab := rfl
@[simp] theorem putCandidate_sdi (c : Nat) (v : Candidate) : (putCandidate s c v).sdi = s.sdi := rfl
@[simp] theorem putCandidate_pkt (c : Nat) (v : Candidate) : (putCandidate s c v).pkt = s.pkt := rfl
@[simp] theorem putCandidate_time (c : Nat) (v : Candidate) : (putCandidate s c v).time = s.time := rfl
@[simp] theorem putCandidate_ref_refsel (c : Nat) (v : Candidate) : (putCandidate s c v).ref.refsel = s.ref.refsel := rfl
@[simp] theorem putCandidate_ref_loop (c : Nat) (v : Candidate) : (putCandidate s c v).ref.loop = s.ref.loop := rfl
@[simp] theorem putCandidate_ref_freqValid (c : Nat) (v : Candidate) : (putCandidate s c v).ref.freqValid = s.ref.freqValid := rfl
@[simp] theorem putCandidate_ref_xoGood (c : Nat) (v : Candidate) : (putCandidate s c v).ref.xoGood = s.ref.xoGood := rfl
@[simp] theorem putCandidate_ref_historySeconds (c : Nat) (v : Candidate) : (putCandidate s c v).ref.historySeconds = s.ref.historySeconds := rfl
@[simp] theorem putCandidate_ref_history (c : Nat) (v : Candidate) : (putCandidate s c v).ref.history = s.ref.history := rfl
@[simp] theorem putCandidate_ref_rootOffset (c : Nat) (v : Candidate) : (putCandidate s c v).ref.rootOffset = s.ref.rootOffset := rfl
@[simp] theorem putCandidate_ref_phaseError (c : Nat) (v : Candidate) : (putCandidate s c v).ref.phaseError = s.ref.phaseError := rfl
@[simp] theorem putCandidate_ref_phaseTarget (c : Nat) (v : Candidate) : (putCandidate s c v).ref.phaseTarget = s.ref.phaseTarget := rfl
@[simp] theorem putCandidate_ref_frequency (c : Nat) (v : Candidate) : (putCandidate s c v).ref.frequency = s.ref.frequency := rfl
@[simp] theorem putCandidate_ref_pendingPulse (c : Nat) (v : Candidate) : (putCandidate s c v).ref.pendingPulse = s.ref.pendingPulse := rfl
@[simp] theorem putCandidate_ref_pulses (c : Nat) (v : Candidate) : (putCandidate s c v).ref.pulses = s.ref.pulses := rfl
@[simp] theorem putCandidate_ref_fpOut (c : Nat) (v : Candidate) : (putCandidate s c v).ref.fpOut = s.ref.fpOut := rfl
@[simp] theorem putCandidate_ref_ptpOffset (c : Nat) (v : Candidate) : (putCandidate s c v).ref.ptpOffset = s.ref.ptpOffset := rfl
@[simp] theorem putCandidate_ref_ptpReadings (c : Nat) (v : Candidate) : (putCandidate s c v).ref.ptpReadings = s.ref.ptpReadings := rfl
@[simp] theorem putCandidate_ref_switches (c : Nat) (v : Candidate) : (putCandidate s c v).ref.switches = s.ref.switches := rfl
@[simp] theorem putCandidate_ref_holdoverEntries (c : Nat) (v : Candidate) : (putCandidate s c v).ref.holdoverEntries = s.ref.holdoverEntries := rfl
@[simp] theorem putCandidate_ref_lostEntries (c : Nat) (v : Candidate) : (putCandidate s c v).ref.lostEntries = s.ref.lostEntries := rfl
@[simp] theorem putCandidate_aud (c : Nat) (v : Candidate) : (putCandidate s c v).aud = s.aud := rfl
@[simp] theorem putCandidate_comp (c : Nat) (v : Candidate) : (putCandidate s c v).comp = s.comp := rfl
@[simp] theorem putCandidate_eng (c : Nat) (v : Candidate) : (putCandidate s c v).eng = s.eng := rfl
@[simp] theorem putCandidate_flt (c : Nat) (v : Candidate) : (putCandidate s c v).flt = s.flt := rfl
@[simp] theorem putCandidate_led (c : Nat) (v : Candidate) : (putCandidate s c v).led = s.led := rfl
@[simp] theorem putCandidate_cur (c : Nat) (v : Candidate) : (putCandidate s c v).cur = s.cur := rfl
@[simp] theorem putCandidate_strong (c : Nat) (v : Candidate) : (putCandidate s c v).strong = s.strong := rfl
@[simp] theorem putCandidate_store (c : Nat) (v : Candidate) : (putCandidate s c v).store = s.store := rfl
@[simp] theorem putCandidate_twin (c : Nat) (v : Candidate) : (putCandidate s c v).twin = s.twin := rfl
@[simp] theorem putCandidate_life (c : Nat) (v : Candidate) : (putCandidate s c v).life = s.life := rfl
@[simp] theorem putCandidate_doc (c : Nat) (v : Candidate) : (putCandidate s c v).doc = s.doc := rfl
@[simp] theorem putCandidate_set (c : Nat) (v : Candidate) : (putCandidate s c v).set = s.set := rfl
@[simp] theorem putCandidate_reserveFree (c : Nat) (v : Candidate) : (putCandidate s c v).reserveFree = s.reserveFree := rfl
@[simp] theorem putCandidate_graphicFree (c : Nat) (v : Candidate) : (putCandidate s c v).graphicFree = s.graphicFree := rfl
@[simp] theorem putCandidate_mem (c : Nat) (v : Candidate) : (putCandidate s c v).mem = s.mem := rfl
@[simp] theorem putCandidate_bar2 (c : Nat) (v : Candidate) : (putCandidate s c v).bar2 = s.bar2 := rfl
@[simp] theorem putCandidate_draws (c : Nat) (v : Candidate) : (putCandidate s c v).draws = s.draws := rfl
@[simp] theorem putCandidate_pending (c : Nat) (v : Candidate) : (putCandidate s c v).pending = s.pending := rfl
@[simp] theorem putTdm_chip (p : Nat) (v : TdmPort) : (putTdm s p v).chip = s.chip := rfl
@[simp] theorem putTdm_cmd (p : Nat) (v : TdmPort) : (putTdm s p v).cmd = s.cmd := rfl
@[simp] theorem putTdm_mtx (p : Nat) (v : TdmPort) : (putTdm s p v).mtx = s.mtx := rfl
@[simp] theorem putTdm_fab (p : Nat) (v : TdmPort) : (putTdm s p v).fab = s.fab := rfl
@[simp] theorem putTdm_sdi (p : Nat) (v : TdmPort) : (putTdm s p v).sdi = s.sdi := rfl
@[simp] theorem putTdm_pkt (p : Nat) (v : TdmPort) : (putTdm s p v).pkt = s.pkt := rfl
@[simp] theorem putTdm_time (p : Nat) (v : TdmPort) : (putTdm s p v).time = s.time := rfl
@[simp] theorem putTdm_ref (p : Nat) (v : TdmPort) : (putTdm s p v).ref = s.ref := rfl
@[simp] theorem putTdm_aud_period (p : Nat) (v : TdmPort) : (putTdm s p v).aud.period = s.aud.period := rfl
@[simp] theorem putTdm_aud_memory (p : Nat) (v : TdmPort) : (putTdm s p v).aud.memory = s.aud.memory := rfl
@[simp] theorem putTdm_aud_outputs (p : Nat) (v : TdmPort) : (putTdm s p v).aud.outputs = s.aud.outputs := rfl
@[simp] theorem putTdm_aud_outputsBefore (p : Nat) (v : TdmPort) : (putTdm s p v).aud.outputsBefore = s.aud.outputsBefore := rfl
@[simp] theorem putTdm_aud_nonAudio (p : Nat) (v : TdmPort) : (putTdm s p v).aud.nonAudio = s.aud.nonAudio := rfl
@[simp] theorem putTdm_aud_csBlocks (p : Nat) (v : TdmPort) : (putTdm s p v).aud.csBlocks = s.aud.csBlocks := rfl
@[simp] theorem putTdm_aud_fades (p : Nat) (v : TdmPort) : (putTdm s p v).aud.fades = s.aud.fades := rfl
@[simp] theorem putTdm_aud_reservedFades (p : Nat) (v : TdmPort) : (putTdm s p v).aud.reservedFades = s.aud.reservedFades := rfl
@[simp] theorem putTdm_aud_fadeDowngraded (p : Nat) (v : TdmPort) : (putTdm s p v).aud.fadeDowngraded = s.aud.fadeDowngraded := rfl
@[simp] theorem putTdm_aud_fadeAborted (p : Nat) (v : TdmPort) : (putTdm s p v).aud.fadeAborted = s.aud.fadeAborted := rfl
@[simp] theorem putTdm_aud_pendingGroups (p : Nat) (v : TdmPort) : (putTdm s p v).aud.pendingGroups = s.aud.pendingGroups := rfl
@[simp] theorem putTdm_comp (p : Nat) (v : TdmPort) : (putTdm s p v).comp = s.comp := rfl
@[simp] theorem putTdm_eng (p : Nat) (v : TdmPort) : (putTdm s p v).eng = s.eng := rfl
@[simp] theorem putTdm_flt (p : Nat) (v : TdmPort) : (putTdm s p v).flt = s.flt := rfl
@[simp] theorem putTdm_led (p : Nat) (v : TdmPort) : (putTdm s p v).led = s.led := rfl
@[simp] theorem putTdm_cur (p : Nat) (v : TdmPort) : (putTdm s p v).cur = s.cur := rfl
@[simp] theorem putTdm_strong (p : Nat) (v : TdmPort) : (putTdm s p v).strong = s.strong := rfl
@[simp] theorem putTdm_store (p : Nat) (v : TdmPort) : (putTdm s p v).store = s.store := rfl
@[simp] theorem putTdm_twin (p : Nat) (v : TdmPort) : (putTdm s p v).twin = s.twin := rfl
@[simp] theorem putTdm_life (p : Nat) (v : TdmPort) : (putTdm s p v).life = s.life := rfl
@[simp] theorem putTdm_doc (p : Nat) (v : TdmPort) : (putTdm s p v).doc = s.doc := rfl
@[simp] theorem putTdm_set (p : Nat) (v : TdmPort) : (putTdm s p v).set = s.set := rfl
@[simp] theorem putTdm_reserveFree (p : Nat) (v : TdmPort) : (putTdm s p v).reserveFree = s.reserveFree := rfl
@[simp] theorem putTdm_graphicFree (p : Nat) (v : TdmPort) : (putTdm s p v).graphicFree = s.graphicFree := rfl
@[simp] theorem putTdm_mem (p : Nat) (v : TdmPort) : (putTdm s p v).mem = s.mem := rfl
@[simp] theorem putTdm_bar2 (p : Nat) (v : TdmPort) : (putTdm s p v).bar2 = s.bar2 := rfl
@[simp] theorem putTdm_draws (p : Nat) (v : TdmPort) : (putTdm s p v).draws = s.draws := rfl
@[simp] theorem putTdm_pending (p : Nat) (v : TdmPort) : (putTdm s p v).pending = s.pending := rfl
@[simp] theorem putHead_chip (h : Nat) (v : Head) : (putHead s h v).chip = s.chip := rfl
@[simp] theorem putHead_cmd (h : Nat) (v : Head) : (putHead s h v).cmd = s.cmd := rfl
@[simp] theorem putHead_mtx (h : Nat) (v : Head) : (putHead s h v).mtx = s.mtx := rfl
@[simp] theorem putHead_fab (h : Nat) (v : Head) : (putHead s h v).fab = s.fab := rfl
@[simp] theorem putHead_sdi (h : Nat) (v : Head) : (putHead s h v).sdi = s.sdi := rfl
@[simp] theorem putHead_pkt (h : Nat) (v : Head) : (putHead s h v).pkt = s.pkt := rfl
@[simp] theorem putHead_time (h : Nat) (v : Head) : (putHead s h v).time = s.time := rfl
@[simp] theorem putHead_ref (h : Nat) (v : Head) : (putHead s h v).ref = s.ref := rfl
@[simp] theorem putHead_aud (h : Nat) (v : Head) : (putHead s h v).aud = s.aud := rfl
@[simp] theorem putHead_comp_video (h : Nat) (v : Head) : (putHead s h v).comp.video = s.comp.video := rfl
@[simp] theorem putHead_comp_graphic (h : Nat) (v : Head) : (putHead s h v).comp.graphic = s.comp.graphic := rfl
@[simp] theorem putHead_comp_tables (h : Nat) (v : Head) : (putHead s h v).comp.tables = s.comp.tables := rfl
@[simp] theorem putHead_comp_staged (h : Nat) (v : Head) : (putHead s h v).comp.staged = s.comp.staged := rfl
@[simp] theorem putHead_comp_flips (h : Nat) (v : Head) : (putHead s h v).comp.flips = s.comp.flips := rfl
@[simp] theorem putHead_eng (h : Nat) (v : Head) : (putHead s h v).eng = s.eng := rfl
@[simp] theorem putHead_flt (h : Nat) (v : Head) : (putHead s h v).flt = s.flt := rfl
@[simp] theorem putHead_led (h : Nat) (v : Head) : (putHead s h v).led = s.led := rfl
@[simp] theorem putHead_cur (h : Nat) (v : Head) : (putHead s h v).cur = s.cur := rfl
@[simp] theorem putHead_strong (h : Nat) (v : Head) : (putHead s h v).strong = s.strong := rfl
@[simp] theorem putHead_store (h : Nat) (v : Head) : (putHead s h v).store = s.store := rfl
@[simp] theorem putHead_twin (h : Nat) (v : Head) : (putHead s h v).twin = s.twin := rfl
@[simp] theorem putHead_life (h : Nat) (v : Head) : (putHead s h v).life = s.life := rfl
@[simp] theorem putHead_doc (h : Nat) (v : Head) : (putHead s h v).doc = s.doc := rfl
@[simp] theorem putHead_set (h : Nat) (v : Head) : (putHead s h v).set = s.set := rfl
@[simp] theorem putHead_reserveFree (h : Nat) (v : Head) : (putHead s h v).reserveFree = s.reserveFree := rfl
@[simp] theorem putHead_graphicFree (h : Nat) (v : Head) : (putHead s h v).graphicFree = s.graphicFree := rfl
@[simp] theorem putHead_mem (h : Nat) (v : Head) : (putHead s h v).mem = s.mem := rfl
@[simp] theorem putHead_bar2 (h : Nat) (v : Head) : (putHead s h v).bar2 = s.bar2 := rfl
@[simp] theorem putHead_draws (h : Nat) (v : Head) : (putHead s h v).draws = s.draws := rfl
@[simp] theorem putHead_pending (h : Nat) (v : Head) : (putHead s h v).pending = s.pending := rfl
@[simp] theorem putVideoLayer_chip (h l : Nat) (v : VideoLayer) : (putVideoLayer s h l v).chip = s.chip := rfl
@[simp] theorem putVideoLayer_cmd (h l : Nat) (v : VideoLayer) : (putVideoLayer s h l v).cmd = s.cmd := rfl
@[simp] theorem putVideoLayer_mtx (h l : Nat) (v : VideoLayer) : (putVideoLayer s h l v).mtx = s.mtx := rfl
@[simp] theorem putVideoLayer_fab (h l : Nat) (v : VideoLayer) : (putVideoLayer s h l v).fab = s.fab := rfl
@[simp] theorem putVideoLayer_sdi (h l : Nat) (v : VideoLayer) : (putVideoLayer s h l v).sdi = s.sdi := rfl
@[simp] theorem putVideoLayer_pkt (h l : Nat) (v : VideoLayer) : (putVideoLayer s h l v).pkt = s.pkt := rfl
@[simp] theorem putVideoLayer_time (h l : Nat) (v : VideoLayer) : (putVideoLayer s h l v).time = s.time := rfl
@[simp] theorem putVideoLayer_ref (h l : Nat) (v : VideoLayer) : (putVideoLayer s h l v).ref = s.ref := rfl
@[simp] theorem putVideoLayer_aud (h l : Nat) (v : VideoLayer) : (putVideoLayer s h l v).aud = s.aud := rfl
@[simp] theorem putVideoLayer_comp_heads (h l : Nat) (v : VideoLayer) : (putVideoLayer s h l v).comp.heads = s.comp.heads := rfl
@[simp] theorem putVideoLayer_comp_graphic (h l : Nat) (v : VideoLayer) : (putVideoLayer s h l v).comp.graphic = s.comp.graphic := rfl
@[simp] theorem putVideoLayer_comp_tables (h l : Nat) (v : VideoLayer) : (putVideoLayer s h l v).comp.tables = s.comp.tables := rfl
@[simp] theorem putVideoLayer_comp_staged (h l : Nat) (v : VideoLayer) : (putVideoLayer s h l v).comp.staged = s.comp.staged := rfl
@[simp] theorem putVideoLayer_comp_flips (h l : Nat) (v : VideoLayer) : (putVideoLayer s h l v).comp.flips = s.comp.flips := rfl
@[simp] theorem putVideoLayer_eng (h l : Nat) (v : VideoLayer) : (putVideoLayer s h l v).eng = s.eng := rfl
@[simp] theorem putVideoLayer_flt (h l : Nat) (v : VideoLayer) : (putVideoLayer s h l v).flt = s.flt := rfl
@[simp] theorem putVideoLayer_led (h l : Nat) (v : VideoLayer) : (putVideoLayer s h l v).led = s.led := rfl
@[simp] theorem putVideoLayer_cur (h l : Nat) (v : VideoLayer) : (putVideoLayer s h l v).cur = s.cur := rfl
@[simp] theorem putVideoLayer_strong (h l : Nat) (v : VideoLayer) : (putVideoLayer s h l v).strong = s.strong := rfl
@[simp] theorem putVideoLayer_store (h l : Nat) (v : VideoLayer) : (putVideoLayer s h l v).store = s.store := rfl
@[simp] theorem putVideoLayer_twin (h l : Nat) (v : VideoLayer) : (putVideoLayer s h l v).twin = s.twin := rfl
@[simp] theorem putVideoLayer_life (h l : Nat) (v : VideoLayer) : (putVideoLayer s h l v).life = s.life := rfl
@[simp] theorem putVideoLayer_doc (h l : Nat) (v : VideoLayer) : (putVideoLayer s h l v).doc = s.doc := rfl
@[simp] theorem putVideoLayer_set (h l : Nat) (v : VideoLayer) : (putVideoLayer s h l v).set = s.set := rfl
@[simp] theorem putVideoLayer_reserveFree (h l : Nat) (v : VideoLayer) : (putVideoLayer s h l v).reserveFree = s.reserveFree := rfl
@[simp] theorem putVideoLayer_graphicFree (h l : Nat) (v : VideoLayer) : (putVideoLayer s h l v).graphicFree = s.graphicFree := rfl
@[simp] theorem putVideoLayer_mem (h l : Nat) (v : VideoLayer) : (putVideoLayer s h l v).mem = s.mem := rfl
@[simp] theorem putVideoLayer_bar2 (h l : Nat) (v : VideoLayer) : (putVideoLayer s h l v).bar2 = s.bar2 := rfl
@[simp] theorem putVideoLayer_draws (h l : Nat) (v : VideoLayer) : (putVideoLayer s h l v).draws = s.draws := rfl
@[simp] theorem putVideoLayer_pending (h l : Nat) (v : VideoLayer) : (putVideoLayer s h l v).pending = s.pending := rfl
@[simp] theorem putGraphicLayer_chip (h l : Nat) (v : GraphicLayer) : (putGraphicLayer s h l v).chip = s.chip := rfl
@[simp] theorem putGraphicLayer_cmd (h l : Nat) (v : GraphicLayer) : (putGraphicLayer s h l v).cmd = s.cmd := rfl
@[simp] theorem putGraphicLayer_mtx (h l : Nat) (v : GraphicLayer) : (putGraphicLayer s h l v).mtx = s.mtx := rfl
@[simp] theorem putGraphicLayer_fab (h l : Nat) (v : GraphicLayer) : (putGraphicLayer s h l v).fab = s.fab := rfl
@[simp] theorem putGraphicLayer_sdi (h l : Nat) (v : GraphicLayer) : (putGraphicLayer s h l v).sdi = s.sdi := rfl
@[simp] theorem putGraphicLayer_pkt (h l : Nat) (v : GraphicLayer) : (putGraphicLayer s h l v).pkt = s.pkt := rfl
@[simp] theorem putGraphicLayer_time (h l : Nat) (v : GraphicLayer) : (putGraphicLayer s h l v).time = s.time := rfl
@[simp] theorem putGraphicLayer_ref (h l : Nat) (v : GraphicLayer) : (putGraphicLayer s h l v).ref = s.ref := rfl
@[simp] theorem putGraphicLayer_aud (h l : Nat) (v : GraphicLayer) : (putGraphicLayer s h l v).aud = s.aud := rfl
@[simp] theorem putGraphicLayer_comp_heads (h l : Nat) (v : GraphicLayer) : (putGraphicLayer s h l v).comp.heads = s.comp.heads := rfl
@[simp] theorem putGraphicLayer_comp_video (h l : Nat) (v : GraphicLayer) : (putGraphicLayer s h l v).comp.video = s.comp.video := rfl
@[simp] theorem putGraphicLayer_comp_tables (h l : Nat) (v : GraphicLayer) : (putGraphicLayer s h l v).comp.tables = s.comp.tables := rfl
@[simp] theorem putGraphicLayer_comp_staged (h l : Nat) (v : GraphicLayer) : (putGraphicLayer s h l v).comp.staged = s.comp.staged := rfl
@[simp] theorem putGraphicLayer_comp_flips (h l : Nat) (v : GraphicLayer) : (putGraphicLayer s h l v).comp.flips = s.comp.flips := rfl
@[simp] theorem putGraphicLayer_eng (h l : Nat) (v : GraphicLayer) : (putGraphicLayer s h l v).eng = s.eng := rfl
@[simp] theorem putGraphicLayer_flt (h l : Nat) (v : GraphicLayer) : (putGraphicLayer s h l v).flt = s.flt := rfl
@[simp] theorem putGraphicLayer_led (h l : Nat) (v : GraphicLayer) : (putGraphicLayer s h l v).led = s.led := rfl
@[simp] theorem putGraphicLayer_cur (h l : Nat) (v : GraphicLayer) : (putGraphicLayer s h l v).cur = s.cur := rfl
@[simp] theorem putGraphicLayer_strong (h l : Nat) (v : GraphicLayer) : (putGraphicLayer s h l v).strong = s.strong := rfl
@[simp] theorem putGraphicLayer_store (h l : Nat) (v : GraphicLayer) : (putGraphicLayer s h l v).store = s.store := rfl
@[simp] theorem putGraphicLayer_twin (h l : Nat) (v : GraphicLayer) : (putGraphicLayer s h l v).twin = s.twin := rfl
@[simp] theorem putGraphicLayer_life (h l : Nat) (v : GraphicLayer) : (putGraphicLayer s h l v).life = s.life := rfl
@[simp] theorem putGraphicLayer_doc (h l : Nat) (v : GraphicLayer) : (putGraphicLayer s h l v).doc = s.doc := rfl
@[simp] theorem putGraphicLayer_set (h l : Nat) (v : GraphicLayer) : (putGraphicLayer s h l v).set = s.set := rfl
@[simp] theorem putGraphicLayer_reserveFree (h l : Nat) (v : GraphicLayer) : (putGraphicLayer s h l v).reserveFree = s.reserveFree := rfl
@[simp] theorem putGraphicLayer_graphicFree (h l : Nat) (v : GraphicLayer) : (putGraphicLayer s h l v).graphicFree = s.graphicFree := rfl
@[simp] theorem putGraphicLayer_mem (h l : Nat) (v : GraphicLayer) : (putGraphicLayer s h l v).mem = s.mem := rfl
@[simp] theorem putGraphicLayer_bar2 (h l : Nat) (v : GraphicLayer) : (putGraphicLayer s h l v).bar2 = s.bar2 := rfl
@[simp] theorem putGraphicLayer_draws (h l : Nat) (v : GraphicLayer) : (putGraphicLayer s h l v).draws = s.draws := rfl
@[simp] theorem putGraphicLayer_pending (h l : Nat) (v : GraphicLayer) : (putGraphicLayer s h l v).pending = s.pending := rfl
@[simp] theorem putEngine_chip (p : Nat) (v : Engine) : (putEngine s p v).chip = s.chip := rfl
@[simp] theorem putEngine_cmd (p : Nat) (v : Engine) : (putEngine s p v).cmd = s.cmd := rfl
@[simp] theorem putEngine_mtx (p : Nat) (v : Engine) : (putEngine s p v).mtx = s.mtx := rfl
@[simp] theorem putEngine_fab (p : Nat) (v : Engine) : (putEngine s p v).fab = s.fab := rfl
@[simp] theorem putEngine_sdi (p : Nat) (v : Engine) : (putEngine s p v).sdi = s.sdi := rfl
@[simp] theorem putEngine_pkt (p : Nat) (v : Engine) : (putEngine s p v).pkt = s.pkt := rfl
@[simp] theorem putEngine_time (p : Nat) (v : Engine) : (putEngine s p v).time = s.time := rfl
@[simp] theorem putEngine_ref (p : Nat) (v : Engine) : (putEngine s p v).ref = s.ref := rfl
@[simp] theorem putEngine_aud (p : Nat) (v : Engine) : (putEngine s p v).aud = s.aud := rfl
@[simp] theorem putEngine_comp (p : Nat) (v : Engine) : (putEngine s p v).comp = s.comp := rfl
@[simp] theorem putEngine_eng_paint (p : Nat) (v : Engine) : (putEngine s p v).eng.paint = s.eng.paint := rfl
@[simp] theorem putEngine_eng_nextFence (p : Nat) (v : Engine) : (putEngine s p v).eng.nextFence = s.eng.nextFence := rfl
@[simp] theorem putEngine_eng_fences (p : Nat) (v : Engine) : (putEngine s p v).eng.fences = s.eng.fences := rfl
@[simp] theorem putEngine_eng_issued (p : Nat) (v : Engine) : (putEngine s p v).eng.issued = s.eng.issued := rfl
@[simp] theorem putEngine_eng_signalled (p : Nat) (v : Engine) : (putEngine s p v).eng.signalled = s.eng.signalled := rfl
@[simp] theorem putEngine_eng_pending (p : Nat) (v : Engine) : (putEngine s p v).eng.pending = s.eng.pending := rfl
@[simp] theorem putEngine_eng_cancelled (p : Nat) (v : Engine) : (putEngine s p v).eng.cancelled = s.eng.cancelled := rfl
@[simp] theorem putEngine_flt (p : Nat) (v : Engine) : (putEngine s p v).flt = s.flt := rfl
@[simp] theorem putEngine_led (p : Nat) (v : Engine) : (putEngine s p v).led = s.led := rfl
@[simp] theorem putEngine_cur (p : Nat) (v : Engine) : (putEngine s p v).cur = s.cur := rfl
@[simp] theorem putEngine_strong (p : Nat) (v : Engine) : (putEngine s p v).strong = s.strong := rfl
@[simp] theorem putEngine_store (p : Nat) (v : Engine) : (putEngine s p v).store = s.store := rfl
@[simp] theorem putEngine_twin (p : Nat) (v : Engine) : (putEngine s p v).twin = s.twin := rfl
@[simp] theorem putEngine_life (p : Nat) (v : Engine) : (putEngine s p v).life = s.life := rfl
@[simp] theorem putEngine_doc (p : Nat) (v : Engine) : (putEngine s p v).doc = s.doc := rfl
@[simp] theorem putEngine_set (p : Nat) (v : Engine) : (putEngine s p v).set = s.set := rfl
@[simp] theorem putEngine_reserveFree (p : Nat) (v : Engine) : (putEngine s p v).reserveFree = s.reserveFree := rfl
@[simp] theorem putEngine_graphicFree (p : Nat) (v : Engine) : (putEngine s p v).graphicFree = s.graphicFree := rfl
@[simp] theorem putEngine_mem (p : Nat) (v : Engine) : (putEngine s p v).mem = s.mem := rfl
@[simp] theorem putEngine_bar2 (p : Nat) (v : Engine) : (putEngine s p v).bar2 = s.bar2 := rfl
@[simp] theorem putEngine_draws (p : Nat) (v : Engine) : (putEngine s p v).draws = s.draws := rfl
@[simp] theorem putEngine_pending (p : Nat) (v : Engine) : (putEngine s p v).pending = s.pending := rfl
@[simp] theorem putSession_chip (n : Nat) (v : Session) : (putSession s n v).chip = s.chip := rfl
@[simp] theorem putSession_cmd_ring0 (n : Nat) (v : Session) : (putSession s n v).cmd.ring0 = s.cmd.ring0 := rfl
@[simp] theorem putSession_cmd_ring1 (n : Nat) (v : Session) : (putSession s n v).cmd.ring1 = s.cmd.ring1 := rfl
@[simp] theorem putSession_cmd_ring2 (n : Nat) (v : Session) : (putSession s n v).cmd.ring2 = s.cmd.ring2 := rfl
@[simp] theorem putSession_cmd_ring3 (n : Nat) (v : Session) : (putSession s n v).cmd.ring3 = s.cmd.ring3 := rfl
@[simp] theorem putSession_cmd_replyRing (n : Nat) (v : Session) : (putSession s n v).cmd.replyRing = s.cmd.replyRing := rfl
@[simp] theorem putSession_cmd_waiting (n : Nat) (v : Session) : (putSession s n v).cmd.waiting = s.cmd.waiting := rfl
@[simp] theorem putSession_cmd_written (n : Nat) (v : Session) : (putSession s n v).cmd.written = s.cmd.written := rfl
@[simp] theorem putSession_cmd_left (n : Nat) (v : Session) : (putSession s n v).cmd.left = s.cmd.left := rfl
@[simp] theorem putSession_cmd_workQueue (n : Nat) (v : Session) : (putSession s n v).cmd.workQueue = s.cmd.workQueue := rfl
@[simp] theorem putSession_cmd_takeQueue (n : Nat) (v : Session) : (putSession s n v).cmd.takeQueue = s.cmd.takeQueue := rfl
@[simp] theorem putSession_cmd_doorbellBusy (n : Nat) (v : Session) : (putSession s n v).cmd.doorbellBusy = s.cmd.doorbellBusy := rfl
@[simp] theorem putSession_cmd_nonces (n : Nat) (v : Session) : (putSession s n v).cmd.nonces = s.cmd.nonces := rfl
@[simp] theorem putSession_cmd_irqStatus (n : Nat) (v : Session) : (putSession s n v).cmd.irqStatus = s.cmd.irqStatus := rfl
@[simp] theorem putSession_cmd_irqMask (n : Nat) (v : Session) : (putSession s n v).cmd.irqMask = s.cmd.irqMask := rfl
@[simp] theorem putSession_cmd_irqMap0 (n : Nat) (v : Session) : (putSession s n v).cmd.irqMap0 = s.cmd.irqMap0 := rfl
@[simp] theorem putSession_cmd_irqMap1 (n : Nat) (v : Session) : (putSession s n v).cmd.irqMap1 = s.cmd.irqMap1 := rfl
@[simp] theorem putSession_cmd_msix (n : Nat) (v : Session) : (putSession s n v).cmd.msix = s.cmd.msix := rfl
@[simp] theorem putSession_cmd_msixPending (n : Nat) (v : Session) : (putSession s n v).cmd.msixPending = s.cmd.msixPending := rfl
@[simp] theorem putSession_cmd_messages (n : Nat) (v : Session) : (putSession s n v).cmd.messages = s.cmd.messages := rfl
@[simp] theorem putSession_mtx (n : Nat) (v : Session) : (putSession s n v).mtx = s.mtx := rfl
@[simp] theorem putSession_fab (n : Nat) (v : Session) : (putSession s n v).fab = s.fab := rfl
@[simp] theorem putSession_sdi (n : Nat) (v : Session) : (putSession s n v).sdi = s.sdi := rfl
@[simp] theorem putSession_pkt (n : Nat) (v : Session) : (putSession s n v).pkt = s.pkt := rfl
@[simp] theorem putSession_time (n : Nat) (v : Session) : (putSession s n v).time = s.time := rfl
@[simp] theorem putSession_ref (n : Nat) (v : Session) : (putSession s n v).ref = s.ref := rfl
@[simp] theorem putSession_aud (n : Nat) (v : Session) : (putSession s n v).aud = s.aud := rfl
@[simp] theorem putSession_comp (n : Nat) (v : Session) : (putSession s n v).comp = s.comp := rfl
@[simp] theorem putSession_eng (n : Nat) (v : Session) : (putSession s n v).eng = s.eng := rfl
@[simp] theorem putSession_flt (n : Nat) (v : Session) : (putSession s n v).flt = s.flt := rfl
@[simp] theorem putSession_led (n : Nat) (v : Session) : (putSession s n v).led = s.led := rfl
@[simp] theorem putSession_cur (n : Nat) (v : Session) : (putSession s n v).cur = s.cur := rfl
@[simp] theorem putSession_strong (n : Nat) (v : Session) : (putSession s n v).strong = s.strong := rfl
@[simp] theorem putSession_store (n : Nat) (v : Session) : (putSession s n v).store = s.store := rfl
@[simp] theorem putSession_twin (n : Nat) (v : Session) : (putSession s n v).twin = s.twin := rfl
@[simp] theorem putSession_life (n : Nat) (v : Session) : (putSession s n v).life = s.life := rfl
@[simp] theorem putSession_doc (n : Nat) (v : Session) : (putSession s n v).doc = s.doc := rfl
@[simp] theorem putSession_set (n : Nat) (v : Session) : (putSession s n v).set = s.set := rfl
@[simp] theorem putSession_reserveFree (n : Nat) (v : Session) : (putSession s n v).reserveFree = s.reserveFree := rfl
@[simp] theorem putSession_graphicFree (n : Nat) (v : Session) : (putSession s n v).graphicFree = s.graphicFree := rfl
@[simp] theorem putSession_mem (n : Nat) (v : Session) : (putSession s n v).mem = s.mem := rfl
@[simp] theorem putSession_bar2 (n : Nat) (v : Session) : (putSession s n v).bar2 = s.bar2 := rfl
@[simp] theorem putSession_draws (n : Nat) (v : Session) : (putSession s n v).draws = s.draws := rfl
@[simp] theorem putSession_pending (n : Nat) (v : Session) : (putSession s n v).pending = s.pending := rfl
@[simp] theorem putEssence_chip (n : Nat) (v : Essence) : (putEssence s n v).chip = s.chip := rfl
@[simp] theorem putEssence_cmd (n : Nat) (v : Essence) : (putEssence s n v).cmd = s.cmd := rfl
@[simp] theorem putEssence_mtx_families (n : Nat) (v : Essence) : (putEssence s n v).mtx.families = s.mtx.families := rfl
@[simp] theorem putEssence_mtx_video (n : Nat) (v : Essence) : (putEssence s n v).mtx.video = s.mtx.video := rfl
@[simp] theorem putEssence_mtx_anc (n : Nat) (v : Essence) : (putEssence s n v).mtx.anc = s.mtx.anc := rfl
@[simp] theorem putEssence_mtx_audio (n : Nat) (v : Essence) : (putEssence s n v).mtx.audio = s.mtx.audio := rfl
@[simp] theorem putEssence_mtx_destRun (n : Nat) (v : Essence) : (putEssence s n v).mtx.destRun = s.mtx.destRun := rfl
@[simp] theorem putEssence_mtx_sources (n : Nat) (v : Essence) : (putEssence s n v).mtx.sources = s.mtx.sources := rfl
@[simp] theorem putEssence_mtx_records (n : Nat) (v : Essence) : (putEssence s n v).mtx.records = s.mtx.records := rfl
@[simp] theorem putEssence_mtx_recordAudio (n : Nat) (v : Essence) : (putEssence s n v).mtx.recordAudio = s.mtx.recordAudio := rfl
@[simp] theorem putEssence_mtx_nextTake (n : Nat) (v : Essence) : (putEssence s n v).mtx.nextTake = s.mtx.nextTake := rfl
@[simp] theorem putEssence_mtx_nextCmd (n : Nat) (v : Essence) : (putEssence s n v).mtx.nextCmd = s.mtx.nextCmd := rfl
@[simp] theorem putEssence_mtx_counts (n : Nat) (v : Essence) : (putEssence s n v).mtx.counts = s.mtx.counts := rfl
@[simp] theorem putEssence_mtx_owed (n : Nat) (v : Essence) : (putEssence s n v).mtx.owed = s.mtx.owed := rfl
@[simp] theorem putEssence_mtx_restate (n : Nat) (v : Essence) : (putEssence s n v).mtx.restate = s.mtx.restate := rfl
@[simp] theorem putEssence_mtx_settings (n : Nat) (v : Essence) : (putEssence s n v).mtx.settings = s.mtx.settings := rfl
@[simp] theorem putEssence_mtx_snap (n : Nat) (v : Essence) : (putEssence s n v).mtx.snap = s.mtx.snap := rfl
@[simp] theorem putEssence_mtx_totals (n : Nat) (v : Essence) : (putEssence s n v).mtx.totals = s.mtx.totals := rfl
@[simp] theorem putEssence_mtx_protectSwitches (n : Nat) (v : Essence) : (putEssence s n v).mtx.protectSwitches = s.mtx.protectSwitches := rfl
@[simp] theorem putEssence_mtx_familyMismatch (n : Nat) (v : Essence) : (putEssence s n v).mtx.familyMismatch = s.mtx.familyMismatch := rfl
@[simp] theorem putEssence_mtx_formatRefused (n : Nat) (v : Essence) : (putEssence s n v).mtx.formatRefused = s.mtx.formatRefused := rfl
@[simp] theorem putEssence_mtx_takeQueueDrop (n : Nat) (v : Essence) : (putEssence s n v).mtx.takeQueueDrop = s.mtx.takeQueueDrop := rfl
@[simp] theorem putEssence_fab (n : Nat) (v : Essence) : (putEssence s n v).fab = s.fab := rfl
@[simp] theorem putEssence_sdi (n : Nat) (v : Essence) : (putEssence s n v).sdi = s.sdi := rfl
@[simp] theorem putEssence_pkt (n : Nat) (v : Essence) : (putEssence s n v).pkt = s.pkt := rfl
@[simp] theorem putEssence_time (n : Nat) (v : Essence) : (putEssence s n v).time = s.time := rfl
@[simp] theorem putEssence_ref (n : Nat) (v : Essence) : (putEssence s n v).ref = s.ref := rfl
@[simp] theorem putEssence_aud (n : Nat) (v : Essence) : (putEssence s n v).aud = s.aud := rfl
@[simp] theorem putEssence_comp (n : Nat) (v : Essence) : (putEssence s n v).comp = s.comp := rfl
@[simp] theorem putEssence_eng (n : Nat) (v : Essence) : (putEssence s n v).eng = s.eng := rfl
@[simp] theorem putEssence_flt (n : Nat) (v : Essence) : (putEssence s n v).flt = s.flt := rfl
@[simp] theorem putEssence_led (n : Nat) (v : Essence) : (putEssence s n v).led = s.led := rfl
@[simp] theorem putEssence_cur (n : Nat) (v : Essence) : (putEssence s n v).cur = s.cur := rfl
@[simp] theorem putEssence_strong (n : Nat) (v : Essence) : (putEssence s n v).strong = s.strong := rfl
@[simp] theorem putEssence_store (n : Nat) (v : Essence) : (putEssence s n v).store = s.store := rfl
@[simp] theorem putEssence_twin (n : Nat) (v : Essence) : (putEssence s n v).twin = s.twin := rfl
@[simp] theorem putEssence_life (n : Nat) (v : Essence) : (putEssence s n v).life = s.life := rfl
@[simp] theorem putEssence_doc (n : Nat) (v : Essence) : (putEssence s n v).doc = s.doc := rfl
@[simp] theorem putEssence_set (n : Nat) (v : Essence) : (putEssence s n v).set = s.set := rfl
@[simp] theorem putEssence_reserveFree (n : Nat) (v : Essence) : (putEssence s n v).reserveFree = s.reserveFree := rfl
@[simp] theorem putEssence_graphicFree (n : Nat) (v : Essence) : (putEssence s n v).graphicFree = s.graphicFree := rfl
@[simp] theorem putEssence_mem (n : Nat) (v : Essence) : (putEssence s n v).mem = s.mem := rfl
@[simp] theorem putEssence_bar2 (n : Nat) (v : Essence) : (putEssence s n v).bar2 = s.bar2 := rfl
@[simp] theorem putEssence_draws (n : Nat) (v : Essence) : (putEssence s n v).draws = s.draws := rfl
@[simp] theorem putEssence_pending (n : Nat) (v : Essence) : (putEssence s n v).pending = s.pending := rfl
@[simp] theorem putTx_chip (d : Nat) (v : TxContainer) : (putTx s d v).chip = s.chip := rfl
@[simp] theorem putTx_cmd (d : Nat) (v : TxContainer) : (putTx s d v).cmd = s.cmd := rfl
@[simp] theorem putTx_mtx (d : Nat) (v : TxContainer) : (putTx s d v).mtx = s.mtx := rfl
@[simp] theorem putTx_fab_lanes (d : Nat) (v : TxContainer) : (putTx s d v).fab.lanes = s.fab.lanes := rfl
@[simp] theorem putTx_fab_links (d : Nat) (v : TxContainer) : (putTx s d v).fab.links = s.fab.links := rfl
@[simp] theorem putTx_fab_pairs (d : Nat) (v : TxContainer) : (putTx s d v).fab.pairs = s.fab.pairs := rfl
@[simp] theorem putTx_fab_sources (d : Nat) (v : TxContainer) : (putTx s d v).fab.sources = s.fab.sources := rfl
@[simp] theorem putTx_fab_plls (d : Nat) (v : TxContainer) : (putTx s d v).fab.plls = s.fab.plls := rfl
@[simp] theorem putTx_sdi (d : Nat) (v : TxContainer) : (putTx s d v).sdi = s.sdi := rfl
@[simp] theorem putTx_pkt (d : Nat) (v : TxContainer) : (putTx s d v).pkt = s.pkt := rfl
@[simp] theorem putTx_time (d : Nat) (v : TxContainer) : (putTx s d v).time = s.time := rfl
@[simp] theorem putTx_ref (d : Nat) (v : TxContainer) : (putTx s d v).ref = s.ref := rfl
@[simp] theorem putTx_aud (d : Nat) (v : TxContainer) : (putTx s d v).aud = s.aud := rfl
@[simp] theorem putTx_comp (d : Nat) (v : TxContainer) : (putTx s d v).comp = s.comp := rfl
@[simp] theorem putTx_eng (d : Nat) (v : TxContainer) : (putTx s d v).eng = s.eng := rfl
@[simp] theorem putTx_flt (d : Nat) (v : TxContainer) : (putTx s d v).flt = s.flt := rfl
@[simp] theorem putTx_led (d : Nat) (v : TxContainer) : (putTx s d v).led = s.led := rfl
@[simp] theorem putTx_cur (d : Nat) (v : TxContainer) : (putTx s d v).cur = s.cur := rfl
@[simp] theorem putTx_strong (d : Nat) (v : TxContainer) : (putTx s d v).strong = s.strong := rfl
@[simp] theorem putTx_store (d : Nat) (v : TxContainer) : (putTx s d v).store = s.store := rfl
@[simp] theorem putTx_twin (d : Nat) (v : TxContainer) : (putTx s d v).twin = s.twin := rfl
@[simp] theorem putTx_life (d : Nat) (v : TxContainer) : (putTx s d v).life = s.life := rfl
@[simp] theorem putTx_doc (d : Nat) (v : TxContainer) : (putTx s d v).doc = s.doc := rfl
@[simp] theorem putTx_set (d : Nat) (v : TxContainer) : (putTx s d v).set = s.set := rfl
@[simp] theorem putTx_reserveFree (d : Nat) (v : TxContainer) : (putTx s d v).reserveFree = s.reserveFree := rfl
@[simp] theorem putTx_graphicFree (d : Nat) (v : TxContainer) : (putTx s d v).graphicFree = s.graphicFree := rfl
@[simp] theorem putTx_mem (d : Nat) (v : TxContainer) : (putTx s d v).mem = s.mem := rfl
@[simp] theorem putTx_bar2 (d : Nat) (v : TxContainer) : (putTx s d v).bar2 = s.bar2 := rfl
@[simp] theorem putTx_draws (d : Nat) (v : TxContainer) : (putTx s d v).draws = s.draws := rfl
@[simp] theorem putTx_pending (d : Nat) (v : TxContainer) : (putTx s d v).pending = s.pending := rfl
@[simp] theorem putTxFlow_chip (n : Nat) (v : TxFlow) : (putTxFlow s n v).chip = s.chip := rfl
@[simp] theorem putTxFlow_cmd (n : Nat) (v : TxFlow) : (putTxFlow s n v).cmd = s.cmd := rfl
@[simp] theorem putTxFlow_mtx (n : Nat) (v : TxFlow) : (putTxFlow s n v).mtx = s.mtx := rfl
@[simp] theorem putTxFlow_fab (n : Nat) (v : TxFlow) : (putTxFlow s n v).fab = s.fab := rfl
@[simp] theorem putTxFlow_sdi (n : Nat) (v : TxFlow) : (putTxFlow s n v).sdi = s.sdi := rfl
@[simp] theorem putTxFlow_pkt_ports (n : Nat) (v : TxFlow) : (putTxFlow s n v).pkt.ports = s.pkt.ports := rfl
@[simp] theorem putTxFlow_pkt_rxFlows (n : Nat) (v : TxFlow) : (putTxFlow s n v).pkt.rxFlows = s.pkt.rxFlows := rfl
@[simp] theorem putTxFlow_pkt_trapQueues (n : Nat) (v : TxFlow) : (putTxFlow s n v).pkt.trapQueues = s.pkt.trapQueues := rfl
@[simp] theorem putTxFlow_pkt_queues (n : Nat) (v : TxFlow) : (putTxFlow s n v).pkt.queues = s.pkt.queues := rfl
@[simp] theorem putTxFlow_pkt_pool (n : Nat) (v : TxFlow) : (putTxFlow s n v).pkt.pool = s.pkt.pool := rfl
@[simp] theorem putTxFlow_time (n : Nat) (v : TxFlow) : (putTxFlow s n v).time = s.time := rfl
@[simp] theorem putTxFlow_ref (n : Nat) (v : TxFlow) : (putTxFlow s n v).ref = s.ref := rfl
@[simp] theorem putTxFlow_aud (n : Nat) (v : TxFlow) : (putTxFlow s n v).aud = s.aud := rfl
@[simp] theorem putTxFlow_comp (n : Nat) (v : TxFlow) : (putTxFlow s n v).comp = s.comp := rfl
@[simp] theorem putTxFlow_eng (n : Nat) (v : TxFlow) : (putTxFlow s n v).eng = s.eng := rfl
@[simp] theorem putTxFlow_flt (n : Nat) (v : TxFlow) : (putTxFlow s n v).flt = s.flt := rfl
@[simp] theorem putTxFlow_led (n : Nat) (v : TxFlow) : (putTxFlow s n v).led = s.led := rfl
@[simp] theorem putTxFlow_cur (n : Nat) (v : TxFlow) : (putTxFlow s n v).cur = s.cur := rfl
@[simp] theorem putTxFlow_strong (n : Nat) (v : TxFlow) : (putTxFlow s n v).strong = s.strong := rfl
@[simp] theorem putTxFlow_store (n : Nat) (v : TxFlow) : (putTxFlow s n v).store = s.store := rfl
@[simp] theorem putTxFlow_twin (n : Nat) (v : TxFlow) : (putTxFlow s n v).twin = s.twin := rfl
@[simp] theorem putTxFlow_life (n : Nat) (v : TxFlow) : (putTxFlow s n v).life = s.life := rfl
@[simp] theorem putTxFlow_doc (n : Nat) (v : TxFlow) : (putTxFlow s n v).doc = s.doc := rfl
@[simp] theorem putTxFlow_set (n : Nat) (v : TxFlow) : (putTxFlow s n v).set = s.set := rfl
@[simp] theorem putTxFlow_reserveFree (n : Nat) (v : TxFlow) : (putTxFlow s n v).reserveFree = s.reserveFree := rfl
@[simp] theorem putTxFlow_graphicFree (n : Nat) (v : TxFlow) : (putTxFlow s n v).graphicFree = s.graphicFree := rfl
@[simp] theorem putTxFlow_mem (n : Nat) (v : TxFlow) : (putTxFlow s n v).mem = s.mem := rfl
@[simp] theorem putTxFlow_bar2 (n : Nat) (v : TxFlow) : (putTxFlow s n v).bar2 = s.bar2 := rfl
@[simp] theorem putTxFlow_draws (n : Nat) (v : TxFlow) : (putTxFlow s n v).draws = s.draws := rfl
@[simp] theorem putTxFlow_pending (n : Nat) (v : TxFlow) : (putTxFlow s n v).pending = s.pending := rfl
@[simp] theorem putFault_chip (id : Nat) (v : FaultSource) : (putFault s id v).chip = s.chip := rfl
@[simp] theorem putFault_cmd (id : Nat) (v : FaultSource) : (putFault s id v).cmd = s.cmd := rfl
@[simp] theorem putFault_mtx (id : Nat) (v : FaultSource) : (putFault s id v).mtx = s.mtx := rfl
@[simp] theorem putFault_fab (id : Nat) (v : FaultSource) : (putFault s id v).fab = s.fab := rfl
@[simp] theorem putFault_sdi (id : Nat) (v : FaultSource) : (putFault s id v).sdi = s.sdi := rfl
@[simp] theorem putFault_pkt (id : Nat) (v : FaultSource) : (putFault s id v).pkt = s.pkt := rfl
@[simp] theorem putFault_time (id : Nat) (v : FaultSource) : (putFault s id v).time = s.time := rfl
@[simp] theorem putFault_ref (id : Nat) (v : FaultSource) : (putFault s id v).ref = s.ref := rfl
@[simp] theorem putFault_aud (id : Nat) (v : FaultSource) : (putFault s id v).aud = s.aud := rfl
@[simp] theorem putFault_comp (id : Nat) (v : FaultSource) : (putFault s id v).comp = s.comp := rfl
@[simp] theorem putFault_eng (id : Nat) (v : FaultSource) : (putFault s id v).eng = s.eng := rfl
@[simp] theorem putFault_flt_hold (id : Nat) (v : FaultSource) : (putFault s id v).flt.hold = s.flt.hold := rfl
@[simp] theorem putFault_flt_corrected (id : Nat) (v : FaultSource) : (putFault s id v).flt.corrected = s.flt.corrected := rfl
@[simp] theorem putFault_flt_invert (id : Nat) (v : FaultSource) : (putFault s id v).flt.invert = s.flt.invert := rfl
@[simp] theorem putFault_flt_standing (id : Nat) (v : FaultSource) : (putFault s id v).flt.standing = s.flt.standing := rfl
@[simp] theorem putFault_led (id : Nat) (v : FaultSource) : (putFault s id v).led = s.led := rfl
@[simp] theorem putFault_cur (id : Nat) (v : FaultSource) : (putFault s id v).cur = s.cur := rfl
@[simp] theorem putFault_strong (id : Nat) (v : FaultSource) : (putFault s id v).strong = s.strong := rfl
@[simp] theorem putFault_store (id : Nat) (v : FaultSource) : (putFault s id v).store = s.store := rfl
@[simp] theorem putFault_twin (id : Nat) (v : FaultSource) : (putFault s id v).twin = s.twin := rfl
@[simp] theorem putFault_life (id : Nat) (v : FaultSource) : (putFault s id v).life = s.life := rfl
@[simp] theorem putFault_doc (id : Nat) (v : FaultSource) : (putFault s id v).doc = s.doc := rfl
@[simp] theorem putFault_set (id : Nat) (v : FaultSource) : (putFault s id v).set = s.set := rfl
@[simp] theorem putFault_reserveFree (id : Nat) (v : FaultSource) : (putFault s id v).reserveFree = s.reserveFree := rfl
@[simp] theorem putFault_graphicFree (id : Nat) (v : FaultSource) : (putFault s id v).graphicFree = s.graphicFree := rfl
@[simp] theorem putFault_mem (id : Nat) (v : FaultSource) : (putFault s id v).mem = s.mem := rfl
@[simp] theorem putFault_bar2 (id : Nat) (v : FaultSource) : (putFault s id v).bar2 = s.bar2 := rfl
@[simp] theorem putFault_draws (id : Nat) (v : FaultSource) : (putFault s id v).draws = s.draws := rfl
@[simp] theorem putFault_pending (id : Nat) (v : FaultSource) : (putFault s id v).pending = s.pending := rfl
@[simp] theorem putRxFlow_chip (n : Nat) (v : RxFlow) : (putRxFlow s n v).chip = s.chip := rfl
@[simp] theorem putRxFlow_cmd (n : Nat) (v : RxFlow) : (putRxFlow s n v).cmd = s.cmd := rfl
@[simp] theorem putRxFlow_mtx (n : Nat) (v : RxFlow) : (putRxFlow s n v).mtx = s.mtx := rfl
@[simp] theorem putRxFlow_fab (n : Nat) (v : RxFlow) : (putRxFlow s n v).fab = s.fab := rfl
@[simp] theorem putRxFlow_sdi (n : Nat) (v : RxFlow) : (putRxFlow s n v).sdi = s.sdi := rfl
@[simp] theorem putRxFlow_pkt_ports (n : Nat) (v : RxFlow) : (putRxFlow s n v).pkt.ports = s.pkt.ports := rfl
@[simp] theorem putRxFlow_pkt_txFlows (n : Nat) (v : RxFlow) : (putRxFlow s n v).pkt.txFlows = s.pkt.txFlows := rfl
@[simp] theorem putRxFlow_pkt_trapQueues (n : Nat) (v : RxFlow) : (putRxFlow s n v).pkt.trapQueues = s.pkt.trapQueues := rfl
@[simp] theorem putRxFlow_pkt_queues (n : Nat) (v : RxFlow) : (putRxFlow s n v).pkt.queues = s.pkt.queues := rfl
@[simp] theorem putRxFlow_pkt_pool (n : Nat) (v : RxFlow) : (putRxFlow s n v).pkt.pool = s.pkt.pool := rfl
@[simp] theorem putRxFlow_time (n : Nat) (v : RxFlow) : (putRxFlow s n v).time = s.time := rfl
@[simp] theorem putRxFlow_ref (n : Nat) (v : RxFlow) : (putRxFlow s n v).ref = s.ref := rfl
@[simp] theorem putRxFlow_aud (n : Nat) (v : RxFlow) : (putRxFlow s n v).aud = s.aud := rfl
@[simp] theorem putRxFlow_comp (n : Nat) (v : RxFlow) : (putRxFlow s n v).comp = s.comp := rfl
@[simp] theorem putRxFlow_eng (n : Nat) (v : RxFlow) : (putRxFlow s n v).eng = s.eng := rfl
@[simp] theorem putRxFlow_flt (n : Nat) (v : RxFlow) : (putRxFlow s n v).flt = s.flt := rfl
@[simp] theorem putRxFlow_led (n : Nat) (v : RxFlow) : (putRxFlow s n v).led = s.led := rfl
@[simp] theorem putRxFlow_cur (n : Nat) (v : RxFlow) : (putRxFlow s n v).cur = s.cur := rfl
@[simp] theorem putRxFlow_strong (n : Nat) (v : RxFlow) : (putRxFlow s n v).strong = s.strong := rfl
@[simp] theorem putRxFlow_store (n : Nat) (v : RxFlow) : (putRxFlow s n v).store = s.store := rfl
@[simp] theorem putRxFlow_twin (n : Nat) (v : RxFlow) : (putRxFlow s n v).twin = s.twin := rfl
@[simp] theorem putRxFlow_life (n : Nat) (v : RxFlow) : (putRxFlow s n v).life = s.life := rfl
@[simp] theorem putRxFlow_doc (n : Nat) (v : RxFlow) : (putRxFlow s n v).doc = s.doc := rfl
@[simp] theorem putRxFlow_set (n : Nat) (v : RxFlow) : (putRxFlow s n v).set = s.set := rfl
@[simp] theorem putRxFlow_reserveFree (n : Nat) (v : RxFlow) : (putRxFlow s n v).reserveFree = s.reserveFree := rfl
@[simp] theorem putRxFlow_graphicFree (n : Nat) (v : RxFlow) : (putRxFlow s n v).graphicFree = s.graphicFree := rfl
@[simp] theorem putRxFlow_mem (n : Nat) (v : RxFlow) : (putRxFlow s n v).mem = s.mem := rfl
@[simp] theorem putRxFlow_bar2 (n : Nat) (v : RxFlow) : (putRxFlow s n v).bar2 = s.bar2 := rfl
@[simp] theorem putRxFlow_draws (n : Nat) (v : RxFlow) : (putRxFlow s n v).draws = s.draws := rfl
@[simp] theorem putRxFlow_pending (n : Nat) (v : RxFlow) : (putRxFlow s n v).pending = s.pending := rfl
@[simp] theorem putRing_chip (c : Nat) (r : Ring) : (putRing s c r).chip = s.chip := by unfold putRing; split <;> rfl
@[simp] theorem putRing_cmd_replyRing (c : Nat) (r : Ring) : (putRing s c r).cmd.replyRing = s.cmd.replyRing := by unfold putRing; split <;> rfl
@[simp] theorem putRing_cmd_waiting (c : Nat) (r : Ring) : (putRing s c r).cmd.waiting = s.cmd.waiting := by unfold putRing; split <;> rfl
@[simp] theorem putRing_cmd_written (c : Nat) (r : Ring) : (putRing s c r).cmd.written = s.cmd.written := by unfold putRing; split <;> rfl
@[simp] theorem putRing_cmd_left (c : Nat) (r : Ring) : (putRing s c r).cmd.left = s.cmd.left := by unfold putRing; split <;> rfl
@[simp] theorem putRing_cmd_sessions (c : Nat) (r : Ring) : (putRing s c r).cmd.sessions = s.cmd.sessions := by unfold putRing; split <;> rfl
@[simp] theorem putRing_cmd_workQueue (c : Nat) (r : Ring) : (putRing s c r).cmd.workQueue = s.cmd.workQueue := by unfold putRing; split <;> rfl
@[simp] theorem putRing_cmd_takeQueue (c : Nat) (r : Ring) : (putRing s c r).cmd.takeQueue = s.cmd.takeQueue := by unfold putRing; split <;> rfl
@[simp] theorem putRing_cmd_doorbellBusy (c : Nat) (r : Ring) : (putRing s c r).cmd.doorbellBusy = s.cmd.doorbellBusy := by unfold putRing; split <;> rfl
@[simp] theorem putRing_cmd_nonces (c : Nat) (r : Ring) : (putRing s c r).cmd.nonces = s.cmd.nonces := by unfold putRing; split <;> rfl
@[simp] theorem putRing_cmd_irqStatus (c : Nat) (r : Ring) : (putRing s c r).cmd.irqStatus = s.cmd.irqStatus := by unfold putRing; split <;> rfl
@[simp] theorem putRing_cmd_irqMask (c : Nat) (r : Ring) : (putRing s c r).cmd.irqMask = s.cmd.irqMask := by unfold putRing; split <;> rfl
@[simp] theorem putRing_cmd_irqMap0 (c : Nat) (r : Ring) : (putRing s c r).cmd.irqMap0 = s.cmd.irqMap0 := by unfold putRing; split <;> rfl
@[simp] theorem putRing_cmd_irqMap1 (c : Nat) (r : Ring) : (putRing s c r).cmd.irqMap1 = s.cmd.irqMap1 := by unfold putRing; split <;> rfl
@[simp] theorem putRing_cmd_msix (c : Nat) (r : Ring) : (putRing s c r).cmd.msix = s.cmd.msix := by unfold putRing; split <;> rfl
@[simp] theorem putRing_cmd_msixPending (c : Nat) (r : Ring) : (putRing s c r).cmd.msixPending = s.cmd.msixPending := by unfold putRing; split <;> rfl
@[simp] theorem putRing_cmd_messages (c : Nat) (r : Ring) : (putRing s c r).cmd.messages = s.cmd.messages := by unfold putRing; split <;> rfl
@[simp] theorem putRing_mtx (c : Nat) (r : Ring) : (putRing s c r).mtx = s.mtx := by unfold putRing; split <;> rfl
@[simp] theorem putRing_fab (c : Nat) (r : Ring) : (putRing s c r).fab = s.fab := by unfold putRing; split <;> rfl
@[simp] theorem putRing_sdi (c : Nat) (r : Ring) : (putRing s c r).sdi = s.sdi := by unfold putRing; split <;> rfl
@[simp] theorem putRing_pkt (c : Nat) (r : Ring) : (putRing s c r).pkt = s.pkt := by unfold putRing; split <;> rfl
@[simp] theorem putRing_time (c : Nat) (r : Ring) : (putRing s c r).time = s.time := by unfold putRing; split <;> rfl
@[simp] theorem putRing_ref (c : Nat) (r : Ring) : (putRing s c r).ref = s.ref := by unfold putRing; split <;> rfl
@[simp] theorem putRing_aud (c : Nat) (r : Ring) : (putRing s c r).aud = s.aud := by unfold putRing; split <;> rfl
@[simp] theorem putRing_comp (c : Nat) (r : Ring) : (putRing s c r).comp = s.comp := by unfold putRing; split <;> rfl
@[simp] theorem putRing_eng (c : Nat) (r : Ring) : (putRing s c r).eng = s.eng := by unfold putRing; split <;> rfl
@[simp] theorem putRing_flt (c : Nat) (r : Ring) : (putRing s c r).flt = s.flt := by unfold putRing; split <;> rfl
@[simp] theorem putRing_led (c : Nat) (r : Ring) : (putRing s c r).led = s.led := by unfold putRing; split <;> rfl
@[simp] theorem putRing_cur (c : Nat) (r : Ring) : (putRing s c r).cur = s.cur := by unfold putRing; split <;> rfl
@[simp] theorem putRing_strong (c : Nat) (r : Ring) : (putRing s c r).strong = s.strong := by unfold putRing; split <;> rfl
@[simp] theorem putRing_store (c : Nat) (r : Ring) : (putRing s c r).store = s.store := by unfold putRing; split <;> rfl
@[simp] theorem putRing_twin (c : Nat) (r : Ring) : (putRing s c r).twin = s.twin := by unfold putRing; split <;> rfl
@[simp] theorem putRing_life (c : Nat) (r : Ring) : (putRing s c r).life = s.life := by unfold putRing; split <;> rfl
@[simp] theorem putRing_doc (c : Nat) (r : Ring) : (putRing s c r).doc = s.doc := by unfold putRing; split <;> rfl
@[simp] theorem putRing_set (c : Nat) (r : Ring) : (putRing s c r).set = s.set := by unfold putRing; split <;> rfl
@[simp] theorem putRing_reserveFree (c : Nat) (r : Ring) : (putRing s c r).reserveFree = s.reserveFree := by unfold putRing; split <;> rfl
@[simp] theorem putRing_graphicFree (c : Nat) (r : Ring) : (putRing s c r).graphicFree = s.graphicFree := by unfold putRing; split <;> rfl
@[simp] theorem putRing_mem (c : Nat) (r : Ring) : (putRing s c r).mem = s.mem := by unfold putRing; split <;> rfl
@[simp] theorem putRing_bar2 (c : Nat) (r : Ring) : (putRing s c r).bar2 = s.bar2 := by unfold putRing; split <;> rfl
@[simp] theorem putRing_draws (c : Nat) (r : Ring) : (putRing s c r).draws = s.draws := by unfold putRing; split <;> rfl
@[simp] theorem putRing_pending (c : Nat) (r : Ring) : (putRing s c r).pending = s.pending := by unfold putRing; split <;> rfl
@[simp] theorem putTrapQueue_chip (g : Nat) (v : List Trapped) : (putTrapQueue s g v).chip = s.chip := rfl
@[simp] theorem putTrapQueue_cmd (g : Nat) (v : List Trapped) : (putTrapQueue s g v).cmd = s.cmd := rfl
@[simp] theorem putTrapQueue_mtx (g : Nat) (v : List Trapped) : (putTrapQueue s g v).mtx = s.mtx := rfl
@[simp] theorem putTrapQueue_fab (g : Nat) (v : List Trapped) : (putTrapQueue s g v).fab = s.fab := rfl
@[simp] theorem putTrapQueue_sdi (g : Nat) (v : List Trapped) : (putTrapQueue s g v).sdi = s.sdi := rfl
@[simp] theorem putTrapQueue_pkt_ports (g : Nat) (v : List Trapped) : (putTrapQueue s g v).pkt.ports = s.pkt.ports := rfl
@[simp] theorem putTrapQueue_pkt_rxFlows (g : Nat) (v : List Trapped) : (putTrapQueue s g v).pkt.rxFlows = s.pkt.rxFlows := rfl
@[simp] theorem putTrapQueue_pkt_txFlows (g : Nat) (v : List Trapped) : (putTrapQueue s g v).pkt.txFlows = s.pkt.txFlows := rfl
@[simp] theorem putTrapQueue_pkt_queues (g : Nat) (v : List Trapped) : (putTrapQueue s g v).pkt.queues = s.pkt.queues := rfl
@[simp] theorem putTrapQueue_pkt_pool (g : Nat) (v : List Trapped) : (putTrapQueue s g v).pkt.pool = s.pkt.pool := rfl
@[simp] theorem putTrapQueue_time (g : Nat) (v : List Trapped) : (putTrapQueue s g v).time = s.time := rfl
@[simp] theorem putTrapQueue_ref (g : Nat) (v : List Trapped) : (putTrapQueue s g v).ref = s.ref := rfl
@[simp] theorem putTrapQueue_aud (g : Nat) (v : List Trapped) : (putTrapQueue s g v).aud = s.aud := rfl
@[simp] theorem putTrapQueue_comp (g : Nat) (v : List Trapped) : (putTrapQueue s g v).comp = s.comp := rfl
@[simp] theorem putTrapQueue_eng (g : Nat) (v : List Trapped) : (putTrapQueue s g v).eng = s.eng := rfl
@[simp] theorem putTrapQueue_flt (g : Nat) (v : List Trapped) : (putTrapQueue s g v).flt = s.flt := rfl
@[simp] theorem putTrapQueue_led (g : Nat) (v : List Trapped) : (putTrapQueue s g v).led = s.led := rfl
@[simp] theorem putTrapQueue_cur (g : Nat) (v : List Trapped) : (putTrapQueue s g v).cur = s.cur := rfl
@[simp] theorem putTrapQueue_strong (g : Nat) (v : List Trapped) : (putTrapQueue s g v).strong = s.strong := rfl
@[simp] theorem putTrapQueue_store (g : Nat) (v : List Trapped) : (putTrapQueue s g v).store = s.store := rfl
@[simp] theorem putTrapQueue_twin (g : Nat) (v : List Trapped) : (putTrapQueue s g v).twin = s.twin := rfl
@[simp] theorem putTrapQueue_life (g : Nat) (v : List Trapped) : (putTrapQueue s g v).life = s.life := rfl
@[simp] theorem putTrapQueue_doc (g : Nat) (v : List Trapped) : (putTrapQueue s g v).doc = s.doc := rfl
@[simp] theorem putTrapQueue_set (g : Nat) (v : List Trapped) : (putTrapQueue s g v).set = s.set := rfl
@[simp] theorem putTrapQueue_reserveFree (g : Nat) (v : List Trapped) : (putTrapQueue s g v).reserveFree = s.reserveFree := rfl
@[simp] theorem putTrapQueue_graphicFree (g : Nat) (v : List Trapped) : (putTrapQueue s g v).graphicFree = s.graphicFree := rfl
@[simp] theorem putTrapQueue_mem (g : Nat) (v : List Trapped) : (putTrapQueue s g v).mem = s.mem := rfl
@[simp] theorem putTrapQueue_bar2 (g : Nat) (v : List Trapped) : (putTrapQueue s g v).bar2 = s.bar2 := rfl
@[simp] theorem putTrapQueue_draws (g : Nat) (v : List Trapped) : (putTrapQueue s g v).draws = s.draws := rfl
@[simp] theorem putTrapQueue_pending (g : Nat) (v : List Trapped) : (putTrapQueue s g v).pending = s.pending := rfl

end Sys2Proof.Machine
end

