-- ==== Sys2Proof/Laws/Faults.lean ====
section
/-! SUPPORT. Faults.lean: everything that a raise can do to the fault sources and to the interrupts. -/

namespace Sys2Proof.Machine

variable (s : State)

theorem sendVector_flt (v : Nat) : (sendVector v s).flt = s.flt := by unfold sendVector; split <;> rfl

@[simp] theorem raiseIrq_flt (e : Nat) : (raiseIrq e s).flt = s.flt := by
  unfold raiseIrq; split
  · rfl
  · dsimp only; split
    · rfl
    · rw [sendVector_flt]

@[simp] theorem faultIrqs_flt (n : Nat) : (faultIrqs n s).flt = s.flt := by
  unfold faultIrqs; split
  · rfl
  · split <;> simp

@[simp] theorem yieldRole_flt : (yieldRole s).flt = s.flt := by
  unfold yieldRole cancelSwap; split
  · dsimp only; split <;> rfl
  · rfl

theorem enterHold_sources (c : Nat) : (enterHold s c).flt.sources = s.flt.sources := by
  unfold enterHold; split <;> rfl

theorem faultOf_eq {s t : State} (h : s.flt.sources = t.flt.sources) (k : Nat) : faultOf s k = faultOf t k := by
  unfold faultOf; rw [h]

/-- A raise writes the record of its source and of no other (R425, R426). -/
theorem faultOf_raiseCore (id k : Nat) :
    faultOf (raiseCore id s) k = if id = k then raisedRecord s id else faultOf s k := by
  unfold raiseCore; dsimp only
  rw [faultOf_eq (t := putFault (if effectiveSeverity s id = 3 then enterHold s (faultClass id) else s) id (raisedRecord s id))
    (by simp), faultOf_putFault]
  split
  · rfl
  · apply faultOf_eq; split
    · exact enterHold_sources _ _
    · rfl

/-- A raised source is sticky. -/
theorem raiseCore_sticky (id : Nat) : (faultOf (raiseCore id s) id).sticky = true := by
  rw [faultOf_raiseCore, if_pos rfl]; rfl

/-- A noted source is sticky. -/
theorem note_sticky (c i : Nat) : (faultOf (note c i s) (faultId c 31 i)).sticky = true := raiseCore_sticky s _

theorem sendVector_irqStatus (v : Nat) : (sendVector v s).cmd.irqStatus = s.cmd.irqStatus := by
  unfold sendVector; split <;> rfl

/-- Raising an event sets its bit. -/
theorem raiseIrq_bit (e : Nat) (h : e < 32) : (raiseIrq e s).cmd.irqStatus.getLsbD e = true := by
  have bit : (s.cmd.irqStatus ||| (1#32 <<< e)).getLsbD e = true := by
    simp [h]
  unfold raiseIrq
  by_cases b : s.cmd.irqStatus.getLsbD e = true
  · rw [if_pos b]; exact b
  · rw [if_neg b]; dsimp only; split
    · exact bit
    · rw [sendVector_irqStatus]; exact bit

end Sys2Proof.Machine
end

