-- ==== Sys2Proof/Laws/Memory.lean ====
section
/-! SUPPORT. Memory.lean: every operation on the byte memories keeps their canonical form, and says which
bytes it leaves. -/

namespace Sys2Proof.Machine

variable {α : Type}

theorem tsorted_filter {lo : Nat} (f : Nat × α → Bool) (t : Tab α) (w : tsorted lo t = true) :
    tsorted lo (t.filter f) = true := by
  induction t generalizing lo with
  | nil => rfl
  | cons e t ih =>
    obtain ⟨i, v⟩ := e
    simp only [tsorted, Bool.and_eq_true, decide_eq_true_eq] at w
    by_cases h : f (i, v) = true
    · simp only [List.filter_cons_of_pos h, tsorted, Bool.and_eq_true, decide_eq_true_eq]
      exact ⟨w.1, ih w.2⟩
    · simp only [List.filter_cons_of_neg h]
      exact tsorted_weaken (Nat.le_succ_of_le w.1) (ih w.2)

theorem twf_filter [DecidableEq α] (d : Nat → α) (f : Nat × α → Bool) (t : Tab α) (w : twf d t = true) :
    twf d (t.filter f) = true := by
  simp only [twf, Bool.and_eq_true, List.all_eq_true] at w ⊢
  exact ⟨tsorted_filter f t w.1, fun e h => w.2 e (List.mem_of_mem_filter h)⟩

/-- What a table shows of a number that a filter by numbers keeps, or takes off. -/
theorem tfind_filter (f : Nat → Bool) (t : Tab α) (k : Nat) :
    tfind (t.filter (fun e => f e.1)) k = if f k then tfind t k else none := by
  induction t with
  | nil => simp [tfind]
  | cons e t ih =>
    obtain ⟨i, v⟩ := e
    by_cases h : f i = true
    · rw [List.filter_cons_of_pos (by simpa using h)]
      by_cases e : i = k
      · subst e; simp [tfind, h]
      · simp [tfind, e, ih]
    · rw [List.filter_cons_of_neg (by simpa using h), ih]
      by_cases e : i = k
      · subst e; simp [h]
      · simp [tfind, e]

/-- The wipe of Curator SRAM keeps the canonical form. -/
theorem memWf_wipeSram (m : List Host.Cell) (w : memWf m = true) : memWf (wipeSram m) = true :=
  twf_filter _ _ m w

/-- After the wipe Curator SRAM reads as zero, and every other byte as before (R419). -/
theorem mread_wipeSram (m : List Host.Cell) (a : Nat) :
    mread (wipeSram m) a = if sramBase ≤ a ∧ a < sramBase + sramSize then 0 else mread m a := by
  unfold mread tget wipeSram
  rw [tfind_filter (fun k => !decide (sramBase ≤ k ∧ k < sramBase + sramSize))]
  by_cases h : sramBase ≤ a ∧ a < sramBase + sramSize <;> simp [h, memDefault]

theorem memWf_putBusByte (a : Nat) (b : Byte) (s : State) (w : memWf s.mem = true) :
    memWf (putBusByte a b s).mem = true := by
  unfold putBusByte; split
  · exact w
  · split
    · exact w
    · split
      · exact w
      · exact memWf_mwrite _ _ _ w

@[simp] theorem putBusByte_bar2 (a : Nat) (b : Byte) (s : State) : (putBusByte a b s).bar2 = s.bar2 := by
  unfold putBusByte; split
  · rfl
  · split
    · rfl
    · split <;> rfl

theorem memWf_putBusBytes (bs : Bytes) (a : Nat) (s : State) (w : memWf s.mem = true) :
    memWf (putBusBytes a bs s).mem = true := by
  induction bs generalizing a s with
  | nil => exact w
  | cons b r ih => exact ih _ _ (memWf_putBusByte a b s w)

@[simp] theorem putBusBytes_bar2 (bs : Bytes) (a : Nat) (s : State) : (putBusBytes a bs s).bar2 = s.bar2 := by
  induction bs generalizing a s with
  | nil => rfl
  | cons b r ih => simp [putBusBytes, ih]

theorem useInversion_mem (id n : Nat) (s : State) : (useInversion id n s).mem = s.mem := by
  unfold useInversion; split <;> rfl

/-- A store through the bus matrix keeps the canonical form. -/
theorem memWf_storeMemory (a n : Nat) (v : Word) (s : State) (w : memWf s.mem = true) :
    memWf (storeMemory a n v s).mem = true := by
  unfold storeMemory; dsimp only; split
  · rw [useInversion_mem]; exact memWf_putBusBytes _ _ _ w
  · exact memWf_putBusBytes _ _ _ w

/-- Writing bytes one after the other keeps the canonical form. -/
theorem memWf_foldl (l : List Nat) (a : Nat → Nat) (b : Nat → Byte) (m : List Host.Cell) (w : memWf m = true) :
    memWf (l.foldl (fun m i => mwrite m (a i) (b i)) m) = true := by
  induction l generalizing m with
  | nil => exact w
  | cons i l ih => exact ih _ (memWf_mwrite _ _ _ w)

/-- One byte that a store writes to a memory that no unit shares reads back, and every other byte of memory reads as
before. -/
theorem busByte_putBusByte_plain (a c : Nat) (b : Byte) (s : State) (h : inAudio a = false) (l : inLinks a = false)
    (p : inPool a = false) : busByte (putBusByte a b s) c = if a = c then b else busByte s c := by
  unfold putBusByte
  simp only [h, l, p, Bool.false_eq_true, if_false, Bool.false_and]
  unfold busByte
  by_cases e : a = c
  · subst e; simp [h, l, p, mread_mwrite]
  · have hm : mread (mwrite s.mem a b) c = mread s.mem c := by rw [mread_mwrite, if_neg e]
    rw [if_neg e]
    simp only [memoryWord, linkRamWord, linkWord, queueDescriptor, cellByte, cellFrame, cellOwner, hm]
    rfl

end Sys2Proof.Machine
end

