-- ==== Sys2Proof/WellFormed.lean ====
section
/-! DEFINITION. WellFormed.lean: the bounds that the manual sets on a command's operands and that
the operands' types do not carry. -/

namespace Sys2Proof

/-- A packet's parameters are no longer than a packet can carry (R355). -/
def Packet.wf (p : Packet) : Bool := decide (p.params.length ≤ 32768)

/-- A block slot holds at most the line bits of one block (R52). -/
def RxSlot.wf (r : RxSlot) : Bool := decide (r.bits.length ≤ 8448)

/-- A received frame has a wire length of at least its contents (R185). -/
def RxFrame.wf (f : RxFrame) : Bool := decide (f.bytes.length ≤ f.wireLength)

/-- The PUF array gives 32 blocks, and the extractor a count for each (R446). -/
def BootObs.wf (o : BootObs) : Bool := decide (o.puf.length = 32 ∧ o.corrections.length = 32)

/-- Destinations of the video and ancillary matrices end at 2,303 (R15, R16). -/
def Matrix.hasDest (m : Matrix) (d : Nat) : Bool :=
  match m with
  | .video => decide (d < 2304)
  | .anc => decide (d < 2304)
  | .audio => decide (d < 32768)

/-- A command is well formed. -/
def Instr.wf : Instr → Bool
  | .sessionOpen p => p.wf
  | .sessionClose p => p.wf
  | .sessionReset p => p.wf
  | .restateBegin p => p.wf
  | .restateCommit p => p.wf
  | .ping p => p.wf
  | .identify p => p.wf
  | .takeVideo p => p.wf
  | .takeAudio p => p.wf
  | .takeAnc p => p.wf
  | .takeBundle p => p.wf
  | .hangAt p => p.wf
  | .unstage p => p.wf
  | .protectSet p => p.wf
  | .destConfig p => p.wf
  | .sourceConfig p => p.wf
  | .destLock p => p.wf
  | .hangRefConfig p => p.wf
  | .laneConfig p => p.wf
  | .laneBringup p => p.wf
  | .lanePrbs p => p.wf
  | .laneStatus p => p.wf
  | .laneEq p => p.wf
  | .fabricMap p => p.wf
  | .fabricPlanePair p => p.wf
  | .fabricStatus p => p.wf
  | .sdiInConfig p => p.wf
  | .sdiOutConfig p => p.wf
  | .framesyncConfig p => p.wf
  | .sdiStatus p => p.wf
  | .macConfig p => p.wf
  | .trapPatternSet p => p.wf
  | .flowRxAdd p => p.wf
  | .flowRxDel p => p.wf
  | .flowTxAdd p => p.wf
  | .flowTxDel p => p.wf
  | .queueConfig p => p.wf
  | .pausePolicy p => p.wf
  | .macCounters p => p.wf
  | .timeRead p => p.wf
  | .timeAdjust p => p.wf
  | .ptpPortConfig p => p.wf
  | .asymmetrySet p => p.wf
  | .pathStepAccept p => p.wf
  | .refConfig p => p.wf
  | .refStatus p => p.wf
  | .dpllConfig p => p.wf
  | .pulseConfig p => p.wf
  | .pulseRealign p => p.wf
  | .audioEmbedConfig p => p.wf
  | .audioDeembedConfig p => p.wf
  | .tdmPortConfig p => p.wf
  | .tdmStartGroup p => p.wf
  | .tdmSlotMask p => p.wf
  | .tdmRestart p => p.wf
  | .audioStatus p => p.wf
  | .headConfig p => p.wf
  | .layerConfig p => p.wf
  | .lutLoad p => p.wf
  | .flip p => p.wf
  | .flipGroup p => p.wf
  | .headStatus p => p.wf
  | .engineAssign p => p.wf
  | .engineParam p => p.wf
  | .displayListSubmit p => p.wf
  | .fenceQuery p => p.wf
  | .engineStatus p => p.wf
  | .faultRead p => p.wf
  | .faultAck p => p.wf
  | .faultSeveritySet p => p.wf
  | .faultForce p => p.wf
  | .checkInvert p => p.wf
  | .ledgerRead p => p.wf
  | .storeRead p => p.wf
  | .storeWrite p => p.wf
  | .imageBegin p => p.wf
  | .imageChunk p => p.wf
  | .imageStatus p => p.wf
  | .imageVerify p => p.wf
  | .activate p => p.wf
  | .confirmHealth p => p.wf
  | .settingsConfirm p => p.wf
  | .keySlotWrite p => p.wf
  | .keySlotStatus p => p.wf
  | .attest p => p.wf
  | .lifecycleAdvance p => p.wf
  | .twinPair p => p.wf
  | .twinRole p => p.wf
  | .twinStatus p => p.wf
  | .twinSwap p => p.wf
  | .countersRead p => p.wf
  | .probeRead p => p.wf
  | .tempRead p => p.wf
  | .docentEnable p => p.wf
  | .ringTailWrite _ _ l _ => l.all (fun h => h.body.wf)
  | .ringSizeWrite _ _ => true
  | .replyHeadWrite _ => true
  | .replyWrite => true
  | .sessionResetDoorbell _ => true
  | .irqStatusClear _ => true
  | .irqMaskWrite _ => true
  | .uptimeLoRead => true
  | .hangSnapCapture _ => true
  | .timeSnapCapture _ => true
  | .remap => true
  | .sysctlRestart => true
  | .wdogKick _ => true
  | .bmErrInfoClear _ => true
  | .bmErrCountRead _ => true
  | .registerWrite _ _ w _ => decide (w = 1 ∨ w = 2 ∨ w = 4 ∨ w = 8)
  | .powerOnReset => true
  | .rootLock => true
  | .deviceReset _ => true
  | .startPhaseAdvance o => o.wf
  | .pcieReset => true
  | .lockstepMismatch => true
  | .watchdogExpiry => true
  | .confirmTimeout => true
  | .commandServiceResumed => true
  | .slowRestart => true
  | .hangBoundary _ => true
  | .cutoff _ => true
  | .switchPoint m d => m.hasDest d.val
  | .presentationPoint _ => true
  | .flipPoint _ => true
  | .restateTimeout => true
  | .idleTimeout _ => true
  | .blockSlotTx _ _ => true
  | .fabricBlockRx _ r => r.wf
  | .retryTimeout _ => true
  | .huntTimeout _ => true
  | .fallbackStageTimer _ => true
  | .fabricSourceTimeout _ => true
  | .lanePllLoss _ _ => true
  | .cdrLock _ _ => true
  | .sdiSignalLoss _ _ => true
  | .sdiLineRx _ _ => true
  | .sdiFrameRx _ _ => true
  | .sdiOutputFrameStart _ _ _ _ => true
  | .portFrameRx _ f => f.wf
  | .pauseExpiry _ => true
  | .linkLoss _ _ => true
  | .legDown _ _ => true
  | .audioFlowSilence _ _ => true
  | .packetizerPacket _ _ => true
  | .heldPacketExpiry _ _ => true
  | .ctrlDropTimeout _ => true
  | .schedulerPick _ => true
  | .frameTxComplete _ => true
  | .headLate _ => true
  | .flushSweepComplete _ => true
  | .tripleApply => true
  | .ptpMeasurement _ => true
  | .portBecomesSlave _ _ => true
  | .refselAdopt _ => true
  | .activityLoss _ _ => true
  | .activityRegained _ => true
  | .frequencyGate rs _ => decide (rs.length = 7)
  | .loopLocked => true
  | .xoInLoss => true
  | .freqValidReturn => true
  | .refFpEdge _ _ => true
  | .refFpTimeout _ => true
  | .audioGridPeriod _ _ => true
  | .zcTimeout _ _ _ => true
  | .tdmPortStart _ => true
  | .engineInvocation _ _ => true
  | .kernelLoadComplete _ => true
  | .engineSwitch _ => true
  | .engineStop _ _ => true
  | .listCommandTimeout _ => true
  | .engineTakeover _ => true
  | .displayListRun _ => true
  | .fenceSignal _ => true
  | .faultRaise _ => true
  | .ledgerCheck => true
  | .eccUncorrected _ => true
  | .thermalThreshold _ _ => true
  | .railOutOfTolerance _ => true
  | .bankWriteComplete _ => true
  | .bitmapWriteTimer => true
  | .twinStateTx => true
  | .twinStateRx b => decide (b.length = 64)
  | .partnerLost => true
  | .twinCommandRx _ h => h.body.wf
  | .partnerFailoverN => true
  | .partnerHbLoss => true
  | .swapPoint => true
  | .docentHelp => true
  | .docentStatus => true
  | .docentFaults _ => true
  | .docentLedger => true
  | .docentLanes _ => true
  | .docentTime => true
  | .docentRef => true
  | .docentPeek _ => true
  | .docentPoke _ => true
  | .docentTraceOn => true
  | .docentTraceOff => true
  | .docentTraceDump _ => true
  | .docentReset => true
  | .extest => true
  | .idcode => true
  | .samplePreload => true
  | .clamp => true
  | .highz => true
  | .dbgAccess _ _ _ => true
  | .dbgUnlock => true
  | .bypass => true
  | .testLogicReset => true
  | .prbsCheckerRx _ _ => true
  | .adaptationFreeze _ => true
  | .xoInRestored => true
  | .lanePllLock _ _ => true
  | .pcieLinkUp => true
  | .twinReplyRx _ _ _ => true
  | .trapQueueService _ => true
  | .ptpMessageInterval _ _ => true
  | .docentCharacterRx _ => true
  | .docentOutputDrained => true

end Sys2Proof
end

