-- ==== Sys2Proof/Tests/Slice0.lean ====
section
/-! SUPPORT. Slice0.lean: small checks on fixed values: ill-formed commands that the checks refuse, values
that the manual works out, and for every statement states and operands that meet its hypotheses. -/

namespace Sys2Proof.Tests

open Sys2Proof Sys2Proof.Machine

set_option maxRecDepth 100000
set_option Elab.async false

/-! ## Ill-formed commands, one for each check of WellFormed -/

def emptyPacket : Packet := {
  endpoint := .pcie, ring := 0, version := 1, cls := 0, flags := 0, session := 0, seq := 0, target := 0, family := 0
  rsvd17 := 0, paramLength := 0, rsvd20 := 0, params := [], crc := 0 }

def longPacket : Packet := { emptyPacket with params := List.replicate 32769 0 }

theorem test_wf_packet : Instr.wf (.ping emptyPacket) = true ∧ Instr.wf (.ping longPacket) = false := by
  decide +kernel

theorem test_wf_published : Instr.wf (.ringTailWrite 0 0 [{ opcode := 6, body := longPacket }] false) = false := by
  decide +kernel

theorem test_wf_width : Instr.wf (.registerWrite 2 (.bar0 0) 3 0) = false ∧
    Instr.wf (.registerWrite 2 (.bar0 0) 4 0) = true := by decide

theorem test_wf_puf : Instr.wf (.startPhaseAdvance { puf := [], corrections := [], slot0Good := true, slot1Good := true
                                                     bankAKept := true, bankBKept := true, bankACmac := true
                                                     bankBCmac := true }) = false := by decide

theorem test_wf_matrix : Instr.wf (.switchPoint .video 2304) = false ∧ Instr.wf (.switchPoint .anc 2303) = true ∧
    Instr.wf (.switchPoint .audio 32767) = true := by decide

theorem test_wf_slot : Instr.wf (.fabricBlockRx 0 { comma := .plain, bits := List.replicate 8449 true }) = false := by
  decide +kernel

theorem test_wf_frame :
    Instr.wf (.portFrameRx 0 { bytes := [0, 0], wireLength := 1, fcsOk := true, errored := false,
                                fecCorrected := 0, fecUncorrected := 0 }) = false := by decide

theorem test_wf_readings : Instr.wf (.frequencyGate [none] 0) = false := by decide

theorem test_wf_twinState : Instr.wf (.twinStateRx [1]) = false := by decide

theorem test_wf_twinCommand : Instr.wf (.twinCommandRx 0 { opcode := 6, body := longPacket }) = false := by
  decide +kernel

/-! ## Values that the manual works out -/

/-- The check value of CRC-32C, over the nine bytes of "123456789". -/
theorem test_crc32c : crc32c [0x31, 0x32, 0x33, 0x34, 0x35, 0x36, 0x37, 0x38, 0x39] = 0xE3069283 := by decide +kernel

/-- R423: a source ID is class, location and index; 0x3BE4 is the test-root source of R450. -/
theorem test_sourceId : faultId 0x0E 31 4 = 0x3BE4 ∧ faultClass 0x3BE4 = 0x0E ∧ faultLoc 0x3BE4 = 31 := by decide

/-- The example of R523: PROVISIONED reads 0x0000_2001, FIELD_DEBUG after one entry 0x0000_1F06. -/
theorem test_lifecycle :
    lifecycleWord { State.reset with life := { State.reset.life with provisioned := true } } = 0x2001 ∧
    lifecycleWord { State.reset with
      life := { State.reset.life with provisioned := true, entries := 1, testRoot := true } } = 0x1F06 := by
  decide +kernel

/-! ## Packets and states that the witnesses share -/

/-- A packet with the CRC that its bytes need. -/
def sealed (o : OpSpec) (p : Packet) : Packet := { p with crc := crc32c (packetBody o.code p) }

/-- A good packet of session 1 in the ring of its opcode's class, with sequence 1. -/
def packetOf (o : OpSpec) (ps : Bytes) (target : Word := 0) (fam : Byte := 0) : Packet :=
  sealed o { emptyPacket with
    ring := Fin.ofNat 4 o.cls, cls := BitVec.ofNat 8 o.cls, session := 1, seq := 1, target := target, family := fam
    paramLength := BitVec.ofNat 16 ps.length, params := ps }

/-- The device in START_PHASE 6 with session 1 open and authenticated on the rings. -/
def ready : State := { State.reset with
  chip := { State.reset.chip with rootLocked := true, startPhase := 6, reserveReady := true, curatorServing := true
                                  dataPlaneReady := true, pcieLink := true }
  cmd := { State.reset.cmd with sessions := [(1, { isOpen := true, endpoint := .pcie, authenticated := true })] } }

/-- A lane set to a mode. -/
def laneMode (l m : Nat) (s : State) : State :=
  { s with set := { s.set with lanes := tset (fun _ => {}) s.set.lanes l { mode := m } } }

/-- Family 0 enabled. -/
def hanging (s : State) : State :=
  { s with set := { s.set with families := tset familyCfgDefault s.set.families 0 { enable := true, rate := 5 } } }

def sdiReady : State := laneMode 256 2 ready
def portReady : State := laneMode 256 3 ready
def hostTime : State := { ready with set := { ready.set with ptpDev := { ready.set.ptpDev with host := true } } }

def withTwin (t : Twin) (s : State) : State := { s with twin := t }
def withStore (t : Store) (s : State) : State := { s with store := t }

/-- Engine 0 runs a kernel. -/
def engineRuns (k : Nat) (s : State) : State :=
  putEngine s 0 { engineOf s 0 with state := .running, cfg := { kernel := k } }

/-- An image of one byte, complete, arrives for slot 1. -/
def receiving (st : Nat) : State :=
  withStore { State.reset.store with rx := some { slot := 1, state := st, size := 1, digest := 0, held := [0] } } ready

/-- A partner that is READY and STANDBY. -/
def partner : PartnerState := {
  letterB := true, active := false, flags := 1, laneCount := 1, count := 0, hangs := [], swapHang := 0, swapFamily := 0
  swapState := 0, twinSeq := 0, receivedAt := 0 }

def paired : State := withTwin { State.reset.twin with pair := .paired, partner := some partner } ready

/-- No packet waits unread in a ring. -/
def ringsEmpty (s : State) : Bool := (List.range 4).all (fun c => (ringOf s c).unread.isEmpty)

theorem unread_of (s : State) (h : ringsEmpty s = true) (c : Nat) : (ringOf s c).unread = [] := by
  simp only [ringsEmpty, List.all_eq_true, List.mem_range, List.isEmpty_iff] at h
  match c with
  | 0 => exact h 0 (by omega)
  | 1 => exact h 1 (by omega)
  | 2 => exact h 2 (by omega)
  | n + 3 => exact h 3 (by omega)

/-- `Runs`, evaluated. -/
def runs (o : OpSpec) (p : Packet) (s : State) : Bool :=
  serves o s && decide (frontGate o p (takeFromQueues { opcode := o.code, body := p } s) = .go (inStream o p))
    && decide (classCheck o p = none) && !busyNow o (takeFromQueues { opcode := o.code, body := p } s)
    && decide (opcodeChecks o p (taken o p s) = none)
    && decide ((streamOf (sessionOf s (sess p)) p.cls.toNat).owed = []) && ringsEmpty s

theorem runs_of {o : OpSpec} {p : Packet} {s : State} (h : runs o p s = true) : Runs o p s := by
  simp only [runs, Bool.and_eq_true, decide_eq_true_eq, Bool.not_eq_true'] at h
  obtain ⟨⟨⟨⟨⟨⟨a, b⟩, c⟩, d⟩, e⟩, f⟩, g⟩ := h
  exact ⟨a, b, c, d, e, f, unread_of s g⟩

/-! ## Every command that the host sends passes its checks somewhere -/

theorem test_runs_sessionOpen :
    Runs specSessionOpen (packetOf specSessionOpen (List.replicate 8 0)) ({ ready with cmd := { ready.cmd with sessions := [] } }) :=
  runs_of (by decide +kernel)

theorem test_runs_sessionClose : Runs specSessionClose (packetOf specSessionClose []) ready :=
  runs_of (by decide +kernel)

theorem test_runs_sessionReset : Runs specSessionReset (packetOf specSessionReset []) ready :=
  runs_of (by decide +kernel)

theorem test_runs_restateBegin : Runs specRestateBegin (packetOf specRestateBegin []) ready :=
  runs_of (by decide +kernel)

theorem test_runs_ping : Runs specPing (packetOf specPing []) ready :=
  runs_of (by decide +kernel)

theorem test_runs_identify : Runs specIdentify (packetOf specIdentify []) ready :=
  runs_of (by decide +kernel)

theorem test_runs_takeVideo :
    Runs specTakeVideo (packetOf specTakeVideo ([1] ++ List.replicate 11 0)) (hanging ready) :=
  runs_of (by decide +kernel)

theorem test_runs_takeAudio :
    Runs specTakeAudio (packetOf specTakeAudio ([1] ++ List.replicate 11 0)) (hanging ready) :=
  runs_of (by decide +kernel)

theorem test_runs_takeAnc : Runs specTakeAnc (packetOf specTakeAnc ([1] ++ List.replicate 11 0)) (hanging ready) :=
  runs_of (by decide +kernel)

theorem test_runs_takeBundle :
    Runs specTakeBundle (packetOf specTakeBundle ([1] ++ List.replicate 7 0 ++ [1] ++ List.replicate 7 0)) (hanging ready) :=
  runs_of (by decide +kernel)

theorem test_runs_hangAt : Runs specHangAt (packetOf specHangAt [0, 0, 0, 0]) ready :=
  runs_of (by decide +kernel)

theorem test_runs_unstage : Runs specUnstage (packetOf specUnstage (List.replicate 12 0)) ready :=
  runs_of (by decide +kernel)

theorem test_runs_protectSet :
    Runs specProtectSet (packetOf specProtectSet ([1, 0, 0, 0, 1] ++ List.replicate 11 0)) (hanging ready) :=
  runs_of (by decide +kernel)

theorem test_runs_destConfig : Runs specDestConfig (packetOf specDestConfig (List.replicate 16 0)) ready :=
  runs_of (by decide +kernel)

theorem test_runs_sourceConfig : Runs specSourceConfig (packetOf specSourceConfig (List.replicate 12 0)) ready :=
  runs_of (by decide +kernel)

theorem test_runs_destLock : Runs specDestLock (packetOf specDestLock [0, 0, 0, 0]) ready :=
  runs_of (by decide +kernel)

theorem test_runs_hangRefConfig : Runs specHangRefConfig (packetOf specHangRefConfig (List.replicate 8 0)) ready :=
  runs_of (by decide +kernel)

theorem test_runs_laneConfig : Runs specLaneConfig (packetOf specLaneConfig (List.replicate 8 0)) ready :=
  runs_of (by decide +kernel)

theorem test_runs_laneBringup : Runs specLaneBringup (packetOf specLaneBringup [0, 0, 0, 0]) ready :=
  runs_of (by decide +kernel)

theorem test_runs_lanePrbs :
    Runs specLanePrbs (packetOf specLanePrbs (List.replicate 8 0)) (putLane ready 0 { state := .test }) :=
  runs_of (by decide +kernel)

theorem test_runs_laneStatus :
    Runs specLaneStatus (packetOf specLaneStatus ([0, 0, 1] ++ List.replicate 5 0)) ready :=
  runs_of (by decide +kernel)

theorem test_runs_laneEq : Runs specLaneEq (packetOf specLaneEq (List.replicate 12 0)) ready :=
  runs_of (by decide +kernel)

theorem test_runs_fabricMap : Runs specFabricMap (packetOf specFabricMap [0, 0, 0, 0]) ready :=
  runs_of (by decide +kernel)

theorem test_runs_fabricPlanePair :
    Runs specFabricPlanePair (packetOf specFabricPlanePair [0, 0, 0, 1]) (laneMode 0 1 (laneMode 1 1 ready)) :=
  runs_of (by decide +kernel)

theorem test_runs_fabricStatus :
    Runs specFabricStatus (packetOf specFabricStatus ([0, 0, 1] ++ List.replicate 5 0)) ready :=
  runs_of (by decide +kernel)

theorem test_runs_sdiInConfig : Runs specSdiInConfig (packetOf specSdiInConfig [0, 1, 0, 0, 1, 0, 0, 0]) sdiReady :=
  runs_of (by decide +kernel)

theorem test_runs_sdiOutConfig :
    Runs specSdiOutConfig (packetOf specSdiOutConfig [0, 1, 255, 16, 0, 1, 0, 0]) sdiReady :=
  runs_of (by decide +kernel)

theorem test_runs_framesyncConfig : Runs specFramesyncConfig (packetOf specFramesyncConfig [0, 0, 0, 0]) sdiReady :=
  runs_of (by decide +kernel)

theorem test_runs_sdiStatus : Runs specSdiStatus (packetOf specSdiStatus ([0, 0, 1] ++ List.replicate 5 0)) ready :=
  runs_of (by decide +kernel)

theorem test_runs_macConfig :
    Runs specMacConfig (packetOf specMacConfig ([0, 1] ++ List.replicate 6 0 ++ [2, 0, 0, 0, 0, 1] ++ List.replicate 54 0)) portReady :=
  runs_of (by decide +kernel)

theorem test_runs_trapPatternSet :
    Runs specTrapPatternSet (packetOf specTrapPatternSet (List.replicate 24 0)) portReady :=
  runs_of (by decide +kernel)

theorem test_runs_flowRxAdd :
    Runs specFlowRxAdd (packetOf specFlowRxAdd ([0, 0, 2] ++ List.replicate 6 0 ++ [96] ++ List.replicate 8 0 ++ [1] ++ List.replicate 5 0 ++ [4, 0, 140, 19, 239, 0, 0, 1] ++ List.replicate 28 0)) portReady :=
  runs_of (by decide +kernel)

theorem test_runs_flowRxDel :
    Runs specFlowRxDel (packetOf specFlowRxDel [0, 0, 0, 0]) (putRxFlow ready 0 (readRxFlow (packetOf specFlowRxAdd ([0, 0, 2] ++ List.replicate 6 0 ++ [96] ++ List.replicate 8 0 ++ [1] ++ List.replicate 5 0 ++ [4, 0, 140, 19, 239, 0, 0, 1] ++ List.replicate 28 0)))) :=
  runs_of (by decide +kernel)

theorem test_runs_flowTxAdd :
    Runs specFlowTxAdd (packetOf specFlowTxAdd ([0, 0, 2] ++ List.replicate 13 0 ++ [4, 0, 0, 0, 54] ++ List.replicate 15 0 ++ [8, 0, 69] ++ List.replicate 8 0 ++ [17] ++ List.replicate 32 0)) (putQueue (laneMode 256 3 ready) 4 { cfg := { enable := true } }) :=
  runs_of (by decide +kernel)

theorem test_runs_flowTxDel :
    Runs specFlowTxDel (packetOf specFlowTxDel [0, 0, 0, 0]) (putTxFlow ready 0 (readTxFlow (packetOf specFlowTxAdd ([0, 0, 2] ++ List.replicate 13 0 ++ [4, 0, 0, 0, 54] ++ List.replicate 15 0 ++ [8, 0, 69] ++ List.replicate 8 0 ++ [17] ++ List.replicate 32 0)))) :=
  runs_of (by decide +kernel)

theorem test_runs_queueConfig :
    Runs specQueueConfig (packetOf specQueueConfig ([4, 0, 1] ++ List.replicate 10 0 ++ [4] ++ List.replicate 7 0 ++ [64, 0, 0, 100, 0, 0, 0])) portReady :=
  runs_of (by decide +kernel)

theorem test_runs_pausePolicy : Runs specPausePolicy (packetOf specPausePolicy [0, 0, 0, 0]) portReady :=
  runs_of (by decide +kernel)

theorem test_runs_macCounters :
    Runs specMacCounters (packetOf specMacCounters ([0, 0, 1] ++ List.replicate 5 0)) ready :=
  runs_of (by decide +kernel)

theorem test_runs_timeRead : Runs specTimeRead (packetOf specTimeRead ([0, 0, 1] ++ List.replicate 5 0)) ready :=
  runs_of (by decide +kernel)

theorem test_runs_timeAdjust : Runs specTimeAdjust (packetOf specTimeAdjust (List.replicate 48 0)) hostTime :=
  runs_of (by decide +kernel)

theorem test_runs_ptpPortConfig : Runs specPtpPortConfig (packetOf specPtpPortConfig (List.replicate 20 0)) ready :=
  runs_of (by decide +kernel)

theorem test_runs_asymmetrySet : Runs specAsymmetrySet (packetOf specAsymmetrySet (List.replicate 12 0)) ready :=
  runs_of (by decide +kernel)

theorem test_runs_pathStepAccept : Runs specPathStepAccept (packetOf specPathStepAccept [0, 0, 0, 0]) ready :=
  runs_of (by decide +kernel)

theorem test_runs_refConfig :
    Runs specRefConfig (packetOf specRefConfig ([0, 1, 255, 0, 128, 150, 152] ++ List.replicate 5 0 ++ [1] ++ List.replicate 13 0 ++ [1, 0])) ready :=
  runs_of (by decide +kernel)

theorem test_runs_refStatus : Runs specRefStatus (packetOf specRefStatus (List.replicate 8 0)) ready :=
  runs_of (by decide +kernel)

theorem test_runs_dpllConfig : Runs specDpllConfig (packetOf specDpllConfig [0, 0, 0, 0]) ready :=
  runs_of (by decide +kernel)

theorem test_runs_pulseConfig : Runs specPulseConfig (packetOf specPulseConfig (List.replicate 16 0)) ready :=
  runs_of (by decide +kernel)

theorem test_runs_pulseRealign :
    Runs specPulseRealign (packetOf specPulseRealign [0, 0, 0, 0]) (hanging { ready with time := { ready.time with timeSet := true } }) :=
  runs_of (by decide +kernel)

theorem test_runs_audioEmbedConfig : Runs specEmbed (packetOf specEmbed (List.replicate 8 0)) sdiReady :=
  runs_of (by decide +kernel)

theorem test_runs_audioDeembedConfig : Runs specDeembed (packetOf specDeembed [0, 0, 0, 0]) sdiReady :=
  runs_of (by decide +kernel)

theorem test_runs_tdmPortConfig : Runs specTdmPort (packetOf specTdmPort (List.replicate 12 0)) ready :=
  runs_of (by decide +kernel)

theorem test_runs_tdmStartGroup : Runs specGroup (packetOf specGroup [0, 0, 0, 0]) ready :=
  runs_of (by decide +kernel)

theorem test_runs_tdmSlotMask : Runs specSlotMask (packetOf specSlotMask (List.replicate 12 0)) ready :=
  runs_of (by decide +kernel)

theorem test_runs_tdmRestart :
    Runs specRestart (packetOf specRestart [0, 0, 0, 0]) (putTdm ready 0 { state := .running }) :=
  runs_of (by decide +kernel)

theorem test_runs_audioStatus :
    Runs specAudioStatus (packetOf specAudioStatus ([0, 0, 1] ++ List.replicate 5 0)) ready :=
  runs_of (by decide +kernel)

theorem test_runs_headConfig : Runs specHeadConfig (packetOf specHeadConfig (List.replicate 16 0)) ready :=
  runs_of (by decide +kernel)

theorem test_runs_layerConfig :
    Runs specLayerConfig (packetOf specLayerConfig (List.replicate 41 0 ++ [255] ++ List.replicate 10 0)) ready :=
  runs_of (by decide +kernel)

theorem test_runs_lutLoad : Runs specLutLoad (packetOf specLutLoad ([0, 16] ++ List.replicate 20 0)) ready :=
  runs_of (by decide +kernel)

theorem test_runs_flip : Runs specFlip (packetOf specFlip ([0, 12] ++ List.replicate 6 0)) (hanging ready) :=
  runs_of (by decide +kernel)

theorem test_runs_flipGroup :
    Runs specFlipGroup (packetOf specFlipGroup ([1, 0, 0, 0, 0, 12] ++ List.replicate 6 0)) (hanging ready) :=
  runs_of (by decide +kernel)

theorem test_runs_headStatus :
    Runs specHeadStatus (packetOf specHeadStatus ([0, 0, 1] ++ List.replicate 5 0)) ready :=
  runs_of (by decide +kernel)

theorem test_runs_engineAssign : Runs specAssign (packetOf specAssign [0, 1, 0, 255, 0, 0, 0, 0]) ready :=
  runs_of (by decide +kernel)

theorem test_runs_engineParam :
    Runs specParam (packetOf specParam ([0, 0, 0, 0, 1] ++ List.replicate 7 0)) (engineRuns 6 ready) :=
  runs_of (by decide +kernel)

theorem test_runs_displayListSubmit :
    Runs specSubmit (packetOf specSubmit ([0, 0, 0, 0, 1] ++ List.replicate 11 0 ++ [6, 1, 0, 0])) (putGraphicLayer (engineRuns 1 ready) 0 12 { cfg := { z := 12 }, space := some (0, 0) }) :=
  runs_of (by decide +kernel)

theorem test_runs_fenceQuery : Runs specQuery (packetOf specQuery ([1] ++ List.replicate 7 0)) ready :=
  runs_of (by decide +kernel)

theorem test_runs_engineStatus :
    Runs specEngineStatus (packetOf specEngineStatus ([0, 0, 1] ++ List.replicate 5 0)) ready :=
  runs_of (by decide +kernel)

theorem test_runs_faultRead : Runs specFaultRead (packetOf specFaultRead [0, 0, 0, 0]) ready :=
  runs_of (by decide +kernel)

theorem test_runs_faultAck : Runs specFaultAck (packetOf specFaultAck ([1] ++ List.replicate 5 0)) ready :=
  runs_of (by decide +kernel)

theorem test_runs_faultSeveritySet : Runs specSeverity (packetOf specSeverity [0, 4, 2, 0]) ready :=
  runs_of (by decide +kernel)

theorem test_runs_faultForce : Runs specForce (packetOf specForce [0, 4, 0, 0]) ready :=
  runs_of (by decide +kernel)

theorem test_runs_checkInvert : Runs specInvert (packetOf specInvert [0, 48, 1, 0]) ready :=
  runs_of (by decide +kernel)

theorem test_runs_ledgerRead : Runs specLedgerRead (packetOf specLedgerRead []) ready :=
  runs_of (by decide +kernel)

theorem test_runs_storeRead : Runs specStoreRead (packetOf specStoreRead []) ready :=
  runs_of (by decide +kernel)

theorem test_runs_storeWrite : Runs specStoreWrite (packetOf specStoreWrite [0, 0, 0, 0]) ready :=
  runs_of (by decide +kernel)

theorem test_runs_imageBegin : Runs specImageBegin (packetOf specImageBegin ([1] ++ List.replicate 55 0)) ready :=
  runs_of (by decide +kernel)

theorem test_runs_imageChunk : Runs specImageChunk (packetOf specImageChunk (List.replicate 9 0)) (receiving 1) :=
  runs_of (by decide +kernel)

theorem test_runs_imageStatus : Runs specImageStatus (packetOf specImageStatus [0, 0, 0, 0]) ready :=
  runs_of (by decide +kernel)

theorem test_runs_imageVerify : Runs specImageVerify (packetOf specImageVerify []) (receiving 2) :=
  runs_of (by decide +kernel)

theorem test_runs_activate : Runs specActivate (packetOf specActivate [0, 0, 0, 0]) (receiving 3) :=
  runs_of (by decide +kernel)

theorem test_runs_confirmHealth :
    Runs specConfirmHealth (packetOf specConfirmHealth []) (withStore { State.reset.store with trial := true, switched := true } ready) :=
  runs_of (by decide +kernel)

theorem test_runs_settingsConfirm :
    Runs specSettingsConfirm (packetOf specSettingsConfirm []) (withStore { State.reset.store with noBank := false, bankA := some { seq := 1, heldFormat := 1 } } ready) :=
  runs_of (by decide +kernel)

theorem test_runs_keySlotStatus : Runs specKeySlotStatus (packetOf specKeySlotStatus []) ready :=
  runs_of (by decide +kernel)

theorem test_runs_attest : Runs specAttest (packetOf specAttest (List.replicate 32 0)) ready :=
  runs_of (by decide +kernel)

theorem test_runs_lifecycleAdvance :
    Runs specLifecycle (packetOf specLifecycle [3, 0, 0, 0, 54, 21, 86, 122]) ready :=
  runs_of (by decide +kernel)

theorem test_runs_twinPair : Runs specTwinPair (packetOf specTwinPair (List.replicate 12 0)) ready :=
  runs_of (by decide +kernel)

theorem test_runs_twinRole : Runs specTwinRole (packetOf specTwinRole [0, 0, 0, 0]) paired :=
  runs_of (by decide +kernel)

theorem test_runs_twinStatus : Runs specTwinStatus (packetOf specTwinStatus (List.replicate 8 0)) ready :=
  runs_of (by decide +kernel)

theorem test_runs_twinSwap : Runs specTwinSwap (packetOf specTwinSwap []) (hanging paired) :=
  runs_of (by decide +kernel)

theorem test_runs_countersRead :
    Runs specCountersRead (packetOf specCountersRead (List.replicate 5 0 ++ [4, 0, 0])) ready :=
  runs_of (by decide +kernel)

theorem test_runs_probeRead : Runs specProbeRead (packetOf specProbeRead [0, 0, 0, 0]) (engineRuns 5 ready) :=
  runs_of (by decide +kernel)

theorem test_runs_tempRead : Runs specTempRead (packetOf specTempRead []) ready :=
  runs_of (by decide +kernel)

theorem test_runs_docentEnable : Runs specDocentEnable (packetOf specDocentEnable [1, 0, 0, 0, 0, 194, 1, 0]) ready :=
  runs_of (by decide +kernel)


/-! ## The hypotheses of the statements, clause by clause, met by fixed states and operands

A clause whose only hypothesis is that its command runs is met by the theorem above for that command. Hypotheses that
rest on an opaque value of Config (a signature, a MAC, a key unwrapped) stand as the hypotheses of their theorems. -/

theorem runs_and {o : OpSpec} {p : Packet} {s : State} {q : Prop} (h : runs o p s = true ∧ q) : Runs o p s ∧ q :=
  ⟨runs_of h.1, h.2⟩

/-- Not a packet that the twin has forwarded. -/
def notTwin (p : Packet) : Bool := match p.endpoint with | .twin _ => false | _ => true

theorem arrives_of {i : Instr} {o : OpSpec} {p : Packet} {s : State} (a : hostCommand i = some (o, p))
    (b : (serves o s && ringsEmpty s && notTwin p) = true) : Arrives i o p s := by
  rw [Bool.and_eq_true, Bool.and_eq_true] at b
  refine ⟨a, fun q h => ?_, b.1.1, unread_of s b.1.2⟩
  have c := b.2
  rw [notTwin, h] at c
  cases c

theorem arrives_and {i : Instr} {o : OpSpec} {p : Packet} {s : State} {q : Prop} (a : hostCommand i = some (o, p))
    (b : (serves o s && ringsEmpty s && notTwin p) = true ∧ q) : Arrives i o p s ∧ q := ⟨arrives_of a b.1, b.2⟩

theorem test_FrontCommandRuns :
    { ready with pending := [.remap] }.pending = [.remap] ∧ ready.pending = [] ∧ ready.chip.rootLocked = true ∧
    State.reset.pending = [] ∧ State.reset.chip.rootLocked = false := by decide +kernel

/-- Also for FusesOnlyBurn, with every fuse burnt. -/
theorem test_StepTakesOnlyTheFront :
    let s := { ready with life := { ready.life with provisioned := true, retired := true } }
    (∃ t, Machine.step { s with pending := [.remap, .idcode] } = .next t) ∧ s.life.provisioned = true ∧
      s.life.retired = true := ⟨⟨_, rfl⟩, rfl, rfl⟩

theorem test_MemoryKeepsCanonicalForm :
    memWf (mwrite (mwrite ready.mem 5 1) 4 2) = true ∧ memWf (mwrite ready.bar2 0 7) = true ∧
    (∃ t, Machine.step { ready with mem := [(4, 2), (5, 1)], bar2 := [(0, 7)] } = .next t) :=
  ⟨by decide +kernel, by decide +kernel, _, rfl⟩

/-! ### The front desk -/

def closePacket : Packet := packetOf specSessionClose []

theorem test_EarlyChecks_form :
    let bad : Packet := { closePacket with crc := 0 }
    let short : Packet := sealed specSessionClose { closePacket with paramLength := 1 }
    let long : Packet := packetOf specSessionClose [0]
    (Arrives (.sessionClose bad) specSessionClose bad ready ∧ crc32c (packetBody specSessionClose.code bad) ≠ bad.crc) ∧
    (Arrives (.sessionClose short) specSessionClose short ready ∧
      crc32c (packetBody specSessionClose.code short) = short.crc ∧ short.params.length ≠ short.paramLength.toNat) ∧
    (Arrives (.sessionClose long) specSessionClose long ready ∧
      crc32c (packetBody specSessionClose.code long) = long.crc ∧ long.params.length = long.paramLength.toNat ∧
      specSessionClose.lengthOk long = false) ∧
    (∀ q ∈ [{ closePacket with version := 2 }, { closePacket with flags := 4 }, { closePacket with rsvd17 := 1 },
        { closePacket with rsvd20 := 1 }].map (sealed specSessionClose),
      Arrives (.sessionClose q) specSessionClose q ready ∧
      crc32c (packetBody specSessionClose.code q) = q.crc ∧ q.params.length = q.paramLength.toNat ∧
      specSessionClose.lengthOk q = true ∧
      (q.version ≠ 1 ∨ q.flags &&& 0xFFFC ≠ 0 ∨ q.rsvd17 ≠ 0 ∨ q.rsvd20 ≠ 0)) := by
  refine ⟨arrives_and rfl (by decide +kernel), arrives_and rfl (by decide +kernel),
    arrives_and rfl (by decide +kernel), fun q h => arrives_and rfl ?_⟩
  revert q
  decide +kernel

theorem test_EarlyChecks_session :
    (∀ q ∈ [{ closePacket with session := 0 }, { closePacket with session := 2 }, { closePacket with session := 17 },
        { closePacket with endpoint := .udp 0 0 0 none 0 }].map (sealed specSessionClose),
      Arrives (.sessionClose q) specSessionClose q ready ∧ formChecks specSessionClose q = none ∧
      specSessionClose.rule = .bound ∧ (sess q = 0 ∨ 16 < sess q ∨ (sessionOf ready (sess q)).isOpen = false
        ∨ (sessionOf ready (sess q)).endpoint ≠ q.endpoint)) ∧
    (∀ q ∈ [{ closePacket with seq := 2 }, { closePacket with seq := 0xFFFFFFF0 }].map (sealed specSessionClose),
      Arrives (.sessionClose q) specSessionClose q ready ∧ formChecks specSessionClose q = none ∧
      specSessionClose.rule ≠ .names ∧ 1 ≤ sess q ∧ sess q ≤ 16 ∧ (sessionOf ready (sess q)).isOpen = true ∧
      (sessionOf ready (sess q)).endpoint = q.endpoint ∧ q.cls.toNat ≤ 3 ∧
      16 < (expectedSeq q ready - q.seq).toNat ∧
      standingBusy ready (streamOf (sessionOf ready (sess q)) q.cls.toNat) = none) := by
  constructor <;> refine fun q h => arrives_and rfl ?_ <;> revert q <;> decide +kernel

/-- Session 1 open, but not authenticated. -/
def unauthenticated : State :=
  { ready with cmd := { ready.cmd with sessions := [(1, { isOpen := true, endpoint := .pcie })] } }

theorem test_LaterChecks :
    let later := fun (o : OpSpec) (p : Packet) (s : State) =>
      frontGate o p s = .go (inStream o p) ∧ (streamOf (sessionOf s (sess p)) p.cls.toNat).owed = []
    let cls : Packet := sealed specSessionClose { closePacket with cls := 2 }
    let ring : Packet := sealed specSessionClose { closePacket with ring := 2 }
    let life := packetOf specLifecycle ([3, 0, 0, 0] ++ leBytes 4 0x7A561536)
    let held := { ready with flt := { ready.flt with hold := [1] } }
    let lock := packetOf specDestLock [0, 9, 0, 1]
    let retired := { ready with life := { ready.life with retired := true } }
    let slot := packetOf specKeySlot (List.replicate 8 0)
    (Arrives (.sessionClose cls) specSessionClose cls ready ∧ later specSessionClose cls ready ∧
      cls.cls.toNat ≠ specSessionClose.cls) ∧
    (Arrives (.sessionClose ring) specSessionClose ring ready ∧ later specSessionClose ring ready ∧
      ring.cls.toNat = specSessionClose.cls ∧ ring.endpoint = .pcie ∧ ring.ring.val ≠ specSessionClose.cls) ∧
    (Arrives (.lifecycleAdvance life) specLifecycle life unauthenticated ∧ later specLifecycle life unauthenticated ∧
      classCheck specLifecycle life = none ∧
      busyNow specLifecycle (takeFromQueues { opcode := specLifecycle.code, body := life } unauthenticated) = false ∧
      specLifecycle.auth = true ∧ (sessionOf unauthenticated (sess life)).authenticated = false) ∧
    (Arrives (.sessionClose closePacket) specSessionClose closePacket held ∧ later specSessionClose closePacket held ∧
      classCheck specSessionClose closePacket = none ∧ inHold held = true ∧
      holdAllows specSessionClose.code.toNat = false) ∧
    (Arrives (.keySlotWrite slot) specKeySlot slot retired ∧ later specKeySlot slot retired ∧
      specKeySlot.lockedOut slot (taken specKeySlot slot retired) = true) ∧
    (Arrives (.destLock lock) specDestLock lock ready ∧ later specDestLock lock ready ∧
      specDestLock.lockedOut lock (taken specDestLock lock ready) = false ∧ mirrorCheck specDestLock lock = none ∧
      (specDestLock.checks lock (taken specDestLock lock ready)).isSome = true) := by
  refine ⟨arrives_and rfl (by decide +kernel), arrives_and rfl (by decide +kernel), arrives_and rfl (by decide +kernel),
    arrives_and rfl (by decide +kernel), arrives_and rfl (by decide +kernel), arrives_and rfl (by decide +kernel)⟩

/-- Session 1 expects a sequence in its CONTROL stream, with a cached reply of sequence 1. -/
def expecting (n : Word) : State :=
  let x : Session := { isOpen := true, endpoint := .pcie, authenticated := true }
  let t : Stream := { expected := n, cache := [replyHeader specSessionClose.code closePacket] }
  { ready with cmd := { ready.cmd with sessions := [(1, { x with control := t })] } }

theorem test_DuplicateIsReplayed :
    let last : Packet := sealed specSessionClose { closePacket with seq := 2 }
    (Arrives (.sessionClose closePacket) specSessionClose closePacket (expecting 17) ∧
      formChecks specSessionClose closePacket = none ∧ specSessionClose.rule ≠ .names ∧
      (sessionOf (expecting 17) (sess closePacket)).isOpen = true ∧ closePacket.cls.toNat ≤ 3 ∧
      (expectedSeq closePacket (expecting 17) - closePacket.seq).toNat = 16 ∧
      (cachedReply (streamOf (sessionOf (expecting 17) (sess closePacket)) closePacket.cls.toNat)
        closePacket.seq).isSome = true) ∧
    (Arrives (.sessionClose last) specSessionClose last (expecting 3) ∧ formChecks specSessionClose last = none ∧
      (expectedSeq last (expecting 3) - last.seq).toNat = 1 ∧
      cachedReply (streamOf (sessionOf (expecting 3) (sess last)) last.cls.toNat) last.seq = none) := by
  exact ⟨arrives_and rfl (by decide +kernel), arrives_and rfl (by decide +kernel)⟩

theorem test_FullWorkQueue :
    let diag : HostPacket := { opcode := 0xE001, body := { emptyPacket with cls := 3 } }
    let waits := fun (n : Nat) => { ready with cmd := { ready.cmd with workQueue := List.replicate n diag } }
    let p := packetOf specStoreRead []
    let q := packetOf specLedgerRead []
    let stopped := { ready with chip := { ready.chip with curatorServing := false, dataPlaneReady := false } }
    (Arrives (.storeRead p) specStoreRead p (waits 49) ∧ frontGate specStoreRead p (waits 49) = .go true ∧
      classCheck specStoreRead p = none ∧ specStoreRead.cls = 2 ∧
      48 < (takeFromQueues { opcode := specStoreRead.code, body := p } (waits 49)).cmd.workQueue.length) ∧
    (Arrives (.ledgerRead q) specLedgerRead q (waits 8) ∧ frontGate specLedgerRead q (waits 8) = .go true ∧
      classCheck specLedgerRead q = none ∧ specLedgerRead.cls = 3 ∧
      overLimit specLedgerRead (takeFromQueues { opcode := specLedgerRead.code, body := q } (waits 8)) = true) ∧
    specTakeVideo.cls = 0 ∧ specPing.cls ≠ 0 ∧ stopped.chip.dataPlaneReady = false ∧
      stopped.chip.curatorServing = false :=
  ⟨arrives_and rfl (by decide +kernel), arrives_and rfl (by decide +kernel), by decide +kernel⟩

/-! ### Keys: what rests on opaque values of Config -/

/-- The device under the test root, with one slot, 1, in the debug store. -/
def testRooted (slots : Tab KeySlot) : State :=
  { ready with
    strong := { ready.strong with root := .test 0 }
    store := { ready.store with debugA := some { seq := 1, keySlots := some slots } } }

/-- Slot 1 holds a key with use WRAP and its tag. -/
def wrapSlot : KeySlot :=
  let k : KeySlot := { policy := 4, wrapped := [], tag := 0 }
  { k with tag := Config.cmac (Config.kdf 0 "SLOT-TAG") (slotBytes 1 k) }

theorem wrapSlot_valid (key : Bytes) (h : Config.keyUnwrap (Config.kdf 0 "SLOT-WRAP") [] = some key) (s : State)
    (a : rootKey s = some 0) (b : tfind (slotRecords s) 1 = some wrapSlot) : inspectSlot s 1 = (.valid, 4, key) := by
  unfold inspectSlot
  rw [a, b]
  have t : Config.cmac (Config.kdf 0 "SLOT-TAG") (slotBytes 1 wrapSlot) = wrapSlot.tag := rfl
  have u : Config.keyUnwrap (Config.kdf 0 "SLOT-WRAP") wrapSlot.wrapped = some key := h
  simp only [t, u, if_true]
  rfl

/-- Where some key unwraps, a slot can be cleared. -/
theorem test_runs_keySlotWrite (key : Bytes) (h : Config.keyUnwrap (Config.kdf 0 "SLOT-WRAP") [] = some key) :
    Runs specKeySlot (packetOf specKeySlot ([2] ++ List.replicate 7 0)) (testRooted [(1, wrapSlot)]) := by
  refine ⟨by decide +kernel, by decide +kernel, by decide +kernel, by decide +kernel, ?_, by decide +kernel,
    unread_of _ (by decide +kernel)⟩
  generalize hs : taken specKeySlot _ _ = s
  have a : rootKey s = some 0 := by rw [← hs]; rfl
  have b : inspectSlot s 1 = (.valid, 4, key) := wrapSlot_valid key h s a (by rw [← hs]; rfl)
  have c : inspectSlot s 0 = (.valid, 1, debugKey s) := by rw [← hs]; rfl
  have d : (List.range 32).any (slotWritten s (packetOf specKeySlot ([2] ++ List.replicate 7 0)) hasSession) = true :=
    List.any_eq_true.2 ⟨0, by decide, by
      unfold slotWritten
      rw [if_neg (by decide +kernel), c]
      simp [hasSession]⟩
  have e : (List.range 32).any (slotWritten s (packetOf specKeySlot ([2] ++ List.replicate 7 0)) hasWrap) = true :=
    List.any_eq_true.2 ⟨1, by decide, by
      unfold slotWritten
      rw [if_neg (by decide +kernel), b]
      simp [hasWrap]⟩
  have f : specKeySlot.checks (packetOf specKeySlot ([2] ++ List.replicate 7 0)) s = none := by
    show checksKeySlot _ s = none
    unfold checksKeySlot
    rw [d, e]
    subst hs
    decide +kernel
  unfold opcodeChecks
  rw [f, ← hs]
  decide +kernel

theorem checkSlots_root (s : State) : ∀ n, (checkSlots n s).strong.root = s.strong.root ∧ (checkSlots n s).store = s.store
  | 0 => ⟨rfl, rfl⟩
  | n + 1 => by
    have ⟨a, b⟩ := checkSlots_root s n
    unfold checkSlots checkSlot
    dsimp only
    split
    · exact ⟨(congrArg (fun t : State => t.strong.root) (note_settled _ _ _)).trans a,
        (congrArg State.store (note_settled _ _ _)).trans b⟩
    · exact ⟨a, b⟩

theorem rooted_eq {s t : State} (a : t.strong.root = s.strong.root) (b : t.store = s.store) :
    rootKey t = rootKey s ∧ slotRecords t = slotRecords s := by
  unfold rootKey slotRecords currentBank underTestRoot
  rw [a, b]
  exact ⟨rfl, rfl⟩

/-- A new SESSION key for slot 2, wrapped by slot 1: where a key unwraps slot 1, the command passes, and the key
that it carries either unwraps or does not. -/
theorem test_KeySlotWrite_key (kek : Bytes) (h : Config.keyUnwrap (Config.kdf 0 "SLOT-WRAP") [] = some kek) :
    let p := packetOf specKeySlot ([2, 0, 1, 1, 40, 0, 0, 0] ++ List.replicate 40 0)
    let s := testRooted [(1, wrapSlot)]
    Runs specKeySlot p s ∧ u16 p 4 ≠ 0 ∧ rootKey (checkSlots 32 s) = some 0 ∧ kekKey (checkSlots 32 s) p = some kek ∧
      ((∃ key, Config.keyUnwrap kek (p.params.drop 8) = some key) ∨
        (kekKey (checkSlots 32 s) p).bind (fun kek => Config.keyUnwrap kek (p.params.drop 8)) = none) := by
  intro p s
  have root := rooted_eq (checkSlots_root s 32).1 (checkSlots_root s 32).2
  have found : ∀ t, rootKey t = rootKey s → slotRecords t = slotRecords s → kekKey t p = some kek := by
    intro t a b
    have b := wrapSlot_valid kek h t (a.trans (by rfl)) (by rw [b]; rfl)
    unfold kekKey
    rw [show policyKek (policyField p) = 1 by decide +kernel, b]
    simp [hasWrap]
  have k := found _ root.1 root.2
  refine ⟨⟨by decide +kernel, by decide +kernel, by decide +kernel, by decide +kernel, ?_, by decide +kernel,
    unread_of _ (by decide +kernel)⟩, by decide +kernel, root.1, k, ?_⟩
  · generalize hs : taken specKeySlot p s = t
    have a : rootKey t = rootKey s := by rw [← hs]; rfl
    have r : slotRecords t = slotRecords s := by rw [← hs]; rfl
    have b : inspectSlot t 1 = (.valid, 4, kek) := wrapSlot_valid kek h t (a.trans rfl) (by rw [r]; rfl)
    have d : (List.range 32).any (slotWritten t p hasSession) = true :=
      List.any_eq_true.2 ⟨2, by decide, by
        unfold slotWritten
        rw [if_pos (by decide +kernel)]
        decide +kernel⟩
    have e : (List.range 32).any (slotWritten t p hasWrap) = true :=
      List.any_eq_true.2 ⟨1, by decide, by
        unfold slotWritten
        rw [if_neg (by decide +kernel), b]
        simp [hasWrap]⟩
    have f : specKeySlot.checks p t = none := by
      show checksKeySlot p t = none
      unfold checksKeySlot
      rw [d, e, found t a r, Option.isSome_some]
      subst hs
      decide +kernel
    unfold opcodeChecks
    rw [f, ← hs]
    decide +kernel
  · rw [k]
    cases x : Config.keyUnwrap kek (p.params.drop 8) with
    | none => exact .inr x
    | some key => exact .inl ⟨key, rfl⟩

/-- An authenticated open under the test root, whose slot 0 holds K_DBG: its MAC is the one that the nonce asks for. -/
theorem test_SessionOpenOpens_good :
    ∃ (p : Packet) (s : State), Runs specSessionOpen p s ∧ u8 p 2 = 1 ∧ authRefused s = false ∧
      openMacGood s p = true := by
  let s := { testRooted [] with cmd := { State.reset.cmd with nonces := [{ endpoint := .pcie, value := 0, issuedAt := 0 }] } }
  let head : Bytes := [0, 0, 1, 0, 0, 0, 0, 0] ++ List.replicate 16 0
  let mac := (Config.hmacSha384 (debugKey s) (openMessage 0 (packetOf specSessionOpen head))).toNat
  let p := packetOf specSessionOpen (head ++ leBytes 48 mac)
  have sent : (p.params.drop 24).take 48 = leBytes 48 mac := rfl
  have asked : openMessage 0 p = openMessage 0 (packetOf specSessionOpen head) := rfl
  have m : openMacGood s p = true := by
    unfold openMacGood
    rw [show nonceOf s p.endpoint = some { endpoint := .pcie, value := 0, issuedAt := 0 } by decide +kernel,
      show u8 p 3 = 0 by decide +kernel, show inspectSlot s 0 = (.valid, 1, debugKey s) from rfl, sent]
    dsimp only
    rw [asked]
    simp [hasSession, mac]
  have crc : crc32c (packetBody specSessionOpen.code p) = p.crc := rfl
  have form : formChecks specSessionOpen p = none := by
    unfold formChecks
    rw [beq_iff_eq.2 crc]
    decide +kernel
  refine ⟨p, s, ⟨by decide +kernel, ?_, by decide +kernel, by decide +kernel, by decide +kernel, by decide +kernel,
    unread_of _ (by decide +kernel)⟩, by decide +kernel, by decide +kernel, m⟩
  unfold frontGate
  rw [form]
  decide +kernel

/-- One with no nonce, and one while the authentication source isolates. -/
theorem test_SessionOpenOpens_bad :
    let p := packetOf specSessionOpen ([0, 0, 1] ++ List.replicate 69 0)
    let s := { testRooted [] with cmd := State.reset.cmd }
    Runs specSessionOpen p s ∧ u8 p 2 = 1 ∧ authRefused s = false ∧ openMacGood s p = false :=
  runs_and (by decide +kernel)

/-! ### Sessions, restates, takes and settings of the matrices -/

theorem test_SessionsClose :
    let idle := putSession ready 1 { sessionOf ready 1 with idleTimeout := 10 }
    (sessionOf idle 1).isOpen = true ∧ (sessionOf idle 1).idleTimeout ≠ 0 ∧ (sessionOf ready 2).isOpen = false ∧
    (sessionOf ready 1).idleTimeout = 0 ∧ (1 : Word).getLsbD 0 = true ∧ (2 : Word).getLsbD 0 = false ∧
    (sessionOf ready 1).endpoint = .pcie := by decide +kernel

/-- A restate of session 1 is open, with what it has collected. -/
def restated (l : List HostPacket) (s : State) : State :=
  { s with mtx := { s.mtx with restate := some { session := 1, openedAt := 0, collected := l } } }

def takePacket : Packet := packetOf specTakeVideo ([1] ++ List.replicate 11 0)
def lockPacket : Packet := packetOf specDestLock [0, 0, 0, 1]

theorem test_RestateCollects :
    let late := { ready with time := { ready.time with count := 356400000000 } }
    (Runs specTakeVideo takePacket (restated [] (hanging ready)) ∧ restating (restated [] ready) 1 = true) ∧
    (Runs specDestLock lockPacket (restated [] ready) ∧ sess lockPacket = 1) ∧
    600 * 594000000 ≤ (late.time.count - 0).toNat ∧ ready.mtx.restate = none :=
  ⟨runs_and (by decide +kernel), runs_and (by decide +kernel), by decide +kernel⟩

theorem test_RestateCommitAnswers :
    let c : HostPacket := { opcode := specTakeVideo.code, body := takePacket }
    let p := packetOf specRestateCommit []
    Runs specRestateCommit p (restated [] (hanging ready)) ∧ Runs specRestateCommit p (restated [c] (hanging ready)) ∧
      [c] ≠ [] := ⟨runs_of (by decide +kernel), runs_and (by decide +kernel)⟩

theorem test_TakesAreStaged :
    let held := packetOf specTakeVideo ([1] ++ List.replicate 11 0) 0xFFFFFFFF
    let s := hanging ready
    (Runs specTakeVideo takePacket s ∧ restating s (sess takePacket) = false ∧
      ((entries takePacket 8).map readVideo).length = 1 ∧ takePacket.target ≠ 0xFFFFFFFF ∧
      ∀ r ∈ (entries takePacket 8).map readVideo, movesOf s r ≠ []) ∧
    (Runs specTakeVideo held s ∧ held.target = 0xFFFFFFFF) :=
  ⟨runs_and (by decide +kernel), runs_and (by decide +kernel)⟩

/-- Destination 0 holds a take of session 1 under tag 0. -/
def heldTake : State :=
  putDest (hanging ready) .video 0 { staged := [{ source := some 5, aim := .held 0, family := 0, session := 1, take := 1, cmd := 1 }] }

theorem test_HeldTakes :
    let at' := packetOf specHangAt [0, 0, 0, 0]
    let un := packetOf specUnstage ([0, 0, 0, 0] ++ List.replicate 8 0)
    (Runs specHangAt at' (hanging ready) ∧ takesWhere (hanging ready) (heldBy (hanging ready) (sess at') (u16 at' 0) 0) = []) ∧
    (Runs specHangAt at' heldTake ∧ takesWhere heldTake (heldBy heldTake (sess at') (u16 at' 0) 0) ≠ []) ∧
    Runs specUnstage un heldTake :=
  ⟨runs_and (by decide +kernel), runs_and (by decide +kernel), runs_of (by decide +kernel)⟩

theorem test_MatrixSettingsApply :
    let bond := packetOf specDestConfig ([0, 0, 0, 0, 0, 0, 2] ++ List.replicate 9 0)
    (Runs specDestLock lockPacket ready ∧ restating ready (sess lockPacket) = false ∧ u8 lockPacket 3 = 1) ∧
    (Runs specDestConfig bond (hanging ready) ∧ restating (hanging ready) (sess bond) = false ∧
      (readDestCfg (hanging ready) bond).bond ≠ (destCfg (hanging ready) 0).bond ∧
      familyOn (hanging ready) (destFamily (hanging ready) 0) = true) ∧
    (Runs specDestConfig bond ready ∧ familyOn ready (destFamily ready 0) = false) :=
  ⟨runs_and (by decide +kernel), runs_and (by decide +kernel), runs_and (by decide +kernel)⟩

theorem test_HangReferencesAreSet :
    let put := fun (on : Byte) (rate : Byte) => packetOf specHangRefConfig [0, on, rate, 0, 0, 0, 0, 0]
    (Runs specHangRefConfig (put 1 5) (hanging ready) ∧ (familyCfg (hanging ready) 0).enable = true ∧
      (familyCfg (hanging ready) 0).rate = u8 (put 1 5) 2) ∧
    (Runs specHangRefConfig (put 0 5) (hanging ready) ∧ u8 (put 0 5) 1 ≠ 1) ∧
    (Runs specHangRefConfig (put 1 5) ready ∧ (familyCfg ready 0).enable = false) :=
  ⟨runs_and (by decide +kernel), runs_and (by decide +kernel), runs_and (by decide +kernel)⟩

/-! ### Events of the hangs -/

/-- An entry for hang n of family 0. -/
def entryAt (n : Word) (k : TakeKind) : Entry :=
  { kind := k, source := some 5, aim := .hang n, family := 0, session := 1, take := 1, cmd := 1 }

theorem test_CutoffLoadsShadows :
    let s := putDest (hanging ready) .video 0 { staged := [entryAt 1 .take] }
    let n := nextNumber s 0 (familyOf s 0).hang
    familyOn s 0 = true ∧ (familyOf s 0).cutoffPassed = false ∧
    ((destOf s .video 0).staged.find? (loadsAt s 0 n)).isSome = true ∧
    (destOf s .anc 0).staged.find? (loadsAt s 0 n) = none ∧
    (let t := putDest (hanging ready) .audio 0 { staged := [entryAt 1 .take] }
     ((destOf t .audio 0).staged.find? (loadsAt t 0 n)).isSome = true) ∧
    familyOn s 1 = false ∧ (familyOf (putFamily s 0 { cutoffPassed := true }) 0).cutoffPassed = true := by decide +kernel

theorem test_SwitchPointMovesSelection :
    let loaded := fun (m : Matrix) (k : TakeKind) => putDest (hanging ready) m 2303 { shadow := some (entryAt 0 k) }
    (∀ k ∈ [TakeKind.take, .protect true false 30],
      (destRun (loaded .video k) 2303).pendingCfg = none ∧
      (destOf (loaded .video k) .video 2303).shadow = some (entryAt 0 k) ∧
      switchesNow (loaded .video k) 2303 = true ∧
      (∀ src ∈ [some 5, none], frameReached (loaded .video k) 2303 src (entryAt 0 k) = true)) ∧
    (∀ m ∈ [Matrix.anc, .audio], (destOf (loaded m .take) m 2303).shadow = some (entryAt 0 .take) ∧
      switchesNow (loaded m .take) 2303 = true ∧
      frameReached (loaded m .take) 2303 (destOf (loaded m .take) .video 2303).active (entryAt 0 .take) = true ∧
      (let k := (assocDest (loaded m .take) 2303).getD 2304
       frameReached (loaded m .take) k (destOf (loaded m .take) .video k).active (entryAt 0 .take) = true)) ∧
    (2303 : Fin 32768).val < 2304 ∧ 2304 ≤ (2304 : Fin 32768).val := by decide +kernel

/-- An SDI output in field 2 does not switch; a fabric source announces its hang. -/
theorem test_SwitchPoint_fields :
    let s := { hanging ready with mtx := { (hanging ready).mtx with sources := [(5, { usable := true })] } }
    let o := putSdiOut ready 0 { running := true, current := 0x20, startAt := -25000000 * 65536 }
    switchesNow o 1280 = false ∧ sourceUsable s 5 = true ∧ (fabricSource s 5).family = (entryAt 0 .take).family ∧ (entryAt 0 .take).aim = .hang 0 := by
  decide +kernel

theorem test_BoundaryAndPresentation :
    let s := putFamily (hanging ready) 0 { realign := some { source := 0, target := 1, computed := some (7, 2) } }
    let c : DestCfg := { bond := 2 }
    let d := { s with mtx := { s.mtx with destRun := [(0, { pendingCfg := some c })] } }
    let f := putSdiIn { s with set := { s.set with lanes := [(256, { mode := 2 })], sdiIn := [(0, { mode := 2 })] } } 0
      { state := .usable, completed := 1, detected := some 0x21 }
    familyOn s 0 = true ∧ (familyOf s 0).hang + 1 = 1 ∧ familyOn s 1 = false ∧
    (destRun d 0).pendingCfg = some c ∧ destFamily d 0 = 0 ∧
    isSdi f 0 = true ∧ (sdiInCfg f 0).mode = 2 ∧ (sdiInCfg f 0).family = 0 ∧ (sdiInOf f 0).state = .usable ∧
    (sdiInOf f 0).completed ≠ 0 ∧
    (isHalf f 0 (sdiInOf f 0).detected && (familyOf f 0).hang.getLsbD 0) = false := by decide +kernel

/-! ### Lanes and the fabric -/

theorem test_LanesAreConfigured :
    let p := packetOf specLaneConfig ([0, 0, 1] ++ List.replicate 5 0)
    let b := packetOf specLaneBringup [0, 0, 0, 0]
    (Runs specLaneConfig p ready ∧ (readLaneCfg p).mode ≠ (laneCfg ready 0).mode) ∧
    (Runs specLaneBringup b ready ∧ (laneCfg ready 0).mode = 0) ∧
    (Runs specLaneBringup b (laneMode 0 1 ready) ∧ (laneCfg (laneMode 0 1 ready) 0).mode ≠ 0) :=
  ⟨runs_and (by decide +kernel), runs_and (by decide +kernel), runs_and (by decide +kernel)⟩

theorem test_LanePatterns :
    let s := fun (v : Lane) => putLane ready 415 v
    (laneOf (s { state := .test }) 415).state = .test ∧ (laneOf (s { state := .locked }) 415).state ≠ .test ∧
    (laneOf (s { state := .locked }) 415).state ≠ .fbCheck ∧
    (laneOf (s { state := .fbCheck, stageWaiting := true }) 415).stageWaiting = true ∧
    (laneOf (s { state := .fbCheck, stageWaiting := true }) 415).state ≠ .test ∧
    (let once := { s { state := .locked } with set := { ready.set with eq := [(415, { adapt := some 1 })] } }
     laneLocked once 415 = true ∧ adaptMode once 415 = 1 ∧ (laneOf once 415).adaptFrozen = false) := by decide +kernel

/-- LANE_EQ to each ADAPT, on a lane that adapts and on one that is frozen. -/
theorem test_LaneEqualizers :
    let eq := fun (a : Byte) => packetOf specLaneEq ([0, 0, 0x40] ++ List.replicate 8 0 ++ [a])
    let frozen := putLane ready 0 { adaptFrozen := true }
    let after := fun (p : Packet) (s : State) =>
      { s with set := { s.set with eq := tset (fun _ => {}) s.set.eq (u16 p 0) (newEq s p) } }
    (Runs specLaneEq (eq 2) ready ∧ adaptMode (after (eq 2) ready) 0 = 2 ∧ (laneOf ready 0).adaptFrozen = false) ∧
    (Runs specLaneEq (eq 2) frozen ∧ adaptMode (after (eq 2) frozen) 0 = 2 ∧ (laneOf frozen 0).adaptFrozen = true) ∧
    (Runs specLaneEq (eq 1) ready ∧ adaptMode (after (eq 1) ready) 0 = 1) ∧
    (Runs specLaneEq (eq 0) frozen ∧ adaptMode (after (eq 0) frozen) 0 = 0) :=
  ⟨runs_and (by decide +kernel), runs_and (by decide +kernel), runs_and (by decide +kernel), runs_and (by decide +kernel)⟩

theorem test_LaneTimers :
    let s := fun (v : Lane) => putLane { ready with set := { ready.set with lanes := [(255, { mode := 1, rate := 3 })] } } 255 v
    let blind := { s { state := .hunt } with set := { ready.set with lanes := [(255, { mode := 1, blindOnly := true })] } }
    let verdict : Lane := { state := .fbVerdict, ownPass := true, partnerPass := true, partnerCeiling := some 1 }
    let sent := fun (k : Link) => putLink (s { state := .locked }) 255 k
    ((laneOf blind 255).state = .hunt ∧ (laneCfg blind 255).blindOnly = true) ∧
    ((laneOf (s { state := .verify }) 255).state = .verify ∧ (laneCfg (s { state := .verify }) 255).blindOnly = false ∧
      effectiveSeverity (s { state := .verify }) (laneFault 255) < 2) ∧
    (laneOf (s { state := .fbBase }) 255).state = .fbBase ∧ (laneOf (s { state := .reset }) 255).state = .reset ∧
    (laneOf (s { state := .fbCheck, stageWaiting := true }) 255).stageWaiting = true ∧
    (laneOf (s { state := .fbCheck }) 255).stageWaiting = false ∧
    ((laneOf (s verdict) 255).rate < agreedCeiling (s verdict) 255) ∧
    (agreedCeiling (s { verdict with rate := 3 }) 255 ≤ (laneOf (s { verdict with rate := 3 }) 255).rate) ∧
    ((verdict.ownPass && verdict.partnerPass) = true ∧ ({ verdict with ownPass := false } : Lane).ownPass = false) ∧
    (laneLocked (sent { inFlight := 1, rewinds := 14 }) 255 = true ∧
      0 < (linkOf (sent { inFlight := 1, rewinds := 14 }) 255).inFlight ∧
      (linkOf (sent { inFlight := 1, rewinds := 14 }) 255).rewinds + 1 ≠ 16 ∧
      (linkOf (sent { inFlight := 1, rewinds := 15 }) 255).rewinds + 1 = 16 ∧
      (linkOf (sent {}) 255).inFlight = 0) ∧
    laneLocked ready 255 = false ∧ pllUp ready 15 .c = true ∧
    pllUp { ready with fab := { ready.fab with plls := [(15, { c := false })] } } 15 .c = false := by decide +kernel

theorem test_FabricSettingsApply :
    let p := packetOf specFabricPlanePair [0, 0, 0, 1]
    let off := packetOf specFabricPlanePair [0, 0, 0, 0xFF]
    let s := laneMode 0 1 (laneMode 1 1 ready)
    let heard := fun (g : Bool) => putFabricSource ready 1279 { starts := 1, good := g }
    (Runs specFabricPlanePair p s ∧ (pairCfg s 0).lanes ≠ some (0, 1)) ∧
    (Runs specFabricPlanePair off s ∧ (pairCfg s 0).lanes = none) ∧
    (fabricSource ready 1279).starts = 0 ∧ (fabricSource (heard false) 1279).starts ≠ 0 ∧
    (fabricSource (heard false) 1279).good = false ∧ (fabricSource (heard true) 1279).good = true :=
  ⟨runs_and (by decide +kernel), runs_and (by decide +kernel), by decide +kernel⟩

/-! ### Blocks -/

/-- Stuff bits after runs of 20 (R56). -/
def stuffed : List Bool → Nat → Bool → List Bool
  | [], _, _ => []
  | b :: r, run, last =>
    let run := if 0 < run ∧ b = last then run + 1 else 1
    if run = 20 then b :: (!b) :: stuffed r 1 (!b) else b :: stuffed r run b

/-- An idle block of slot 191 on the wire, under the all-ones key, with header and CRC. -/
def idleSlot : RxSlot :=
  let body := bitsOf 32 (blockHeader 0 191 0 0 false).toNat ++ List.replicate 8192 false
  let bits := body ++ bitsOf 32 (crc32 body).toNat
  { comma := .plain, bits := stuffed (scramble bits (BitVec.allOnes 31)).1 0 false }

/-- A block that is sent comes back: to a hunting receiver it is a seed whose key is the sender's, and under that key it
is good. -/
theorem test_BlocksComeBack :
    seedOf (seenSlot (rxInverts (putLane ready 255 { state := .hunt }) 255) idleSlot)
      = some (keyAdvance 8256 (BitVec.allOnes 31), false) ∧
    (readBlock idleSlot false (BitVec.allOnes 31)).1.good = true := by decide +kernel

theorem test_BlocksAreSentAndReceived :
    let s := fun (v : Lane) => putLane ready 255 v
    let missing : RxSlot := { comma := .missing, bits := [] }
    let worn := s { state := .locked, recent := List.replicate 3 false }
    let fresh := s { state := .locked }
    (∀ st ∈ [LaneState.hunt, .verify, .locked, .fbBase, .fbVerdict],
      (laneOf (s { state := st, stuffLag := 8431 }) 255).state = st ∧
      (laneOf (s { state := st, stuffLag := 8431 }) 255).stuffLag < 8432) ∧
    (laneOf (s {}) 255).state = .reset ∧
    ((laneOf (s { state := .hunt }) 255).state = .hunt ∧ (laneOf (s { state := .hunt }) 255).goodRun = 0 ∧
      seedOf (seenSlot (rxInverts (s { state := .hunt }) 255) missing) = none ∧ idleSlot.overflow = false) ∧
    ((laneOf worn 255).state = .locked ∧
      4 ≤ ((((readBlock (seenSlot (rxInverts worn 255) missing) (laneOf worn 255).rxOver
        (laneOf worn 255).rxKey).1.good :: (laneOf worn 255).recent).take 64).filter
        (fun g => !g)).length) ∧
    (laneOf fresh 255).rxKey = BitVec.allOnes 31 ∧
    (((true :: (laneOf fresh 255).recent).take 64).filter (fun g => !g)).length < 4 ∧
    (∀ w ∈ [true, false], (laneOf (s { state := .fbCheck, stageWaiting := w }) 255).state = .fbCheck) ∧
    (let t := putLane (laneMode 255 1 ready) 255 { state := .test }
     (laneOf t 255).state = .test ∧ Machine.laneMode t 255 ≠ 0) := by decide +kernel

/-! ### SDI -/

/-- A re-centred stage omits or repeats one line (R128). -/
theorem test_lineSlips :
    let l := fun (n : Nat) => (n, false)
    slipLine (some .omitted) 2 [l 1, l 2, l 3] = [l 1, l 3] ∧
    slipLine (some .repeated) 2 [l 1, l 2, l 3] = [l 1, l 2, (2, true), l 3] ∧
    slipLine none 2 [l 1, l 2, l 3] = [l 1, l 2, l 3] := by decide

def outPacket (f : Byte) : Packet := packetOf specSdiOutConfig [0, 1, 0xFF, f, 0, 1, 0, 0]

/-- SDI lane 0 with a record for its input and its output. -/
def sdiWith (i : SdiIn) (o : SdiOut) (v : Lane) : State :=
  let s := { sdiReady with set := { sdiReady.set with
    sdiOut := [(0, { enable := true })], sdiIn := [(0, { mode := 1, family := 0 })]
    families := tset familyCfgDefault [] 0 { enable := true, rate := 6 } } }
  putLane (putSdiOut (putSdiIn s 0 i) 0 o) 256 v

theorem test_SdiSettingsApply :
    let s := sdiWith {} { running := true } { state := .locked }
    (Runs specSdiOutConfig (outPacket 0x21) s ∧ (sdiOutOf s 0).running = true ∧ (sdiOutCfg s 0).enable = true ∧
      (readSdiOutCfg (outPacket 0x21)).enable = true) ∧
    (Runs specSdiOutConfig (outPacket 0x10) sdiReady ∧ (sdiOutOf sdiReady 0).running = false) ∧
    (let off := packetOf specSdiOutConfig [0, 0, 0xFF, 0x21, 0, 1, 0, 0]
     Runs specSdiOutConfig off s ∧ (readSdiOutCfg off).enable = false) :=
  ⟨runs_and (by decide +kernel), runs_and (by decide +kernel), runs_and (by decide +kernel)⟩

theorem test_SdiInputsAndOutputsRun :
    let x : SdiFrame := { format := 0x21, pid := some 0x85, arrival := 0, linksOk := true }
    let up : Lane := { state := .locked }
    let usable : SdiIn := { state := .usable, detected := some 0x21, pid := carriedPid 0 0x21 (some 0x85) }
    let s := fun (i : SdiIn) => sdiWith i {} up
    let sync := fun (i : SdiIn) => { s i with set := { (s i).set with sdiIn := [(0, { mode := 2, family := 0 })] } }
    let line := fun (t : Trs) => ({ eav := t, sav := .good, number := 1, numberOk := true, crcFailed := [], images := [],
                                    anc := [] } : SdiLine)
    let seen : SdiIn := { state := .detecting, last := some (0x21, some 0x85), same := 1 }
    (isSdi (s {}) 0 = true ∧ (laneOf (s {}) 256).state ≠ .down ∧ (sdiInOf (s {}) 0).state = .noSignal) ∧
    (laneLocked (s usable) 256 = true ∧ quadMemberIn (s usable) 0 = false ∧ freezes (s usable) 0 = false ∧
      SignalLoss.cdr ≠ .link) ∧
    (let quad := { s usable with set := { (s usable).set with
        lanes := (s usable).set.lanes ++ [(259, { mode := 2 })], sdiIn := [(0, { mode := 1, family := 0, links := 4 })] } }
     let q := putLane quad 259 up
     isSdi q 3 = true ∧ laneLocked q 259 = true ∧ quadMemberIn q 3 = true ∧ quadBaseIn q 3 = 0 ∧
      (sdiInOf q 0).state = .usable ∧ linksGood q 0 { x with linksOk := false } = false) ∧
    ((sdiInOf (s usable) 0).state ≠ .noSignal ∧ trsBad (line .missing) = true ∧ trsBad (line .good) = false ∧
      (sdiInOf (s usable) 0).trsRun + 1 < 3 ∧ 3 ≤ (sdiInOf (s { usable with trsRun := 2 }) 0).trsRun + 1 ∧
      (sdiInOf (s {}) 0).state = .noSignal ∧ (line .good).overflow = false) ∧
    ((sdiInOf (s seen) 0).last = some (x.format, x.pid) ∧ (sdiInOf (s seen) 0).same = 1 ∧
      quadMemberIn (s seen) 0 = false ∧ x.pid.isSome = true ∧
      (detectVerdict (putSdiIn (s seen) 0 { seen with same := 2, offset := sdiOffset (s seen) 0 x.format x.arrival }) 0 x).1
        = .usable) ∧
    (isSdi (sync usable) 0 = true ∧ (sdiInCfg (sync usable) 0).mode = 2 ∧ linksGood (sync usable) 0 x = true ∧
      some x.format = (sdiInOf (sync usable) 0).detected ∧
      carriedPid (sdiInCfg (sync usable) 0).pidFill x.format x.pid = (sdiInOf (sync usable) 0).pid) ∧
    (withinLines x.format 16 (sdiOffset (s usable) 0 x.format 0) = true ∧ linksGood (s usable) 0 x = true ∧
      withinLines x.format 16 (sdiOffset (s usable) 0 x.format 20000000) = false ∧
      effectiveSeverity (s usable) (sdiInFault 0) < 2) ∧
    some 0x22 ≠ (sdiInOf (s usable) 0).detected ∧
    (sdiOutOf (sdiWith {} { running := true } up) 0).running = true ∧
    isSdi ready 0 = false ∧ (sdiOutCfg (s {}) 0).enable = true ∧ (sdiOutCfg sdiReady 0).enable = false := by
  decide +kernel

/-- An input of 1080i/50, and a line that carries a payload ID: its own, or another. -/
def usableIn : State := sdiWith { state := .usable, detected := some 0x21, pid := 0x85 } {} { state := .locked }
def idPacket (n : Word) : AncPacket := payloadIdPacket n 10

theorem test_SdiPayloadIds : quadBaseIn usableIn 0 = 0 ∧ ancKind (receivesSd usableIn 0) (idPacket 0x89) = .payloadId ∧
    samePid 0x21 (packetPid (idPacket 0x85)) (sdiInOf usableIn 0).pid = true ∧
    samePid 0x21 (packetPid (idPacket 0x89)) (sdiInOf usableIn 0).pid = false := by decide +kernel

/-! ### Packet ports, flows and queues -/

def portWith (p : Port) : State := putPort portReady 0 p

theorem test_PortSettingsApply :
    let mac := fun (fec : Byte) => packetOf specMacConfig
      ([0, fec, 0, 0, 0, 0, 0, 0, 2, 0, 0, 0, 0, 1] ++ List.replicate 54 0)
    let pause := fun (h : Byte) => packetOf specPausePolicy [0, h, 0, 0]
    (Runs specMacConfig (mac 0) portReady ∧ (macCfg portReady 0).fec = (readMac (mac 0)).fec) ∧
    (Runs specMacConfig (mac 1) portReady ∧ (macCfg portReady 0).fec ≠ (readMac (mac 1)).fec ∧
      portIs100 portReady 0 = false) ∧
    (Runs specPausePolicy (pause 1) portReady ∧ u8 (pause 1) 1 = 1) ∧
    (Runs specPausePolicy (pause 0) (portWith { paused := true }) ∧ u8 (pause 0) 1 = 0 ∧
      (portOf (portWith { paused := true }) 0).paused = true) :=
  ⟨runs_and (by decide +kernel), runs_and (by decide +kernel), runs_and (by decide +kernel), runs_and (by decide +kernel)⟩

def rxFlow (k : FlowKind) : RxFlow := {
  kind := k, slot := none, chBase := 0, chCount := 2, format := 0, family := 0, pt := 96, l16 := false, arrival := false
  playout := 0, pidFill := 0, join := false, report := true
  legA := { port := 0, vid := none, ipv6 := false, dstPort := 5004, dstIp := 0, srcIp := 0 }, legB := none }

/-- An AUDIO flow of 125 µs packets with one packet's samples. -/
def audioFlow (held : List QFrame) : TxFlow := {
  kind := .audio, slot := 0, chBase := 0, chCount := 1, format := 0, family := 0, profile := 0, block := false
  payload := 0, ptime := 1, l16 := true, ancPackets := 0
  legA := { queue := 4, template := List.replicate 54 0, held := held }, legB := none
  samples := List.replicate 6 [0] }

def txFlow (held : List QFrame) : TxFlow := {
  kind := .anc, slot := 0, chBase := 0, chCount := 0, format := 0, family := 0, profile := 0, block := false
  payload := 1200, ptime := 0, l16 := false, ancPackets := 0, legA := { queue := 4, template := [], held := held }
  legB := none }

theorem test_FlowsAreDeleted :
    let rx := packetOf specFlowRxDel [0, 0, 0, 0]
    let tx := packetOf specFlowTxDel [0, 0, 0, 0]
    (Runs specFlowRxDel rx (putRxFlow ready 0 (rxFlow .audio)) ∧
      rxFlowOf (putRxFlow ready 0 (rxFlow .audio)) 0 = some (rxFlow .audio)) ∧
    (Runs specFlowTxDel tx (putTxFlow (hanging ready) 0 (txFlow [])) ∧
      txFlowOf (putTxFlow (hanging ready) 0 (txFlow [])) 0 = some (txFlow []) ∧ familyOn (hanging ready) 0 = true) ∧
    (Runs specFlowTxDel tx (putTxFlow ready 0 (txFlow [])) ∧ familyOn ready 0 = false) :=
  ⟨runs_and (by decide +kernel), runs_and (by decide +kernel), runs_and (by decide +kernel)⟩

theorem test_ReceivedFrameCountsOnce :
    let s := portWith { link := true }
    portExists s 0 = true ∧ (portOf s 0).link = true ∧ (63 : Nat) < 64 ∧ (macCfg s 0).maxFrame < 9217 ∧
    64 ≤ (macCfg s 0).maxFrame ∧ (portOf (portWith { link := true, isolated := true }) 0).isolated = true ∧
    portExists ready 0 = false ∧ (portOf portReady 0).link = false ∧ (portLanes s 0)[0]? = some 256 := by decide +kernel

/-- A PING frame in the command trap: Ethernet, IPv4 and UDP headers, then the packet. -/
def commandFrame : Bytes :=
  List.replicate 12 0 ++ [8, 0, 0x45] ++ List.replicate 8 0 ++ [17] ++ List.replicate 10 0 ++ [0, 0, 0, 0, 0, 44, 0, 0]
    ++ [0, 1, 6, 0, 1, 0, 0, 0, 1, 0, 0, 0, 1, 0, 0, 0] ++ List.replicate 20 0

theorem test_PortAndLegEvents :
    let f := rxFlow .audio
    let s := putRxFlow (portWith { link := true, paused := true }) 0 f
    let down := putRxFlow ready 0 { f with legAUp := false, silent := [1] }
    let trapped := fun (x : Trapped) => putTrapQueue ready 0 [x]
    let full := { trapped { port := 0, bytes := commandFrame, command := true } with
      cmd := { ready.cmd with workQueue := List.replicate 64 { opcode := 6, body := emptyPacket } } }
    ((portOf s 0).link = true ∧ (portOf portReady 0).link = false ∧ portExists s 0 = true ∧ portExists ready 0 = false) ∧
    ((portOf s 0).paused = true ∧ (portOf portReady 0).paused = false) ∧
    (rxFlowOf s 0 = some f ∧ f.legAUp = true ∧ rxFlowOf down 0 = some { f with legAUp := false, silent := [1] } ∧
      rxFlowOf ready 0 = none) ∧
    (f.kind = .audio ∧ 1 < f.chCount ∧ 1 ∉ f.silent ∧ f.report = true ∧ f.silent = [] ∧ f.chCount ≤ 2) ∧
    (trapQueue ready 0 = [] ∧ ready.chip.curatorServing = true ∧
      trapQueue (trapped { port := 0, bytes := [] }) 0 = [{ port := 0, bytes := [] }]) ∧
    framePacket 0 [] = none ∧ (framePacket 0 commandFrame).isSome = true ∧ full.cmd.workQueue.length = 64 ∧
    ready.cmd.workQueue.length < 64 ∧
    (∀ h, framePacket 0 commandFrame = some h → isOpcode h.opcode.toNat = true ∧ h.body.endpoint ≠ .pcie) := by
  decide +kernel

theorem test_QueuesAreConfiguredAndSwept :
    let p := fun (flush on : Byte) => packetOf specQueueConfig ([4, 0, on, 0, 0, 0, flush] ++ List.replicate 5 0
      ++ [0, 4, 0, 0] ++ List.replicate 4 0 ++ [0, 64, 0, 0, 100, 0, 0, 0])
    let frozen := putQueue portReady 4 { cfg := { enable := true }, frozen := true }
    let sweeping := putQueue portReady 4 { cfg := { enable := true }, frozen := true, sweeping := some {} }
    (Runs specQueueConfig (p 1 1) frozen ∧ u8 (p 1 1) 6 = 1 ∧ (queueOf frozen 4).frozen = true ∧
      (queueOf frozen 4).sweeping = none ∧ sess (p 1 1) ≠ 0 ∧ (sessionOf frozen 1).isOpen = true) ∧
    (Runs specQueueConfig (p 0 0) frozen ∧ (queueOf frozen 4).cfg.enable = true ∧
      (readQueueCfg (p 0 0)).enable = false) ∧
    (queueOf sweeping 4).sweeping.isSome = true :=
  ⟨runs_and (by decide +kernel), runs_and (by decide +kernel), by decide +kernel⟩

def frameAt (launch : Word64) : QFrame := { bytes := 128, cells := 1, launch := launch }

theorem test_PacketsAreQueuedOrHeld :
    let f := audioFlow []
    let b := (buildPacket portReady 16383 f).map (fun x => (legFrame f.legA x.1).cells)
    let s := putTxFlow (putQueue portReady 4 { cfg := { enable := true } }) 16383 f
    let frozen := putTxFlow (putQueue portReady 4 { cfg := { enable := true }, frozen := true }) 16383 f
    let full := putTxFlow (putQueue portReady 4 { cfg := { enable := true, maxCells := 0 } }) 16383 f
    let held := fun (n : Word64) => putTxFlow (putQueue portReady 4 { cfg := { enable := true } }) 16383 (txFlow [frameAt n])
    let video := { f with kind := .video }
    let sent := startTxFrame 0 { video with format := 0x74 }
    let open' := { f with legA := { f.legA with writing := some { frameAt 0 with at' := [0] } } }
    let half := putTxFlow s 16383 open'
    let whole := finishFlow 16383 half
    (txFlowOf half 16383 = some open' ∧ finishFlow 16383 s = s ∧ (queueOf half 4).frames = [] ∧
      (queueOf whole 4).frames = [{ frameAt 0 with at' := [0] }] ∧ txFlowOf whole 16383 = some f) ∧
    (txFlowOf s 16383 = some f ∧ midpointFrame s 16383 f = f ∧ isMuted s 16383 f = false ∧ f.stopping = false ∧
      f.legB = none ∧ f.legA.held = [] ∧ b = some 1 ∧ askCells s 4 1 = .admitted ∧ askCells full 4 1 = .refused false ∧
      askCells frozen 4 1 = .discarded) ∧
    (buildPacket s 16383 { f with samples := [] } = none ∧
      (midpointFrame s 16383 { sent with index := 1000000, stopping := true }).frameAt ≠ sent.frameAt) ∧
    (txFlowOf ready 0 = none ∧
      isMuted { ready with set := { ready.set with dests := [(1440, { fallback := 2 })] } } 0 video = true) ∧
    ((txFlowOf (held 0) 16383).map (fun x => x.legA.held) = some [frameAt 0] ∧
      isLate (held 0) 4 (frameAt (0 - 59401)) = true ∧ isLate (held 0) 4 (frameAt (0 - 59400)) = false) ∧
    (∀ x ∈ [({ cfg := {}, stalled := [frameAt 0] } : Queue), { cfg := {}, gateStalled := [frameAt 0] },
        { cfg := {}, stalled := [frameAt 0], gateStalled := [frameAt 1], gateStalledAt := 1 },
        { cfg := {}, gateStalled := [frameAt 0], stalled := [frameAt 1], stalledAt := 1 }],
      stalledOf x (gateOlder x) = [frameAt 0]) ∧
    (queueOf ready 65535).stalled = [] ∧ (queueOf ready 65535).gateStalled = [] := by decide +kernel

/-- An admitted packet is off the free list and in flight until its EOP cell is written (R221, R231). -/
theorem test_admittedCellsAreInFlight :
    let s := putTxFlow (putQueue portReady 4 { cfg := { enable := true } }) 16383 (audioFlow [])
    let t := packetReady 16383 false s
    let u := finishFlow 16383 t
    (t.pkt.pool.free, t.pkt.pool.inFlight, (queueOf t 4).frames.length) = (196607, 1, 0) ∧
    (u.pkt.pool.free, u.pkt.pool.inFlight, (queueOf u 4).frames.length) = (196607, 0, 1) := by decide +kernel

theorem test_SchedulerAndHeadLate :
    let q : Queue := { cfg := { enable := true }, frames := [frameAt 0] }
    let s := putQueue (portWith { link := true }) 4 q
    let old := putQueue portReady 4 { q with frames := [frameAt (0 - 59401)] }
    let late := putQueue (portWith { link := true }) 4 { q with frames := [frameAt (0 - 59401), frameAt 0] }
    ((portOf s 0).link = true ∧ (portOf s 0).isolated = false ∧ (portOf s 0).sending = none ∧ portExists s 0 = true ∧
      (∀ x ∈ [s, late], pickQueue (dropLatePort 0 x) 0 = some 4 ∧ (queueOf (dropLatePort 0 x) 4).frames = [frameAt 0])) ∧
    (∀ e ∈ portQueues s 0, isControlQueue e.1 = true ∨ isLate s e.1 (frameAt 0) = false) ∧
    (pickQueue portReady 0 = none ∧ (portOf (portWith { sending := some (4, frameAt 0) }) 0).sending.isSome = true) ∧
    ((queueOf old 4).frames = [frameAt (0 - 59401)] ∧ isControlQueue 4 = false ∧ (queueOf old 4).frozen = false ∧
      isLate old 4 (frameAt (0 - 59401)) = true) ∧
    (isLate s 4 (frameAt 0) = false ∧ isControlQueue 0 = true ∧ (queueOf portReady 4).frames = []) := by decide +kernel

/-! ### Status reads, time and the reference unit -/

theorem test_StatusReadsReturnRecords :
    let p := packetOf specLaneStatus ([0, 0, 1] ++ List.replicate 5 0)
    let clear := packetOf specLaneStatus ([0, 0, 1, 0, 1] ++ List.replicate 3 0)
    (∃ code space sp, specLaneStatus = specStatus code space ∧ Runs specLaneStatus p ready ∧
      space (u8 p 5) = some sp ∧ u8 p 4 ≠ 1) ∧
    Runs specLaneStatus clear ready ∧ u8 clear 4 = 1 :=
  ⟨⟨_, _, _, rfl, runs_of (by decide +kernel), rfl, by decide +kernel⟩, runs_and (by decide +kernel)⟩

theorem test_TimeSettingsApply :
    let rated := packetOf specTimeAdjust (List.replicate 40 0 ++ leBytes 8 473863597155987)
    let host := packetOf specPtpPortConfig ([0xFF, 0xFF, 0, 0, 1, 128, 128, 248] ++ List.replicate 12 0)
    let port := packetOf specPtpPortConfig (List.replicate 20 0)
    let accept := packetOf specPathStepAccept [0, 0, 0, 0]
    let s := { ready with time := { ready.time with servo := .tracking, slavePort := some 0 } }
    let stepped := { ready with time := { ready.time with servo := .timeHoldover, slavePort := some 0, pathStep := true } }
    (Runs specTimeAdjust rated hostTime ∧ u64 rated 40 ≠ 0 ∧ u64 rated 8 = 0 ∧ u8 rated 0 = 0) ∧
    (Runs specPtpPortConfig host s ∧ u16 host 0 = 0xFFFF ∧ u8 host 4 = 1 ∧ s.time.servo ≠ .disabled) ∧
    (Runs specPtpPortConfig host ready ∧ ready.time.servo = .disabled) ∧
    (Runs specPtpPortConfig port ready ∧ u16 port 0 ≠ 0xFFFF ∧ ready.time.slavePort ≠ some 0) ∧
    (Runs specPtpPortConfig port s ∧ s.time.slavePort = some 0 ∧
      mayBeSlave { s with set := { s.set with ptpPorts := tset (fun _ => {}) s.set.ptpPorts 0 (readPtpPort port) } } 0
        = false) ∧
    (Runs specPathStepAccept accept stepped ∧ u16 accept 0 = 0 ∧ stepped.time.pathStep = true ∧
      stepped.time.servo = .timeHoldover) :=
  ⟨runs_and (by decide +kernel), runs_and (by decide +kernel), runs_and (by decide +kernel), runs_and (by decide +kernel),
    runs_and (by decide +kernel), runs_and (by decide +kernel)⟩

theorem test_TimeEvents :
    let r : Rebase := { triple := { c0 := 5 }, absolute := true }
    let at' := fun (n : Word64) => { ready with time := { ready.time with staged := some r, count := n } }
    let servo := fun (v : Servo) (l : Option Int) =>
      { ready with time := { ready.time with servo := v, slavePort := some 319, lastMeasurement := l } }
    let y : PtpSync := { master := 0, device := 5, count := 0 }
    let sampled := putPtpPort (servo .tracking (some 0)) 319 { slave := true, synced := some y
                                                               samples := [1, 1, 1, 2, 2, 2, 2, 9] }
    let enabled := { servo .disabled none with set := { ready.set with ptpPorts := [(319, { enable := true })] } }
    (countReached (at' 4).time.count 5 = false ∧ countReached (at' 5).time.count 5 = true) ∧
    (ready.time.slavePort = none ∧ ready.time.servo = .disabled ∧ ready.chip.curatorServing = true) ∧
    ((servo .acquiring none).time.slavePort = some 319 ∧ (servo .acquiring none).time.servo = .acquiring) ∧
    (isPathStep (servo .tracking (some 0)) 319 (100 * 65536) = false ∧
      isPathStep (servo .tracking (some 0)) 319 (100 * 65536 + 1) = true) ∧
    ((ptpPortOf sampled 319).synced = some y ∧ 8 ≤ (ptpPortOf sampled 319).samples.length ∧
      medianOf ((ptpPortOf sampled 319).samples.take 8) = 2 ∧ (ptpPortOf (servo .tracking none) 319).synced = none) ∧
    mayBeSlave ready 319 = false ∧ mayBeSlave enabled 319 = true ∧
    ((ready.chip.curatorServing && sendsMessage ready 319 .sync) = false) ∧
    ((enabled.chip.curatorServing && sendsMessage enabled 319 .sync) = true) := by decide +kernel

theorem test_ReferenceSettingsApply :
    let ref := packetOf specRefConfig ([0, 1, 255, 0, 128, 150, 152] ++ List.replicate 5 0 ++ [1] ++ List.replicate 13 0
      ++ [1, 0])
    let same := { ready with set := { ready.set with refs := tset (fun c => refCfg State.reset c) [] 0 (readRefCfg ref) } }
    let pulse := fun (phase : Byte) => packetOf specPulseConfig ([0, 1, 0, 0, phase] ++ List.replicate 11 0)
    let moves := fun (phase : Byte) => (readPulse (pulse phase)).divide ≠ (pulseCfg ready 0).divide ∨
      (readPulse (pulse phase)).phase ≠ (pulseCfg ready 0).phase ∨ (readPulse (pulse phase)).offset ≠ (pulseCfg ready 0).offset
        ∨ (readPulse (pulse phase)).family ≠ (pulseCfg ready 0).family
    (Runs specRefConfig ref ready ∧ (refCfg ready 0).enable ≠ (readRefCfg ref).enable) ∧
    (Runs specRefConfig ref same ∧ (refCfg same 0).enable = (readRefCfg ref).enable ∧
      (refCfg same 0).freqNum = (readRefCfg ref).freqNum ∧ (refCfg same 0).freqDen = (readRefCfg ref).freqDen ∧
      (refCfg same 0).fabLane = (readRefCfg ref).fabLane) ∧
    (Runs specPulseConfig (pulse 0) ready ∧ ¬ moves 0) := by
  refine ⟨runs_and (by decide +kernel), runs_and (by decide +kernel), runs_and (by decide +kernel)⟩

theorem test_ReferenceEvents :
    let cand := fun (v : Candidate) => putCandidate { ready with
      set := { ready.set with refs := [(6, { enable := true, fabLane := 0 })] }
      ref := { ready.ref with refsel := some 6, loop := .locked } } 6 v
    let up := cand { active := true, qualified := true }
    let fp := { hanging ready with set := { (hanging ready).set with refs := [(3, { fpEnable := true, fabLane := 0 })] } }
    let lost := { ready with ref := { ready.ref with freqValid := false, xoGood := false, loop := .acquiring } }
    (up.ref.refsel = some 6 ∧ ready.ref.refsel ≠ some 6 ∧ refUsable up 6 = true) ∧
    (((refCfg up 6).enable && (candidateOf up 6).active) = true ∧ (candidateOf up 6).qualified = true ∧
      isForced up 6 = true ∧ up.ref.loop = .locked ∧ historyValid up = false) ∧
    (let ptp := { ready with set := { ready.set with refs := [(4, { enable := true, fabLane := 0 })] } }
     (refCfg ptp 4).enable = true ∧ (candidateOf ptp 4).active = false ∧ ptp.time.servo ≠ .tracking) ∧
    ((gateReading up (List.replicate 7 (some 10)) 6).isSome = true ∧
      gateReading (cand { active := true, partGate := true }) (List.replicate 7 (some 10)) 6 = none) ∧
    (((refCfg (cand {}) 6).enable && (candidateOf (cand {}) 6).active) = false ∧ (refCfg (cand {}) 6).enable = true ∧
      (candidateOf (cand {}) 6).active = false ∧ (refCfg ready 6).enable = false) ∧
    (ready.ref.freqValid = true ∧ lost.ref.freqValid = false ∧ lost.ref.loop = .acquiring ∧ ready.ref.loop ≠ .acquiring ∧
      ready.ref.xoGood = true ∧ lost.ref.xoGood = false) ∧
    (((refCfg fp 3).fpEnable && familyOn fp (refCfg fp 3).fpFamily) = true ∧ (refCfg ready 3).fpEnable = false) := by
  decide +kernel

/-! ### Audio and the compositor -/

theorem test_AudioSettingsApply :
    let p := packetOf specTdmPort ([0, 1, 0, 8] ++ List.replicate 8 0)
    let run := putTdm ready 0 { state := .running }
    let q := packetOf specRestart [0, 0, 0, 0]
    (Runs specTdmPort p run ∧ sameFrames (tdmCfg run 0) (readTdm p) = false ∧ (tdmOf run 0).state = .running) ∧
    (Runs specTdmPort p ready ∧ (tdmOf ready 0).state ≠ .running) ∧
    (Runs specRestart q run ∧ sess q ≠ 0 ∧ (sessionOf run (sess q)).isOpen = true) :=
  ⟨runs_and (by decide +kernel), runs_and (by decide +kernel), runs_and (by decide +kernel)⟩

theorem test_AudioEvents :
    let w : SlotWait := { slot := 31, target := true, previous := 0, due := 1 }
    let c : TdmCfg := { enable := true }
    let s := fun (v : TdmPort) => putTdm ready 15 v
    let waits := s { state := .waitingStart, restartPending := true }
    let loaded := putDest ready .audio 32767 { shadow := some (entryAt 0 .take), ready := true }
    State.reset.chip.rootLocked = false ∧ ready.chip.rootLocked = true ∧
    ((destOf loaded .audio 32767).shadow = some (entryAt 0 .take) ∧ (destOf ready .audio 0).shadow = none) ∧
    ((tdmOf (s { state := .running }) 15).state = .running ∧ (tdmOf (s { pendingCfg := some c }) 15).pendingCfg = some c) ∧
    (let timedOut := fun (n : Nat) (x : SlotWait) => x.slot == 31 && decide (x.due ≤ n)
     (tdmOf (s { txWaiting := [w] }) 15).txWaiting.find? (timedOut 1) = some w ∧
      (tdmOf (s { txWaiting := [w] }) 15).txWaiting.find? (timedOut 0) = none) ∧
    ((tdmOf waits 15).state = .waitingStart ∧ atGroupBoundary waits 15 = true ∧
      (tdmOf waits 15).startFrom ≤ 99000 * waits.aud.period ∧ (tdmOf ready 15).state ≠ .waitingStart) ∧
    (ready.sdi.pendingDeembed.map Prod.fst).Nodup := by decide +kernel

/-- A graphic layer that runs and has its space. -/
def graphicReady : State := putGraphicLayer (hanging ready) 0 12 { cfg := { z := 12, enable := true }, space := some (0, 0) }

theorem test_CompositorCommandsAreStaged :
    let on := packetOf specHeadConfig ([0, 1, 0x10] ++ List.replicate 13 0)
    let video := packetOf specLayerConfig (List.replicate 41 0 ++ [255] ++ List.replicate 10 0)
    let graphic := fun (e : Byte) => packetOf specLayerConfig ([0, 12, e] ++ List.replicate 37 0 ++ [12]
      ++ List.replicate 11 0)
    (Runs specHeadConfig on (hanging ready) ∧ (readHead on).enable = true ∧
      (readHead on).format ≠ (headCfg (hanging ready) 0).format) ∧
    (Runs specLayerConfig video ready ∧ u8 video 1 < 12) ∧
    (Runs specLayerConfig (graphic 0) ready ∧ 12 ≤ u8 (graphic 0) 1 ∧
      (readGraphicLayer (graphic 0)).enable = false) ∧
    (Runs specLayerConfig (graphic 1) ready ∧ (readGraphicLayer (graphic 1)).enable = true) :=
  ⟨runs_and (by decide +kernel), runs_and (by decide +kernel), runs_and (by decide +kernel), runs_and (by decide +kernel)⟩

theorem test_FlipPointShowsVitrines :
    let e : FlipEntry := { head := 0, layer := 12, vitrine := 1, fence := 1 }
    let f : Flip := { group := false, family := 0, target := 5, deadline := some 2, entries := [e], reply := none }
    let s := fun (n : Word) (fence : FenceState) => putFamily { graphicReady with
      comp := { graphicReady.comp with flips := [f] }, eng := { graphicReady.eng with fences := [(1, fence)], nextFence := 2 }
      } 0 { hang := n }
    let x : CompStaged := { head := 31, hang := 5, change := .head {}, reply := none }
    let t := putFamily { hanging ready with comp := { ready.comp with staged := [x] } } 0 { hang := 6 }
    (familyOn ready 0 = false ∧ familyOn (s 5 .pending) 0 = true ∧ (s 5 .pending).comp.staged = [] ∧ f.family = 0) ∧
    (flipHang (s 5 .pending) f 5 = some 4 ∧ notEarlier 4 f.target = false) ∧
    (flipHang (s 6 .signalled) f 6 = some 5 ∧ notEarlier 5 f.target = true ∧ fenceReady (s 6 .signalled) 1 = true) ∧
    (flipHang (s 7 .pending) f 7 = some 6 ∧ fenceReady (s 7 .pending) 1 = false ∧ deadlineAt (s 7 .pending) f 6 = false) ∧
    (flipHang (s 8 .pending) f 8 = some 7 ∧ notEarlier 7 f.target = true ∧ deadlineAt (s 8 .pending) f 7 = true) ∧
    (t.comp.staged = [x] ∧ t.comp.flips = [] ∧ headFamily t 31 = 0 ∧ headFrameAt t 31 6 = true ∧
      hangDue (6 - BitVec.ofNat 32 (headStep t 31)) x.hang = true ∧ hangDue (4 - BitVec.ofNat 32 (headStep t 31)) x.hang
        = false) := by decide +kernel

/-! ### Engines, faults and monitors -/

theorem test_EngineCommandsAreTaken :
    let p := packetOf specAssign [0, 1, 0, 255, 0, 0, 0, 0]
    Runs specAssign p ready ∧ sess p ≠ 0 ∧ (sessionOf ready (sess p)).isOpen = true := runs_and (by decide +kernel)

/-- Engine 127 with a record. -/
def engineWith (e : Engine) : State := putEngine ready 127 e

theorem test_EngineEventsRunKernels :
    let w : Switch := { cfg := { kernel := 1 }, target := none, former := .unassigned }
    let e := engineOf ready 127
    let run := engineWith { e with state := .running, cfg := { kernel := 1 } }
    let skips := engineWith { e with state := .running, cfg := { kernel := 1 }, skips := 3 }
    let loads := fun (w : Switch) => engineWith { e with state := .loading, switch := some w }
    let ready' := { w with loaded := true }
    let activating := { loads w with store := { ready.store with
      activation := some { hang := 0, family := 0, window := 30, reply := none } } }
    let list := fun (l : DisplayList) (r : Bool) =>
      engineWith { e with state := .running, cfg := { kernel := 1 }, queue := [l], listRunning := r }
    let spare := putEngine (engineWith { e with state := .stopped, cfg := { kernel := 1 } }) 126
      { engineOf ready 126 with state := .spare, cfg := { kernel := 0xFF, cover := 0x80 } }
    let fenced := { list { vit := 0, words := [], fences := [1] } true with
      eng := { (list { vit := 0, words := [], fences := [1] } true).eng with fences := [(1, .pending)], nextFence := 2 } }
    (e.switch = none ∧ (engineOf (loads w) 127).switch = some w ∧ w.loaded = false ∧ w.reply = none ∧
      ready.store.activation = none ∧ ready'.loaded = true ∧ ({ w with reply := some {} } : Switch).reply = some {}) ∧
    (activating.store.activation.isSome = true ∧ activating.store.fallingBack = false ∧
      w.slot = activating.store.bootSlot) ∧
    (switchReady (loads w) w = false ∧ switchReady (loads ready') ready' = true) ∧
    (let probe := engineWith { e with state := .running, cfg := { kernel := kernelProbe } }
     runningKernel probe 127 = some kernelProbe ∧ (engineOf probe 127).pendingParams = [] ∧
      (destPicture probe 2303).isSome = true) ∧
    (runningKernel ready 127 = none ∧ (runningKernel run 127).isSome = true ∧ 3 ≤ (engineOf skips 127).skips) ∧
    ((engineOf (list { vit := 0, words := [], fences := [] } true) 127).listRunning = true ∧
      (engineOf ready 127).listRunning = false) ∧
    (needsTakeover spare 127 = true ∧ spareFor spare 127 = some 126 ∧ needsTakeover ready 127 = false) ∧
    (runsKernel run 127 1 = true ∧ runsKernel ready 127 1 = false ∧
      drawUntilSignal run 0 (listCommands []) [] = some ([], []) ∧
      drawUntilSignal run 0 (listCommands [0x0106]) [] = some ([], [[0x0106]]) ∧
      drawUntilSignal run 0 (listCommands [0x0505, 0, 0, 0, 0]) [] = none) ∧
    ((engineOf fenced 127).queue = [{ vit := 0, words := [], fences := [1] }] ∧ fenceView fenced 1 = .pending) := by
  decide +kernel

theorem test_FaultsAreRaised :
    let s := { ready with flt := { ready.flt with sources := [(0x0B * 1024 + 31 * 32, { sticky := true, critical := true })] } }
    let ack := packetOf specFaultAck [1, 0, 0, 0, 0, 4]
    let raised := putFault ready 0x0400 { sticky := true }
    let force := packetOf specForce [0, 0x2C, 0, 0]
    let tdm := packetOf specForce (leBytes 2 (faultId 0x09 31 0) ++ [0, 0])
    defaultSeverity 0 = none ∧ (defaultSeverity 0x0400).isSome = true ∧
    (effectiveSeverity ready 0x0400 = 1 ∧ effectiveSeverity raised 0x0400 = 2) ∧
    (effectiveSeverity ready (faultId 0x0D 31 0) = 3 ∧ ∃ e ∈ s.flt.sources, e.2.critical = true) ∧
    (Runs specFaultAck ack raised ∧ 0x0400 ∈ ackNames raised ack ∧ (faultOf raised 0x0400).sticky = true ∧
      0x0401 ∉ ackNames raised ack) ∧
    (Runs specForce force ready ∧ faultClass (u16 force 0) = 0x0B ∧ faultIndex (u16 force 0) < 8) ∧
    (Runs specForce tdm (putTdm ready 0 { state := .running }) ∧ faultClass (u16 tdm 0) = 0x09 ∧
      faultIndex (u16 tdm 0) < 16) :=
  ⟨by decide +kernel, by decide +kernel, by decide +kernel, by decide +kernel, runs_and (by decide +kernel),
    runs_and (by decide +kernel), runs_and (by decide +kernel)⟩

theorem test_MonitorsRaiseTheirSources :
    let broken := putPool ready { ready.pkt.pool with free := 0 }
    let run := engineRuns 1 ready
    let hot := { ready with chip := { ready.chip with railsOut := [.vddCore] } }
    failing ready = [] ∧ (∃ k ∈ failing broken, k ∉ broken.led.failed) ∧
    isMemorySource 0 = false ∧ isMemorySource (faultId 0x0C 0 1) = true ∧ isMemorySource (faultId 0x0C 31 0) = true ∧
    engineOfMemory (faultId 0x0C 0 1) = some 0 ∧ (runningKernel run 0).isSome = true ∧
    sendingPort (portWith { sending := some (4, frameAt 0) }) 4 = some 0 ∧
    hot.chip.railsOut.contains .vddCore = true ∧ ready.chip.railsOut.contains .vddCore = false := by decide +kernel

/-! ### The store, images and keys

The verdict of a complete image, and the answer of ACTIVATE to one that is verified, rest on opaque values of Config. -/

theorem test_StoreCommands :
    let verify := packetOf specImageVerify []
    let chunk := packetOf specImageChunk (List.replicate 8 0 ++ [0])
    let begins := fun (r : Byte) => packetOf specImageBegin ([1, 0, 0, 0, r] ++ List.replicate 51 0)
    let rx := fun (st : Nat) (l : List Nat) =>
      withStore { State.reset.store with rx := some { slot := 1, state := st, size := 1, digest := 0, held := l } } ready
    let debugField := { ready with life := { ready.life with entries := 1 }
                                   cmd := { ready.cmd with sessions := [(1, { sessionOf ready 1 with debugSlot := true })] } }
    let life := fun (t : Byte) => packetOf specLifecycle ([t, 0, 0, 0] ++ leBytes 4 0x7A561536)
    let blank := { ready with life := { ready.life with provisioned := false } }
    (Runs specImageBegin (begins 0) ready ∧ resumes ready (begins 0) = false ∧ sess (begins 0) ≠ 0 ∧
      (sessionOf ready (sess (begins 0))).isOpen = true) ∧
    (Runs specImageBegin (begins 1) (rx 1 []) ∧ resumes (rx 1 []) (begins 1) = true ∧ (rxNow (rx 1 [])).isSome = true) ∧
    (Runs specImageChunk chunk (rx 1 []) ∧ (rxNow (rx 1 [])).map (fun x => x.held.contains (u32 chunk 0)) = some false) ∧
    (Runs specImageChunk chunk (rx 1 [0]) ∧ (rxNow (rx 1 [0])).map (fun x => x.held.contains (u32 chunk 0)) = some true) ∧
    (Runs specImageVerify verify (rx 2 []) ∧ (rxNow (rx 2 [])).map (fun x => (imageVerdict (rx 2 []) x).1) = some 1) ∧
    (Runs specLifecycle (life 2) ready ∧ lifeState ready = 1 ∧ u8 (life 2) 0 = 2) ∧
    (Runs specLifecycle (life 1) debugField ∧ lifeState debugField = 2) ∧
    (Runs specLifecycle (life 3) blank ∧ lifeState blank = 0) :=
  ⟨runs_and (by decide +kernel), runs_and (by decide +kernel), runs_and (by decide +kernel), runs_and (by decide +kernel),
    runs_and (by decide +kernel), runs_and (by decide +kernel), runs_and (by decide +kernel), runs_and (by decide +kernel)⟩

/-- ATTEST without a slot that holds its use. -/
theorem test_Attest : attestSlot (checkSlots 32 ready) = none := by decide +kernel

theorem test_BankWritesComplete :
    let b : Bank := { seq := 1 }
    let w : BankWrite := { change := .confirm }
    let s := withStore { State.reset.store with noBank := false, bankA := some b, writes := [w] } ready
    let t := withStore { s.store with selectedB := true, bankB := some b } ready
    let rx := withStore { State.reset.store with
      rx := some { slot := 1, state := 1, size := 1, digest := 0, held := [] }, sinceBitmap := 1 } ready
    ready.store.writes = [] ∧ s.store.writes = [w] ∧ baseBank s = some b ∧ underTestRoot s = false ∧ writesB s = true ∧
    writesB t = false ∧ (rx.store.rx.isSome = true ∧ rx.store.sinceBitmap ≠ 0) ∧ ready.store.rx = none := by decide +kernel

/-! ### Twin pairs -/

theorem test_TwinPairsWork :
    let swap := packetOf specTwinSwap []
    let m := fun (b : Byte) => [1, b] ++ List.replicate 62 (0 : Byte)
    let with' := fun (p : PairState) (a : Bool) (o : Option PartnerState) =>
      withTwin { State.reset.twin with pair := p, active := a, partner := o } ready
    let w : Swap := { hang := 0, family := 0, agreed := true, late := false, reply := none, notify := false }
    let swapping := withTwin { paired.twin with swap := some w } ready
    let h : HostPacket := { opcode := specFaultAck.code, body := packetOf specFaultAck [1, 0, 0, 0, 0, 4] }
    let o := fun (q : Mirrored) => withTwin { paired.twin with awaiting := [q] } ready
    let seek := with' .seeking false none
    (Runs specTwinSwap swap (hanging paired) ∧ sess swap ≠ 0 ∧ (sessionOf paired (sess swap)).isOpen = true) ∧
    (seek.twin.pair ≠ .unpaired ∧ field (m 0) 0 1 = 1 ∧ field (List.replicate 64 (0 : Byte)) 0 1 ≠ 1 ∧
      ((readTwinState (m 1) 0).letterB ≠ seek.set.twinLetter ∨ (readTwinState (m 0) 0).letterB ≠ seek.set.twinLetter) ∧
      (readTwinState (m 0) 0).laneCount = seek.set.twinLanes.length) ∧
    (paired.twin.pair = .paired ∧ paired.twin.cancelled = [] ∧ ready.twin.pair = .unpaired) ∧
    (paired.twin.active = false ∧ twinReady paired = true ∧ paired.twin.swap = none ∧
      effectiveSeverity paired (faultId 0x10 31 5) < 3) ∧
    (partnerActive (with' .partnerLost false (some { partner with active := true })) = true ∧
      readyAlone paired = true ∧ partnerActive paired = false) ∧
    (swapping.twin.swap = some w ∧ (familyOf swapping 0).hang = w.hang) ∧
    (mirrorServed h paired = true ∧ later 1 paired.twin.rxSeq = true ∧ later 0 paired.twin.rxSeq = false ∧
      (mirrorSpecs.find? (fun o => o.code == h.opcode && mirrorable o)).isSome = true) ∧
    ((o { twinSeq := 1, status := 0, hang := 0 }).twin.awaiting.find? (fun m => m.twinSeq == 1)
        = some { twinSeq := 1, status := 0, hang := 0 } ∧ paired.twin.awaiting.find? (fun m => m.twinSeq == 1) = none) :=
  ⟨runs_and (by decide +kernel), by decide +kernel⟩

/-- A mirrored DEST_LOCK passes and answers. -/
theorem test_TwinCommand :
    let h : HostPacket := { opcode := specDestLock.code, body := lockPacket }
    let u := takeInbox 1 (fun b => b == packetBytes h) paired
    let v := { u with twin := { u.twin with rxSeq := 1 } }
    let p := mirroredPacket 1 h.body
    let r := { replyHeader specDestLock.code p with mirrored := true }
    (mirrorSpecs.find? (fun o => o.code == h.opcode && mirrorable o)).map (fun o => o.code) = some specDestLock.code ∧
    firstFail [formChecks specDestLock h.body, classCheck specDestLock p, opcodeChecks specDestLock p v] = none ∧
    (specDestLock.effect r p v).2.isSome = true ∧ ringsEmpty (specDestLock.effect r p v).1 = true ∧
    ringsEmpty paired = true := by decide +kernel

/-- A mirrored take, where nothing waits at the gate, where a packet does, and where 256 do. -/
theorem test_TwinTake :
    let h : HostPacket := { opcode := specTakeVideo.code, body := takePacket }
    let waits := fun (n : Nat) => { paired with cmd := { paired.cmd with
      takeQueue := List.replicate n { h with body := { takePacket with endpoint := .twin 1 } } } }
    mirrorServed h paired = true ∧ later 1 paired.twin.rxSeq = true ∧ h.body.cls = 0 ∧ paired.cmd.takeQueue = [] ∧
    gateRoom (waits 1) = true ∧ (∃ x ∈ (waits 1).cmd.takeQueue, x.body.endpoint ≠ .pcie) ∧
    gateRoom (waits 256) = false := by decide +kernel

/-! ### Registers, resets and the Curator -/

/-- Ring c is enabled, with no packet unread. -/
def ringReady (c : Nat) : State := putRing ready c { size := 4096 }

theorem test_RingRegisters :
    let s := ringReady 3
    let h : HostPacket := inRing 3 { opcode := 0xA006, body := packetOf specLedgerRead [] }
    let u := putRing s 3 { ringOf s 3 with tail := 64, unread := [h] }
    let long : HostPacket := { h with body := { h.body with paramLength := 32769 } }
    let v := putRing s 3 { ringOf s 3 with tail := 64, unread := [long] }
    let link := { ready with cmd := { ready.cmd with waiting := [{}], replyRing := { size := 4096 } } }
    ((ringOf s 3).halted = false ∧ tailOk (ringOf s 3).size.toNat 4096 = false ∧ tailOk (ringOf s 3).size.toNat 4032 = true) ∧
    ((ringOf (putRing ready 3 { halted := true }) 3).halted = true) ∧
    (∀ k ∈ [0, 1, 2, 3], canReadRing ready k = false) ∧
    (canReadRing u 3 = true ∧ noControlWaits u = true ∧ (ringOf u 3).unread = [h] ∧ h.body.endpoint = .pcie ∧
      h.body.ring = 3 ∧ isOpcode h.opcode.toNat = true ∧ h.body.paramLength.toNat ≤ 32768 ∧
      (36 + h.body.paramLength.toNat + 63) / 64 * 64 ≤ (64 + 4096 - 0) % 4096) ∧
    (canReadRing v 3 = true ∧ 32768 < long.body.paramLength.toNat) ∧
    (ready.cmd.waiting = [] ∧ link.chip.pcieLink = true ∧ link.cmd.waiting = [{}] ∧
      (36 + 63) / 64 * 64 ≤ replyRoom link.cmd.replyRing ∧ replyRoom {} < 64) ∧
    ready.chip.rootLocked = true ∧ State.reset.chip.rootLocked = false ∧
    ((1 : Word).getLsbD 0 = true ∧ (2 : Word).getLsbD 0 = false ∧ (5 : Word).getLsbD 2 = true) := by decide +kernel

theorem test_BusWrites :
    let opened := putSession ready 16 { window := true }
    (busRefusal ready 1 0x20000000 4 true = none ∧ busTarget ready 0x20000000 = .sram) ∧
    (busRefusal ready 1 0x10000000 4 true = none ∧ busTarget ready 0x10000000 = .rom) ∧
    (busRefusal ready 1 0x50000000 4 true = none ∧ busTarget ready 0x50000000 = .registers ∧
      sysctlBlock 0x50000000 = false ∧ inside 0x50000000 0x40010000 0x10000 = false) ∧
    ((busRefusal ready 1 0x3FFFFFFC 4 true).isSome = true) ∧
    (busRefusal ready 1 0x4000001C 4 true = none ∧ sysctlBlock 0x40000020 = true ∧
      busRefusal ready 1 0x40000020 4 true = none ∧ 0x20 ≤ 0x40000020 % 0x10000) ∧
    ((sessionOf ready 2).window = false ∧ (sessionOf opened 16).window = true ∧ 62914560 / 4194304 + 1 = 16 ∧
      62914560 % 4194304 + 4 ≤ 4194304 ∧ 62914560 < 67108864) := by decide +kernel

theorem test_ResetsAndStartPhases :
    let at' := fun (n : Nat) => { State.reset with chip := { State.reset.chip with startPhase := n } }
    let failed := { at' 2 with chip := { (at' 2).chip with bootFailed := true } }
    (State.reset.chip.startPhase = 0 ∧ (at' 5).chip.startPhase < 6 ∧ (at' 5).chip.bootFailed = false) ∧
    (¬ (ready.chip.startPhase < 6 ∧ ready.chip.bootFailed = false)) ∧
    (failed.chip.startPhase = 2 ∧ failed.chip.bootFailed = true ∧ (at' 2).chip.bootFailed = false) ∧
    (6 ≤ ready.chip.startPhase ∧ (sessionOf ready 1).isOpen = true ∧ (sessionOf ready 1).endpoint = .pcie) ∧
    (lifeState ready = 1 ∧ lifeState { ready with life := { ready.life with retired := true } } = 3 ∧
      lifeState { ready with life := { ready.life with provisioned := false, unlockPending := true } } = 0 ∧
      lifeState { ready with life := { ready.life with entries := 1 } } = 2) := by decide +kernel

theorem test_CuratorRestarts :
    let x := sessionOf ready 1
    let s := { putSession ready 1 { x with control := { x.control with taken := some 3, replied := some 2 } } with
      cur := { ready.cur with restarting := true, confirmRemain := 1 } }
    (s.cur.confirmRemain ≠ 0 ∧ ready.cur.confirmRemain = 0 ∧ ready.cur.restarting = false ∧ s.cur.restarting = true) ∧
    (ringsEmpty s = true ∧ (sessionOf s 1).isOpen = true ∧ (streamOf (sessionOf s 1) 1).taken = some 3 ∧
      (streamOf (sessionOf s 1) 1).replied ≠ some 3) ∧
    ({ ready.store with trial := true }.trial = true ∧ ready.store.trial = false ∧ ready.store.fallingBack = false) := by
  decide +kernel

/-! ### The debug ports -/

theorem test_DocentAnswers :
    let s := fun (m : Nat) => { ready with doc := { ready.doc with mode := m }, life := { ready.life with entries := 1, testRoot := true } }
    let lined := { s 1 with doc := { (s 1).doc with line := List.replicate 128 0x41 } }
    let long := { s 1 with doc := { (s 1).doc with overlong := true } }
    ((s 0).doc.mode = 0 ∧ (s 1).doc.mode ≤ 1 ∧ 2 ≤ (s 2).doc.mode ∧ (s 1).chip.curatorServing = true ∧
      (s 1).doc.output = []) ∧
    (busRefusal (s 2) 3 0x20000000 4 false = none ∧ busTarget (s 2) 0x20000000 = .sram ∧
      (busRefusal (s 2) 3 0x3FFFFFFC 4 false).isSome = true) ∧
    ((s 1).doc.line.length < 128 ∧ 128 ≤ lined.doc.line.length ∧ long.doc.overlong = true ∧
      knownLine lined.doc.line = false ∧ lined.doc.line ≠ []) := by decide +kernel

theorem test_DocentPoke :
    let s := { ready with doc := { ready.doc with mode := 2 } }
    s.chip.rootLocked = true ∧ ∃ u, exec (.registerWrite 3 (.bus 0x20000000) 4 (BitVec.ofNat 32 5)) s = .next u :=
  ⟨rfl, _, rfl⟩

theorem test_LateHeadAndPoke :
    let old := putQueue portReady 4 { cfg := { enable := true }, frames := [frameAt (0 - 59401)] }
    let s := { ready with doc := { ready.doc with mode := 2 }
                          life := { ready.life with entries := 1, testRoot := true } }
    let goes := fun (a : BitVec 40) (t : BusTarget) => busRefusal s 3 a.toNat 4 true = none ∧ busTarget s a.toNat = t
    (isControlQueue 4 = false ∧ (queueOf old 4).frozen = false ∧ (queueOf old 4).frames = [frameAt (0 - 59401)] ∧
      isLate old 4 (frameAt (0 - 59401)) = true ∧ (queueOf portReady 4).frames = [] ∧
      (queueOf (putQueue old 4 { queueOf old 4 with frozen := true }) 4).frozen = true ∧
      (queueOf (putQueue old 4 { queueOf old 4 with frozen := true }) 4).frames = [frameAt (0 - 59401)]) ∧
    (s.doc.mode = 2 ∧ s.chip.curatorServing = true ∧ s.doc.output = []) ∧
    ((busRefusal s 3 0x40000008 4 true).isSome = true ∧ goes 0x20000000 .sram ∧ goes 0x10000000 .rom ∧
      goes 0x40010038 .registers ∧ goes 0x40010034 .registers ∧ goes 0x40010000 .registers ∧
      inside 0x40010038 0x40010000 0x10000 = true ∧ goes 0x50000000 .registers ∧
      inside 0x50000000 0x40010000 0x10000 = false) := by decide +kernel

theorem test_JtagPortActs :
    let at' := fun (x : JtagInstr) => { ready with chip := { ready.chip with jtag := x } }
    let unlocked := { ready with life := { ready.life with entries := 1, testRoot := true } }
    ((at' .extest).chip.jtag ∈ [JtagInstr.extest, .clamp, .highz] ∧ JtagInstr.bypass ∉ [JtagInstr.extest, .clamp, .highz] ∧
      ready.chip.jtag ∉ [JtagInstr.extest, .clamp, .highz]) ∧
    (lifeState ready ≠ 0 ∧ lifeState { ready with life := { ready.life with provisioned := false } } = 0) ∧
    (ready.life.testRoot = false ∧ unlocked.life.testRoot = true ∧
      busRefusal unlocked 3 0x20000000 4 false = none ∧ busTarget unlocked 0x20000000 = .sram ∧
      (busRefusal unlocked 3 0x3FFFFFFC 4 false).isSome = true) := by decide +kernel

end Sys2Proof.Tests
end

section
namespace Sys2Proof.Machine

/-! ## The front command, and the reset state (R32, R41) -/

/-- Settles O1: `step` takes the front of the queue by definition, and an empty queue leaves `idle`. -/
theorem frontCommandRuns : Obligations.FrontCommandRuns := by
  unfold Obligations.FrontCommandRuns
  refine ⟨fun c rest s h => ?_, fun s h => ⟨fun locked => ?_, fun unlocked => ?_⟩⟩
  · simp only [step, h]
  · simp only [step, h, idle, locked, if_true]
  · simp only [step, h, idle, unlocked, Bool.false_eq_true, if_false]

theorem familyCfg_reset (n : Nat) : familyCfg State.reset n = familyCfgDefault n := rfl

/-- Settles O36: the tables of BAR0 by evaluation, the rest by what the reset state is. -/
theorem resetValues : Obligations.ResetValues := by
  unfold Obligations.ResetValues
  refine ⟨by decide +kernel, by decide +kernel, ?_⟩
  refine ⟨rfl, rfl, rfl, rfl, rfl, rfl, rfl, rfl, rfl, rfl, rfl, rfl, fun n => rfl, ?_, ?_, rfl, rfl, rfl⟩
  · exact fun n => by simp only [familyOn, familyCfg_reset, familyCfgDefault, Bool.and_false]
  · intro m d; cases m <;> rfl
end Sys2Proof.Machine
end

section
namespace Sys2Proof.Machine
open Relation

/-! ## What operations beside the command channel can do -/

/-- The areas of the state that a layer of operations may change. -/
inductive Area where
  | fault | fab | lane | link | pair | mtx | sdi | pkts | port | pkt | draws | time | ref | aud | comp | eng | cmd
  | twin | set | store | doc
  deriving DecidableEq

/-- What a port has counted of the frames that reached it. -/
def rxTally (c : PortCounters) : Nat × Nat × Nat × Tab Nat := (c.received, c.forwarded, c.trapped, c.dropped)

/-- The source of R233 that every writer that is refused may raise. -/
abbrev sharedFault : Nat := faultId 0x06 31 0

/-- One elementary change inside the areas `T`. Without `fab` a lane keeps its counters and does not enter LOCKED; without
`pkts` a port keeps what it has counted of its received frames; without `fault` the only raise is that of the shared
cells. -/
inductive Touch (T : List Area) : State → State → Prop
  | raise (s : State) (id : Nat) (h : .fault ∈ T ∨ id = sharedFault) : Touch T s (raiseCore id s)
  | irq (s : State) (e : Nat) : Touch T s (raiseIrq e s)
  | fab (s : State) (x : Fabric) (h : .fab ∈ T) : Touch T s { s with fab := x }
  | lane (s : State) (l : Nat) (v : Lane) (h : .lane ∈ T) (hc : v.counters = (laneOf s l).counters)
      (hl : v.state = .locked → (laneOf s l).state = .locked) : Touch T s (putLane s l v)
  | link (s : State) (x : Tab Link) (h : .link ∈ T) : Touch T s { s with fab := { s.fab with links := x } }
  | pair (s : State) (x : Tab Pair) (y : Tab FabricSource) (h : .pair ∈ T) :
      Touch T s { s with fab := { s.fab with pairs := x, sources := y } }
  | tx (s : State) (x : Tab TxContainer) (h : .mtx ∈ T) : Touch T s { s with fab := { s.fab with tx := x } }
  | mtx (s : State) (x : Matrices) (h : .mtx ∈ T) : Touch T s { s with mtx := x }
  | sdi (s : State) (x : Sdi) (h : .sdi ∈ T) : Touch T s { s with sdi := x }
  | pkts (s : State) (x : Packets) (h : .pkts ∈ T) : Touch T s { s with pkt := x }
  | port (s : State) (n : Nat) (v : Port) (h : .port ∈ T)
      (hc : rxTally v.counters = rxTally (portOf s n).counters) : Touch T s (putPort s n v)
  | pkt (s : State) (x : Packets) (h : .pkt ∈ T) (hp : x.ports = s.pkt.ports) : Touch T s { s with pkt := x }
  | draws (s : State) (x : Nat) (h : .draws ∈ T) : Touch T s { s with draws := x }
  | time (s : State) (x : TimeBase) (h : .time ∈ T) : Touch T s { s with time := x }
  | ref (s : State) (x : Reference) (h : .ref ∈ T) : Touch T s { s with ref := x }
  | aud (s : State) (x : Audio) (h : .aud ∈ T) : Touch T s { s with aud := x }
  | comp (s : State) (x : Compositor) (h : .comp ∈ T) : Touch T s { s with comp := x }
  | eng (s : State) (x : Engines) (h : .eng ∈ T) : Touch T s { s with eng := x }
  | cmd (s : State) (x : Command) (h : .cmd ∈ T) (hi : x.irqStatus = s.cmd.irqStatus) : Touch T s { s with cmd := x }
  | twin (s : State) (x : Twin) (h : .twin ∈ T) : Touch T s { s with twin := x }
  | set (s : State) (x : Settings) (h : .set ∈ T) : Touch T s { s with set := x }
  | store (s : State) (x : Store) (h : .store ∈ T) : Touch T s { s with store := x }
  | doc (s : State) (x : Docent) (h : .doc ∈ T) : Touch T s { s with doc := x }

/-- A run of elementary changes inside the areas `T`. -/
abbrev Moves (T : List Area) : State → State → Prop := ReflTransGen (Touch T)

section
variable {T : List Area} {a s : State}

/-! ### Composing -/

theorem ite_moves {c : Prop} [Decidable c] {t : State} (h : Moves T a s) (g : Moves T a t) :
    Moves T a (if c then s else t) := by split <;> assumption

theorem foldl_moves {α : Type} {f : State → α → State} {l : List α}
    (hf : ∀ s x, Moves T a s → Moves T a (f s x)) (h : Moves T a s) : Moves T a (l.foldl f s) := by
  induction l generalizing s with
  | nil => exact h
  | cons x l ih => exact ih (hf s x h)

theorem irq_moves {e : Nat} (h : Moves T a s) : Moves T a (raiseIrq e s) := h.tail (.irq s e)

theorem raiseCore_moves (hf : .fault ∈ T) {id : Nat} (h : Moves T a s) : Moves T a (raiseCore id s) :=
  h.tail (.raise s id (.inl hf))

theorem note_moves (hf : .fault ∈ T) {c i : Nat} (h : Moves T a s) : Moves T a (note c i s) := raiseCore_moves hf h

theorem noteShared_moves {b : Bool} (h : Moves T a s) : Moves T a (noteShared b s) := by
  unfold noteShared
  exact ite_moves (h.tail (.raise s _ (.inr rfl))) h

/-! ### Matrices, and what they send -/

theorem mtx_moves (hm : .mtx ∈ T) {x : Matrices} (h : Moves T a s) : Moves T a { s with mtx := x } := h.tail (.mtx s x hm)
theorem putDestRun_moves (hm : .mtx ∈ T) {d : Nat} {v : DestRun} (h : Moves T a s) : Moves T a (putDestRun s d v) :=
  mtx_moves hm h
theorem putSource_moves (hm : .mtx ∈ T) {n : Nat} {v : Source} (h : Moves T a s) : Moves T a (putSource s n v) :=
  mtx_moves hm h
theorem putEssence_moves (hm : .mtx ∈ T) {n : Nat} {v : Essence} (h : Moves T a s) : Moves T a (putEssence s n v) :=
  mtx_moves hm h
theorem putTx_moves (hm : .mtx ∈ T) {d : Nat} {v : TxContainer} (h : Moves T a s) : Moves T a (putTx s d v) :=
  h.tail (.tx s _ hm)

theorem pushSegments_moves (hm : .mtx ∈ T) {d : Nat} {g : List (List Word64)} (h : Moves T a s) :
    Moves T a (pushSegments d g s) := putTx_moves hm h

theorem pushLine_moves (hm : .mtx ∈ T) {d : Nat} {l : PicLine} (h : Moves T a s) : Moves T a (pushLine d l s) := by
  unfold pushLine
  split
  exact ite_moves (pushSegments_moves hm (putTx_moves hm h)) (putTx_moves hm h)

theorem blackRest_moves (hm : .mtx ∈ T) {d : Nat} (h : Moves T a s) : Moves T a (blackRest d s) := by
  unfold blackRest
  exact ite_moves h (foldl_moves (fun _ _ => pushLine_moves hm) h)

theorem countJudgment_moves (hf : .fault ∈ T) (hm : .mtx ∈ T) {d : Nat} (h : Moves T a s) :
    Moves T a (countJudgment d s) := by
  unfold countJudgment
  extract_lets r
  split
  · exact putDestRun_moves hm h
  · extract_lets mism ref s1 again src s2
    have h1 : Moves T a s1 := putDestRun_moves hm h
    have h2 : Moves T a s2 := ite_moves (mtx_moves hm h1) h1
    exact ite_moves (note_moves hf (mtx_moves hm h2)) h2

theorem enterFallback_moves (hf : .fault ∈ T) (hm : .mtx ∈ T) {d : Nat} (h : Moves T a s) :
    Moves T a (enterFallback d s) := by
  unfold enterFallback
  have h1 := blackRest_moves hm (d := d) (putDestRun_moves hm h (d := d) (v := { destRun s d with inFallback := true }))
  exact ite_moves h (ite_moves (note_moves hf h1) h1)

theorem judgeDest_moves (hf : .fault ∈ T) (hm : .mtx ∈ T) {d : Nat} (h : Moves T a s) : Moves T a (judgeDest d s) :=
  ite_moves (enterFallback_moves hf hm (countJudgment_moves hf hm h)) (countJudgment_moves hf hm h)

theorem judgeAll_moves (hf : .fault ∈ T) (hm : .mtx ∈ T) {n : Nat} (h : Moves T a s) : Moves T a (judgeAll n s) :=
  foldl_moves (fun _ _ => judgeDest_moves hf hm) h

theorem loseSource_moves (hf : .fault ∈ T) (hm : .mtx ∈ T) {n : Nat} (h : Moves T a s) : Moves T a (loseSource n s) :=
  judgeAll_moves hf hm (putSource_moves hm h)

/-! ### The cell pool and the queues -/

theorem pkt_moves (hp : .pkt ∈ T) {x : Packets} (hx : x.ports = s.pkt.ports) (h : Moves T a s) :
    Moves T a { s with pkt := x } := h.tail (.pkt s x hp hx)
theorem putQueue_moves (hp : .pkt ∈ T) {q : Nat} {v : Queue} (h : Moves T a s) : Moves T a (putQueue s q v) :=
  pkt_moves hp rfl h
theorem putPool_moves (hp : .pkt ∈ T) {v : CellPool} (h : Moves T a s) : Moves T a (putPool s v) := pkt_moves hp rfl h
theorem putTxFlow_moves (hp : .pkt ∈ T) {n : Nat} {v : TxFlow} (h : Moves T a s) : Moves T a (putTxFlow s n v) :=
  pkt_moves hp rfl h
theorem countQueue_moves (hp : .pkt ∈ T) {q : Nat} {f : QueueCounters → QueueCounters} (h : Moves T a s) :
    Moves T a (countQueue q f s) := putQueue_moves hp h
theorem countFrozenDrop_moves (hp : .pkt ∈ T) {q : Nat} (h : Moves T a s) : Moves T a (countFrozenDrop q s) :=
  countQueue_moves hp h

theorem putStalled_moves (hp : .pkt ∈ T) {g b : Bool} {q : Nat} {l : List QFrame} (h : Moves T a s) :
    Moves T a (putStalled g q l b s) := by
  unfold putStalled
  exact ite_moves (putQueue_moves hp h) (putQueue_moves hp h)

theorem takeCells_moves (hp : .pkt ∈ T) {c : Nat} (h : Moves T a s) : Moves T a (takeCells c s) :=
  putPool_moves hp (putPool_moves hp h)
theorem appendFrame_moves (hp : .pkt ∈ T) {q : Nat} {f : QFrame} (h : Moves T a s) : Moves T a (appendFrame q f s) :=
  putQueue_moves hp h
theorem linkFrame_moves (hp : .pkt ∈ T) {q : Nat} {f : QFrame} (h : Moves T a s) : Moves T a (linkFrame q f s) :=
  takeCells_moves hp (appendFrame_moves hp h)

theorem retryStalled_moves (hp : .pkt ∈ T) {g b : Bool} {q : Nat} {l : List QFrame} (h : Moves T a s) :
    Moves T a (retryStalled g q l b s) := by
  induction l generalizing s b with
  | nil => exact putStalled_moves hp h
  | cons f r ih =>
    unfold retryStalled
    split
    · exact ih (linkFrame_moves hp h)
    · exact ih (countFrozenDrop_moves hp h)
    · exact noteShared_moves (putStalled_moves hp h)

theorem retryQueue_moves (hp : .pkt ∈ T) {q : Nat} (h : Moves T a s) : Moves T a (retryQueue q s) := by
  unfold retryQueue
  extract_lets s1
  have h1 : Moves T a s1 := ite_moves h (retryStalled_moves hp h)
  exact ite_moves h1 (retryStalled_moves hp h1)

theorem retryHeld_moves (hp : .pkt ∈ T) {q : Nat} {l : List QFrame} (h : Moves T a s) :
    Moves T a (retryHeld q l s).1 := by
  induction l generalizing s with
  | nil => exact h
  | cons f r ih =>
    unfold retryHeld
    split
    · exact ih (linkFrame_moves hp h)
    · exact ih (countFrozenDrop_moves hp h)
    · exact noteShared_moves h

theorem retryFlow_moves (hp : .pkt ∈ T) {n : Nat} (h : Moves T a s) : Moves T a (retryFlow n s) := by
  unfold retryFlow
  split
  · exact h
  · rename_i f _
    have h1 := retryHeld_moves hp (q := f.legA.queue) (l := f.legA.held) h
    split
    rename_i s1 _ e1
    rw [e1] at h1
    split
    · exact putTxFlow_moves hp h1
    · rename_i b _
      have h2 := retryHeld_moves hp (q := b.queue) (l := b.held) h1
      split
      rename_i e2
      rw [e2] at h2
      exact putTxFlow_moves hp h2

/-- Writers that ask again change queues, cells and flows, and may raise the source of the shared cells (R222, R233). -/
theorem retryAll_moves (hp : .pkt ∈ T) (h : Moves T a s) : Moves T a (retryAll s) := by
  unfold retryAll
  exact foldl_moves (fun _ _ => retryFlow_moves hp) (foldl_moves (fun _ _ => retryQueue_moves hp) h)

theorem giveCells_moves (hp : .pkt ∈ T) {f : QFrame} (h : Moves T a s) : Moves T a (giveCells f s) := putPool_moves hp h
theorem retireCells_moves (hp : .pkt ∈ T) {q : Nat} {l : List Nat} (h : Moves T a s) : Moves T a (retireCells q l s) :=
  putPool_moves hp h

theorem discardCells_moves (hp : .pkt ∈ T) {q : Nat} {f : QFrame} (h : Moves T a s) :
    Moves T a (discardCells q f s) := by
  unfold discardCells
  have h1 := giveCells_moves hp (f := { f with
    cells := f.cells - (f.at'.filter (fun c => s.pkt.pool.badCells.contains (q, c))).length
    at' := f.at'.filter (fun c => !(f.at'.filter (fun c => s.pkt.pool.badCells.contains (q, c))).contains c) }) h
  exact ite_moves h1 (ite_moves (putQueue_moves hp h1) (retireCells_moves hp h1))

theorem isolateQueues_moves (hp : .pkt ∈ T) {id : Nat} (h : Moves T a s) : Moves T a (isolateQueues id s) :=
  retryAll_moves hp (foldl_moves (fun _ _ => putQueue_moves hp) h)

theorem raiseQueue_follows (hp : .pkt ∈ T) {id : Nat} (h : Moves T a (raiseCore id s)) : Moves T a (raiseQueue id s) :=
  ite_moves (isolateQueues_moves hp h) h

/-! ### Packet ports -/

/-- A port that keeps what it has counted of its received frames. -/
theorem putPort_moves (ho : .port ∈ T) {n : Nat} {v : Port} (hc : rxTally v.counters = rxTally (portOf s n).counters)
    (h : Moves T a s) : Moves T a (putPort s n v) := h.tail (.port s n v ho hc)

theorem countPort_moves (ho : .port ∈ T) {n : Nat} {f : PortCounters → PortCounters} (hc : ∀ c, rxTally (f c) = rxTally c)
    (h : Moves T a s) : Moves T a (countPort n f s) := putPort_moves ho (hc _) h

/-- What sending, and cutting a frame off, may change. -/
def wireAreas : List Area := [.port, .pkt, .draws, .lane]

/-- A lane that keeps its counters and does not enter LOCKED. -/
theorem putLane_moves (hl : .lane ∈ T) {l : Nat} {v : Lane} (hc : v.counters = (laneOf s l).counters)
    (hs : v.state = .locked → (laneOf s l).state = .locked) (h : Moves T a s) : Moves T a (putLane s l v) :=
  h.tail (.lane s l v hl hc hs)

theorem sendWire_moves (hT : wireAreas ⊆ T) {n : Nat} {w : Bytes} (h : Moves T a s) : Moves T a (sendWire n w s) := by
  unfold sendWire
  extract_lets v lanes
  split
  exact foldl_moves (fun _ _ => putLane_moves (hT (by decide)) rfl id) (putPort_moves (hT (by decide)) rfl h)

theorem draws_moves (hd : .draws ∈ T) {n : Nat} (h : Moves T a s) : Moves T a { s with draws := n } :=
  h.tail (.draws s n hd)

theorem drawBelow_moves (hd : .draws ∈ T) {n : Nat} (h : Moves T a s) : Moves T a (drawBelow n s).2 := draws_moves hd h

theorem cutFrame_moves (hT : wireAreas ⊆ T) {b : Bool} {n : Nat} (h : Moves T a s) : Moves T a (cutFrame b n s) := by
  have hp : Area.pkt ∈ T := hT (by decide)
  unfold cutFrame
  extract_lets p
  split
  · exact h
  · rename_i f _
    have h1 := drawBelow_moves (hT (by decide)) (n := f.bytes + 1) h
    have hc : rxTally p.counters = rxTally (portOf (drawBelow (f.bytes + 1) s).2 n).counters := rfl
    split
    rename_i e
    rw [e] at h1 hc
    exact retryAll_moves hp (discardCells_moves hp (putPool_moves hp (countQueue_moves hp
      (sendWire_moves hT (putPort_moves (hT (by decide)) hc h1)))))

theorem isolatePort_moves (hT : wireAreas ⊆ T) {n : Nat} (h : Moves T a s) : Moves T a (isolatePort n s) :=
  cutFrame_moves hT (putPort_moves (hT (by decide)) rfl h)

theorem raisePacket_follows (hT : wireAreas ⊆ T) {id : Nat} (h : Moves T a (raiseCore id s)) :
    Moves T a (raisePacket id s) := ite_moves (isolatePort_moves hT h) h
theorem raisePacket_moves (hf : .fault ∈ T) (hT : wireAreas ⊆ T) {id : Nat} (h : Moves T a s) :
    Moves T a (raisePacket id s) := raisePacket_follows hT (raiseCore_moves hf h)

theorem portLinkDown_moves (hf : .fault ∈ T) (hT : wireAreas ⊆ T) {n : Nat} (h : Moves T a s) :
    Moves T a (portLinkDown n s) := by
  have ho : Area.port ∈ T := hT (by decide)
  unfold portLinkDown
  exact ite_moves (raisePacket_moves hf hT
    (countPort_moves ho (fun _ => rfl) (cutFrame_moves hT (putPort_moves ho rfl h)))) h

/-! ### SDI -/

/-- What the loss of an input may change. -/
def sdiAreas : List Area := [.fault, .sdi, .mtx]

theorem sdi_moves (hs : .sdi ∈ T) {x : Sdi} (h : Moves T a s) : Moves T a { s with sdi := x } := h.tail (.sdi s x hs)
theorem putSdiIn_moves (hs : .sdi ∈ T) {e : Nat} {v : SdiIn} (h : Moves T a s) : Moves T a (putSdiIn s e v) :=
  sdi_moves hs h
theorem putSdiOut_moves (hs : .sdi ∈ T) {e : Nat} {v : SdiOut} (h : Moves T a s) : Moves T a (putSdiOut s e v) :=
  sdi_moves hs h
theorem countSdiIn_moves (hs : .sdi ∈ T) {e : Nat} {f : SdiInCounters → SdiInCounters} (h : Moves T a s) :
    Moves T a (countSdiIn e f s) := putSdiIn_moves hs h

theorem freezeAudio_moves (hm : .mtx ∈ T) {e : Nat} (h : Moves T a s) : Moves T a (freezeAudio e s) :=
  putEssence_moves hm h
theorem loseEssence_moves (hf : .fault ∈ T) (hm : .mtx ∈ T) {n : Nat} (h : Moves T a s) : Moves T a (loseEssence n s) :=
  loseSource_moves hf hm (putEssence_moves hm h)

theorem isolateSdiIn_moves (hT : sdiAreas ⊆ T) {e : Nat} (h : Moves T a s) : Moves T a (isolateSdiIn e s) := by
  have hs : Area.sdi ∈ T := hT (by decide)
  have hm : Area.mtx ∈ T := hT (by decide)
  unfold isolateSdiIn
  extract_lets i freeze left next src s1 s2
  have h1 : Moves T a s1 := putSdiIn_moves hs h
  have h2 : Moves T a s2 := ite_moves (countSdiIn_moves hs h1) h1
  exact ite_moves (freezeAudio_moves hm h2) (loseEssence_moves (hT (by decide)) hm h2)

theorem isolateSdiOut_moves (hT : sdiAreas ⊆ T) {e : Nat} (h : Moves T a s) : Moves T a (isolateSdiOut e s) :=
  judgeDest_moves (hT (by decide)) (hT (by decide)) (putSdiOut_moves (hT (by decide)) h)

theorem raiseSdi_follows (hT : sdiAreas ⊆ T) {id : Nat} (h : Moves T a (raiseCore id s)) : Moves T a (raiseSdi id s) :=
  ite_moves (ite_moves (isolateSdiIn_moves hT h) (isolateSdiOut_moves hT h)) h
theorem raiseSdi_moves (hT : sdiAreas ⊆ T) {id : Nat} (h : Moves T a s) : Moves T a (raiseSdi id s) :=
  raiseSdi_follows hT (raiseCore_moves (hT (by decide)) h)

theorem dropSdiIn_moves (hT : sdiAreas ⊆ T) {e why : Nat} {next : SdiState} (h : Moves T a s) :
    Moves T a (dropSdiIn e next why s) := by
  have hs : Area.sdi ∈ T := hT (by decide)
  have hm : Area.mtx ∈ T := hT (by decide)
  unfold dropSdiIn
  extract_lets i left linkGone freeze src s1 s2
  have h1 : Moves T a s1 := putSdiIn_moves hs h
  have h2 : Moves T a s2 := ite_moves (freezeAudio_moves hm h1) (loseEssence_moves (hT (by decide)) hm h1)
  exact ite_moves (raiseSdi_moves hT (countSdiIn_moves hs h2)) (ite_moves (raiseSdi_moves hT h2) h2)

theorem loseQuadLink_moves (hT : sdiAreas ⊆ T) {e : Nat} (h : Moves T a s) : Moves T a (loseQuadLink e s) :=
  ite_moves (dropSdiIn_moves hT h) h

theorem sdiSignalGone_moves (hT : sdiAreas ⊆ T) {e why : Nat} (h : Moves T a s) : Moves T a (sdiSignalGone e why s) :=
  ite_moves (loseQuadLink_moves hT (putSdiIn_moves (hT (by decide)) h)) (dropSdiIn_moves hT h)

/-! ### References -/

section
variable (hf : .fault ∈ T) (hr : .ref ∈ T)
include hr

theorem putRef_moves {r : Reference} (h : Moves T a s) : Moves T a (putRef s r) := h.tail (.ref s r hr)
theorem putCandidate_moves {c : Nat} {v : Candidate} (h : Moves T a s) : Moves T a (putCandidate s c v) :=
  h.tail (.ref s _ hr)

include hf

theorem loopUnusable_moves (h : Moves T a s) : Moves T a (loopUnusable s) :=
  ite_moves (note_moves hf (putRef_moves hr h)) (note_moves hf (putRef_moves hr h))

theorem forcedUnusable_moves (h : Moves T a s) : Moves T a (forcedUnusable s) := by
  unfold forcedUnusable
  split
  · exact loopUnusable_moves hf hr h
  · exact loopUnusable_moves hf hr h
  · exact h

theorem disqualify_moves {c why : Nat} (h : Moves T a s) : Moves T a (disqualify c why s) := by
  unfold disqualify
  extract_lets v s1 s2
  have h2 : Moves T a s2 := raiseCore_moves hf (putCandidate_moves hr h)
  exact ite_moves (ite_moves (forcedUnusable_moves hf hr h2) h2) (putCandidate_moves hr h)

theorem loseActivity_moves {c : Nat} {g : Bool} (h : Moves T a s) : Moves T a (loseActivity c g s) :=
  ite_moves (disqualify_moves hf hr (putCandidate_moves hr h)) (ite_moves (putCandidate_moves hr h) h)

theorem laneClockLost_moves {f : Nat} (h : Moves T a s) : Moves T a (laneClockLost f s) :=
  foldl_moves (fun _ _ h => ite_moves (loseActivity_moves hf hr h) h) h
end

/-! ### Lanes -/

theorem putLink_moves (hk : .link ∈ T) {f : Nat} {v : Link} (h : Moves T a s) : Moves T a (putLink s f v) :=
  h.tail (.link s _ hk)
theorem putPair_moves (hk : .pair ∈ T) {k : Nat} {v : Pair} (h : Moves T a s) : Moves T a (putPair s k v) :=
  h.tail (.pair s _ s.fab.sources hk)
theorem putFabricSource_moves (hk : .pair ∈ T) {n : Nat} {v : FabricSource} (h : Moves T a s) :
    Moves T a (putFabricSource s n v) := h.tail (.pair s s.fab.pairs _ hk)

theorem moveTwin_moves (hk : .link ∈ T) {f g : Nat} (h : Moves T a s) : Moves T a (moveTwin f g s) :=
  putLink_moves hk (putLink_moves hk h)

theorem gatherTwin_moves (hk : .link ∈ T) (h : Moves T a s) : Moves T a (gatherTwin s) := by
  unfold gatherTwin
  split
  · exact h
  · exact ite_moves (foldl_moves (fun _ _ => moveTwin_moves hk) h) h

/-- What a lane that leaves LOCKED may change. -/
def lockAreas : List Area := [.fault, .lane, .link, .pair, .mtx, .ref]

theorem loseContainer_moves (hT : lockAreas ⊆ T) {n : Nat} (h : Moves T a s) : Moves T a (loseContainer n s) :=
  loseSource_moves (hT (by decide)) (hT (by decide))
    (putEssence_moves (hT (by decide)) (putFabricSource_moves (hT (by decide)) h))

theorem loseUncarried_moves (hT : lockAreas ⊆ T) {f : Nat} (h : Moves T a s) : Moves T a (loseUncarried f s) :=
  foldl_moves (fun _ _ h => putTx_moves (hT (by decide)) (loseContainer_moves hT h)) h

theorem moveReference_moves (hk : .pair ∈ T) {k b f other : Nat} (h : Moves T a s) :
    Moves T a (moveReference k b f other s) := by
  unfold moveReference
  extract_lets v
  split
  · exact ite_moves (putPair_moves hk h) h
  · exact h

theorem clearPair_moves (hk : .pair ∈ T) {k : Nat} (h : Moves T a s) : Moves T a (clearPair k s) := putPair_moves hk h

/-- A lane that leaves LOCKED. -/
def unlockedLane (f : Nat) (next : LaneState) (s : State) : State :=
  putLane s f { laneOf s f with state := next, goodRun := 0, recent := [] }

theorem leaveLock_follows (hT : lockAreas ⊆ T) {f : Nat} {next : LaneState} (h1 : Moves T a (unlockedLane f next s)) :
    Moves T a (leaveLock f next s) := by
  have hf : Area.fault ∈ T := hT (by decide)
  have hk : Area.link ∈ T := hT (by decide)
  have hp : Area.pair ∈ T := hT (by decide)
  unfold leaveLock
  extract_lets was carried src s1 s2 l s3
  change Moves T a s1 at h1
  have h2 : Moves T a s2 := ite_moves (gatherTwin_moves hk h1) h1
  have h3 : Moves T a s3 := laneClockLost_moves hf (hT (by decide)) (putLink_moves hk h2)
  refine ite_moves h1 ?_
  split
  · exact loseUncarried_moves hT (putLink_moves hk h3)
  · exact ite_moves (raiseCore_moves hf (loseUncarried_moves hT (moveReference_moves hp h3)))
      (loseUncarried_moves hT (clearPair_moves hp (putLink_moves hk h3)))

theorem leaveLock_moves (hT : lockAreas ⊆ T) {f : Nat} {next : LaneState} (hn : next ≠ .locked) (h : Moves T a s) :
    Moves T a (leaveLock f next s) :=
  leaveLock_follows hT (putLane_moves (hT (by decide)) rfl (fun e => absurd e hn) h)

/-- What the isolation of a lane may change. -/
def laneAreas : List Area := lockAreas ++ [.sdi] ++ wireAreas

theorem stopLane_moves (hT : laneAreas ⊆ T) {l : Nat} {next : LaneState} (hn : next ≠ .locked) (h : Moves T a s) :
    Moves T a (stopLane l next s) := by
  have hl : Area.lane ∈ T := hT (by decide)
  have hS : sdiAreas ⊆ T := List.Subset.trans (by decide) hT
  unfold stopLane
  split
  · have h1 := leaveLock_moves (List.Subset.trans (by decide) hT) (f := l) hn h
    exact ite_moves (putLane_moves hl rfl id h1) h1
  · extract_lets e mode src s1 s2
    have h1 : Moves T a s1 := putLane_moves hl rfl (fun e => absurd e hn) h
    exact ite_moves (sdiSignalGone_moves hS (putSdiOut_moves (hT (by decide)) h1))
      (ite_moves (portLinkDown_moves (hT (by decide)) (List.Subset.trans (by decide) hT) h1) h1)

theorem downLane_moves (hT : laneAreas ⊆ T) {l : Nat} (h : Moves T a s) : Moves T a (downLane l s) :=
  ite_moves h (stopLane_moves hT (by decide) h)

theorem raiseLane_follows (hT : laneAreas ⊆ T) {id : Nat} (h : Moves T a (raiseCore id s)) : Moves T a (raiseLane id s) :=
  ite_moves h (ite_moves (downLane_moves hT h)
    (ite_moves (downLane_moves hT h) (foldl_moves (fun _ _ => downLane_moves hT) h)))
theorem raiseLane_moves (hT : laneAreas ⊆ T) {id : Nat} (h : Moves T a s) : Moves T a (raiseLane id s) :=
  raiseLane_follows hT (raiseCore_moves (hT (by decide)) h)

theorem raiseFabric_follows (hT : laneAreas ⊆ T) {id : Nat} (h : Moves T a (raiseCore id s)) :
    Moves T a (raiseFabric id s) := ite_moves (downLane_moves hT h) h

/-! ### Audio, compositor and engines -/

theorem aud_moves (hu : .aud ∈ T) {x : Audio} (h : Moves T a s) : Moves T a { s with aud := x } := h.tail (.aud s x hu)
theorem putTdm_moves (hu : .aud ∈ T) {p : Nat} {v : TdmPort} (h : Moves T a s) : Moves T a (putTdm s p v) := aud_moves hu h
theorem isolateTdm_moves (hu : .aud ∈ T) {p : Nat} (h : Moves T a s) : Moves T a (isolateTdm p s) := putTdm_moves hu h
theorem tdmUnderrun_moves (hu : .aud ∈ T) {p : Nat} (h : Moves T a s) : Moves T a (tdmUnderrun p s) := putTdm_moves hu h
theorem tdmOverrun_moves (hu : .aud ∈ T) {p : Nat} (h : Moves T a s) : Moves T a (tdmOverrun p s) := putTdm_moves hu h

theorem raiseAudio_follows (hu : .aud ∈ T) {id : Nat} (h : Moves T a (raiseCore id s)) : Moves T a (raiseAudio id s) :=
  ite_moves (isolateTdm_moves hu h) h

theorem comp_moves (hc : .comp ∈ T) {x : Compositor} (h : Moves T a s) : Moves T a { s with comp := x } :=
  h.tail (.comp s x hc)

theorem isolateLayer_moves (hc : .comp ∈ T) {n l : Nat} {on : Bool} (h : Moves T a s) :
    Moves T a (isolateLayer n l on s) := ite_moves (comp_moves hc h) (comp_moves hc h)

theorem raiseComp_follows (hc : .comp ∈ T) {id : Nat} (h : Moves T a (raiseCore id s)) : Moves T a (raiseComp id s) :=
  ite_moves (isolateLayer_moves hc h) h

/-- What the stop of an engine may change. -/
def engineAreas : List Area := [.fault, .mtx, .aud, .eng]

theorem eng_moves (he : .eng ∈ T) {x : Engines} (h : Moves T a s) : Moves T a { s with eng := x } := h.tail (.eng s x he)
theorem putEngine_moves (he : .eng ∈ T) {p : Nat} {v : Engine} (h : Moves T a s) : Moves T a (putEngine s p v) :=
  eng_moves he h

theorem settleFence_moves (he : .eng ∈ T) {v : FenceState} {f : Nat} (h : Moves T a s) : Moves T a (settleFence v f s) :=
  ite_moves (eng_moves he h) h
theorem cancelFences_moves (he : .eng ∈ T) {l : DisplayList} (h : Moves T a s) : Moves T a (cancelFences l s) :=
  foldl_moves (fun _ _ => settleFence_moves he) h
theorem cancelLists_moves (he : .eng ∈ T) {p : Nat} {f : DisplayList → Bool} (h : Moves T a s) :
    Moves T a (cancelLists p f s) :=
  foldl_moves (fun _ _ => cancelFences_moves he) (putEngine_moves he h)

theorem abortFades_moves (hf : .fault ∈ T) (hu : .aud ∈ T) {p : Nat} (h : Moves T a s) : Moves T a (abortFades p s) :=
  ite_moves (note_moves hf (aud_moves hu h)) (aud_moves hu h)

theorem loseGen_moves (hf : .fault ∈ T) (hm : .mtx ∈ T) {c : EngineCfg} (h : Moves T a s) : Moves T a (loseGen c s) := by
  unfold loseGen
  split
  · exact loseSource_moves hf hm h
  · exact h

theorem downEngine_moves (hT : engineAreas ⊆ T) {p : Nat} {v : EngineState} (h : Moves T a s) :
    Moves T a (downEngine p v s) :=
  putEngine_moves (hT (by decide)) (loseGen_moves (hT (by decide)) (hT (by decide))
    (abortFades_moves (hT (by decide)) (hT (by decide)) (cancelLists_moves (hT (by decide)) h)))

theorem isolateEngine_moves (hT : engineAreas ⊆ T) {p : Nat} (h : Moves T a s) : Moves T a (isolateEngine p s) :=
  ite_moves (downEngine_moves hT h) h
theorem stopEngine_moves (hT : engineAreas ⊆ T) {p : Nat} (h : Moves T a s) : Moves T a (stopEngine p s) :=
  ite_moves (downEngine_moves hT h) h
theorem raiseEngine_follows (hT : engineAreas ⊆ T) {id : Nat} (h : Moves T a (raiseCore id s)) :
    Moves T a (raiseEngine id s) := ite_moves (isolateEngine_moves hT h) h
theorem raiseEngine_moves (hT : engineAreas ⊆ T) {id : Nat} (h : Moves T a s) : Moves T a (raiseEngine id s) :=
  raiseEngine_follows hT (raiseCore_moves (hT (by decide)) h)

/-! ### Any source -/

/-- What a raise with its isolation may change (R427). -/
def raiseAreas : List Area := laneAreas ++ engineAreas ++ [.comp]

/-- The isolation that follows a raise. -/
theorem raise_follows (hT : raiseAreas ⊆ T) {id : Nat} (h : Moves T a (raiseCore id s)) : Moves T a (raise id s) := by
  have hL : laneAreas ⊆ T := List.Subset.trans (by decide) hT
  unfold raise
  split
  · exact raiseLane_follows hL h
  · exact raiseFabric_follows hL h
  · exact raiseSdi_follows (List.Subset.trans (by decide) hT) h
  · exact raisePacket_follows (List.Subset.trans (by decide) hT) h
  · exact raiseQueue_follows (hT (by decide)) h
  · exact raiseAudio_follows (hT (by decide)) h
  · exact raiseComp_follows (hT (by decide)) h
  · exact raiseEngine_follows (List.Subset.trans (by decide) hT) h
  · exact h

theorem raise_moves (hT : raiseAreas ⊆ T) {id : Nat} (h : Moves T a s) : Moves T a (raise id s) :=
  raise_follows hT (raiseCore_moves (hT (by decide)) h)

theorem force_moves (hT : raiseAreas ⊆ T) {id : Nat} (h : Moves T a s) : Moves T a (force id s) :=
  ite_moves (raise_moves hT (tdmUnderrun_moves (hT (by decide)) h))
    (ite_moves (stopEngine_moves (List.Subset.trans (by decide) hT) (raise_moves hT h)) (raise_moves hT h))

end
end Sys2Proof.Machine
end

section
namespace Sys2Proof.Machine
open Relation

variable {T : List Area} {a s t : State}

/-! ### What a run of changes leaves -/

/-- A state with everything blanked that a raise by itself may touch: fault sources, hold, interrupts and role. -/
def unraised (s : State) : State :=
  { s with
    flt := { s.flt with sources := [], hold := [] }
    cmd := { s.cmd with irqStatus := 0, msixPending := 0, messages := [] }
    twin := { s.twin with active := false, swap := none, cancelled := [] } }

/-- A state with the areas `T` blanked, and what a raise may touch. -/
def beyond (T : List Area) (s : State) : State :=
  let u := unraised s
  { u with
    fab := if .fab ∈ T then {} else { u.fab with
      lanes := if .lane ∈ T then [] else u.fab.lanes
      links := if .link ∈ T then [] else u.fab.links
      pairs := if .pair ∈ T then [] else u.fab.pairs
      sources := if .pair ∈ T then [] else u.fab.sources
      tx := if .mtx ∈ T then [] else u.fab.tx }
    mtx := if .mtx ∈ T then {} else u.mtx
    sdi := if .sdi ∈ T then {} else u.sdi
    pkt := if .pkts ∈ T then {} else { u.pkt with
      ports := if .port ∈ T then [] else u.pkt.ports
      rxFlows := if .pkt ∈ T then [] else u.pkt.rxFlows
      txFlows := if .pkt ∈ T then [] else u.pkt.txFlows
      trapQueues := if .pkt ∈ T then [] else u.pkt.trapQueues
      queues := if .pkt ∈ T then [] else u.pkt.queues
      pool := if .pkt ∈ T then {} else u.pkt.pool }
    draws := if .draws ∈ T then 0 else u.draws
    time := if .time ∈ T then {} else u.time
    ref := if .ref ∈ T then {} else u.ref
    aud := if .aud ∈ T then {} else u.aud
    comp := if .comp ∈ T then {} else u.comp
    eng := if .eng ∈ T then {} else u.eng
    cmd := if .cmd ∈ T then {} else u.cmd
    twin := if .twin ∈ T then {} else u.twin
    set := if .set ∈ T then {} else u.set
    store := if .store ∈ T then {} else u.store
    doc := if .doc ∈ T then {} else u.doc }

theorem sendVector_unraised (v : Nat) : unraised (sendVector v s) = unraised s := by
  unfold sendVector; split <;> rfl

theorem raiseIrq_unraised (e : Nat) : unraised (raiseIrq e s) = unraised s := by
  unfold raiseIrq; split
  · rfl
  · dsimp only; split
    · rfl
    · rw [sendVector_unraised]; rfl

theorem faultIrqs_unraised (n : Nat) : unraised (faultIrqs n s) = unraised s := by
  unfold faultIrqs; (repeat' split) <;> simp only [raiseIrq_unraised]

theorem yieldRole_unraised : unraised (yieldRole s) = unraised s := by
  unfold yieldRole cancelSwap; split
  · dsimp only; split <;> rfl
  · rfl

theorem raiseCore_unraised (id : Nat) : unraised (raiseCore id s) = unraised s := by
  unfold raiseCore; dsimp only
  rw [yieldRole_unraised, faultIrqs_unraised]
  split
  · unfold enterHold; split <;> rfl
  · rfl

/-- A raise by itself leaves all that `unraised` does not blank. -/
theorem raiseCore_keeps {α : Type} (f : State → α) (hf : ∀ u, f (unraised u) = f u) (id : Nat) :
    f (raiseCore id s) = f s := by rw [← hf, raiseCore_unraised, hf]

@[simp] theorem raiseCore_chip (id : Nat) : (raiseCore id s).chip = s.chip :=
  raiseCore_keeps (fun u => u.chip) (fun _ => rfl) id
@[simp] theorem raiseCore_fab (id : Nat) : (raiseCore id s).fab = s.fab :=
  raiseCore_keeps (fun u => u.fab) (fun _ => rfl) id
@[simp] theorem raiseCore_pkt (id : Nat) : (raiseCore id s).pkt = s.pkt :=
  raiseCore_keeps (fun u => u.pkt) (fun _ => rfl) id
@[simp] theorem raiseCore_mtx (id : Nat) : (raiseCore id s).mtx = s.mtx :=
  raiseCore_keeps (fun u => u.mtx) (fun _ => rfl) id
@[simp] theorem raiseCore_eng (id : Nat) : (raiseCore id s).eng = s.eng :=
  raiseCore_keeps (fun u => u.eng) (fun _ => rfl) id
@[simp] theorem raiseCore_aud (id : Nat) : (raiseCore id s).aud = s.aud :=
  raiseCore_keeps (fun u => u.aud) (fun _ => rfl) id
@[simp] theorem raiseCore_time (id : Nat) : (raiseCore id s).time = s.time :=
  raiseCore_keeps (fun u => u.time) (fun _ => rfl) id
@[simp] theorem raiseCore_set (id : Nat) : (raiseCore id s).set = s.set :=
  raiseCore_keeps (fun u => u.set) (fun _ => rfl) id
@[simp] theorem raiseCore_cur (id : Nat) : (raiseCore id s).cur = s.cur :=
  raiseCore_keeps (fun u => u.cur) (fun _ => rfl) id
@[simp] theorem raiseCore_led (id : Nat) : (raiseCore id s).led = s.led :=
  raiseCore_keeps (fun u => u.led) (fun _ => rfl) id
@[simp] theorem raiseCore_store (id : Nat) : (raiseCore id s).store = s.store :=
  raiseCore_keeps (fun u => u.store) (fun _ => rfl) id

theorem raiseIrq_fab (e : Nat) : (raiseIrq e s).fab = s.fab :=
  (congrArg (fun u => u.fab) (raiseIrq_unraised (s := s) e) : _)
theorem raiseIrq_pkt (e : Nat) : (raiseIrq e s).pkt = s.pkt :=
  (congrArg (fun u => u.pkt) (raiseIrq_unraised (s := s) e) : _)

/-- The areas of a raise are blanked. -/
theorem beyond_of_unraised (h : unraised t = unraised s) : beyond T t = beyond T s := by simp only [beyond, h]

theorem Touch.beyond (h : Touch T s t) : beyond T t = beyond T s := by
  cases h with
  | raise id => exact beyond_of_unraised (raiseCore_unraised id)
  | irq e => exact beyond_of_unraised (raiseIrq_unraised e)
  | pkt x h hp => simp [Machine.beyond, unraised, h, hp]
  | fab | lane | link | pair | tx | mtx | sdi | pkts | port | draws | time | ref | aud | comp | eng | cmd | twin | set
  | store | doc =>
    simp_all [Machine.beyond, unraised, putLane, putPort]

/-- What lies beyond the areas of a run of changes stays as it was. -/
theorem Moves.beyond (h : Moves T s t) : beyond T t = beyond T s := by
  induction h with
  | refl => rfl
  | tail _ g ih => rw [g.beyond, ih]

theorem raiseIrq_keeps_bits (e k : Nat) (h : s.cmd.irqStatus.getLsbD k = true) :
    (raiseIrq e s).cmd.irqStatus.getLsbD k = true := by
  have bit : (s.cmd.irqStatus ||| (1#32 <<< e)).getLsbD k = true := by simp [h]
  unfold raiseIrq
  split
  · exact h
  · dsimp only; split
    · exact bit
    · rw [sendVector_irqStatus]; exact bit

/-- A change either raises a source, or leaves the fault sources and the hold and clears no pending event. -/
theorem Touch.flt (h : Touch T s t) :
    (∃ id, t = raiseCore id s ∧ (.fault ∈ T ∨ id = sharedFault)) ∨
      (t.flt = s.flt ∧ ∀ k, s.cmd.irqStatus.getLsbD k = true → t.cmd.irqStatus.getLsbD k = true) := by
  cases h with
  | raise id h => exact .inl ⟨id, rfl, h⟩
  | irq e => exact .inr ⟨raiseIrq_flt s e, fun k => raiseIrq_keeps_bits e k⟩
  | cmd x _ hi => exact .inr ⟨rfl, fun k h => by rw [show x.irqStatus = _ from hi]; exact h⟩
  | fab | lane | link | pair | tx | mtx | sdi | pkts | port | pkt | draws | time | ref | aud | comp | eng | twin | set
  | store | doc => exact .inr ⟨rfl, fun _ h => h⟩

theorem yieldRole_cmd : (yieldRole s).cmd = s.cmd := by
  unfold yieldRole cancelSwap; split
  · dsimp only; split <;> rfl
  · rfl

/-- The state of a raise before its interrupts. -/
def raisedSources (id : Nat) (s : State) : State :=
  putFault (if effectiveSeverity s id = 3 then enterHold s (faultClass id) else s) id (raisedRecord s id)

theorem raiseCore_eq (id : Nat) (s : State) :
    raiseCore id s = yieldRole (faultIrqs (effectiveSeverity s id) (raisedSources id s)) := rfl

theorem raisedSources_cmd (id : Nat) : (raisedSources id s).cmd = s.cmd := by
  unfold raisedSources enterHold; (repeat' split) <;> rfl

/-- A raise keeps every event that is pending. -/
theorem raiseCore_keeps_bits (id k : Nat) (h : s.cmd.irqStatus.getLsbD k = true) :
    (raiseCore id s).cmd.irqStatus.getLsbD k = true := by
  rw [← raisedSources_cmd id] at h
  rw [raiseCore_eq, yieldRole_cmd]
  unfold faultIrqs
  split
  · exact h
  · split
    · exact raiseIrq_keeps_bits _ _ (raiseIrq_keeps_bits _ _ h)
    · exact raiseIrq_keeps_bits _ _ h

theorem raiseCore_hold (id : Nat) : (raiseCore id s).flt.hold = (raisedSources id s).flt.hold := by
  rw [raiseCore_eq, yieldRole_flt, faultIrqs_flt]

/-- A raise takes no class out of the hold. -/
theorem raiseCore_keeps_hold (id c : Nat) (h : c ∈ s.flt.hold) : c ∈ (raiseCore id s).flt.hold := by
  rw [raiseCore_hold]
  unfold raisedSources enterHold
  split
  · split
    · exact List.mem_append_left _ h
    · exact h
  · exact h

/-- What raising sources can do to the collector: sticky bits, pending events and the hold only grow. -/
structure Rises (s t : State) : Prop where
  sticky : ∀ k, (faultOf s k).sticky = true → (faultOf t k).sticky = true
  irq : ∀ k, s.cmd.irqStatus.getLsbD k = true → t.cmd.irqStatus.getLsbD k = true
  hold : ∀ c ∈ s.flt.hold, c ∈ t.flt.hold

theorem Rises.trans {u : State} (h : Rises s t) (g : Rises t u) : Rises s u :=
  ⟨fun k x => g.sticky k (h.sticky k x), fun k x => g.irq k (h.irq k x), fun c x => g.hold c (h.hold c x)⟩

theorem rises_of_flt (hf : t.flt = s.flt)
    (hi : ∀ k, s.cmd.irqStatus.getLsbD k = true → t.cmd.irqStatus.getLsbD k = true) : Rises s t :=
  ⟨fun k h => by rwa [faultOf_eq (t := s) (by rw [hf])], hi, fun c h => by rwa [hf]⟩

theorem raiseCore_rises (id : Nat) : Rises s (raiseCore id s) := by
  refine ⟨fun k h => ?_, fun k => raiseCore_keeps_bits id k, fun c => raiseCore_keeps_hold id c⟩
  rw [faultOf_raiseCore]
  split
  · rfl
  · exact h

theorem Moves.rises (h : Moves T s t) : Rises s t := by
  induction h with
  | refl => exact rises_of_flt rfl fun _ h => h
  | tail _ g ih =>
    refine ih.trans ?_
    obtain ⟨id, rfl, _⟩ | ⟨hf, hi⟩ := g.flt
    · exact raiseCore_rises id
    · exact rises_of_flt hf hi

/-- Outside `fault` the records of the sources stay, but for that of the shared cells. -/
theorem Moves.faultOf (h : Moves T s t) (hT : .fault ∉ T) (k : Nat) (hk : k ≠ sharedFault) :
    faultOf t k = faultOf s k := by
  induction h with
  | refl => rfl
  | tail _ g ih =>
    rw [← ih]
    obtain ⟨id, rfl, h⟩ | ⟨hf, _⟩ := g.flt
    · rw [faultOf_raiseCore, if_neg]
      rintro rfl
      exact h.elim hT hk
    · exact faultOf_eq (by rw [hf]) k

/-- A lane's counters stay, and a lane that is not LOCKED does not enter it. -/
theorem Touch.lanes (h : Touch T s t) (hT : .fab ∉ T) (l : Nat) : (laneOf t l).counters = (laneOf s l).counters ∧
    ((laneOf t l).state = .locked → (laneOf s l).state = .locked) := by
  cases h with
  | lane k v _ hc hl =>
    rw [laneOf_putLane]
    split
    · rename_i e; rw [← e]; exact ⟨hc, hl⟩
    · exact ⟨rfl, id⟩
  | raise id =>
    unfold laneOf; rw [raiseCore_fab]; exact ⟨rfl, fun h => h⟩
  | irq e =>
    unfold laneOf; rw [raiseIrq_fab]; exact ⟨rfl, fun h => h⟩
  | fab x h => exact absurd h hT
  | link | pair | tx | mtx | sdi | pkts | port | pkt | draws | time | ref | aud | comp | eng | cmd | twin | set | store
  | doc => exact ⟨rfl, id⟩

theorem Moves.counters (h : Moves T s t) (hT : .fab ∉ T) (l : Nat) : (laneOf t l).counters = (laneOf s l).counters := by
  induction h with
  | refl => rfl
  | tail _ g ih => rw [(g.lanes hT l).1, ih]

theorem Moves.unlocked (h : Moves T s t) (hT : .fab ∉ T) (l : Nat) (hl : laneLocked s l = false) : laneLocked t l = false := by
  induction h with
  | refl => exact hl
  | tail _ g ih =>
    simp only [laneLocked, beq_eq_false_iff_ne] at ih ⊢
    exact fun e => ih ((g.lanes hT l).2 e)

theorem Touch.tally (h : Touch T s t) (hT : .pkts ∉ T) (n : Nat) : rxTally (portOf t n).counters = rxTally (portOf s n).counters := by
  cases h with
  | port k v _ hc =>
    rw [portOf_putPort]
    split
    · rename_i e; rw [← e]; exact hc
    · rfl
  | pkt x _ hp => simp only [portOf, hp]
  | raise id =>
    simp only [portOf, raiseCore_pkt]
  | irq e =>
    simp only [portOf, raiseIrq_pkt]
  | pkts x h => exact absurd h hT
  | fab | lane | link | pair | tx | mtx | sdi | draws | time | ref | aud | comp | eng | cmd | twin | set | store
  | doc => rfl

/-- What a port has counted of its received frames stays. -/
theorem Moves.tally (h : Moves T s t) (hT : .pkts ∉ T) (n : Nat) : rxTally (portOf t n).counters = rxTally (portOf s n).counters := by
  induction h with
  | refl => rfl
  | tail _ g ih => rw [g.tally hT n, ih]

end Sys2Proof.Machine
end

section
namespace Sys2Proof.Machine
open Relation

/-! ## Faults (R425 to R439) -/

variable {s : State}

/-! ### A raise -/

/-- A raise below MAJOR isolates nothing. -/
theorem raise_eq_raiseCore {id : Nat} (h : effectiveSeverity s id < 2) : raise id s = raiseCore id s := by
  unfold raise
  split <;> simp [raiseLane, raiseFabric, raiseSdi, raisePacket, raiseQueue, raiseAudio, raiseComp, raiseEngine,
    Nat.not_le.mpr h]

/-- What a raise writes first stays through the isolation that follows. -/
theorem raise_rises (id : Nat) : Rises (raiseCore id s) (raise id s) :=
  (raise_follows (List.Subset.refl raiseAreas) .refl).rises

theorem raise_sticky (id : Nat) : (faultOf (raise id s) id).sticky = true :=
  (raise_rises id).sticky id (raiseCore_sticky s id)

/-- A raise of some severity is an event (R429). -/
theorem raiseCore_irq (id : Nat) (h : 1 ≤ effectiveSeverity s id) :
    (raiseCore id s).cmd.irqStatus.getLsbD 4 = true := by
  rw [raiseCore_eq, yieldRole_cmd]
  unfold faultIrqs
  rw [if_neg (by omega)]
  split
  · exact raiseIrq_keeps_bits _ _ (raiseIrq_bit _ _ (by decide))
  · exact raiseIrq_bit _ _ (by decide)

/-- A CRITICAL raise is an event of its own (R429). -/
theorem raiseCore_irqCritical (id : Nat) (h : effectiveSeverity s id = 3) :
    (raiseCore id s).cmd.irqStatus.getLsbD 5 = true := by
  rw [raiseCore_eq, yieldRole_cmd]
  unfold faultIrqs
  rw [if_neg (by omega), if_pos h]
  exact raiseIrq_bit _ _ (by decide)

/-- A second CRITICAL source puts its class into the hold (R431). -/
theorem raiseCore_enters_hold (id : Nat) (h : effectiveSeverity s id = 3)
    (hc : ∃ e ∈ s.flt.sources, e.2.critical = true ∧ faultClass e.1 = faultClass id) :
    faultClass id ∈ (raiseCore id s).flt.hold := by
  have any : s.flt.sources.any (fun e => e.2.critical && faultClass e.1 == faultClass id) = true := by
    simpa using hc
  rw [raiseCore_hold]
  unfold raisedSources enterHold
  rw [if_pos h, any, Bool.true_and]
  split
  · exact List.mem_append_right _ (List.mem_singleton_self _)
  · rename_i e; simpa [putFault] using e

/-- What a raise with its isolation leaves. -/
theorem settled_raise (id : Nat) :
    settled { raise id s with aud := s.aud, comp := s.comp, draws := s.draws, eng := s.eng, fab := s.fab, mtx := s.mtx
                              pkt := s.pkt, ref := s.ref, sdi := s.sdi } = settled s :=
  congrArg (fun u => settled { u with aud := s.aud, comp := s.comp, draws := s.draws, eng := s.eng, fab := s.fab,
                                      mtx := s.mtx, pkt := s.pkt, ref := s.ref, sdi := s.sdi })
    (raise_moves (List.Subset.refl raiseAreas) (id := id) (.refl (a := s))).beyond

theorem faultRaise_raises {id : BitVec 16} (hl : s.chip.rootLocked = true) (hd : (defaultSeverity id.toNat).isSome = true) :
    exec (.faultRaise id) s = .next (raise id.toNat s) := by
  show Host.Outcome.next (clocked _ s) = _
  rw [clocked_locked _ _ hl, if_pos hd]

theorem faultRaise_nothing {id : BitVec 16} (h : defaultSeverity id.toNat = none ∨ s.chip.rootLocked = false) :
    exec (.faultRaise id) s = .next s := by
  show Host.Outcome.next (clocked _ s) = _
  unfold clocked
  obtain h | h := h <;> simp [h]

/-- The record of a source below MAJOR. -/
theorem raisedRecord_minor {id : Nat} (h : effectiveSeverity s id < 2) :
    raisedRecord s id = { faultOf s id with
      sticky := true, events := sat32 (faultOf s id).events 1
      escalated := (faultOf s id).escalated || classSticky s (faultClass id)
      maxSeverity := if (faultOf s id).sticky then max (faultOf s id).maxSeverity (effectiveSeverity s id)
        else effectiveSeverity s id } := by
  have h2 : decide (2 ≤ effectiveSeverity s id) = false := by simp; omega
  have h3 : (effectiveSeverity s id == 3) = false := by simp; omega
  simp [raisedRecord, h2, h3]

/-! ### Commands whose effect keeps the sessions and the rings -/

theorem runs_effects {o : OpSpec} {p : Packet} {i : Instr} {u : State} {a : Answer}
    (hx : exec i s = .next (runHost o p s)) (h : Runs o p s)
    (he : o.effect (replyHeader o.code p) p (taken o p s) = (u, some a))
    (hm : u.cmd.sessions = (taken o p s).cmd.sessions) (hr : ∀ c, ringOf u c = ringOf s c) :
    Effects o p s i u a := by
  refine effects_of hx h he ?_ rfl rfl hr
  rw [mail_sessionOf (mirrorAfter_mail _ _ _ _)]
  have : sessionOf u (sess p) = sessionOf (taken o p s) (sess p) := by simp [sessionOf, hm]
  rw [this, taken_owed]; exact h.alone

theorem taken_eq (o : OpSpec) (p : Packet) : taken o p s = { s with cmd := (taken o p s).cmd } := by
  unfold taken; dsimp only; split <;> rfl

theorem taken_flt (o : OpSpec) (p : Packet) : (taken o p s).flt = s.flt := by rw [taken_eq]

theorem taken_ringOf (o : OpSpec) (p : Packet) (c : Nat) : ringOf (taken o p s) c = ringOf s c :=
  ringOf_settled (taken_settled s o p) c

/-! ### FAULT_ACK -/

/-- What the end of an isolation may change. -/
def ackAreas : List Area := [.sdi, .port, .pkt, .aud, .comp, .eng]

theorem ackQueues_moves {T : List Area} {a : State} (hp : .pkt ∈ T) {g i : Nat} (h : Moves T a s) :
    Moves T a (ackQueues g i s) :=
  retryAll_moves hp (foldl_moves (fun _ _ => putQueue_moves hp) h)

theorem endIsolation_moves {T : List Area} {a : State} (hT : ackAreas ⊆ T) {id : Nat} (h : Moves T a s) :
    Moves T a (endIsolation id s) := by
  have hs : Area.sdi ∈ T := hT (by decide)
  unfold endIsolation
  extract_lets g i
  split
  · exact ite_moves (ite_moves (putSdiIn_moves hs h) h) (putSdiOut_moves hs h)
  · exact ite_moves (putPort_moves (hT (by decide)) rfl h) h
  · exact ite_moves (ackQueues_moves (hT (by decide)) h) h
  · exact ite_moves (ite_moves (putTdm_moves (hT (by decide)) h) h) h
  · exact isolateLayer_moves (hT (by decide)) h
  · exact ite_moves (ite_moves (putEngine_moves (hT (by decide)) h) h) h
  · exact h

theorem ackSdiIn_flt (e : Nat) : (ackSdiIn e s).flt = s.flt := by unfold ackSdiIn; dsimp only; split <;> rfl
theorem ackTdm_flt (p : Nat) : (ackTdm p s).flt = s.flt := by unfold ackTdm; dsimp only; split <;> rfl
theorem ackComp_flt (id : Nat) : (ackComp id s).flt = s.flt := by unfold ackComp isolateLayer; split <;> rfl
theorem ackEngine_flt (p : Nat) : (ackEngine p s).flt = s.flt := by unfold ackEngine; dsimp only; split <;> rfl

/-- Only the writers of a queue can raise a source when an isolation ends. -/
theorem endIsolation_flt {id : Nat} (h : faultClass id ≠ 0x06) : (endIsolation id s).flt = s.flt := by
  unfold endIsolation
  extract_lets g i
  split
  · rw [apply_ite State.flt, ackSdiIn_flt]; exact ite_self _
  · rw [apply_ite State.flt]; exact ite_self _
  · exact absurd ‹_› h
  · rw [apply_ite State.flt, ackTdm_flt, ite_self]
  · exact ackComp_flt id
  · rw [apply_ite State.flt, ackEngine_flt, ite_self]
  · rfl

/-- The state in which an acknowledged source's class may leave the hold. -/
def ackedUnit (id : Nat) (s : State) : State :=
  let t := putFault s id (ackedRecord id (faultOf s id))
  if (faultOf s id).isolating ∨ faultClass id = 0x06 then endIsolation id t else t

theorem ackSource_sticky {id : Nat} (h : (faultOf s id).sticky = true) :
    ackSource id s = leaveHold (ackedUnit id s) := by
  unfold ackSource ackedUnit
  simp only [h, Bool.not_true, Bool.false_eq_true, if_false]
  congr 1
  by_cases hi : (faultOf s id).isolating = true <;> simp [hi]

theorem ackSource_clear {id : Nat} (h : (faultOf s id).sticky = false) : ackSource id s = s := by
  simp [ackSource, h]

theorem ackedUnit_moves (id : Nat) :
    Moves ackAreas (putFault s id (ackedRecord id (faultOf s id))) (ackedUnit id s) :=
  ite_moves (endIsolation_moves (List.Subset.refl _) .refl) .refl

theorem ackedUnit_flt {id : Nat} (h : faultClass id ≠ 0x06) :
    (ackedUnit id s).flt = (putFault s id (ackedRecord id (faultOf s id))).flt := by
  unfold ackedUnit
  split
  · exact endIsolation_flt h
  · rfl

/-- Acknowledging leaves all beyond the unit and the collector. -/
theorem ackSource_beyond (id : Nat) : beyond ackAreas (ackSource id s) = beyond ackAreas s := by
  cases h : (faultOf s id).sticky
  · rw [ackSource_clear h]
  · rw [ackSource_sticky h]; exact (ackedUnit_moves id).beyond

/-- The record of a source after another, or it, has been acknowledged. -/
theorem faultOf_ackSource {id k : Nat} (hk : k ≠ sharedFault ∨ faultClass id ≠ 0x06) :
    faultOf (ackSource id s) k =
      if id = k ∧ (faultOf s k).sticky = true then ackedRecord k (faultOf s k) else faultOf s k := by
  cases h : (faultOf s id).sticky
  · rw [ackSource_clear h, if_neg]
    rintro ⟨rfl, g⟩
    rw [h] at g; exact absurd g (by decide)
  · have hu : faultOf (ackSource id s) k = faultOf (putFault s id (ackedRecord id (faultOf s id))) k := by
      rw [ackSource_sticky h]
      obtain hk | hk := hk
      · exact (ackedUnit_moves id).faultOf (by decide) k hk
      · exact faultOf_eq (congrArg Faults.sources (ackedUnit_flt hk)) k
    rw [hu, faultOf_putFault]
    by_cases e : id = k
    · subst e; simp [h]
    · simp [e]

/-- A source with an unacknowledged CRITICAL raise. -/
def CriticalIn (s : State) (c : Nat) : Prop := ∃ x ∈ s.flt.sources, x.2.critical = true ∧ faultClass x.1 = c

theorem criticalIn_putFault {id c : Nat} {v : FaultSource} (hv : v.critical = false ∨ faultClass id ≠ c)
    (h : CriticalIn (putFault s id v) c) : CriticalIn s c := by
  obtain ⟨x, hx, hc, e⟩ := h
  refine ⟨x, ?_, hc, e⟩
  have hx : x ∈ tset (fun _ => faultDefault) s.flt.sources id v := hx
  unfold tset at hx
  split at hx
  · exact mem_tdel hx
  · obtain rfl | hx := mem_tput hx
    · obtain hv | hv := hv
      · rw [hv] at hc; exact absurd hc (by decide)
      · exact absurd e hv
    · exact hx

theorem mem_leaveHold (c : Nat) : c ∈ (leaveHold s).flt.hold ↔ c ∈ s.flt.hold ∧ CriticalIn s c := by
  simp [leaveHold, CriticalIn]

/-- A raise reaches the hold and the CRITICAL sources of its own class only. -/
theorem raiseCore_other_class {id c : Nat} (hc : faultClass id ≠ c) :
    (c ∈ (raiseCore id s).flt.hold ↔ c ∈ s.flt.hold) ∧ (CriticalIn (raiseCore id s) c → CriticalIn s c) := by
  have held : c ∈ (enterHold s (faultClass id)).flt.hold ↔ c ∈ s.flt.hold := by
    unfold enterHold; split
    · simp [Ne.symm hc]
    · rfl
  have src : (enterHold s (faultClass id)).flt.sources = s.flt.sources := enterHold_sources s _
  constructor
  · rw [raiseCore_hold]; unfold raisedSources; split
    · exact held
    · rfl
  · intro h
    rw [raiseCore_eq] at h
    have h' : CriticalIn (raisedSources id s) c := by
      unfold CriticalIn at h ⊢
      rwa [yieldRole_flt, faultIrqs_flt] at h
    have h2 := criticalIn_putFault (.inr hc) h'
    unfold CriticalIn at h2 ⊢
    split at h2
    · rwa [src] at h2
    · exact h2

/-- Outside `fault` a run of changes reaches the hold of the QUEUE class only. -/
theorem Moves.other_class {T : List Area} {t : State} (h : Moves T s t) (hT : .fault ∉ T) {c : Nat} (hc : c ≠ 0x06) :
    (c ∈ t.flt.hold ↔ c ∈ s.flt.hold) ∧ (CriticalIn t c → CriticalIn s c) := by
  induction h with
  | refl => exact ⟨Iff.rfl, id⟩
  | @tail u _ _ g ih =>
    obtain ⟨id, rfl, h⟩ | ⟨hf, _⟩ := g.flt
    · obtain rfl : id = sharedFault := h.resolve_left hT
      have r := raiseCore_other_class (s := u) (id := sharedFault) (c := c) (Ne.symm hc)
      exact ⟨r.1.trans ih.1, fun x => ih.2 (r.2 x)⟩
    · unfold CriticalIn at ih ⊢; rw [hf]; exact ih

/-- Acknowledging a source takes its class out of the hold where no CRITICAL source is left, and every other class
likewise. -/
theorem ackSource_hold {id c : Nat} (hs : (faultOf s id).sticky = true) (hc : c ≠ 0x06 ∨ faultClass id ≠ 0x06) :
    (c ∈ (ackSource id s).flt.hold ↔ c ∈ s.flt.hold ∧ CriticalIn (ackSource id s) c) ∧
      (CriticalIn (ackSource id s) c → CriticalIn s c) := by
  rw [ackSource_sticky hs]
  have unit : (c ∈ (ackedUnit id s).flt.hold ↔ c ∈ s.flt.hold) ∧ (CriticalIn (ackedUnit id s) c → CriticalIn s c) := by
    have put : CriticalIn (putFault s id (ackedRecord id (faultOf s id))) c → CriticalIn s c :=
      criticalIn_putFault (.inl rfl)
    obtain hc | hc := hc
    · have m := (ackedUnit_moves (s := s) id).other_class (by decide) hc
      exact ⟨m.1, fun x => put (m.2 x)⟩
    · refine ⟨by rw [ackedUnit_flt hc]; rfl, fun x => put ?_⟩
      unfold CriticalIn at x ⊢; rwa [ackedUnit_flt hc] at x
  refine ⟨?_, unit.2⟩
  rw [mem_leaveHold, unit.1]
  exact Iff.rfl

/-! ### Acknowledging the sources of a list -/

def ackAll (l : List Nat) (s : State) : State := l.foldl (fun s id => ackSource id s) s

theorem ackAll_cons (id : Nat) (l : List Nat) : ackAll (id :: l) s = ackAll l (ackSource id s) := rfl

theorem ackAll_beyond (l : List Nat) : beyond ackAreas (ackAll l s) = beyond ackAreas s := by
  induction l generalizing s with
  | nil => rfl
  | cons id l ih => exact (ih (s := ackSource id s)).trans (ackSource_beyond id)

theorem faultOf_ackAll {l : List Nat} {k : Nat} (hk : k ≠ sharedFault ∨ ∀ id ∈ l, faultClass id ≠ 0x06) :
    faultOf (ackAll l s) k =
      if k ∈ l ∧ (faultOf s k).sticky = true then ackedRecord k (faultOf s k) else faultOf s k := by
  induction l generalizing s with
  | nil => simp [ackAll]
  | cons id l ih =>
    have h1 := faultOf_ackSource (s := s) (id := id) (k := k) (hk.imp_right fun h => h id List.mem_cons_self)
    have h2 := ih (s := ackSource id s) (hk.imp_right fun h i hi => h i (List.mem_cons_of_mem _ hi))
    rw [ackAll_cons, h2, h1]
    by_cases e : id = k
    · cases hs : (faultOf s k).sticky <;> simp [e, hs, ackedRecord]
    · simp [e, Ne.symm e]

theorem ackAll_hold {l : List Nat} {c : Nat} (hc : c ≠ 0x06 ∨ ∀ id ∈ l, faultClass id ≠ 0x06) :
    ((∀ k ∈ l, (faultOf s k).sticky = false) ∧ ackAll l s = s ∨
      (∃ k ∈ l, (faultOf s k).sticky = true) ∧ (c ∈ (ackAll l s).flt.hold ↔ c ∈ s.flt.hold ∧ CriticalIn (ackAll l s) c)) ∧
    (CriticalIn (ackAll l s) c → CriticalIn s c) := by
  induction l generalizing s with
  | nil => exact ⟨.inl ⟨by simp, rfl⟩, id⟩
  | cons id l ih =>
    have h2 := ih (s := ackSource id s) (hc.imp_right fun h i hi => h i (List.mem_cons_of_mem _ hi))
    rw [ackAll_cons]
    cases hs : (faultOf s id).sticky
    case false =>
      rw [ackSource_clear hs] at h2 ⊢
      refine ⟨h2.1.imp (fun h => ⟨?_, h.2⟩) (fun h => ⟨?_, h.2⟩), h2.2⟩
      · exact List.forall_mem_cons.mpr ⟨hs, h.1⟩
      · obtain ⟨k, hk, e⟩ := h.1
        exact ⟨k, List.mem_cons_of_mem _ hk, e⟩
    case true =>
      obtain ⟨hold, crit⟩ := ackSource_hold hs (hc.imp_right fun h => h id List.mem_cons_self)
      refine ⟨.inr ⟨⟨id, List.mem_cons_self, hs⟩, ?_⟩, fun h => crit (h2.2 h)⟩
      obtain ⟨_, e⟩ | ⟨_, e⟩ := h2.1
      · rw [e]; exact hold
      · rw [e, hold]
        exact ⟨fun h => ⟨h.1.1, h.2⟩, fun h => ⟨⟨h.1, h2.2 h.2⟩, h.2⟩⟩

/-! ### The commands of the collector -/

theorem settled_takenCmd (o : OpSpec) (p : Packet) : settled { s with cmd := (taken o p s).cmd } = settled s := by
  rw [← taken_eq]; exact taken_settled s o p

/-- FAULT_ACK ends in the acknowledgement of the sources it names. -/
theorem faultAck_effects {p : Packet} (h : Runs specFaultAck p s) :
    Effects specFaultAck p s (.faultAck p) (ackAll (ackNames s p) (taken specFaultAck p s)) (done []) := by
  have names : ackNames (taken specFaultAck p s) p = ackNames s p := by
    unfold ackNames stickyFrom; rw [taken_flt]
  have b := ackAll_beyond (s := taken specFaultAck p s) (ackNames s p)
  refine runs_effects rfl h ?_ (congrArg (fun u => u.cmd.sessions) b)
    (fun c => (congrArg (fun u => ringOf u c) b).trans (taken_ringOf _ _ c))
  rw [← names]; rfl

theorem ackAll_taken_settled (o : OpSpec) (p : Packet) (l : List Nat) :
    settled { ackAll l (taken o p s) with aud := s.aud, comp := s.comp, eng := s.eng, pkt := s.pkt, sdi := s.sdi }
      = settled s := by
  have b := congrArg (fun u => settled { u with aud := s.aud, comp := s.comp, eng := s.eng, pkt := s.pkt,
                                                sdi := s.sdi }) (ackAll_beyond (s := taken o p s) l)
  refine Eq.trans b ?_
  rw [taken_eq]; exact settled_takenCmd (s := s) o p

theorem force_sticky (id : Nat) : (faultOf (force id s) id).sticky = true := by
  unfold force
  dsimp only
  split
  · exact raise_sticky id
  · split
    · exact (ite_moves (downEngine_moves (List.Subset.refl engineAreas) .refl) .refl).rises.sticky id (raise_sticky id)
    · exact raise_sticky id

/-- A stopped engine runs no kernel. -/
theorem stopEngine_stops (q : Nat) : runningKernel (stopEngine q s) q = none := by
  unfold stopEngine
  split
  · unfold downEngine runningKernel
    dsimp only
    rw [engineOf_putEngine, if_pos rfl]
    split
    · rename_i e
      dsimp only at e
      split at e <;> cases e
    · rfl
    · rfl
  · simp_all

theorem force_stops {id : Nat} (hc : faultClass id = 0x0B) (hi : faultIndex id < 8) :
    runningKernel (force id s) (8 * faultLoc id + faultIndex id) = none := by
  unfold force
  dsimp only
  rw [if_neg (by rw [hc]; exact fun h => absurd h.1 (by decide)), if_pos ⟨hc, hi⟩]
  exact stopEngine_stops _

/-- An isolated TDM port keeps its count of underruns. -/
theorem isolateTdm_underruns (q : Nat) : (tdmOf (isolateTdm q s) q).underruns = (tdmOf s q).underruns := by
  unfold isolateTdm
  rw [tdmOf_putTdm, if_pos rfl]; rfl

theorem raise_audio {id : Nat} (h : faultClass id = 0x09) : raise id s = raiseAudio id s := by simp only [raise, h]

theorem force_underruns {id : Nat} (hc : faultClass id = 0x09) (hi : faultIndex id < 16)
    (hr : (tdmOf s (faultIndex id)).state = .running) :
    (tdmOf (force id s) (faultIndex id)).underruns = sat32 (tdmOf s (faultIndex id)).underruns 1 := by
  have one : (tdmOf (tdmUnderrun (faultIndex id) s) (faultIndex id)).underruns
      = sat32 (tdmOf s (faultIndex id)).underruns 1 := by
    unfold tdmUnderrun
    dsimp only
    rw [tdmOf_putTdm, if_pos rfl]
  have core : tdmOf (raiseCore id (tdmUnderrun (faultIndex id) s)) = tdmOf (tdmUnderrun (faultIndex id) s) := by
    funext q; unfold tdmOf; rw [raiseCore_aud]
  unfold force
  dsimp only
  rw [if_pos ⟨hc, hi, hr⟩]
  rw [raise_audio hc]
  unfold raiseAudio
  dsimp only
  split
  · rw [isolateTdm_underruns, core, one]
  · rw [core, one]

theorem force_beyond (id : Nat) : beyond raiseAreas (force id s) = beyond raiseAreas s :=
  (force_moves (List.Subset.refl raiseAreas) .refl).beyond

/-- FAULT_FORCE ends in the forced raise of the source it names. -/
theorem faultForce_effects {p : Packet} (h : Runs specForce p s) :
    Effects specForce p s (.faultForce p) (force (u16 p 0) (taken specForce p s)) (done []) := by
  have b := force_beyond (s := taken specForce p s) (u16 p 0)
  exact runs_effects rfl h rfl (congrArg (fun u => u.cmd.sessions) b)
    (fun c => (congrArg (fun u => ringOf u c) b).trans (taken_ringOf _ _ c))

theorem force_taken_settled (o : OpSpec) (p : Packet) (id : Nat) :
    settled { force id (taken o p s) with
      aud := s.aud, comp := s.comp, draws := s.draws, eng := s.eng, fab := s.fab, mtx := s.mtx
      pkt := s.pkt, ref := s.ref, sdi := s.sdi } = settled s := by
  have b := congrArg (fun u => settled { u with
    aud := s.aud, comp := s.comp, draws := s.draws, eng := s.eng, fab := s.fab, mtx := s.mtx
    pkt := s.pkt, ref := s.ref, sdi := s.sdi }) (force_beyond (s := taken o p s) id)
  refine Eq.trans b ?_
  rw [taken_eq]; exact settled_takenCmd (s := s) o p

theorem faultOf_taken (o : OpSpec) (p : Packet) (k : Nat) : faultOf (taken o p s) k = faultOf s k :=
  faultOf_eq (by rw [taken_flt]) k

/-- What FAULT_SEVERITY_SET does to the state (R437). -/
def setSeverity (id v : Nat) (s : State) : State :=
  { s with set := { s.set with severities := tset severityDefault s.set.severities id v } }

/-- What CHECK_INVERT does to the state (R439). -/
def setInversion (id n : Nat) (s : State) : State :=
  { s with flt := { s.flt with invert := tput s.flt.invert id n } }

/-- Settles O49: a raise by what it writes first and what its isolation keeps, an acknowledgement by induction over
the sources it names, the settings by their effect. -/
theorem faultsAreRaisedAndAcknowledged : Obligations.FaultsAreRaisedAndAcknowledged := by
  unfold Obligations.FaultsAreRaisedAndAcknowledged
  refine ⟨fun id s => faultRaise_nothing, fun id s hl hd => ⟨rfl, ?_, fun hm => ?_⟩, fun p s h => ?_, fun p s h => ?_,
    fun p s h => ?_, fun p s h => ?_⟩
  · have up := raise_rises (s := s) id.toNat
    exact ⟨_, faultRaise_raises hl hd, raise_sticky _, fun h => up.irq 4 (raiseCore_irq _ h),
      fun h => up.irq 5 (raiseCore_irqCritical _ h), fun h c => up.hold _ (raiseCore_enters_hold _ h c),
      settled_raise _⟩
  · refine ⟨_, faultRaise_raises hl hd, ?_⟩
    rw [raise_eq_raiseCore hm]
    refine ⟨?_, fun k hk => ?_, raiseCore_settled _ _⟩
    · rw [faultOf_raiseCore, if_pos rfl, raisedRecord_minor hm]
    · rw [faultOf_raiseCore, if_neg (Ne.symm hk)]
  · obtain ⟨t, hx, hv, ha⟩ := faultAck_effects h
    have sticky : (∃ k ∈ ackNames s p, (faultOf s k).sticky = true) →
        ∃ k ∈ ackNames s p, (faultOf (taken specFaultAck p s) k).sticky = true := fun ⟨k, hk, e⟩ =>
      ⟨k, hk, by rwa [faultOf_taken]⟩
    refine ⟨t, _, hx, hv, ha, fun k hk hm hs => ?_, fun k hk hm => ?_, fun hs c hc => ?_, fun hq => ⟨?_, ?_⟩,
      ackAll_taken_settled _ _ _⟩
    · rw [faultOf_ackAll (.inl hk), faultOf_taken, if_pos ⟨hm, hs⟩]; rfl
    · rw [faultOf_ackAll (.inl hk), faultOf_taken, if_neg]
      rintro ⟨h1, h2⟩
      obtain hm | hm := hm
      · exact hm h1
      · rw [hm] at h2; exact absurd h2 (by decide)
    · obtain ⟨⟨no, _⟩ | ⟨_, e⟩, _⟩ := ackAll_hold (s := taken specFaultAck p s) (l := ackNames s p) (c := c) (.inl hc)
      · obtain ⟨k, hk, hs⟩ := sticky hs
        rw [no k hk] at hs; exact absurd hs (by decide)
      · rw [taken_flt] at e; exact e
    · rw [faultOf_ackAll (.inr hq), faultOf_taken, if_neg]
      exact fun h => hq _ h.1 (by decide)
    · obtain ⟨⟨no, e⟩ | ⟨yes, e⟩, _⟩ := ackAll_hold (s := taken specFaultAck p s) (l := ackNames s p) (c := 0x06) (.inr hq)
      · rw [e, taken_flt]
        refine ⟨fun h => ⟨h, fun hs => ?_⟩, fun h => h.1⟩
        obtain ⟨k, hk, hs⟩ := sticky hs
        rw [no k hk] at hs; exact absurd hs (by decide)
      · rw [taken_flt] at e
        obtain ⟨k, hk, hs⟩ := yes
        rw [faultOf_taken] at hs
        exact e.trans (and_congr_right fun _ => ⟨fun h _ => h, fun h => h ⟨k, hk, hs⟩⟩)
  · exact effects_kept rfl h rfl rfl (congrArg (setSeverity (u16 p 0) (u8 p 2)) (taken_settled s specSeverity p))
      (congrArg (setSeverity (u16 p 0) (u8 p 2)) (taken_beyondCmd s specSeverity p)) fun c => rfl
  · obtain ⟨t, hx, hv, ha⟩ := faultForce_effects h
    refine ⟨t, _, hx, hv, ha, force_sticky _, force_stops, fun hc hi hr => ?_, force_taken_settled _ _ _⟩
    have aud : tdmOf (taken specForce p s) = tdmOf s := by rw [taken_eq]; rfl
    rw [force_underruns hc hi (by rw [aud]; exact hr), aud]
  · exact effects_kept rfl h rfl rfl (congrArg (setInversion (u16 p 0) (u16 p 2)) (taken_settled s specInvert p))
      (congrArg (setInversion (u16 p 0) (u16 p 2)) (taken_beyondCmd s specInvert p)) fun c => rfl

end Sys2Proof.Machine
end

section
namespace Sys2Proof.Machine
open Relation

/-! ## Curator restarts (R417 to R422) -/

variable {s : State}

/-- What every step of a fold keeps, the fold keeps. -/
theorem foldl_keeps {α β : Type} {f : State → α → State} {g : State → β} (hf : ∀ s x, g (f s x) = g s) (l : List α) :
    g (l.foldl f s) = g s := by
  induction l generalizing s with
  | nil => rfl
  | cons x l ih => exact (ih (s := f s x)).trans (hf s x)

theorem complete_settled (r : Option Reply) (a : Answer) : settled (complete r a s) = settled s := by
  unfold complete; split
  · exact sendReply_settled s _
  · rfl

/-- Abandoned loads touch the engines, and send replies. -/
theorem abandonLoads_settled (e : Engines) :
    settled { abandonLoads s with eng := e } = settled { s with eng := e } := by
  refine foldl_keeps (g := fun u => settled { u with eng := e }) (fun u p => ?_) _
  unfold abandonLoad
  dsimp only
  split
  · rfl
  · split
    · rfl
    · exact congrArg (fun x : State => { x with eng := e }) (complete_settled _ _)

/-- Abandoned loads leave what neither the engines nor a reply touch. -/
theorem abandonLoads_keeps {β : Type} (f : State → β) (hf : ∀ u : State, f (settled { u with eng := {} }) = f u) :
    f (abandonLoads s) = f s := by rw [← hf, abandonLoads_settled, hf]

theorem countTaken_settled (h : HostPacket) : settled (countTaken s h) = settled s := by
  unfold countTaken; dsimp only; split <;> rfl

theorem dropCuratorWork_settled : settled { dropCuratorWork s with
    store := s.store, doc := s.doc, pkt := { (dropCuratorWork s).pkt with trapQueues := s.pkt.trapQueues }
    mtx := { (dropCuratorWork s).mtx with restate := s.mtx.restate } } = settled s :=
  congrArg (fun x : State => { x with
    store := s.store, doc := s.doc, pkt := { x.pkt with trapQueues := s.pkt.trapQueues }
    mtx := { x.mtx with restate := s.mtx.restate } })
    (foldl_keeps (g := settled) (fun _ _ => countTaken_settled _) s.cmd.workQueue)

/-- What a restart empties and gives up before it holds the cores. -/
def emptied (cause : RestartCause) (s : State) : State :=
  let s := dropCuratorWork (abandonLoads (servoRestart s))
  if cause = .activate then s else fallBackSlot s

theorem startRestart_eq (cause : RestartCause) (s : State) :
    startRestart cause s = raiseIrq irqCuratorRestart (holdCores cause (emptied cause s)) := rfl

/-- A state with what a restart may change before it holds the cores as `s` has it. -/
def restartRest (s u : State) : State :=
  { u with eng := s.eng, time := s.time, store := s.store, cur := s.cur, doc := s.doc
           pkt := { u.pkt with trapQueues := s.pkt.trapQueues }
           mtx := { u.mtx with restate := s.mtx.restate } }

theorem restartRest_fallBackSlot (u : State) : settled (restartRest s (fallBackSlot u)) = settled (restartRest s u) := by
  unfold fallBackSlot; split <;> rfl

theorem restartRest_of_eng {u v : State} (h : settled { u with eng := s.eng } = settled { v with eng := s.eng }) :
    settled (restartRest s u) = settled (restartRest s v) := congrArg (restartRest s) h

theorem restartRest_dropCuratorWork (u : State) :
    settled (restartRest s (dropCuratorWork u)) = settled (restartRest s u) := congrArg (restartRest s) dropCuratorWork_settled

theorem emptied_rest (cause : RestartCause) : settled (restartRest s (emptied cause s)) = settled s := by
  have loads : settled (restartRest s (abandonLoads (servoRestart s))) = settled s :=
    (restartRest_of_eng (abandonLoads_settled s.eng)).trans rfl
  have work := (restartRest_dropCuratorWork (s := s) (abandonLoads (servoRestart s))).trans loads
  unfold emptied
  dsimp only
  split
  · exact work
  · exact (restartRest_fallBackSlot _).trans work

theorem emptied_chip (cause : RestartCause) : (emptied cause s).chip = s.chip :=
  congrArg (fun u => u.chip) (emptied_rest (s := s) cause)

theorem emptied_mem (cause : RestartCause) : (emptied cause s).mem = s.mem :=
  congrArg (fun u => u.mem) (emptied_rest (s := s) cause)

theorem raiseIrq_chip (e : Nat) : (raiseIrq e s).chip = s.chip := congrArg (fun u => u.chip) (raiseIrq_settled s e)
theorem raiseIrq_cur (e : Nat) : (raiseIrq e s).cur = s.cur := congrArg (fun u => u.cur) (raiseIrq_settled s e)

/-- A restart holds the cores (R419). -/
theorem startRestart_chip (cause : RestartCause) : (startRestart cause s).chip = { s.chip with
    startPhase := if s.chip.dataPlaneReady then 7 else bit s.chip.rootLocked
    curatorServing := false, bootFailed := false } := by
  rw [startRestart_eq, raiseIrq_chip]
  unfold holdCores
  dsimp only
  rw [emptied_chip]

/-- What a restart records of itself. -/
theorem startRestart_records (cause : RestartCause) :
    (startRestart cause s).cur.restartCause = cause ∧ (startRestart cause s).cur.restarting = s.chip.dataPlaneReady
      ∧ (startRestart cause s).cur.remap = false := by
  rw [startRestart_eq, raiseIrq_cur]
  exact ⟨rfl, congrArg (fun u : Chip => u.dataPlaneReady) (emptied_chip cause), rfl⟩

end Sys2Proof.Machine
end

section
namespace Sys2Proof.Machine
open Relation

/-! ## Engines (R337 to R353) -/

variable {s t u : State} {p : Nat}

/-! ### What ends at an engine -/

theorem settleFence_engines (v : FenceState) (f : Nat) : (settleFence v f s).eng.engines = s.eng.engines := by
  unfold settleFence; split <;> rfl

theorem cancelFences_engines (l : DisplayList) : (cancelFences l s).eng.engines = s.eng.engines :=
  foldl_keeps (g := fun u => u.eng.engines) (fun _ _ => settleFence_engines _ _) l.fences

theorem engineOf_of_engines (h : t.eng.engines = s.eng.engines) (k : Nat) : engineOf t k = engineOf s k := by
  unfold engineOf; rw [h]

theorem loseGen_eng (c : EngineCfg) : (loseGen c s).eng = s.eng :=
  congrArg (fun u => u.eng) (loseGen_moves (T := [.fault, .mtx]) (by decide) (by decide) (.refl (a := s))).beyond

theorem abortFades_eng (q : Nat) : (abortFades q s).eng = s.eng :=
  congrArg (fun u => u.eng) (abortFades_moves (T := [.fault, .aud]) (by decide) (by decide) (.refl (a := s))).beyond

theorem cancelLists_queue (f : DisplayList → Bool) :
    (engineOf (cancelLists p f s) p).queue = (engineOf s p).queue.filter (fun l => !f l) := by
  unfold cancelLists
  dsimp only
  rw [engineOf_of_engines (foldl_keeps (g := fun u => u.eng.engines) (fun _ _ => cancelFences_engines _) _),
    engineOf_putEngine, if_pos rfl]

/-- What an engine's record loses to the lists, the fades and the source that end with it. -/
structure Halts (p : Nat) (s t : State) : Prop where
  others : ∀ k, k ≠ p → engineOf t k = engineOf s k
  cfg : (engineOf t p).cfg = (engineOf s p).cfg
  overruns : (engineOf t p).overruns = (engineOf s p).overruns
  bank : (engineOf t p).bank1 = (engineOf s p).bank1
  switch : (engineOf t p).switch = (engineOf s p).switch
  queue : engineOf t p = engineOf s p ∨ (engineOf t p).queue = []

theorem halts_of_eng (h : t.eng.engines = s.eng.engines) : Halts p s t := by
  have e := engineOf_of_engines h
  exact ⟨fun k _ => e k, by rw [e], by rw [e], by rw [e], by rw [e], .inl (e p)⟩

theorem Halts.trans (h : Halts p s t) (g : Halts p t u) : Halts p s u :=
  ⟨fun k hk => (g.others k hk).trans (h.others k hk), g.cfg.trans h.cfg, g.overruns.trans h.overruns,
    g.bank.trans h.bank, g.switch.trans h.switch,
    g.queue.elim (fun e => h.queue.elim (fun d => .inl (e.trans d)) fun d => .inr (by rw [e, d])) .inr⟩

theorem halts_ite {c : Prop} [Decidable c] (h : Halts p s t) (g : Halts p s u) : Halts p s (if c then t else u) := by
  split <;> assumption

theorem cancelLists_halts : Halts p s (cancelLists p (fun _ => true) s) := by
  have q := cancelLists_queue (s := s) (p := p) (fun _ => true)
  have e : ∀ k, engineOf (cancelLists p (fun _ => true) s) k = _ := fun k =>
    (engineOf_of_engines (foldl_keeps (g := fun u => u.eng.engines) (fun _ _ => cancelFences_engines _) _) k).trans
      (engineOf_putEngine _ _ _ _)
  refine ⟨fun k hk => (e k).trans (if_neg (Ne.symm hk)), ?_, ?_, ?_, ?_, .inr (by rw [q]; simp)⟩ <;>
    rw [e, if_pos rfl]

theorem abortFades_halts (q : Nat) : Halts p s (abortFades q s) := halts_of_eng (by rw [abortFades_eng])
theorem loseGen_halts (c : EngineCfg) : Halts p s (loseGen c s) := halts_of_eng (by rw [loseGen_eng])
theorem raiseCore_halts (id : Nat) : Halts p s (raiseCore id s) := halts_of_eng (by rw [raiseCore_eng])

theorem downEngine_halts (v : EngineState) : Halts p s (downEngine p v s) := by
  have h := (cancelLists_halts (s := s) (p := p)).trans ((abortFades_halts p).trans (loseGen_halts (engineOf s p).cfg))
  have empty : (engineOf (loseGen (engineOf s p).cfg (abortFades p (cancelLists p (fun _ => true) s))) p).queue = [] := by
    rw [engineOf_of_engines (s := cancelLists p (fun _ => true) s) (by rw [loseGen_eng, abortFades_eng]), cancelLists_queue]
    simp
  refine h.trans ⟨fun k hk => ?_, ?_, ?_, ?_, ?_, .inr ?_⟩ <;> unfold downEngine <;> dsimp only <;>
    rw [engineOf_putEngine]
  · rw [if_neg (Ne.symm hk)]
  all_goals rw [if_pos rfl]
  exact empty

theorem isolateEngine_halts : Halts p s (isolateEngine p s) := halts_ite (downEngine_halts _) (halts_of_eng rfl)
theorem stopEngine_halts : Halts p s (stopEngine p s) := halts_ite (downEngine_halts _) (halts_of_eng rfl)

theorem raiseEngine_halts {id : Nat} (h : faultIndex id < 8 → faultEngine id = p) : Halts p s (raiseEngine id s) := by
  unfold raiseEngine
  dsimp only
  split
  · rename_i c
    simp only [decide_eq_true_eq] at c
    rw [h c.1]
    exact (raiseCore_halts id).trans isolateEngine_halts
  · exact raiseCore_halts id

/-! ### Stops and skipped invocations (R342, R350) -/

theorem faultEngine_engineFault (hp : p < 128) : faultEngine (engineFault p) = p := by
  simp only [faultEngine, engineFault, faultLoc, faultIndex, faultId]; omega

/-- What a run of changes at an engine leaves. -/
theorem settled_engineMoves (h : Moves engineAreas s t) :
    settled { t with eng := s.eng, aud := s.aud, mtx := s.mtx, fab := { t.fab with tx := s.fab.tx } } = settled s :=
  congrArg (fun u => settled { u with eng := s.eng, aud := s.aud, mtx := s.mtx, fab := { u.fab with tx := s.fab.tx } })
    h.beyond

/-- The same where replies follow. -/
theorem settled_engineMoves_of (e : settled u = settled t) (h : Moves engineAreas s t) :
    settled { u with eng := s.eng, aud := s.aud, mtx := s.mtx, fab := { u.fab with tx := s.fab.tx } } = settled s :=
  (congrArg (fun x : State => { x with
    eng := s.eng, aud := s.aud, mtx := s.mtx, fab := { x.fab with tx := s.fab.tx } }) e).trans (settled_engineMoves h)

/-- A raise of the engine's source, and its stop. -/
def haltEngine (p : Nat) (s : State) : State := stopEngine p (raiseEngine (engineFault p) s)

theorem haltEngine_moves {a : State} (h : Moves engineAreas a s) : Moves engineAreas a (haltEngine p s) :=
  stopEngine_moves (List.Subset.refl _) (raiseEngine_moves (List.Subset.refl _) h)

theorem raiseEngine_sticky (id : Nat) : (faultOf (raiseEngine id s) id).sticky = true :=
  (raiseEngine_follows (List.Subset.refl engineAreas) .refl).rises.sticky id (raiseCore_sticky s id)

theorem haltEngine_sticky : (faultOf (haltEngine p s) (engineFault p)).sticky = true :=
  (stopEngine_moves (List.Subset.refl engineAreas) .refl).rises.sticky _ (raiseEngine_sticky _)

theorem haltEngine_halts (hp : p < 128) : Halts p s (haltEngine p s) :=
  (raiseEngine_halts fun _ => faultEngine_engineFault hp).trans stopEngine_halts

/-- An engine that no longer runs its kernel has lost its lists. -/
theorem Halts.queue_nil (h : Halts p s t) (hs : (runningKernel s p).isSome = true) (ht : runningKernel t p = none) :
    (engineOf t p).queue = [] := by
  refine h.queue.resolve_left fun e => ?_
  unfold runningKernel at hs ht
  rw [e] at ht
  dsimp only at hs ht
  rw [ht] at hs
  exact absurd hs (by decide)

/-- The state in which a stop for a cause halts the engine. -/
def stopCaused (p : Nat) (cause : StopCause) (s : State) : State :=
  if cause = .memory then raiseCore (localMemoryFault p) s else s

theorem engineStop_running {cause : StopCause} (h : (runningKernel s p).isSome = true) :
    engineStop p cause s = haltEngine p (stopCaused p cause s) := by
  unfold engineStop; rw [if_pos h]; rfl

theorem stopCaused_moves (cause : StopCause) : Moves engineAreas s (stopCaused p cause s) :=
  ite_moves (raiseCore_moves (by decide) .refl) .refl

theorem engineStop_stops {cause : StopCause} (hp : p < 128) (h : (runningKernel s p).isSome = true) :
    let t := engineStop p cause s
    runningKernel t p = none ∧ (engineOf t p).cfg = (engineOf s p).cfg ∧ (engineOf t p).queue = []
      ∧ (faultOf t (engineFault p)).sticky = true
      ∧ (cause = .memory → (faultOf t (localMemoryFault p)).sticky = true)
      ∧ (∀ k, k ≠ p → engineOf t k = engineOf s k)
      ∧ settled { t with eng := s.eng, aud := s.aud, mtx := s.mtx, fab := { t.fab with tx := s.fab.tx } }
          = settled s := by
  intro t
  have view : t = haltEngine p (stopCaused p cause s) := engineStop_running h
  have halts : Halts p s t := view ▸
    (halts_ite (raiseCore_halts _) (halts_of_eng rfl)).trans (haltEngine_halts (s := stopCaused p cause s) hp)
  have stops : runningKernel t p = none := view ▸ stopEngine_stops p
  have moves : Moves engineAreas s t := view ▸ haltEngine_moves (stopCaused_moves cause)
  refine ⟨stops, halts.cfg, halts.queue_nil h stops, view ▸ haltEngine_sticky, fun hm => ?_, halts.others,
    settled_engineMoves moves⟩
  have first : (faultOf (stopCaused p cause s) (localMemoryFault p)).sticky = true := by
    unfold stopCaused; rw [if_pos hm]; exact raiseCore_sticky s _
  exact view ▸ (haltEngine_moves .refl).rises.sticky _ first

/-- The engine's record at a skipped invocation, before its source is raised. -/
def countSkip (p k : Nat) (s : State) : State :=
  putEngine s p { engineOf s p with
    skips := (engineOf s p).skips + 1, overruns := sat32 (engineOf s p).overruns 1, silent := audioKernel k }

theorem skipInvocation_eq (p k : Nat) (s : State) : skipInvocation p k s =
    if 4 ≤ (engineOf s p).skips + 1 then haltEngine p (countSkip p k s)
    else raiseEngine (engineFault p) (countSkip p k s) := rfl

theorem countSkip_engineOf (k j : Nat) : engineOf (countSkip p k s) j = if p = j then { engineOf s p with
    skips := (engineOf s p).skips + 1, overruns := sat32 (engineOf s p).overruns 1, silent := audioKernel k }
    else engineOf s j := engineOf_putEngine s p j _

theorem skipInvocation_skips (hp : p < 128) (k : Nat) :
    let t := skipInvocation p k s
    (engineOf t p).overruns = sat32 (engineOf s p).overruns 1
      ∧ (faultOf t (engineFault p)).sticky = true
      ∧ (3 ≤ (engineOf s p).skips → runningKernel t p = none)
      ∧ (∀ j, j ≠ p → engineOf t j = engineOf s j)
      ∧ settled { t with eng := s.eng, aud := s.aud, mtx := s.mtx, fab := { t.fab with tx := s.fab.tx } }
          = settled s := by
  intro t
  have view : t = _ := skipInvocation_eq p k s
  have halts : Halts p (countSkip p k s) t := view ▸
    halts_ite (haltEngine_halts hp) (raiseEngine_halts fun _ => faultEngine_engineFault hp)
  have count : Moves engineAreas s (countSkip p k s) := putEngine_moves (by decide) .refl
  have moves : Moves engineAreas s t := view ▸
    ite_moves (haltEngine_moves count) (raiseEngine_moves (List.Subset.refl _) count)
  refine ⟨?_, ?_, fun h => ?_, fun j hj => ?_, settled_engineMoves moves⟩
  · rw [halts.overruns, countSkip_engineOf, if_pos rfl]
  · rw [view]
    split
    · exact haltEngine_sticky
    · exact raiseEngine_sticky _
  · rw [view, if_pos (by omega)]
    exact stopEngine_stops p
  · rw [halts.others j hj, countSkip_engineOf, if_neg (Ne.symm hj)]

/-! ### Invocations that finish (R340, R341) -/

/-- What a kernel's work leaves: the other engines, the engine's counters, and everything else but replies. -/
structure Works (p : Nat) (s t : State) : Prop where
  others : ∀ k, k ≠ p → engineOf t k = engineOf s k
  glyphs : (engineOf t p).glyphMissing = (engineOf s p).glyphMissing
  bytes : (engineOf t p).dmaBytes = (engineOf s p).dmaBytes
  rest : settled { t with eng := s.eng } = settled s

theorem Works.refl : Works p s s := ⟨fun _ _ => rfl, rfl, rfl, rfl⟩

theorem Works.trans (h : Works p s t) (g : Works p t u) : Works p s u :=
  ⟨fun k hk => (g.others k hk).trans (h.others k hk), g.glyphs.trans h.glyphs, g.bytes.trans h.bytes,
    (congrArg (fun x : State => { x with eng := s.eng }) g.rest).trans h.rest⟩

theorem works_putEngine {v : Engine} (hg : v.glyphMissing = (engineOf s p).glyphMissing)
    (hb : v.dmaBytes = (engineOf s p).dmaBytes) : Works p s (putEngine s p v) := by
  refine ⟨fun k hk => ?_, ?_, ?_, rfl⟩ <;> rw [engineOf_putEngine]
  · rw [if_neg (Ne.symm hk)]
  · rw [if_pos rfl, hg]
  · rw [if_pos rfl, hb]

theorem works_of_settled (h : settled t = settled s) : Works p s t := by
  have e : ∀ k, engineOf t k = engineOf s k := engineOf_of_engines (congrArg (fun u => u.eng.engines) h)
  exact ⟨fun k _ => e k, by rw [e], by rw [e], congrArg (fun x : State => { x with eng := s.eng }) h⟩

theorem works_ite {c : Prop} [Decidable c] (h : Works p s t) (g : Works p s u) : Works p s (if c then t else u) := by
  split <;> assumption

theorem applyParams_works : Works p s (applyParams p s) := by
  unfold applyParams
  extract_lets e now due go s1
  have put : Works p s s1 := works_putEngine rfl rfl
  exact put.trans (works_of_settled (foldl_keeps (g := settled) (fun _ _ => complete_settled _ _) _))

theorem startRamps_works (e : Engine) : Works p s (startRamps e p s) := by
  unfold startRamps
  exact works_ite .refl (works_putEngine rfl rfl)

theorem runProbe_works : Works p s (runProbe p s) := by
  unfold runProbe
  split
  · exact .refl
  · exact works_putEngine rfl rfl

theorem runKernel_works (k : Nat) (reset : Bool) : Works p s (runKernel p k reset s) := by
  unfold runKernel
  exact works_ite runProbe_works (works_ite (works_putEngine rfl rfl) (works_ite (works_putEngine rfl rfl)
    (works_ite (works_putEngine rfl rfl) (works_ite (works_putEngine rfl rfl) .refl))))

/-- The state after the kernel's work, before the invocation is counted. -/
def kernelDone (p k : Nat) (s : State) : State :=
  runKernel p k (resetsMeters s p) (startRamps (engineOf s p) p (applyParams p s))

theorem runInvocation_eq (k : Nat) (run : EngineRun) : runInvocation p k run s =
    putEngine (kernelDone p k s) p { engineOf (kernelDone p k s) p with
      skips := 0, silent := false
      glyphMissing := sat32 (engineOf (kernelDone p k s) p).glyphMissing run.glyphMissing
      dmaBytes := sat48 (engineOf (kernelDone p k s) p).dmaBytes run.dmaBytes } := rfl

theorem kernelDone_works (k : Nat) : Works p s (kernelDone p k s) :=
  applyParams_works.trans ((startRamps_works _).trans (runKernel_works k _))

/-- With nothing pending no value changes. -/
theorem applyParams_none (h : (engineOf s p).pendingParams = []) : applyParams p s = putEngine s p (engineOf s p) := by
  simp only [applyParams, h, List.filter_nil, List.foldl_nil]
  rw [← h]

theorem destPicture_putEngine (v : Engine) (d : Nat) : destPicture (putEngine s p v) d = destPicture s d := rfl

theorem kernelDone_probe {picture : List PicLine} (hk : (engineOf s p).cfg.kernel = kernelProbe)
    (hn : (engineOf s p).pendingParams = []) (hd : destPicture s (2176 + p) = some picture) :
    (engineOf (kernelDone p kernelProbe s) p).results
      = ((probeRegion (engineOf s p) picture).zipIdx).flatMap (fun x => levels x.2 x.1) := by
  have same : engineOf (putEngine s p (engineOf s p)) p = engineOf s p := by rw [engineOf_putEngine, if_pos rfl]
  have ramps : startRamps (engineOf s p) p (putEngine s p (engineOf s p)) = putEngine s p (engineOf s p) := by
    unfold startRamps
    dsimp only
    rw [same, if_pos (by rw [hk]; decide)]
  unfold kernelDone
  rw [applyParams_none hn, ramps]
  unfold runKernel
  rw [if_pos rfl]
  unfold runProbe
  rw [destPicture_putEngine, hd]
  dsimp only
  rw [engineOf_putEngine, if_pos rfl, same]

theorem runInvocation_counts (k : Nat) (run : EngineRun) :
    let t := runInvocation p k run s
    (engineOf t p).skips = 0 ∧ (engineOf t p).results = (engineOf (kernelDone p k s) p).results
      ∧ (engineOf t p).glyphMissing = sat32 (engineOf s p).glyphMissing run.glyphMissing
      ∧ (engineOf t p).dmaBytes = sat48 (engineOf s p).dmaBytes run.dmaBytes
      ∧ (∀ j, j ≠ p → engineOf t j = engineOf s j) ∧ settled { t with eng := s.eng } = settled s := by
  intro t
  have w := kernelDone_works (s := s) (p := p) k
  have own : engineOf t p = _ := (engineOf_putEngine _ _ _ _).trans (if_pos rfl)
  refine ⟨by rw [own], by rw [own]; rfl, by rw [own, ← w.glyphs]; rfl, by rw [own, ← w.bytes]; rfl, fun j hj => ?_, w.rest⟩
  exact ((engineOf_putEngine _ _ _ _).trans (if_neg (Ne.symm hj))).trans (w.others j hj)

/-! ### Takeover (R351) -/

theorem spareFor_ne {q : Nat} (h : spareFor s p = some q) : q ≠ p ∧ (engineOf s q).state = .spare := by
  have := List.find?_some h
  simp only [Bool.and_eq_true, bne_iff_ne, beq_iff_eq] at this
  exact this.1

theorem engineTakeover_takes {q : Nat} (hn : needsTakeover s p = true) (hc : s.chip.curatorServing = true)
    (hq : spareFor s p = some q) :
    engineTakeover p s = raiseCore (faultId 0x0B (p / 8) 8) (exchangeEngines p q s) := by
  have idx : ¬ faultIndex (faultId 0x0B (p / 8) 8) < 8 := by simp only [faultIndex, faultId]; omega
  unfold engineTakeover
  rw [hn, hc, hq]
  simp [raiseEngine, idx]

theorem engineTakeover_none (h : needsTakeover s p = false ∨ s.chip.curatorServing = false ∨ spareFor s p = none) :
    engineTakeover p s = s := by
  unfold engineTakeover
  obtain h | h | h := h <;> simp [h]

theorem engineTakeover_exchanges {q : Nat} (hn : needsTakeover s p = true) (hc : s.chip.curatorServing = true)
    (hq : spareFor s p = some q) :
    let t := engineTakeover p s
    (engineOf t q).cfg = (engineOf s p).cfg ∧ (engineOf t q).state = .running
      ∧ (engineOf t q).ports = (engineOf s p).ports ∧ (engineOf t p).ports = (engineOf s q).ports
      ∧ (engineOf t q).takeovers = sat32 (engineOf s q).takeovers 1
      ∧ (engineOf t p).cfg.kernel = 0xFF ∧ (engineOf t p).cfg.cover = (engineOf s q).cfg.cover
      ∧ (faultOf t (faultId 0x0B (p / 8) 8)).sticky = true
      ∧ (∀ k, k ≠ p → k ≠ q → engineOf t k = engineOf s k) ∧ settled { t with eng := s.eng } = settled s := by
  intro t
  have view : t = _ := engineTakeover_takes hn hc hq
  have ne : q ≠ p := (spareFor_ne hq).1
  have own : ∀ k, engineOf t k = engineOf (exchangeEngines p q s) k := fun k =>
    engineOf_of_engines (by rw [view, raiseCore_eng]) k
  have first : engineOf (exchangeEngines p q s) p = _ := (engineOf_putEngine _ _ _ _).trans (if_pos rfl)
  have second : engineOf (exchangeEngines p q s) q = _ :=
    (engineOf_putEngine _ _ _ _).trans ((if_neg (Ne.symm ne)).trans ((engineOf_putEngine _ _ _ _).trans (if_pos rfl)))
  refine ⟨by rw [own, second], by rw [own, second], by rw [own, second], by rw [own, first], by rw [own, second],
    by rw [own, first]; rfl, by rw [own, first], by rw [view]; exact raiseCore_sticky _ _, fun k hp hq => ?_, ?_⟩
  · rw [own]
    exact (engineOf_putEngine _ _ _ _).trans ((if_neg (Ne.symm hp)).trans
      ((engineOf_putEngine _ _ _ _).trans (if_neg (Ne.symm hq))))
  · exact congrArg (fun u : State => { u with eng := s.eng })
      ((congrArg settled view).trans (raiseCore_settled (exchangeEngines p q s) _))

/-! ### Display lists and fences (R344 to R348) -/

/-- What a query shows of a fence that is listed. -/
def shownFence : FenceState → FenceView
  | .pending => .pending
  | .signalled => .signalled
  | .cancelled => .cancelled

theorem fenceView_listed {e : Nat × FenceState} {f : Nat} (h : s.eng.fences.find? (fun x => x.1 == f) = some e) :
    fenceView s f = shownFence e.2 := by
  obtain ⟨i, v⟩ := e
  unfold fenceView
  rw [h]
  cases v <;> rfl

theorem find?_settled (l : List (Nat × FenceState)) (v : FenceState) (id f : Nat) :
    (l.map (fun x => if x.1 = id then (id, v) else x)).find? (fun x => x.1 == f)
      = (l.find? (fun x => x.1 == f)).map (fun x => if x.1 = id then (id, v) else x) := by
  rw [List.find?_map]
  congr 2
  funext x
  simp only [Function.comp]
  split
  · simp_all
  · rfl

/-- A pending fence is settled, and every other shows what it showed. -/
theorem fenceView_settleFence (v : FenceState) (id f : Nat) : fenceView (settleFence v id s) f =
    if id = f ∧ fenceView s id = .pending then shownFence v else fenceView s f := by
  by_cases hp : fenceView s id = .pending
  · have view : (settleFence v id s).eng.fences = s.eng.fences.map (fun x => if x.1 = id then (id, v) else x) := by
      unfold settleFence; rw [if_pos hp]
    have find := find?_settled s.eng.fences v id f
    rw [← view] at find
    cases hf : s.eng.fences.find? (fun x => x.1 == f) with
    | none =>
      rw [hf] at find
      have ne : id ≠ f := by
        rintro rfl
        unfold fenceView at hp
        rw [hf] at hp
        dsimp only at hp
        split at hp <;> cases hp
      rw [if_neg fun h => ne h.1]
      unfold fenceView
      rw [find, hf]
      unfold settleFence
      rw [if_pos hp]
      rfl
    | some e =>
      rw [hf] at find
      have key : e.1 = f := by simpa using List.find?_some hf
      rw [fenceView_listed find, fenceView_listed hf]
      dsimp only
      by_cases he : e.1 = id
      · rw [if_pos he, if_pos ⟨by rw [← he, key], hp⟩]
      · rw [if_neg he, if_neg fun h => he (key.trans h.1.symm)]
  · have same : settleFence v id s = s := by unfold settleFence; rw [if_neg hp]
    rw [same, if_neg fun h => hp h.2]

theorem fenceView_cancelFences_kept (l : DisplayList) {f : Nat} (h : fenceView s f ≠ .pending) :
    fenceView (cancelFences l s) f = fenceView s f := by
  unfold cancelFences
  generalize l.fences = fs
  induction fs generalizing s with
  | nil => rfl
  | cons g fs ih =>
    have one : fenceView (settleFence .cancelled g s) f = fenceView s f := by
      rw [fenceView_settleFence, if_neg]
      rintro ⟨rfl, e⟩
      exact h e
    exact (ih (s := settleFence .cancelled g s) (by rw [one]; exact h)).trans one

/-- A list that ends leaves none of its fences pending. -/
theorem fenceView_cancelFences (l : DisplayList) {f : Nat} (h : f ∈ l.fences) :
    fenceView (cancelFences l s) f ≠ .pending := by
  obtain ⟨vit, words, fs⟩ := l
  dsimp only at h
  induction fs generalizing s with
  | nil => cases h
  | cons g fs ih =>
    change fenceView (cancelFences ⟨vit, words, fs⟩ (settleFence .cancelled g s)) f ≠ .pending
    obtain rfl | h := List.mem_cons.mp h
    · have one : fenceView (settleFence .cancelled f s) f ≠ .pending := by
        rw [fenceView_settleFence]
        split
        · exact (by decide)
        · rename_i e; exact fun c => e ⟨rfl, c⟩
      rw [fenceView_cancelFences_kept _ one]
      exact one
    · exact ih h

/-- What a list that goes on leaves: the other engines, the fences that are settled, and everything beside the engines. -/
structure Draws (p : Nat) (s t : State) : Prop where
  others : ∀ k, k ≠ p → engineOf t k = engineOf s k
  fences : ∀ f, fenceView s f ≠ .pending → fenceView t f = fenceView s f
  signalled : t.eng.signalled = s.eng.signalled
  issued : t.eng.issued = s.eng.issued
  rest : settled { t with eng := s.eng } = settled s

theorem settleFence_rest (e : Engines) (v : FenceState) (f : Nat) :
    { settleFence v f s with eng := e } = { s with eng := e } := by unfold settleFence; split <;> rfl

theorem cancelFences_rest (e : Engines) (l : DisplayList) :
    { cancelFences l s with eng := e } = { s with eng := e } :=
  foldl_keeps (g := fun u => { u with eng := e }) (fun _ _ => settleFence_rest _ _ _) l.fences

/-- Cancelling fences leaves the count of those that were signalled or issued, and what has been drawn. -/
theorem cancelFences_counts (l : DisplayList) :
    let t := cancelFences l s
    (t.eng.signalled, t.eng.issued, t.eng.paint) = (s.eng.signalled, s.eng.issued, s.eng.paint) :=
  foldl_keeps (g := fun u => (u.eng.signalled, u.eng.issued, u.eng.paint))
    (fun _ _ => by unfold settleFence; split <;> rfl) l.fences

theorem advanceList_draws : Draws p s (advanceList p s) := by
  have own : ∀ {x : State} {v : Engine} {k : Nat}, k ≠ p → engineOf (putEngine x p v) k = engineOf x k :=
    fun hk => (engineOf_putEngine _ _ _ _).trans (if_neg (Ne.symm hk))
  unfold advanceList
  dsimp only
  split
  · exact ⟨fun _ _ => rfl, fun _ _ => rfl, rfl, rfl, rfl⟩
  · split
    · exact ⟨fun k hk => own hk, fun _ _ => rfl, rfl, rfl, rfl⟩
    · exact ⟨fun k hk => own hk, fun _ _ => rfl, rfl, rfl, rfl⟩
    · rename_i l _ _ _ _
      refine ⟨fun k hk => ?_, fun f hf => ?_, ?_, ?_, congrArg settled (cancelFences_rest _ l)⟩
      · rw [engineOf_of_engines (cancelFences_engines l), own hk]
      · rw [fenceView_cancelFences_kept l (by exact hf)]; rfl
      · exact congrArg Prod.fst (cancelFences_counts l)
      · exact congrArg (fun x => x.2.1) (cancelFences_counts l)

/-- A list that draws from no source ends, and leaves none of its fences pending. -/
theorem advanceList_ends {l : DisplayList} {rest : List DisplayList} (hq : (engineOf s p).queue = l :: rest)
    (hd : drawUntilSignal s l.vit (listCommands l.words) [] = none) :
    let t := advanceList p s
    (engineOf t p).queue = rest ∧ (engineOf t p).listsCancelled = sat32 (engineOf s p).listsCancelled 1
      ∧ (∀ f ∈ l.fences, fenceView t f ≠ .pending) ∧ t.eng.paint = s.eng.paint
      ∧ settled { t with eng := s.eng } = settled s := by
  intro t
  have view : t = cancelFences l (putEngine s p { engineOf s p with
      queue := rest, listRunning := false, listsCancelled := sat32 (engineOf s p).listsCancelled 1 }) := by
    show advanceList p s = _
    unfold advanceList
    dsimp only
    rw [hq]
    dsimp only
    rw [hd]
  have own : engineOf t p = _ := (engineOf_of_engines (by rw [view, cancelFences_engines]) p).trans
    ((engineOf_putEngine s p p _).trans (if_pos rfl))
  refine ⟨by rw [own], by rw [own], fun f hf => view ▸ fenceView_cancelFences l hf, ?_, advanceList_draws.rest⟩
  rw [view]
  exact congrArg (fun x => x.2.2) (cancelFences_counts l)

/-- SIGNAL settles its fence, and the list goes on (R347). -/
theorem fenceSignal_signals {l : DisplayList} {rest : List DisplayList} {f : Nat} {fs : List Nat}
    (hq : (engineOf s p).queue = l :: rest) (hf : l.fences = f :: fs) (hp : fenceView s f = .pending) :
    let t := advanceList p (takeSignal p s)
    fenceView t f = .signalled ∧ t.eng.signalled = s.eng.signalled + 1 ∧ t.eng.issued = s.eng.issued
      ∧ (∀ k, k ≠ p → engineOf t k = engineOf s k) ∧ settled { t with eng := s.eng } = settled s := by
  intro t
  have view : takeSignal p s = settleFence .signalled f (putEngine s p { engineOf s p with
      queue := { l with words := l.words.drop 1, fences := l.fences.drop 1 } :: rest }) := by
    unfold takeSignal
    dsimp only
    rw [hq]
    dsimp only
    rw [hf]
  have pending : fenceView (putEngine s p { engineOf s p with
      queue := { l with words := l.words.drop 1, fences := l.fences.drop 1 } :: rest }) f = .pending := hp
  have taken : fenceView (takeSignal p s) f = .signalled := by
    rw [view, fenceView_settleFence, if_pos ⟨rfl, pending⟩]; rfl
  have counted : (takeSignal p s).eng.signalled = s.eng.signalled + 1 ∧ (takeSignal p s).eng.issued = s.eng.issued := by
    rw [view]; unfold settleFence; rw [if_pos pending]; exact ⟨rfl, rfl⟩
  have d := advanceList_draws (s := takeSignal p s) (p := p)
  refine ⟨?_, d.signalled.trans counted.1, d.issued.trans counted.2, fun k hk => (d.others k hk).trans ?_, ?_⟩
  · rw [d.fences f (by rw [taken]; decide), taken]
  · rw [view, engineOf_of_engines (settleFence_engines _ _), engineOf_putEngine, if_neg (Ne.symm hk)]
  · refine (congrArg (fun u : State => { u with eng := s.eng }) d.rest).trans ?_
    rw [view]
    exact congrArg settled (settleFence_rest s.eng .signalled f)

/-! ### Loads and switches (R337, R343, R377) -/

theorem endKernel_moves (c : EngineCfg) : Moves engineAreas s (endKernel p c s) := by
  unfold endKernel
  extract_lets e old s1 s2
  have h1 : Moves engineAreas s s1 := ite_moves (cancelLists_moves (by decide) .refl) .refl
  have h2 : Moves engineAreas s s2 := ite_moves (abortFades_moves (by decide) (by decide) h1) h1
  exact ite_moves (loseGen_moves (by decide) (by decide) h2) h2

theorem endKernel_halts (c : EngineCfg) : Halts p s (endKernel p c s) := by
  unfold endKernel
  extract_lets e old s1 s2
  have h1 : Halts p s s1 := halts_ite cancelLists_halts (halts_of_eng rfl)
  have h2 : Halts p s s2 := halts_ite (h1.trans (abortFades_halts p)) h1
  exact halts_ite (h2.trans (loseGen_halts _)) h2

theorem finishActivation_none (h : s.store.activation = none) : finishActivation s = s := by
  unfold finishActivation; rw [h]

/-- The state of a switch before its completion is sent. -/
def switched (p : Nat) (w : Switch) (s : State) : State := beginKernel p w (endKernel p w.cfg s)

theorem switched_moves (w : Switch) : Moves engineAreas s (switched p w s) :=
  putEngine_moves (by decide) (endKernel_moves w.cfg)

theorem engineSwitch_switches {w : Switch} (ha : s.store.activation = none) (hw : (engineOf s p).switch = some w)
    (hr : switchReady s w = true) :
    let t := finishActivation (switchEngine p s)
    (engineOf t p).cfg = w.cfg ∧ (engineOf t p).slot = w.slot ∧ (engineOf t p).switch = none
      ∧ (engineOf t p).state = (if w.cfg.kernel = 0 then .unassigned else if w.cfg.kernel = 0xFF then .spare
          else .running)
      ∧ (engineOf t p).bank1 = (if w.cfg.kernel = 0 then (engineOf s p).bank1 else !(engineOf s p).bank1)
      ∧ (∀ k, k ≠ p → engineOf t k = engineOf s k)
      ∧ settled { t with eng := s.eng, aud := s.aud, mtx := s.mtx, fab := { t.fab with tx := s.fab.tx } }
          = settled s := by
  intro t
  have view : switchEngine p s = complete w.notify (hungAt w.hang w.cfg.family) (switched p w s) := by
    unfold switchEngine; rw [hw]; simp only [hr, Bool.not_true, Bool.false_eq_true, if_false]; rfl
  have said : settled (switchEngine p s) = settled (switched p w s) := by rw [view]; exact complete_settled _ _
  have act : (switchEngine p s).store.activation = none := by
    have h1 : (switchEngine p s).store = (switched p w s).store := congrArg (fun u => u.store) said
    have h2 : (switched p w s).store = s.store := congrArg (fun u => u.store) (switched_moves w).beyond
    rw [h1, h2, ha]
  have last : t = switchEngine p s := finishActivation_none act
  have engines : ∀ k, engineOf t k = engineOf (switched p w s) k := fun k =>
    engineOf_of_engines (last ▸ congrArg (fun u => u.eng.engines) said) k
  have own : engineOf t p = _ := (engines p).trans ((engineOf_putEngine _ _ _ _).trans (if_pos rfl))
  refine ⟨by rw [own], by rw [own], by rw [own], by rw [own]; rfl, ?_, fun k hk => ?_, ?_⟩
  · rw [own]
    exact congrArg (fun b => if w.cfg.kernel = 0 then b else !b) (endKernel_halts w.cfg).bank
  · exact (engines k).trans (((engineOf_putEngine _ _ _ _).trans (if_neg (Ne.symm hk))).trans
      ((endKernel_halts w.cfg).others k hk))
  · rw [last]
    exact settled_engineMoves_of said (switched_moves w)

theorem engineSwitch_waits {w : Switch} (ha : s.store.activation = none) (hw : (engineOf s p).switch = some w)
    (hr : switchReady s w = false) : finishActivation (switchEngine p s) = s := by
  have view : switchEngine p s = s := by unfold switchEngine; rw [hw]; simp [hr]
  rw [view, finishActivation_none ha]

theorem loadComplete_loaded {w : Switch} (hw : (engineOf s p).switch = some w) (hl : w.loaded = true) :
    loadComplete p s = s := by unfold loadComplete; dsimp only; rw [hw]; simp [hl]

/-- The engine's record when the loader has written its kernel. -/
def loaded (p : Nat) (w : Switch) (s : State) : State :=
  putEngine s p { engineOf s p with switch := some { w with loaded := true, hang := (switchHang s w).1, reply := none } }

theorem loadComplete_silent {w : Switch} (hw : (engineOf s p).switch = some w) (hl : w.loaded = false)
    (hr : w.reply = none) : loadComplete p s = loaded p w s := by
  unfold loadComplete; dsimp only; rw [hw]; dsimp only; rw [hl, hr]; rfl

theorem loadComplete_answers {w : Switch} {r : Reply} (hw : (engineOf s p).switch = some w) (hl : w.loaded = false)
    (hr : w.reply = some r) :
    loadComplete p s = answerLater r (answerFor (switchHang s w) w.cfg.family) (loaded p w s) := by
  unfold loadComplete; dsimp only; rw [hw]; dsimp only; rw [hl, hr]; rfl

theorem kernelLoadComplete_loads {w : Switch} (q : Fin 128) (hw : (engineOf s q.val).switch = some w)
    (ha : s.store.activation = none) : exec (.kernelLoadComplete q) s = .next (loadComplete q.val s) := by
  show Host.Outcome.next (match (engineOf s q.val).switch with | some w => _ | none => s) = _
  rw [hw]; simp [ha]

/-- A kernel that does not verify ends an activation in a restart (R483). -/
theorem kernelLoadComplete_restarts {w : Switch} (q : Fin 128) (hw : (engineOf s q.val).switch = some w)
    (ha : s.store.activation.isSome = true) (hb : s.store.fallingBack = false) (hl : w.loaded = false)
    (hs : w.slot = s.store.bootSlot) (hg : Config.kernelGood w.slot w.cfg.kernel = false) :
    exec (.kernelLoadComplete q) s = .next (startRestart .request s) := by
  have go : (s.store.activation.isSome && !s.store.fallingBack && !w.loaded && w.slot == s.store.bootSlot
      && !Config.kernelGood w.slot w.cfg.kernel) = true := by rw [ha, hb, hl, hg, hs]; simp
  show Host.Outcome.next (match (engineOf s q.val).switch with | some w => _ | none => s) = _
  rw [hw]; dsimp only; rw [if_pos go]

/-! ### Each event -/

theorem kernelLoadComplete_does (p : Fin 128) (s : State) :
    ((engineOf s p.val).switch = none → exec (.kernelLoadComplete p) s = .next s) ∧
    (∀ w, (engineOf s p.val).switch = some w → s.store.activation = none →
      (w.loaded = true → exec (.kernelLoadComplete p) s = .next s) ∧
      (w.loaded = false → w.reply = none → exec (.kernelLoadComplete p) s = .next (loaded p.val w s)) ∧
      (w.loaded = false → ∀ r, w.reply = some r → exec (.kernelLoadComplete p) s
        = .next (answerLater r (answerFor (switchHang s w) w.cfg.family) (loaded p.val w s)))) ∧
    (∀ w, (engineOf s p.val).switch = some w → s.store.activation.isSome = true → s.store.fallingBack = false →
      w.loaded = false → w.slot = s.store.bootSlot → Config.kernelGood w.slot w.cfg.kernel = false →
      ∃ t, exec (.kernelLoadComplete p) s = .next t ∧ t.cur.restartCause = .request
        ∧ t.cur.restarting = s.chip.dataPlaneReady ∧ t.chip.curatorServing = false) := by
  refine ⟨fun hw => ?_, fun w hw ha => ⟨fun hl => ?_, fun hl hr => ?_, fun hl r hr => ?_⟩,
    fun w hw ha hb hl hs hg => ?_⟩
  · show Host.Outcome.next (match (engineOf s p.val).switch with | some w => _ | none => s) = _
    rw [hw]
  · rw [kernelLoadComplete_loads p hw ha, loadComplete_loaded hw hl]
  · rw [kernelLoadComplete_loads p hw ha, loadComplete_silent hw hl hr]
  · rw [kernelLoadComplete_loads p hw ha, loadComplete_answers hw hl hr]
  · have r := startRestart_records (s := s) .request
    exact ⟨_, kernelLoadComplete_restarts p hw ha hb hl hs hg, r.1, r.2.1, by rw [startRestart_chip]⟩

theorem switchEngine_none (hw : (engineOf s p).switch = none) : switchEngine p s = s := by
  unfold switchEngine; rw [hw]

theorem engineInvocation_running {k : Nat} (run : EngineRun) (h : runningKernel s p = some k) :
    engineInvocation p run s = if run.finished then runInvocation p k run s else skipInvocation p k s := by
  unfold engineInvocation; rw [h]

theorem runningKernel_cfg {k : Nat} (h : runningKernel s p = some k) : (engineOf s p).cfg.kernel = k := by
  unfold runningKernel at h
  dsimp only at h
  split at h
  · exact Option.some.inj h
  · split at h
    · exact Option.some.inj h
    · cases h
  · cases h

theorem engineInvocation_does (p : Fin 128) (run : EngineRun) (s : State) :
    (runningKernel s p.val = none → exec (.engineInvocation p run) s = .next s) ∧
    ((runningKernel s p.val).isSome = true → run.finished = true →
      ∃ t, exec (.engineInvocation p run) s = .next t
        ∧ (engineOf t p.val).skips = 0
        ∧ (∀ picture, runningKernel s p.val = some kernelProbe → (engineOf s p.val).pendingParams = [] →
            destPicture s (2176 + p.val) = some picture →
            (engineOf t p.val).results
              = ((probeRegion (engineOf s p.val) picture).zipIdx).flatMap (fun x => levels x.2 x.1))
        ∧ (engineOf t p.val).glyphMissing = sat32 (engineOf s p.val).glyphMissing run.glyphMissing
        ∧ (engineOf t p.val).dmaBytes = sat48 (engineOf s p.val).dmaBytes run.dmaBytes
        ∧ (∀ k, k ≠ p.val → engineOf t k = engineOf s k) ∧ settled { t with eng := s.eng } = settled s) ∧
    ((runningKernel s p.val).isSome = true → run.finished = false →
      ∃ t, exec (.engineInvocation p run) s = .next t
        ∧ (engineOf t p.val).overruns = sat32 (engineOf s p.val).overruns 1
        ∧ (faultOf t (engineFault p.val)).sticky = true
        ∧ (3 ≤ (engineOf s p.val).skips → runningKernel t p.val = none)
        ∧ (∀ k, k ≠ p.val → engineOf t k = engineOf s k)
        ∧ settled { t with eng := s.eng, aud := s.aud, mtx := s.mtx, fab := { t.fab with tx := s.fab.tx } }
            = settled s) := by
  have goes : exec (.engineInvocation p run) s = .next (engineInvocation p.val run s) := rfl
  refine ⟨fun h => ?_, fun h hf => ?_, fun h hf => ?_⟩
  · rw [goes]; unfold engineInvocation; rw [h]
  · obtain ⟨k, hk⟩ := Option.isSome_iff_exists.mp h
    rw [goes, engineInvocation_running run hk, if_pos hf]
    obtain ⟨h1, h2, h3, h4, h5, h6⟩ := runInvocation_counts (s := s) (p := p.val) k run
    refine ⟨_, rfl, h1, fun picture hp hn hd => ?_, h3, h4, h5, h6⟩
    obtain rfl : k = kernelProbe := Option.some.inj (hk.symm.trans hp)
    rw [h2]
    exact kernelDone_probe (runningKernel_cfg hk) hn hd
  · obtain ⟨k, hk⟩ := Option.isSome_iff_exists.mp h
    rw [goes, engineInvocation_running run hk, if_neg (by rw [hf]; decide)]
    exact ⟨_, rfl, skipInvocation_skips p.isLt k⟩

theorem displayListRun_runs (q : Fin 128) (hr : runsKernel s q.val 1 = true) (hl : (engineOf s q.val).listRunning = false) :
    exec (.displayListRun q) s = .next (advanceList q.val s) := by
  show Host.Outcome.next (if runsKernel s q.val 1 && !(engineOf s q.val).listRunning then _ else s) = _
  rw [hr, hl]; rfl

theorem advanceList_nil (hq : (engineOf s p).queue = []) : advanceList p s = s := by
  unfold advanceList; dsimp only; rw [hq]

theorem displayListRun_nothing (q : Fin 128) (h : runsKernel s q.val 1 = false ∨ (engineOf s q.val).listRunning = true
    ∨ (engineOf s q.val).queue = []) : exec (.displayListRun q) s = .next s := by
  show Host.Outcome.next (if runsKernel s q.val 1 && !(engineOf s q.val).listRunning then advanceList q.val s else s) = _
  obtain h | h | h := h
  · rw [h]; rfl
  · rw [h]; simp
  · rw [advanceList_nil h, ite_self]

/-- Settles O48: each event by what its function does to the engine's record and what it leaves. -/
theorem engineEventsRunKernels : Obligations.EngineEventsRunKernels := by
  unfold Obligations.EngineEventsRunKernels
  refine ⟨fun p s => kernelLoadComplete_does p s, fun p s ha => ⟨fun hw => ?_, fun w hw => ⟨fun hr => ?_, fun hr => ?_⟩⟩,
    fun p run s => engineInvocation_does p run s, fun p cause s => ⟨fun h => ?_, fun h => ?_, fun h => ?_, fun h => ?_⟩,
    fun p s => ⟨fun h => ?_, fun q hn hc hq => ?_⟩,
    fun p s => ⟨displayListRun_nothing p, fun l rest ps hr hl hq hd => ?_, fun l rest ps c cs hr hl hq hd => ?_,
      fun l rest hr hl hq hd => ?_⟩, fun p s => ⟨fun h => ?_, fun l rest f fs hl hq hf hp => ?_⟩⟩
  · show Host.Outcome.next (finishActivation (switchEngine p.val s)) = _
    rw [switchEngine_none hw, finishActivation_none ha]
  · exact congrArg Host.Outcome.next (engineSwitch_waits ha hw hr)
  · exact ⟨_, rfl, engineSwitch_switches ha hw hr⟩
  · show Host.Outcome.next (engineStop p.val cause s) = _
    unfold engineStop; rw [h]; rfl
  · exact ⟨_, rfl, engineStop_stops p.isLt h⟩
  · show Host.Outcome.next (if (engineOf s p.val).listRunning then _ else s) = _
    rw [if_pos h]; rfl
  · show Host.Outcome.next (if (engineOf s p.val).listRunning then _ else s) = _
    rw [if_neg (by rw [h]; decide)]
  · exact congrArg Host.Outcome.next (engineTakeover_none h)
  · exact ⟨_, rfl, engineTakeover_exchanges hn hc hq⟩
  · rw [displayListRun_runs p hr hl]
    unfold advanceList; dsimp only; rw [hq]; dsimp only; rw [hd]
  · rw [displayListRun_runs p hr hl]
    unfold advanceList; dsimp only; rw [hq]; dsimp only; rw [hd]
  · exact ⟨_, displayListRun_runs p hr hl, advanceList_ends hq hd⟩
  · show Host.Outcome.next (if (engineOf s p.val).listRunning then _ else s) = _
    rw [if_neg (by rw [h]; decide)]
  · refine ⟨_, ?_, fenceSignal_signals hq hf hp⟩
    show Host.Outcome.next (if (engineOf s p.val).listRunning then _ else s) = _
    rw [if_pos hl]

end Sys2Proof.Machine
end

section
namespace Sys2Proof.Machine
open Relation

/-! ## Replies and rings (R356 to R376) -/

variable {T : List Area} {a s t u : State}

/-- What a reply on its way may change. -/
def replyAreas : List Area := [.pkt, .link, .cmd]

theorem cmd_moves (hc : .cmd ∈ T) {x : Command} (hi : x.irqStatus = s.cmd.irqStatus) (h : Moves T a s) :
    Moves T a { s with cmd := x } := h.tail (.cmd s x hc hi)
theorem putSession_moves (hc : .cmd ∈ T) {n : Nat} {v : Session} (h : Moves T a s) : Moves T a (putSession s n v) :=
  cmd_moves hc rfl h

theorem postReply_moves (hc : .cmd ∈ T) {r : Reply} (h : Moves T a s) : Moves T a (postReply r s) := by
  unfold postReply
  split
  · exact cmd_moves hc rfl h
  · exact cmd_moves hc rfl h
  · exact cmd_moves hc rfl h

theorem offerControl_moves (hp : .pkt ∈ T) {g : Bool} {q : Nat} {f : QFrame} (h : Moves T a s) :
    Moves T a (offerControl g q f s) :=
  ite_moves (countFrozenDrop_moves hp h) (ite_moves (putStalled_moves hp h) (retryStalled_moves hp h))

theorem sendMessage_moves (hk : .link ∈ T) {f m : Nat} {d : Bytes} (h : Moves T a s) : Moves T a (sendMessage f m d s) :=
  putLink_moves hk h

theorem sendTwin_moves (hk : .link ∈ T) {m : Nat} {d : Bytes} (h : Moves T a s) : Moves T a (sendTwin m d s) := by
  unfold sendTwin
  split
  · exact sendMessage_moves hk h
  · exact h

section
variable (hT : replyAreas ⊆ T)
include hT

theorem sendReply_moves {r : Reply} (h : Moves T a s) : Moves T a (sendReply r s) := by
  have posted : Moves T a (postReply r s) := postReply_moves (hT (by decide)) h
  unfold sendReply
  split
  · exact posted
  · exact offerControl_moves (hT (by decide)) posted
  · exact sendTwin_moves (hT (by decide)) posted

theorem complete_moves {r : Option Reply} {x : Answer} (h : Moves T a s) : Moves T a (complete r x s) := by
  unfold complete
  split
  · exact sendReply_moves hT h
  · exact h

theorem flushOwed_moves {n c : Nat} {l : List (Word × Option Reply)} (h : Moves T a s) :
    Moves T a (flushOwed n c l s) := by
  induction l generalizing s with
  | nil => exact h
  | cons e l ih =>
    obtain ⟨q, r⟩ := e
    cases r with
    | none => exact h
    | some r => exact ih (sendReply_moves hT (putSession_moves (hT (by decide)) h))

theorem answerCommand_moves {o : OpSpec} {r : Reply} {p : Packet} {x : Option Answer} (h : Moves T a s) :
    Moves T a (answerCommand o r p x s) := by
  unfold answerCommand
  split
  · split
    · exact sendReply_moves hT h
    · exact h
  · exact flushOwed_moves hT (putSession_moves (hT (by decide)) h)

theorem answerUnknown_moves {x : HostPacket} (h : Moves T a s) : Moves T a (answerUnknown x s) := by
  unfold answerUnknown
  extract_lets o head
  split
  · exact sendReply_moves hT h
  · exact sendReply_moves hT h
  · exact answerCommand_moves hT (ite_moves (putSession_moves (hT (by decide)) h) h)
  · exact h

theorem takeIn_moves {x : HostPacket} (h : Moves T a s) : Moves T a (takeIn x s) := by
  have hc : Area.cmd ∈ T := hT (by decide)
  exact ite_moves (answerUnknown_moves hT h) (ite_moves (cmd_moves hc rfl h) (cmd_moves hc rfl h))

theorem putRing_moves {c : Nat} {r : Ring} (h : Moves T a s) : Moves T a (putRing s c r) := by
  have hc : Area.cmd ∈ T := hT (by decide)
  unfold putRing
  split
  · exact cmd_moves hc rfl h
  · exact cmd_moves hc rfl h
  · exact cmd_moves hc rfl h
  · exact cmd_moves hc rfl h

theorem readPacket_moves {c : Nat} (h : Moves T a s) : Moves T a (readPacket c s) := by
  unfold readPacket
  extract_lets r
  split
  · exact h
  · exact ite_moves (irq_moves (putRing_moves hT h)) (takeIn_moves hT (putRing_moves hT h))

theorem readRing_moves {c n : Nat} (h : Moves T a s) : Moves T a (readRing c n s) := by
  induction n generalizing s with
  | zero => exact h
  | succ n ih => exact ite_moves (ih (readPacket_moves hT h)) h

theorem readBulk_moves {c n : Nat} (h : Moves T a s) : Moves T a (readBulk n c s) := by
  induction n generalizing s c with
  | zero => exact h
  | succ n ih =>
    exact ite_moves (ih (readPacket_moves hT h)) (ite_moves (ih (readPacket_moves hT h)) h)

/-- Reading the rings takes packets up, and answers those of no opcode. -/
theorem readRings_moves (h : Moves T a s) : Moves T a (readRings s) := by
  unfold readRings
  exact ite_moves (readBulk_moves hT (readRing_moves hT (readRing_moves hT h))) (readRing_moves hT (readRing_moves hT h))
end

/-! ### What reading leaves -/

/-- A state without its rings, and without what replies touch. -/
def ringless (s : State) : State :=
  settled { s with cmd := { s.cmd with ring0 := {}, ring1 := {}, ring2 := {}, ring3 := {} } }

theorem ringless_of_settled (h : settled t = settled s) : ringless t = ringless s :=
  congrArg (fun u : State => { u with cmd := { u.cmd with ring0 := {}, ring1 := {}, ring2 := {}, ring3 := {} } }) h

theorem answerUnknown_settled (x : HostPacket) : settled (answerUnknown x s) = settled s := by
  unfold answerUnknown
  dsimp only
  split
  · exact sendReply_settled s _
  · exact sendReply_settled s _
  · rw [answerCommand_settled, settled_ite, consumeSeq_settled, ite_self]
  · rfl

theorem takeIn_settled (x : HostPacket) : settled (takeIn x s) = settled s := by
  unfold takeIn
  rw [settled_ite, settled_ite, answerUnknown_settled]
  exact (congrArg _ (ite_self _)).trans (ite_self _)

theorem putRing_ringless (c : Nat) (r : Ring) : ringless (putRing s c r) = ringless s := by
  unfold putRing; split <;> rfl

theorem readPacket_ringless (c : Nat) : ringless (readPacket c s) = ringless s := by
  unfold readPacket
  extract_lets r
  split
  · rfl
  · extract_lets
    split
    · exact (ringless_of_settled (raiseIrq_settled _ _)).trans (putRing_ringless _ _)
    · exact (ringless_of_settled (takeIn_settled _)).trans (putRing_ringless _ _)

theorem readRing_ringless (c n : Nat) : ringless (readRing c n s) = ringless s := by
  induction n generalizing s with
  | zero => rfl
  | succ n ih =>
    unfold readRing
    split
    · exact ih.trans (readPacket_ringless c)
    · rfl

theorem readBulk_ringless (n c : Nat) : ringless (readBulk n c s) = ringless s := by
  induction n generalizing s c with
  | zero => rfl
  | succ n ih =>
    unfold readBulk
    split
    · exact (ih _).trans (readPacket_ringless c)
    · split
      · exact (ih _).trans (readPacket_ringless _)
      · rfl

theorem readRings_ringless : ringless (readRings s) = ringless s := by
  unfold readRings
  dsimp only
  split
  · exact (readBulk_ringless _ _).trans ((readRing_ringless _ _).trans (readRing_ringless _ _))
  · exact (readRing_ringless _ _).trans (readRing_ringless _ _)

/-- With the rings of another state, what reading leaves is what was there. -/
theorem settled_of_ringless (h : ringless t = ringless s) :
    settled { t with cmd := { t.cmd with ring0 := s.cmd.ring0, ring1 := s.cmd.ring1, ring2 := s.cmd.ring2
                                         ring3 := s.cmd.ring3 } } = settled s :=
  congrArg (fun u : State => { u with cmd := { u.cmd with
    ring0 := s.cmd.ring0, ring1 := s.cmd.ring1, ring2 := s.cmd.ring2, ring3 := s.cmd.ring3 } }) h

end Sys2Proof.Machine
end

section
namespace Sys2Proof.Machine
open Relation

/-! ## The cause of a restart, and its end (R376, R417 to R422) -/

variable {T : List Area} {a s t u : State}

/-! ### What a restart does -/

theorem raiseIrq_workQueue (e : Nat) : (raiseIrq e s).cmd.workQueue = s.cmd.workQueue := by
  have vector : ∀ (v : Nat) (u : State), (sendVector v u).cmd.workQueue = u.cmd.workQueue := fun v u => by
    unfold sendVector; split <;> rfl
  unfold raiseIrq
  split
  · rfl
  · dsimp only
    split
    · rfl
    · rw [vector]

/-- The state in which a restart chooses its slot. -/
def givenUp (s : State) : State := dropCuratorWork (abandonLoads (servoRestart s))

theorem emptied_eq {cause : RestartCause} (h : cause ≠ .activate) : emptied cause s = fallBackSlot (givenUp s) :=
  if_neg h

/-- What the Curator's work has become. -/
structure Dropped (u : State) : Prop where
  work : u.cmd.workQueue = []
  traps : u.pkt.trapQueues = []
  restate : u.mtx.restate = none
  writes : u.store.writes = []
  line : u.doc.line = []
  output : u.doc.output = []

theorem dropCuratorWork_dropped : Dropped (dropCuratorWork s) := ⟨rfl, rfl, rfl, rfl, rfl, rfl⟩

theorem fallBackSlot_dropped (h : Dropped s) : Dropped (fallBackSlot s) := by
  obtain ⟨h1, h2, h3, h4, h5, h6⟩ := h
  unfold fallBackSlot
  split
  · exact ⟨h1, h2, h3, h4, h5, h6⟩
  · exact ⟨h1, h2, h3, h4, h5, h6⟩

theorem givenUp_dropped : Dropped (givenUp s) := dropCuratorWork_dropped

/-- The slot and the trial. -/
def trialOf (s : State) : Nat × Bool × Bool := (s.store.bootSlot, s.store.trial, s.store.fallingBack)

theorem dropCuratorWork_trialOf : trialOf (dropCuratorWork s) = trialOf s :=
  foldl_keeps (g := trialOf) (fun _ _ => by unfold countTaken; dsimp only; split <;> rfl) s.cmd.workQueue

theorem givenUp_trialOf : trialOf (givenUp s) = trialOf s :=
  dropCuratorWork_trialOf.trans (abandonLoads_keeps trialOf fun _ => rfl)

theorem dropCuratorWork_cur : (dropCuratorWork s).cur = s.cur :=
  foldl_keeps (g := fun u => u.cur) (fun _ _ => by unfold countTaken; dsimp only; split <;> rfl) s.cmd.workQueue

theorem givenUp_cur : (givenUp s).cur = s.cur :=
  dropCuratorWork_cur.trans (abandonLoads_keeps (fun u => u.cur) fun _ => rfl)

theorem fallBackSlot_cur (u : State) : { (fallBackSlot u).cur with confirmRemain := u.cur.confirmRemain } = u.cur := by
  unfold fallBackSlot; split <;> rfl

/-- In a trial the previous slot is chosen, and the timer of the trial ends (R483). -/
theorem fallBackSlot_trial (u : State) (ht : u.store.trial = true) (hb : u.store.fallingBack = false) :
    let v := fallBackSlot u
    v.store.bootSlot = 1 - u.store.bootSlot ∧ v.store.fallingBack = true ∧ v.cur.confirmRemain = 0 := by
  unfold fallBackSlot; rw [ht, hb]; exact ⟨rfl, rfl, rfl⟩

theorem fallBackSlot_no_trial (u : State) (ht : u.store.trial = false) : fallBackSlot u = u := by
  unfold fallBackSlot; rw [ht]; rfl

theorem abandonLoads_rises : Rises s (abandonLoads s) := by
  have moves : Moves (.eng :: replyAreas) s (abandonLoads s) := by
    refine foldl_moves (fun u p h => ?_) .refl
    unfold abandonLoad
    dsimp only
    split
    · exact h
    · exact ite_moves h (complete_moves (by decide) (putEngine_moves (by decide) h))
  exact moves.rises

theorem dropCuratorWork_rises : Rises s (dropCuratorWork s) := by
  have e : ((dropCuratorWork s).flt, (dropCuratorWork s).cmd.irqStatus) = (s.flt, s.cmd.irqStatus) :=
    foldl_keeps (g := fun u => (u.flt, u.cmd.irqStatus)) (fun _ _ => by unfold countTaken; dsimp only; split <;> rfl)
      s.cmd.workQueue
  exact rises_of_flt (congrArg Prod.fst e) fun k h => by rwa [show (dropCuratorWork s).cmd.irqStatus = _ from congrArg Prod.snd e]

theorem fallBackSlot_rises : Rises s (fallBackSlot s) := by
  unfold fallBackSlot
  split
  · exact rises_of_flt rfl fun _ h => h
  · exact rises_of_flt rfl fun _ h => h

/-- A restart clears no source and no event. -/
theorem startRestart_rises {cause : RestartCause} (h : cause ≠ .activate) : Rises s (startRestart cause s) := by
  have servo : Rises s (servoRestart s) := rises_of_flt rfl fun _ h => h
  have chosen : Rises s (emptied cause s) := by
    rw [emptied_eq h]
    exact servo.trans (abandonLoads_rises.trans (dropCuratorWork_rises.trans fallBackSlot_rises))
  have held : Rises (emptied cause s) (holdCores cause (emptied cause s)) := rises_of_flt rfl fun _ h => h
  rw [startRestart_eq]
  exact chosen.trans (held.trans (rises_of_flt (raiseIrq_flt _ _) fun k => raiseIrq_keeps_bits _ k))

/-- A state with what a restart may change as `s` has it. -/
def restartedRest (s u : State) : State :=
  { u with chip := s.chip, cur := s.cur, doc := s.doc, eng := s.eng, mem := s.mem, store := s.store, time := s.time
           pkt := { u.pkt with trapQueues := s.pkt.trapQueues }, mtx := { u.mtx with restate := s.mtx.restate } }

theorem restartedRest_holdCores {cause : RestartCause} (u : State) (h : settled (restartRest s u) = settled s) :
    settled (restartedRest s (holdCores cause u)) = settled s :=
  congrArg (fun x : State => { x with chip := s.chip, mem := s.mem }) h

theorem restartedRest_of_settled (h : settled t = settled u) :
    settled (restartedRest s t) = settled (restartedRest s u) := congrArg (restartedRest s) h

theorem startRestart_rest (cause : RestartCause) : settled (restartedRest s (startRestart cause s)) = settled s := by
  rw [startRestart_eq]
  exact (restartedRest_of_settled (raiseIrq_settled _ _)).trans (restartedRest_holdCores _ (emptied_rest cause))

/-- What a restart of any cause but an activation leads to. -/
theorem startRestart_restarts {cause : RestartCause} (h : cause ≠ .activate) :
    let t := startRestart cause s
    t.cur.restartCount = sat32 s.cur.restartCount 1
      ∧ { t.cur with remap := s.cur.remap, restarting := s.cur.restarting, restartCause := s.cur.restartCause
                     restartCount := s.cur.restartCount, wdogRemain := s.cur.wdogRemain
                     confirmRemain := s.cur.confirmRemain } = s.cur
      ∧ t.cmd.irqStatus.getLsbD 3 = true ∧ Dropped t
      ∧ t.mem = wipeSram s.mem
      ∧ (s.store.trial = true → s.store.fallingBack = false →
          t.store.bootSlot = 1 - s.store.bootSlot ∧ t.store.fallingBack = true ∧ t.cur.confirmRemain = 0)
      ∧ (s.store.trial = false → t.store.bootSlot = s.store.bootSlot ∧ t.store.fallingBack = s.store.fallingBack) := by
  intro t
  have said : settled t = settled (holdCores cause (emptied cause s)) := raiseIrq_settled _ _
  have cur : t.cur = (holdCores cause (emptied cause s)).cur := congrArg (fun u => u.cur) said
  have store : t.store = (fallBackSlot (givenUp s)).store := by
    rw [← emptied_eq h]; exact congrArg (fun u => u.store) said
  have mem : t.mem = wipeSram s.mem :=
    (congrArg (fun u => u.mem) said).trans (congrArg wipeSram (emptied_mem cause))
  have kept : { (emptied cause s).cur with confirmRemain := s.cur.confirmRemain } = s.cur := by
    have back := fallBackSlot_cur (givenUp s)
    rw [givenUp_cur (s := s)] at back
    rw [emptied_eq h]; exact back
  have dropped : Dropped (emptied cause s) := by rw [emptied_eq h]; exact fallBackSlot_dropped givenUp_dropped
  have confirm : t.cur.confirmRemain = (fallBackSlot (givenUp s)).cur.confirmRemain := by
    rw [cur, ← emptied_eq h]; rfl
  have trial : trialOf (givenUp s) = trialOf s := givenUp_trialOf
  simp only [trialOf, Prod.mk.injEq] at trial
  obtain ⟨slot, tried, fell⟩ := trial
  refine ⟨?_, ?_, raiseIrq_bit _ _ (by decide), ?_, mem, fun ht hb => ?_, fun ht => ?_⟩
  · have count : (emptied cause s).cur.restartCount = s.cur.restartCount := congrArg (fun c => c.restartCount) kept
    rw [cur, ← count]; rfl
  · rw [cur]; exact congrArg (fun c : Curator => { c with
      remap := s.cur.remap, restarting := s.cur.restarting, restartCause := s.cur.restartCause
      restartCount := s.cur.restartCount, wdogRemain := s.cur.wdogRemain }) kept
  · obtain ⟨h1, h2, h3, h4, h5, h6⟩ := dropped
    exact ⟨(raiseIrq_workQueue _).trans h1, (congrArg (fun u => u.pkt.trapQueues) said).trans h2,
      (congrArg (fun u => u.mtx.restate) said).trans h3, (congrArg (fun u => u.store.writes) said).trans h4,
      (congrArg (fun u => u.doc.line) said).trans h5, (congrArg (fun u => u.doc.output) said).trans h6⟩
  · rw [store, confirm, ← slot]
    exact fallBackSlot_trial _ (tried.trans ht) (fell.trans hb)
  · rw [store, fallBackSlot_no_trial _ (tried.trans ht)]
    exact ⟨slot, fell⟩

/-! ### The causes -/

/-- What an event that restarts the Curator raises, and the cause that it gives. -/
def RestartEvent (i : Instr) (c : RestartCause) (fault : Option Nat) (s : State) : Prop :=
  (i, c, fault) = (.lockstepMismatch, .lockstep, some 0) ∨ (i, c, fault) = (.watchdogExpiry, .watchdog, some 1)
    ∨ ((i, c, fault) = (.confirmTimeout, .confirmTimeout, some 1) ∧ s.cur.confirmRemain ≠ 0)
    ∨ (i, c, fault) = (.sysctlRestart, .request, none)

/-- The state in which a cause starts its restart. -/
def noted (fault : Option Nat) (s : State) : State :=
  match fault with
  | some n => note 0x0D n s
  | none => s

theorem noted_settled (fault : Option Nat) : settled (noted fault s) = settled s := by
  cases fault with
  | none => rfl
  | some n => exact note_settled s _ _

theorem restartEvent_restarts {i : Instr} {c : RestartCause} {fault : Option Nat} (h : RestartEvent i c fault s)
    (hl : s.chip.rootLocked = true) :
    exec i s = .next (startRestart c (noted fault s)) ∧ c ≠ .activate := by
  obtain h | h | ⟨h, hr⟩ | h := h <;> obtain ⟨rfl, rfl, rfl⟩ := h
  · exact ⟨congrArg Host.Outcome.next (clocked_locked s _ hl), by decide⟩
  · exact ⟨congrArg Host.Outcome.next (clocked_locked s _ hl), by decide⟩
  · refine ⟨?_, by decide⟩
    show Host.Outcome.next (clocked _ s) = _
    rw [clocked_locked s _ hl, if_neg hr]; rfl
  · exact ⟨congrArg Host.Outcome.next (clocked_locked s _ hl), by decide⟩

theorem restartedRest_eq (h : settled u = settled s) : restartedRest u t = restartedRest s t := by
  show restartedRest (settled u) t = restartedRest (settled s) t
  rw [h]

/-- Curator SRAM is zero after a restart, and no other memory has changed (R419). -/
theorem wipeSram_wipes (m : List Host.Cell) :
    (∀ a, (0x20000000 ≤ a ∧ a < 0x20400000) → mread (wipeSram m) a = 0)
      ∧ (∀ a, (a < 0x20000000 ∨ 0x20400000 ≤ a) → mread (wipeSram m) a = mread m a) := by
  have bound : sramBase + sramSize = 0x20400000 := rfl
  refine ⟨fun a h => ?_, fun a h => ?_⟩ <;> rw [mread_wipeSram, bound]
  · exact if_pos h
  · refine if_neg fun g => ?_
    have low : sramBase = 0x20000000 := rfl
    omega

/-! ### Before ROOT has locked, and without a restart -/

theorem restart_unlocked (h : s.chip.rootLocked = false) : ∀ i ∈ [Instr.lockstepMismatch, .watchdogExpiry,
    .confirmTimeout, .sysctlRestart, .slowRestart], exec i s = .next s := by
  have none : ∀ f, Host.Outcome.next (clocked f s) = (.next s : Host.Outcome State Fault Refusal) :=
    fun f => congrArg Host.Outcome.next (clocked_unlocked s f h)
  intro i hi
  simp only [List.mem_cons, List.not_mem_nil, or_false] at hi
  obtain rfl | rfl | rfl | rfl | rfl := hi <;> exact none _

theorem confirmTimeout_idle (h : s.cur.confirmRemain = 0) : exec .confirmTimeout s = .next s := by
  show Host.Outcome.next (clocked _ s) = _
  unfold clocked
  dsimp only
  rw [if_pos h, ite_self]

theorem slowRestart_none (h : s.cur.restarting = false) : exec .slowRestart s = .next s := by
  show Host.Outcome.next (clocked _ s) = _
  unfold clocked
  simp [h]

theorem resumed_none (h : s.cur.restarting = false) : exec .commandServiceResumed s = .next s := by
  show Host.Outcome.next (if s.cur.restarting then _ else s) = _
  rw [if_neg (by rw [h]; decide)]

/-! ### The streams at the end of a restart (R376) -/

/-- Replies are added, and no session's streams change. -/
structure Mails (s t : State) : Prop where
  sessions : ∀ n, sessionOf t n = sessionOf s n
  posted : ∀ e, ∀ r ∈ posted s e, r ∈ posted t e

theorem Mails.trans (h : Mails s t) (g : Mails t u) : Mails s u :=
  ⟨fun n => (g.sessions n).trans (h.sessions n), fun e r hr => g.posted e r (h.posted e r hr)⟩

theorem mails_of_mail (h : mail t = mail s) : Mails s t :=
  ⟨fun n => mail_sessionOf h n, fun e r hr => by rwa [mail_posted h]⟩

theorem postReply_posted (r : Reply) (e : Endpoint) : ∀ x ∈ posted s e, x ∈ posted (postReply r s) e := by
  intro x hx
  unfold postReply
  cases e <;> split <;> simp_all [posted]

theorem sendReply_mails (r : Reply) : Mails s (sendReply r s) := by
  refine ⟨fun n => sendReply_sessions s r n, fun e x hx => ?_⟩
  have post := postReply_posted r e x hx
  unfold sendReply
  split
  · exact post
  · rw [mail_posted (offerControl_mail _ _ _ _)]; exact post
  · rw [mail_posted (sendTwin_mail _ _ _)]; exact post

theorem complete_mails (r : Option Reply) (x : Answer) : Mails s (complete r x s) := by
  unfold complete
  split
  · exact sendReply_mails _
  · exact mails_of_mail rfl

/-- The sequence at which a stream is set back. -/
def firstUnanswered (x : Stream) : Word := match x.replied with | some r => r + 1 | none => 1

/-- A stream of `s` whose last reply is behind its last command is set back in `t`, and answered. -/
def Resumed (n cls : Nat) (s t : State) : Prop :=
  ∀ last, (streamOf (sessionOf s n) cls).taken = some last → (streamOf (sessionOf s n) cls).replied ≠ some last →
    (streamOf (sessionOf t n) cls).expected = firstUnanswered (streamOf (sessionOf s n) cls)
      ∧ ∃ r ∈ posted t (sessionOf s n).endpoint, r.session = n ∧ r.cls = cls
          ∧ r.seq = firstUnanswered (streamOf (sessionOf s n) cls) ∧ r.status = 0x0500 ∧ r.detail = 0xFFFD
          ∧ r.results = leBytes 4 last.toNat

/-- A stream stays as it is, its session with it, and no reply is withdrawn. -/
structure KeepsStream (n cls : Nat) (s t : State) : Prop where
  stream : streamOf (sessionOf t n) cls = streamOf (sessionOf s n) cls
  isOpen : (sessionOf t n).isOpen = (sessionOf s n).isOpen
  endpoint : (sessionOf t n).endpoint = (sessionOf s n).endpoint
  posted : ∀ e, ∀ r ∈ posted s e, r ∈ posted t e

section
variable {n k cls c : Nat}

theorem KeepsStream.refl : KeepsStream n cls s s := ⟨rfl, rfl, rfl, fun _ _ h => h⟩

theorem KeepsStream.trans (h : KeepsStream n cls s t) (g : KeepsStream n cls t u) : KeepsStream n cls s u :=
  ⟨g.stream.trans h.stream, g.isOpen.trans h.isOpen, g.endpoint.trans h.endpoint,
    fun e r hr => g.posted e r (h.posted e r hr)⟩

theorem Mails.keepsStream (h : Mails s t) : KeepsStream n cls s t :=
  ⟨by rw [h.sessions], by rw [h.sessions], by rw [h.sessions], h.posted⟩

theorem Resumed.after (h : KeepsStream n cls s t) (g : Resumed n cls t u) : Resumed n cls s u := by
  intro last ht hr
  rw [← h.stream, ← h.endpoint] at *
  exact g last ht hr

theorem Resumed.before (h : Resumed n cls s t) (g : KeepsStream n cls t u) : Resumed n cls s u := by
  intro last ht hr
  obtain ⟨he, r, hp, hs⟩ := h last ht hr
  exact ⟨by rw [g.stream, he], r, g.posted _ r hp, hs⟩

theorem streamOf_putStream_other (x : Session) (v : Stream) (h : c ≠ cls) (hc : c ≤ 3) (hk : cls ≤ 3) :
    streamOf (putStream x c v) cls = streamOf x cls := by
  interval_cases c <;> interval_cases cls <;> simp [streamOf, putStream] at h ⊢

theorem putStream_endpoint (x : Session) (v : Stream) : (putStream x c v).endpoint = x.endpoint := by
  unfold putStream; split <;> rfl

/-- The reply for a stream that is set back. -/
def resumeReply (n cls : Nat) (last : Word) (s : State) : Reply :=
  { endpoint := (sessionOf s n).endpoint, cls := cls, opcode := (draw 16 s).1.toNat, session := n
    seq := firstUnanswered (streamOf (sessionOf s n) cls), status := 0x0500, detail := 0xFFFD
    results := leBytes 4 last.toNat }

/-- The state in which that reply is sent. -/
def setBack (n cls : Nat) (s : State) : State :=
  let x := streamOf (sessionOf s n) cls
  putSession (draw 16 s).2 n (putStream (sessionOf s n) cls { x with expected := firstUnanswered x, taken := x.replied })

theorem resumeStream_behind {last : Word} (ht : (streamOf (sessionOf s n) cls).taken = some last)
    (hr : (streamOf (sessionOf s n) cls).replied ≠ some last) :
    resumeStream n cls s = sendReply (resumeReply n cls last s) (setBack n cls s) := by
  unfold resumeStream; dsimp only; rw [ht]; dsimp only; rw [if_neg hr]; rfl

theorem resumeStream_kept (h : ∀ last, (streamOf (sessionOf s n) cls).taken = some last →
    (streamOf (sessionOf s n) cls).replied = some last) : resumeStream n cls s = s := by
  unfold resumeStream
  dsimp only
  split
  · rfl
  · rename_i last e; rw [if_pos (h last e)]

theorem sessionOf_setBack (j : Nat) : sessionOf (setBack n cls s) j =
    if n = j then putStream (sessionOf s n) cls { streamOf (sessionOf s n) cls with
      expected := firstUnanswered (streamOf (sessionOf s n) cls), taken := (streamOf (sessionOf s n) cls).replied }
    else sessionOf s j := sessionOf_putSession _ _ _ _

theorem resumeStream_resumed : Resumed n cls s (resumeStream n cls s) := by
  intro last ht hr
  rw [resumeStream_behind ht hr]
  refine ⟨?_, resumeReply n cls last s, ?_, rfl, rfl, rfl, rfl, rfl, rfl⟩
  · rw [sendReply_sessions, sessionOf_setBack, if_pos rfl, putStream_owed]
  · have last := sendReply_posted (setBack n cls s) (resumeReply n cls last s)
    exact last ▸ List.mem_append_right _ (List.mem_singleton_self _)

/-- One stream's resumption leaves every other. -/
theorem resumeStream_keeps (h : k ≠ n ∨ c ≠ cls) (hc : c ≤ 3) (hk : cls ≤ 3) :
    KeepsStream n cls s (resumeStream k c s) := by
  by_cases b : ∀ last, (streamOf (sessionOf s k) c).taken = some last → (streamOf (sessionOf s k) c).replied = some last
  · rw [resumeStream_kept b]; exact .refl
  · push Not at b
    obtain ⟨last, ht, hr⟩ := b
    rw [resumeStream_behind ht hr]
    have back : KeepsStream n cls s (setBack k c s) := by
      refine ⟨?_, ?_, ?_, fun e r hr => by cases e <;> exact hr⟩ <;> rw [sessionOf_setBack] <;> split
      · rename_i e
        rw [streamOf_putStream_other _ _ (h.resolve_left fun g => g e) hc hk, e]
      · rfl
      · rename_i e
        rw [streamOf_isOpen, e]
      · rfl
      · rename_i e
        rw [putStream_endpoint, e]
      · rfl
    exact back.trans (sendReply_mails _).keepsStream

/-- The three streams of a session. -/
def resumeSession (n : Nat) (s : State) : State := resumeStream n 3 (resumeStream n 2 (resumeStream n 1 s))

theorem resumeSession_keeps (h : k ≠ n) (hk : cls ≤ 3) : KeepsStream n cls s (resumeSession k s) :=
  ((resumeStream_keeps (.inl h) (by decide) hk).trans (resumeStream_keeps (.inl h) (by decide) hk)).trans
    (resumeStream_keeps (.inl h) (by decide) hk)

theorem resumeSession_resumed (h1 : 1 ≤ cls) (h3 : cls ≤ 3) : Resumed n cls s (resumeSession n s) := by
  have other : ∀ {v : State} (c : Nat), c ≤ 3 → c ≠ cls → KeepsStream n cls v (resumeStream n c v) :=
    fun c hc hn => resumeStream_keeps (.inr hn) hc h3
  unfold resumeSession
  obtain rfl | rfl | rfl : cls = 1 ∨ cls = 2 ∨ cls = 3 := by omega
  · exact (resumeStream_resumed.before (other 2 (by decide) (by decide))).before (other 3 (by decide) (by decide))
  · exact (Resumed.after (other 1 (by decide) (by decide)) resumeStream_resumed).before (other 3 (by decide) (by decide))
  · exact Resumed.after ((other 1 (by decide) (by decide)).trans (other 2 (by decide) (by decide))) resumeStream_resumed

theorem resumeStreams_succ (m : Nat) : resumeStreams (m + 1) s =
    if (sessionOf (resumeStreams m s) (m + 1)).isOpen then resumeSession (m + 1) (resumeStreams m s)
    else resumeStreams m s := rfl

theorem resumeStreams_keeps {m : Nat} (h : m < n) (hk : cls ≤ 3) : KeepsStream n cls s (resumeStreams m s) := by
  induction m with
  | zero => exact .refl
  | succ m ih =>
    rw [resumeStreams_succ]
    split
    · exact (ih (by omega)).trans (resumeSession_keeps (by omega) hk)
    · exact ih (by omega)

/-- Every stream of an open session among the first m is resumed. -/
theorem resumeStreams_resumed {m : Nat} (h0 : 1 ≤ n) (hn : n ≤ m) (h1 : 1 ≤ cls) (h3 : cls ≤ 3)
    (ho : (sessionOf s n).isOpen = true) : Resumed n cls s (resumeStreams m s) := by
  induction m with
  | zero => omega
  | succ m ih =>
    rw [resumeStreams_succ]
    by_cases e : n = m + 1
    · subst e
      have kept := resumeStreams_keeps (s := s) (m := m) (n := m + 1) (by omega) h3
      rw [if_pos (kept.isOpen.trans ho)]
      exact Resumed.after kept (resumeSession_resumed h1 h3)
    · split
      · exact (ih (by omega)).before (resumeSession_keeps (by omega) h3)
      · exact ih (by omega)

end

theorem resumeStream_rest (n cls d : Nat) :
    settled { resumeStream n cls s with draws := d } = settled { s with draws := d } := by
  by_cases b : ∀ last, (streamOf (sessionOf s n) cls).taken = some last → (streamOf (sessionOf s n) cls).replied = some last
  · rw [resumeStream_kept b]
  · push Not at b
    obtain ⟨last, ht, hr⟩ := b
    rw [resumeStream_behind ht hr]
    exact congrArg (fun u : State => { u with draws := d }) (sendReply_settled (setBack n cls s) _)

/-- The resumption of the streams sends replies and draws. -/
theorem resumeStreams_rest (m d : Nat) :
    settled { resumeStreams m s with draws := d } = settled { s with draws := d } := by
  induction m with
  | zero => rfl
  | succ m ih =>
    rw [resumeStreams_succ]
    split
    · unfold resumeSession
      rw [resumeStream_rest, resumeStream_rest, resumeStream_rest, ih]
    · exact ih

/-! ### The end of a restart (R419, R480, R484) -/

/-- What follows the release of the cores leaves of the state. -/
structure Continues (s t : State) : Prop where
  rest : settled { t with cur := s.cur, doc := s.doc, eng := s.eng, store := s.store } = settled s
  restarting : t.cur.restarting = s.cur.restarting
  remap : t.cur.remap = s.cur.remap
  rises : Rises s t
  mails : Mails s t

theorem rises_refl : Rises s s := rises_of_flt rfl fun _ h => h
theorem mails_refl : Mails s s := mails_of_mail rfl

theorem Continues.refl : Continues s s := ⟨rfl, rfl, rfl, rises_refl, mails_refl⟩

theorem Continues.trans (h : Continues s t) (g : Continues t u) : Continues s u :=
  ⟨(congrArg (fun x : State => { x with cur := s.cur, doc := s.doc, eng := s.eng, store := s.store }) g.rest).trans
      h.rest, g.restarting.trans h.restarting, g.remap.trans h.remap, h.rises.trans g.rises, h.mails.trans g.mails⟩

theorem continues_ite {c : Prop} [Decidable c] (h : Continues s t) (g : Continues s u) :
    Continues s (if c then t else u) := by split <;> assumption

theorem continues_of_settled (h : settled t = settled s) (hr : Rises s t) (hm : Mails s t) : Continues s t :=
  ⟨congrArg (fun x : State => { x with cur := s.cur, doc := s.doc, eng := s.eng, store := s.store }) h,
    congrArg (fun x => x.cur.restarting) h, congrArg (fun x => x.cur.remap) h, hr, hm⟩

theorem complete_continues (r : Option Reply) (x : Answer) : Continues s (complete r x s) :=
  continues_of_settled (complete_settled r x) (complete_moves (List.Subset.refl replyAreas) .refl).rises
    (complete_mails r x)

theorem note_continues (c i : Nat) : Continues s (note c i s) :=
  continues_of_settled (note_settled s c i) (raiseCore_rises _) (mails_of_mail (raiseCore_mail s _))

theorem reloadEngines_rest (f : Nat → Word) (e : Engines) : { reloadEngines f s with eng := e } = { s with eng := e } :=
  foldl_keeps (g := fun u => { u with eng := e }) (fun u p => by dsimp only; split <;> rfl) _

theorem reloadEngines_continues (f : Nat → Word) : Continues s (reloadEngines f s) := by
  have e := reloadEngines_rest (s := s) f s.eng
  exact ⟨congrArg (fun x => settled { x with cur := s.cur, doc := s.doc, store := s.store }) e,
    congrArg (fun x => x.cur.restarting) e, congrArg (fun x => x.cur.remap) e,
    rises_of_flt (congrArg (fun x => x.flt) e) fun k h => by
      rwa [show (reloadEngines f s).cmd = _ from congrArg (fun x => x.cmd) e],
    mails_of_mail (show mail { reloadEngines f s with eng := s.eng } = mail { s with eng := s.eng } from congrArg mail e)⟩

theorem store_continues (x : Store) : Continues s { s with store := x } :=
  ⟨rfl, rfl, rfl, rises_of_flt rfl fun _ h => h, mails_of_mail rfl⟩

theorem resumeFallBack_continues : Continues s (resumeFallBack s) := by
  unfold resumeFallBack
  extract_lets fell src s1 src' s2 s3
  have h1 : Continues s s1 := by
    unfold s1
    split
    · exact (store_continues _).trans (complete_continues _ _)
    · exact .refl
  have h2 : Continues s s2 := h1.trans (store_continues _)
  have h3 : Continues s s3 := continues_ite (h2.trans (note_continues _ _)) h2
  exact (h3.trans (store_continues _)).trans (reloadEngines_continues _)

theorem finishActivation_continues : Continues s (finishActivation s) := by
  unfold finishActivation
  split
  · exact .refl
  · exact continues_ite .refl ((store_continues _).trans (complete_continues _ _))

theorem resumeActivation_continues (x : Activation) : Continues s (resumeActivation x s) := by
  have timer : Continues s { s with cur := { s.cur with confirmRemain := 60 * x.window } } :=
    ⟨rfl, rfl, rfl, rises_of_flt rfl fun _ h => h, mails_of_mail rfl⟩
  exact (timer.trans (reloadEngines_continues _)).trans finishActivation_continues

theorem sendBanner_continues : Continues s (sendBanner s) :=
  continues_ite .refl ⟨rfl, rfl, rfl, rises_of_flt rfl fun _ h => h, mails_of_mail rfl⟩

/-- The cores are released. -/
def release (s : State) : State :=
  raiseIrq irqCuratorRestart { s with
    chip := { s.chip with startPhase := 6, curatorServing := true }
    cur := { s.cur with restarting := false, remap := true } }

/-- The state when the cores are released. -/
def released (s : State) : State := release (resumeStreams 16 s)

/-- What follows: the end of a trial, or the engines of an activation. -/
def continued (s : State) : State :=
  if s.store.fallingBack then resumeFallBack s
  else match s.store.activation with
    | some a => if s.cur.restartCause = .activate then resumeActivation a s else s
    | none => s

theorem resumeService_eq (s : State) : resumeService s = readRings (sendBanner (continued (released s))) := rfl

theorem continued_continues : Continues s (continued s) := by
  unfold continued
  refine continues_ite resumeFallBack_continues ?_
  split
  · exact continues_ite (resumeActivation_continues _) .refl
  · exact .refl

theorem release_settled : settled (release s) = settled { s with
    chip := { s.chip with startPhase := 6, curatorServing := true }
    cur := { s.cur with restarting := false, remap := true } } := raiseIrq_settled _ _

theorem release_chip : (release s).chip = { s.chip with startPhase := 6, curatorServing := true } :=
  congrArg (fun u => u.chip) release_settled

theorem release_cur : (release s).cur = { s.cur with restarting := false, remap := true } :=
  congrArg (fun u => u.cur) release_settled

theorem release_mails : Mails s (release s) := by
  refine Mails.trans ?_ (mails_of_mail (raiseIrq_mail _ _))
  exact mails_of_mail rfl

theorem release_rest (c : Chip) (k : Curator) :
    settled { release s with chip := c, cur := k } = settled { s with chip := c, cur := k } :=
  congrArg (fun u : State => { u with chip := c, cur := k }) release_settled

/-- Two states that differ in what the streams draw. -/
theorem settled_of_draws {d : Nat} {c : Chip} {k : Curator}
    (h : settled { t with draws := d } = settled { s with draws := d }) :
    settled { t with chip := c, cur := k, draws := d } = settled { s with chip := c, cur := k, draws := d } :=
  congrArg (fun u : State => { u with chip := c, cur := k }) h

theorem settled_draws_release (d : Nat) (c : Chip) (k : Curator) :
    settled { release s with chip := c, cur := k, draws := d } = settled { s with chip := c, cur := k, draws := d } :=
  congrArg (fun u : State => { u with draws := d }) (release_rest c k)

theorem released_rest : settled { released s with chip := s.chip, cur := s.cur, draws := s.draws } = settled s :=
  (settled_draws_release s.draws s.chip s.cur).trans (settled_of_draws (resumeStreams_rest 16 s.draws))

theorem resumeStreams_chip (m : Nat) : (resumeStreams m s).chip = s.chip :=
  congrArg (fun u => u.chip) (resumeStreams_rest (s := s) m 0)

theorem released_chip : (released s).chip = { s.chip with startPhase := 6, curatorServing := true } := by
  unfold released; rw [release_chip, resumeStreams_chip]

/-- The state in which the rings are read again. -/
def serving (s : State) : State := sendBanner (continued (released s))

theorem serving_continues : Continues (released s) (serving s) := continued_continues.trans sendBanner_continues

theorem serving_chip : (serving s).chip = { s.chip with startPhase := 6, curatorServing := true } :=
  (congrArg (fun u => u.chip) serving_continues.rest).trans released_chip

theorem readRings_keeps {β : Type} (f : State → β) (hf : ∀ u, f (ringless u) = f u) : f (readRings s) = f s := by
  rw [← hf, readRings_ringless, hf]

/-- What the end of a restart leaves. -/
theorem serving_rest : settled { serving s with chip := s.chip, cur := s.cur, doc := s.doc, draws := s.draws, eng := s.eng
                                                store := s.store } = settled s := by
  have h1 := congrArg (fun u : State => { u with chip := s.chip, cur := s.cur, doc := s.doc, draws := s.draws,
                                                 eng := s.eng, store := s.store }) (serving_continues (s := s)).rest
  exact h1.trans (congrArg (fun u : State => { u with doc := s.doc, eng := s.eng, store := s.store }) released_rest)

/-- A state with what the end of a restart may change as `s` has it. -/
def resumedRest (s u : State) : State :=
  { u with chip := s.chip, cur := s.cur, doc := s.doc, draws := s.draws, eng := s.eng, store := s.store
           cmd := { u.cmd with ring0 := s.cmd.ring0, ring1 := s.cmd.ring1, ring2 := s.cmd.ring2, ring3 := s.cmd.ring3 } }

theorem resumedRest_of_ringless (h : ringless t = ringless u) : settled (resumedRest s t) = settled (resumedRest s u) :=
  congrArg (resumedRest s) h

theorem serving_cmd : settled (resumedRest s (serving s)) = settled s :=
  congrArg (fun u : State => { u with cmd := { u.cmd with
    ring0 := s.cmd.ring0, ring1 := s.cmd.ring1, ring2 := s.cmd.ring2, ring3 := s.cmd.ring3 } }) serving_rest

theorem resumeService_rest : settled (resumedRest s (resumeService s)) = settled s :=
  (resumedRest_of_ringless readRings_ringless).trans serving_cmd

theorem ringOf_of_rest (h : settled { t with chip := s.chip, cur := s.cur, doc := s.doc, draws := s.draws, eng := s.eng
                                             store := s.store } = settled s) (c : Nat) : ringOf t c = ringOf s c :=
  ringOf_settled h c

theorem serving_ringOf (c : Nat) : ringOf (serving s) c = ringOf s c := ringOf_of_rest serving_rest c

/-- With nothing unread, every stream that was behind has been answered. -/
theorem resumeService_resumed {n cls : Nat} (hu : ∀ c, (ringOf s c).unread = []) (h0 : 1 ≤ n) (hn : n ≤ 16) (h1 : 1 ≤ cls)
    (h3 : cls ≤ 3) (ho : (sessionOf s n).isOpen = true) : Resumed n cls s (resumeService s) := by
  have view : resumeService s = serving s := by
    rw [resumeService_eq]
    exact readRings_none _ fun c => by rw [show ringOf (sendBanner (continued (released s))) c = _ from serving_ringOf c]; exact hu c
  rw [view]
  exact (resumeStreams_resumed h0 hn h1 h3 ho).before (release_mails.trans serving_continues.mails).keepsStream

theorem resumeService_serves :
    let t := resumeService s
    t.chip = { s.chip with startPhase := 6, curatorServing := true }
      ∧ t.cur.restarting = false ∧ t.cur.remap = true ∧ t.cmd.irqStatus.getLsbD 3 = true ∧ t.mem = s.mem := by
  have irq : (released s).cmd.irqStatus.getLsbD 3 = true := raiseIrq_bit _ _ (by decide)
  have after : Rises (serving s) (resumeService s) := (readRings_moves (List.Subset.refl replyAreas) .refl).rises
  have cur : (released s).cur = _ := release_cur
  refine ⟨(readRings_keeps (fun u => u.chip) fun _ => rfl).trans serving_chip,
    (readRings_keeps (fun u => u.cur.restarting) fun _ => rfl).trans (serving_continues.restarting.trans ?_),
    (readRings_keeps (fun u => u.cur.remap) fun _ => rfl).trans (serving_continues.remap.trans ?_),
    after.irq 3 (serving_continues.rises.irq 3 irq),
    (readRings_keeps (fun u => u.mem) fun _ => rfl).trans (congrArg (fun u => u.mem) (serving_rest (s := s)))⟩
  · rw [cur]
  · rw [cur]

/-- Settles O57: a restart by what it empties, holds and raises; its end by the streams it sets back one after the
other and what the rings' reading leaves. -/
theorem curatorRestartsAndResumes : Obligations.CuratorRestartsAndResumes := by
  unfold Obligations.CuratorRestartsAndResumes
  refine ⟨fun i c fault s h hl => ?_, fun s => ⟨restart_unlocked, confirmTimeout_idle,
    fun h => ⟨slowRestart_none h, resumed_none h⟩, fun h => ⟨fun hl => ?_, ?_⟩⟩⟩
  · obtain ⟨goes, ne⟩ := restartEvent_restarts h hl
    have first : settled (noted fault s) = settled s := noted_settled fault
    have chip : (noted fault s).chip = s.chip := congrArg (fun u => u.chip) first
    have cur : (noted fault s).cur = s.cur := congrArg (fun u => u.cur) first
    have store : (noted fault s).store = s.store := congrArg (fun u => u.store) first
    have mem : (noted fault s).mem = s.mem := congrArg (fun u => u.mem) first
    obtain ⟨cause, again, remap⟩ := startRestart_records (s := noted fault s) c
    obtain ⟨count, kept, irq, d, wiped, trial, noTrial⟩ := startRestart_restarts (s := noted fault s) ne
    have rest := startRestart_rest (s := noted fault s) c
    have held := startRestart_chip (s := noted fault s) c
    have wipes := wipeSram_wipes s.mem
    rw [chip] at held again
    rw [cur] at count kept
    rw [store] at trial noTrial
    rw [mem] at wiped
    rw [restartedRest_eq first, first] at rest
    refine ⟨_, goes, held, cause, count, remap, again, kept, irq, d.work, d.traps, d.restate, d.writes, d.line, d.output,
      by rw [wiped]; exact wipes.1, by rw [wiped]; exact wipes.2, trial, noTrial, fun n hn => ?_, rest⟩
    subst hn
    exact (startRestart_rises ne).sticky _ (note_sticky s 0x0D n)
  · refine ⟨note 0x0D 5 s, ?_, note_sticky s 0x0D 5, note_settled s _ _⟩
    show Host.Outcome.next (clocked _ s) = _
    rw [clocked_locked s _ hl, if_pos h]
  · obtain ⟨chip, restarting, remap, irq, mem⟩ := resumeService_serves (s := s)
    refine ⟨resumeService s, ?_, chip, restarting, remap, irq, mem, fun hu n cls last h0 hn h1 h3 ho ht hr => ?_,
      resumeService_rest⟩
    · show Host.Outcome.next (if s.cur.restarting then _ else s) = _
      rw [if_pos h]
    · exact resumeService_resumed hu h0 hn h1 h3 ho last ht hr

end Sys2Proof.Machine
end

section
namespace Sys2Proof.Machine
open Relation

/-! ## Essence that is presented, and received flows (R130, R195 to R209) -/

variable {T : List Area} {a s t u : State}

theorem countLink_moves (hk : .link ∈ T) {f : Nat} {g : LinkCounters → LinkCounters} (h : Moves T a s) :
    Moves T a (countLink f g s) := putLink_moves hk h

section
variable (hm : .mtx ∈ T)
include hm

theorem presentLine_moves {n : Nat} {l : PicLine} (h : Moves T a s) : Moves T a (presentLine n l s) :=
  foldl_moves (fun _ _ => pushLine_moves hm) (putEssence_moves hm h)

theorem presentSamples_moves {n k : Nat} {ws : List Word} (h : Moves T a s) : Moves T a (presentSamples n k ws s) :=
  putEssence_moves hm h

theorem repeatSample_moves {n k m : Nat} (h : Moves T a s) : Moves T a (repeatSample n k m s) := presentSamples_moves hm h

theorem pushFrameStart_moves {d : Nat} {p g : Word} (h : Moves T a s) : Moves T a (pushFrameStart d p g s) :=
  putTx_moves hm (pushSegments_moves hm h)

theorem fallbackFrame_moves {d : Nat} (h : Moves T a s) : Moves T a (fallbackFrame d s) := by
  unfold fallbackFrame
  exact ite_moves h (foldl_moves (fun _ _ => pushLine_moves hm) (pushFrameStart_moves hm h))

theorem beginFrame_moves {n : Nat} {p : Word} (h : Moves T a s) : Moves T a (beginFrame n p s) := by
  unfold beginFrame
  extract_lets e s1 held s2
  have h1 : Moves T a s1 := putEssence_moves hm h
  exact foldl_moves (fun _ _ => pushFrameStart_moves hm) (foldl_moves (fun _ _ => fallbackFrame_moves hm) h1)

theorem gainSource_moves (hf : .fault ∈ T) {n f k : Nat} {p : Word} (h : Moves T a s) :
    Moves T a (gainSource n f k p s) := judgeAll_moves hf hm (putSource_moves hm h)

variable (hk : .link ∈ T)
include hk

theorem pushAnc_moves {d : Nat} {p : AncPacket} (h : Moves T a s) : Moves T a (pushAnc d p s) := by
  unfold pushAnc
  split
  extract_lets t fmt src h' gs s1
  have h1 : Moves T a s1 := pushSegments_moves hm h
  exact ite_moves h (ite_moves (putTx_moves hm h1) (countLink_moves hk h))

theorem presentAnc_moves {n : Nat} {p : AncPacket} (h : Moves T a s) : Moves T a (presentAnc n p s) :=
  foldl_moves (fun _ _ => pushAnc_moves hm hk) (putEssence_moves hm h)
end

/-- What a received flow may change. -/
def flowAreas : List Area := [.fault, .mtx, .link] ++ wireAreas

section
variable (hT : flowAreas ⊆ T)
include hT

theorem putRxFlow_moves {n : Nat} {v : RxFlow} (h : Moves T a s) : Moves T a (putRxFlow s n v) :=
  pkt_moves (hT (by decide)) rfl h

theorem countIncomplete_moves {n : Nat} {f : RxFlow} {b : Bool} (h : Moves T a s) :
    Moves T a (countIncomplete n f b s) := ite_moves (putRxFlow_moves hT h) h

theorem releaseRow_moves {n y : Nat} {f : RxFlow} {b : RxBuffer} (h : Moves T a s) : Moves T a (releaseRow n y f b s) := by
  unfold releaseRow
  split
  extract_lets xs s1 src
  have h1 : Moves T a s1 := countIncomplete_moves hT h
  exact ite_moves (presentLine_moves (hT (by decide)) h1) h1

theorem flowPacket_moves {n src : Nat} {sd : Bool} {line : List RxAnc} {x : RxAnc} (h : Moves T a s) :
    Moves T a (flowPacket n src sd line s x) := by
  have hm : Area.mtx ∈ T := hT (by decide)
  unfold flowPacket
  split
  · exact h
  · split
    · refine ite_moves h ?_
      split
      · exact foldl_moves (fun _ _ => presentSamples_moves hm) h
      · exact foldl_moves (fun _ _ => repeatSample_moves hm) h
    · exact ite_moves (putRxFlow_moves hT h) h
    · exact ite_moves (presentAnc_moves hm (hT (by decide)) h) h
    · exact h

theorem releaseRaster_moves {n y fmt : Nat} {f : RxFlow} {b : RxBuffer} (h : Moves T a s) :
    Moves T a (releaseRaster n y fmt f b s) := by
  unfold releaseRaster
  extract_lets missing s1 src ws images s2 line
  have h1 : Moves T a s1 := countIncomplete_moves hT h
  have h2 : Moves T a s2 := foldl_moves (fun _ _ => presentLine_moves (hT (by decide))) h1
  exact ite_moves (foldl_moves (fun _ _ => flowPacket_moves hT) h2) h1

theorem releaseLine_moves {n y : Nat} (h : Moves T a s) : Moves T a (releaseLine n s y) := by
  unfold releaseLine
  split
  · exact h
  · extract_lets s1 f1
    have h1 : Moves T a s1 := putRxFlow_moves hT h
    split
    · exact h1
    · split
      · exact releaseRow_moves hT h1
      · exact releaseRaster_moves hT h1
      · exact h1

theorem releaseTo_moves {n y : Nat} (h : Moves T a s) : Moves T a (releaseTo n y s) := by
  unfold releaseTo
  split
  · exact h
  · exact foldl_moves (fun _ _ => releaseLine_moves hT) h

theorem loseFlow_moves {n : Nat} {f : RxFlow} (h : Moves T a s) : Moves T a (loseFlow n f s) := by
  unfold loseFlow
  extract_lets anc was s1
  have h1 : Moves T a s1 := foldl_moves (fun _ _ => loseSource_moves (hT (by decide)) (hT (by decide))) h
  exact ite_moves (raisePacket_moves (hT (by decide)) (List.Subset.trans (by decide) hT) h1) h1

theorem settleShown_moves {n : Nat} (h : Moves T a s) : Moves T a (settleShown n s) := by
  unfold settleShown
  split
  · exact h
  · extract_lets s1
    have h1 : Moves T a s1 := releaseTo_moves hT h
    split
    · extract_lets holds pid same f1 s2
      have h2 : Moves T a s2 := putRxFlow_moves hT h1
      exact ite_moves (loseFlow_moves hT h2) h2
    · exact putRxFlow_moves hT h1

theorem presentAncillary_moves {n : Nat} {f : RxFlow} {b : Option RxBuffer} (h : Moves T a s) :
    Moves T a (presentAncillary n f b s) := by
  have hm : Area.mtx ∈ T := hT (by decide)
  unfold presentAncillary
  split
  · exact h
  · exact foldl_moves (fun _ _ => presentAnc_moves hm (hT (by decide))) (ite_moves h (putEssence_moves hm h))

theorem presentPicture_moves {n : Nat} {f : RxFlow} {b : Bool} (h : Moves T a s) :
    Moves T a (presentPicture n f b s) := by
  have hm : Area.mtx ∈ T := hT (by decide)
  unfold presentPicture
  exact ite_moves (loseFlow_moves hT h) (ite_moves h (foldl_moves (fun _ _ => beginFrame_moves hm)
    (foldl_moves (fun _ _ => gainSource_moves hm (hT (by decide))) h)))

theorem presentAt_moves {n : Nat} {x : Int} (h : Moves T a s) : Moves T a (presentAt n x s) := by
  unfold presentAt
  extract_lets s1
  have h1 : Moves T a s1 := settleShown_moves hT h
  split
  · exact h1
  · exact ite_moves (presentAncillary_moves hT (putRxFlow_moves hT h1)) (presentPicture_moves hT (putRxFlow_moves hT h1))

theorem flowTick_moves {n : Nat} (h : Moves T a s) : Moves T a (flowTick n s) := by
  unfold flowTick
  split
  · exact h
  · exact ite_moves (presentAt_moves hT (releaseTo_moves hT (putRxFlow_moves hT h)))
      (releaseTo_moves hT (putRxFlow_moves hT h))

/-- A packet delivered to a flow. -/
theorem deliver_moves {n : Nat} {b : Bool} {x : Bytes} (h : Moves T a s) : Moves T a (deliver n b x s) := by
  unfold deliver
  extract_lets s1
  have h1 : Moves T a s1 := flowTick_moves hT h
  split
  · exact h1
  · exact putRxFlow_moves hT h1
end

end Sys2Proof.Machine
end

section
namespace Sys2Proof.Machine
open Relation

/-! ## Received frames (R184 to R194) -/

variable {T : List Area} {s t u : State} {n : Nat}

/-- A frame has been counted once: as received, and by what became of it. -/
def Tallied (a b : PortCounters) : Prop :=
  b.received = sat48 a.received 1 ∧
    ((b.forwarded = sat48 a.forwarded 1 ∧ b.trapped = a.trapped ∧ b.dropped = a.dropped) ∨
     (b.forwarded = a.forwarded ∧ b.trapped = sat48 a.trapped 1 ∧ b.dropped = a.dropped) ∨
     (∃ r, r < 14 ∧ b.forwarded = a.forwarded ∧ b.trapped = a.trapped
        ∧ b.dropped = tput a.dropped r (sat48 ((tfind a.dropped r).getD 0) 1)))

theorem rxTally_eq {a b : PortCounters} : rxTally a = rxTally b ↔
    a.received = b.received ∧ a.forwarded = b.forwarded ∧ a.trapped = b.trapped ∧ a.dropped = b.dropped := by
  simp [rxTally]

theorem Tallied.congr {a b a' b' : PortCounters} (h : Tallied a b) (ha : rxTally a' = rxTally a)
    (hb : rxTally b' = rxTally b) : Tallied a' b' := by
  obtain ⟨a1, a2, a3, a4⟩ := rxTally_eq.mp ha
  obtain ⟨b1, b2, b3, b4⟩ := rxTally_eq.mp hb
  unfold Tallied
  rw [a1, a2, a3, a4, b1, b2, b3, b4]
  exact h

/-- Between two states, port n has counted one frame. -/
def Sorts (n : Nat) (s t : State) : Prop := Tallied (portOf s n).counters (portOf t n).counters

theorem Sorts.before (h : Moves T s t) (hT : .pkts ∉ T) (g : Sorts n t u) : Sorts n s u :=
  Tallied.congr g (h.tally hT n).symm rfl

theorem Sorts.after (h : Sorts n s t) (g : Moves T t u) (hT : .pkts ∉ T) : Sorts n s u :=
  Tallied.congr h rfl (g.tally hT n)

theorem sorts_ite {c : Prop} [Decidable c] (h : Sorts n s t) (g : Sorts n s u) : Sorts n s (if c then t else u) := by
  split <;> assumption

theorem portOf_countPort (f : PortCounters → PortCounters) :
    portOf (countPort n f s) n = { portOf s n with counters := f (portOf s n).counters } :=
  (portOf_putPort _ _ _ _).trans (if_pos rfl)

theorem portOf_countDropped (r : Nat) : portOf (countDropped n r s) n =
    portOf (countPort n (fun c => { c with
      received := sat48 c.received 1
      dropped := tput c.dropped r (sat48 ((tfind c.dropped r).getD 0) 1) }) s) n := rfl

theorem countDropped_sorts {r : Nat} (h : r < 14) : Sorts n s (countDropped n r s) := by
  unfold Sorts
  rw [portOf_countDropped, portOf_countPort]
  exact ⟨rfl, .inr (.inr ⟨r, h, rfl, rfl, rfl⟩)⟩

theorem portOf_countForwarded : portOf (countForwarded n s) n =
    portOf (countPort n (fun c => { c with received := sat48 c.received 1, forwarded := sat48 c.forwarded 1 }) s) n := rfl

theorem countForwarded_sorts : Sorts n s (countForwarded n s) := by
  unfold Sorts
  rw [portOf_countForwarded, portOf_countPort]
  exact ⟨rfl, .inl ⟨rfl, rfl, rfl⟩⟩

theorem portOf_countTrapped : portOf (countTrapped n s) n =
    portOf (countPort n (fun c => { c with received := sat48 c.received 1, trapped := sat48 c.trapped 1 }) s) n := rfl

theorem countTrapped_sorts : Sorts n s (countTrapped n s) := by
  unfold Sorts
  rw [portOf_countTrapped, portOf_countPort]
  exact ⟨rfl, .inr (.inl ⟨rfl, rfl, rfl⟩)⟩

/-! ### What happens to a frame -/

/-- What a frame of MAC control may change. -/
def macAreas : List Area := .fault :: wireAreas

theorem endPause_moves {a : State} (ho : .port ∈ T) (h : Moves T a s) : Moves T a (endPause n s) := by
  unfold endPause
  exact ite_moves (countPort_moves ho (fun _ => rfl) (putPort_moves ho rfl h)) h

theorem loadPause_moves {a : State} (ho : .port ∈ T) {q : Nat} (h : Moves T a s) : Moves T a (loadPause n q s) := by
  unfold loadPause
  extract_lets s1 p
  have h1 : Moves T a s1 := countPort_moves ho (fun _ => rfl) h
  exact ite_moves (endPause_moves ho h1) (putPort_moves ho rfl h1)

theorem macControl_moves {b : Bytes} : Moves macAreas s (macControl n b s) := by
  have ho : Area.port ∈ macAreas := by decide
  unfold macControl
  extract_lets op mac s1 s2
  have h2 : Moves macAreas s s2 :=
    raisePacket_moves (by decide) (by decide) (countPort_moves ho (fun _ => rfl) .refl)
  exact ite_moves (countPort_moves ho (fun _ => rfl) .refl) (ite_moves (countPort_moves ho (fun _ => rfl) .refl)
    (ite_moves (ite_moves (loadPause_moves ho h2) h2) .refl))

theorem dropTrapFull_sorts : Sorts n s (dropTrapFull n s) :=
  (countDropped_sorts (by decide)).after (raisePacket_moves (T := macAreas) (by decide) (by decide) .refl) (by decide)

theorem trapFrame_sorts (x : Trapped) : Sorts n s (trapFrame n x s) := by
  have stored : Moves [.pkt] s (putTrapQueue s (n / 4) (trapQueue s (n / 4) ++ [x])) := pkt_moves (by decide) rfl .refl
  exact sorts_ite dropTrapFull_sorts (Sorts.before stored (by decide) countTrapped_sorts)

theorem trapFixed_sorts (b : Bytes) (l : L2) (x : Option L3) : Sorts n s (trapFixed n b l x s) := by
  have stamp : Moves [.draws] s (stampIngress n s).2 := draws_moves (by decide) .refl
  unfold trapFixed
  exact Sorts.before stamp (by decide) (trapFrame_sorts _)

theorem trapCommand_sorts (port : Fin 64) (b : Bytes) : Sorts port.val s (trapCommand port b s) := by
  unfold trapCommand
  split
  · refine sorts_ite (sorts_ite ?_ ?_) (trapFrame_sorts _)
    · exact Sorts.before (takeIn_moves (List.Subset.refl replyAreas) .refl) (by decide) countTrapped_sorts
    · extract_lets src s1
      have counted : Moves [.mtx] s s1 := mtx_moves (by decide) .refl
      exact Sorts.before counted (by decide)
        (dropTrapFull_sorts.after (T := [.fault]) (note_moves (by decide) .refl) (by decide))
  · exact trapFrame_sorts _

theorem classifyTrap_sorts (port : Fin 64) (b : Bytes) : Sorts port.val s (classifyTrap port b s) := by
  unfold classifyTrap
  split
  · exact trapCommand_sorts port b
  · exact trapFrame_sorts _
  · exact countDropped_sorts (by decide)
  · exact countDropped_sorts (by decide)

theorem classifyUdp_sorts (port : Fin 64) (b : Bytes) (e : L2) (x : L3) :
    Sorts port.val s (classifyUdp port b e x s) := by
  unfold classifyUdp
  split
  · exact classifyTrap_sorts port b
  · split
    · exact classifyTrap_sorts port b
    · exact sorts_ite (countDropped_sorts (by decide))
        (countForwarded_sorts.after (deliver_moves (List.Subset.refl flowAreas) .refl) (by decide))

theorem classifyNetwork_sorts (port : Fin 64) (b : Bytes) (e : L2) :
    Sorts port.val s (classifyNetwork port b e s) := by
  unfold classifyNetwork
  refine sorts_ite (countDropped_sorts (by decide)) (sorts_ite (trapFixed_sorts b e _) ?_)
  split
  · exact sorts_ite (sorts_ite (countDropped_sorts (by decide)) (classifyUdp_sorts port b e _)) (classifyTrap_sorts port b)
  · exact classifyTrap_sorts port b

/-- Every frame is counted once, by what became of it (R185). -/
theorem classifyFrame_sorts (port : Fin 64) (f : RxFrame) : Sorts port.val s (classifyFrame port f s) := by
  have drop : ∀ {r}, r < 14 → Sorts port.val s (countDropped port.val r s) := countDropped_sorts
  unfold classifyFrame
  extract_lets m c b e
  exact sorts_ite (drop (by decide)) (sorts_ite (drop (by decide)) (sorts_ite (drop (by decide))
    (sorts_ite (drop (by decide)) (sorts_ite (Sorts.before macControl_moves (by decide) (countDropped_sorts (by decide)))
    (sorts_ite (drop (by decide)) (sorts_ite (drop (by decide)) (sorts_ite (drop (by decide))
    (sorts_ite (drop (by decide)) (classifyNetwork_sorts port b e)))))))))

/-! ### A frame at a port -/

/-- What the MAC counts of every frame. -/
def countBytes (port : Fin 64) (f : RxFrame) (s : State) : State :=
  countPort port.val (fun c => { c with
    rxBytes := sat32 c.rxBytes (min f.wireLength (macCfg s port.val).maxFrame)
    fecCorrected := sat32 c.fecCorrected f.fecCorrected
    fecUncorrected := sat32 c.fecUncorrected f.fecUncorrected }) s

theorem countBytes_moves (port : Fin 64) (f : RxFrame) : Moves [.port] s (countBytes port f s) :=
  countPort_moves (by decide) (fun _ => rfl) .refl

theorem receiveFrame_classifies {port : Fin 64} {f : RxFrame} (he : portExists s port.val = true)
    (hl : (portOf s port.val).link = true) :
    receiveFrame port f s = classifyFrame port f (countBytes port f s) := by
  unfold receiveFrame
  dsimp only
  rw [he, hl]; rfl

theorem portFrameRx_classifies {port : Fin 64} {f : RxFrame} (he : portExists s port.val = true)
    (hl : (portOf s port.val).link = true) (ho : f.overflow = none) :
    exec (.portFrameRx port f) s = .next (classifyFrame port f (countBytes port f s)) := by
  show Host.Outcome.next (match f.overflow with | none => receiveFrame port f s | some k => _) = _
  rw [ho]
  exact congrArg Host.Outcome.next (receiveFrame_classifies he hl)

theorem receiveFrame_nothing {port : Fin 64} {f : RxFrame}
    (h : portExists s port.val = false ∨ (portOf s port.val).link = false) : receiveFrame port f s = s := by
  unfold receiveFrame
  obtain h | h := h <;> simp [h]

theorem portFrameRx_nothing {port : Fin 64} {f : RxFrame}
    (h : portExists s port.val = false ∨ (portOf s port.val).link = false) : exec (.portFrameRx port f) s = .next s := by
  have off : (portExists s port.val && (portOf s port.val).link) = false := by obtain h | h := h <;> simp [h]
  show Host.Outcome.next (match f.overflow with
    | none => receiveFrame port f s
    | some k => match (portLanes s port.val)[k.val]? with
      | some l => if portExists s port.val && (portOf s port.val).link then fifoOverflow l (receiveFrame port _ s)
          else receiveFrame port _ s
      | none => receiveFrame port _ s) = _
  rw [off]
  split
  · rw [receiveFrame_nothing h]
  · split
    · rw [if_neg (by decide), receiveFrame_nothing h]
    · rw [receiveFrame_nothing h]

/-- A frame on which a lane's receive FIFO filled is received as a damaged one, and the lane counts and raises it. -/
theorem portFrameRx_overflows {port : Fin 64} {f : RxFrame} {k : Fin 4} {l : Nat} (he : portExists s port.val = true)
    (hl : (portOf s port.val).link = true) (hk : (portLanes s port.val)[k.val]? = some l) (ho : f.overflow = some k) :
    exec (.portFrameRx port f) s
      = .next (fifoOverflow l (receiveFrame port { f with errored := true, overflow := none } s)) := by
  show Host.Outcome.next (match f.overflow with | none => receiveFrame port f s | some k => _) = _
  rw [ho]
  dsimp only
  rw [hk]
  dsimp only
  rw [he, hl]; rfl

/-- Settles O30: whatever the classification does beside counting leaves a port's counts of its frames. -/
theorem receivedFrameCountsOnce : Obligations.ReceivedFrameCountsOnce := by
  unfold Obligations.ReceivedFrameCountsOnce
  refine ⟨fun n f s he hl ho => ?_, fun n f k l s he hl hk ho => ?_, fun n f s h => portFrameRx_nothing h⟩
  · have goes := portFrameRx_classifies he hl ho
    have sorts : Sorts n.val s _ :=
      Sorts.before (countBytes_moves n f) (by decide) (classifyFrame_sorts n f)
    have mac : macCfg (countBytes n f s) n.val = macCfg s n.val := rfl
    have first : ∀ {t : State}, classifyFrame n f (countBytes n f s) = t → exec (.portFrameRx n f) s = .next t :=
      fun h => goes.trans (congrArg _ h)
    refine ⟨⟨_, goes, sorts⟩, fun h => first ?_, fun h1 h2 => first ?_, fun h1 h2 h3 => first ?_,
      fun h1 h2 h3 h4 h5 h6 => first ?_⟩
    · unfold classifyFrame; dsimp only; rw [if_pos h]; rfl
    · unfold classifyFrame; dsimp only; rw [mac, if_neg (by omega), if_pos h2]; rfl
    · have bad : (!f.fcsOk || f.errored || decide (0 < f.fecUncorrected)) = true := by
        obtain h | h | h := h3 <;> simp [h]
      unfold classifyFrame; dsimp only
      rw [mac, if_neg (by omega), if_neg (Nat.not_lt.mpr h2), if_pos bad]; rfl
    · have good : ¬ (!f.fcsOk || f.errored || decide (0 < f.fecUncorrected)) = true := by simp [h3, h4, h5]
      have isolated : (portOf (countBytes n f s) n.val).isolated = true := by
        unfold countBytes; rw [portOf_countPort]; exact h6
      unfold classifyFrame; dsimp only
      rw [mac, if_neg (by omega), if_neg (Nat.not_lt.mpr h2), if_neg good, if_pos isolated]; rfl
  · exact ⟨_, rfl, portFrameRx_overflows he hl hk ho⟩

end Sys2Proof.Machine
end

section
namespace Sys2Proof.Machine
open Relation

/-! ## Blocks that are sent (R50, R68) -/

variable {T : List Area} {a s t u : State} {f : Nat}

/-! ### What forming a block leaves -/

/-- What the payload of a container slot may change. -/
def payloadAreas : List Area := [.mtx, .pair]

theorem setPair_moves (hk : .pair ∈ T) {k : Nat} {g : Pair → Pair} (h : Moves T a s) : Moves T a (setPair k g s) :=
  putPair_moves hk h

theorem formSlot_moves (hm : .mtx ∈ T) {x m j : Nat} (h : Moves T a s) : Moves T a (formSlot x m j s).2 := by
  unfold formSlot
  extract_lets ds fills
  split
  exact foldl_moves (fun _ _ => putTx_moves hm) h

theorem slotWords_moves (hT : payloadAreas ⊆ T) {p : Nat × Nat} (h : Moves T a s) : Moves T a (slotWords f p s).2 := by
  have hm : Area.mtx ∈ T := hT (by decide)
  unfold slotWords
  extract_lets m
  split
  · exact formSlot_moves hm h
  · split
    · dsimp only
      exact setPair_moves (hT (by decide)) h
    · dsimp only
      exact setPair_moves (hT (by decide)) (formSlot_moves hm h)

theorem nextWords_moves (hT : payloadAreas ⊆ T) (h : Moves T a s) : Moves T a (nextWords f s).2 := by
  unfold nextWords
  extract_lets l
  split
  · exact slotWords_moves hT h
  · exact h

theorem stampUnits_moves (hd : .draws ∈ T) {x : Int} (h : Moves T a s) : Moves T a (stampUnits x s).2 := draws_moves hd h

theorem time_moves (ht : .time ∈ T) {x : TimeBase} (h : Moves T a s) : Moves T a { s with time := x } := h.tail (.time s x ht)
theorem putPtpPort_moves (ht : .time ∈ T) {n : Nat} {v : PtpPort} (h : Moves T a s) : Moves T a (putPtpPort s n v) :=
  time_moves ht h

/-- What the times of departure may change. -/
def egressAreas : List Area := [.time, .draws, .fault]

section
variable (hT : egressAreas ⊆ T)
include hT

theorem pushEgress_moves {n : Nat} {b : Bytes} {x : Int} (h : Moves T a s) : Moves T a (pushEgress n b x s) := by
  have ht : Area.time ∈ T := hT (by decide)
  exact ite_moves (putPtpPort_moves ht h) (note_moves (hT (by decide)) (putPtpPort_moves ht h))

theorem ptpEgress_moves {n : Nat} {b : Bytes} {x : Int} (h : Moves T a s) : Moves T a (ptpEgress n b x s) := by
  unfold ptpEgress
  split
  · exact ite_moves (pushEgress_moves hT h) h
  · exact pushEgress_moves hT h
  · exact pushEgress_moves hT h
  · exact h

theorem timeCellsSent_moves {l : List Cell} (h : Moves T a s) : Moves T a (timeCellsSent f l s) := by
  refine foldl_moves (fun u c h => ite_moves ?_ h) h
  have stamped : Moves T a (stampEgress (fabricPtpPort f) u).2 := stampUnits_moves (hT (by decide)) h
  dsimp only
  exact ptpEgress_moves hT stamped
end

/-! ### The block on the line -/

theorem timeCellsSent_fab (l : List Cell) : (timeCellsSent f l s).fab = s.fab :=
  congrArg (fun u => u.fab) (timeCellsSent_moves (List.Subset.refl egressAreas) (f := f) (l := l) (.refl (a := s))).beyond

/-- A secondary that follows its primary moves its own link. -/
theorem followPrimary_keeps : (followPrimary f s).fab.lanes = s.fab.lanes ∧ (followPrimary f s).set = s.set
    ∧ ∀ k, k ≠ f → linkOf (followPrimary f s) k = linkOf s k := by
  unfold followPrimary
  split
  · dsimp only
    split
    · rename_i h
      refine ⟨rfl, rfl, fun k hk => ?_⟩
      rw [linkOf_putLink, if_neg]
      rintro rfl
      exact hk h.1.symm
    · exact ⟨rfl, rfl, fun _ _ => rfl⟩
  · exact ⟨rfl, rfl, fun _ _ => rfl⟩

/-- The state in which the next block of a lane is formed. -/
def blockState (f : Nat) (s : State) : State := (nextWords f (followPrimary f s)).2

theorem blockState_beyond : beyond payloadAreas (blockState f s) = beyond payloadAreas (followPrimary f s) :=
  (nextWords_moves (List.Subset.refl payloadAreas) .refl).beyond

theorem blockState_laneOf (k : Nat) : laneOf (blockState f s) k = laneOf s k := by
  have e : (blockState f s).fab.lanes = s.fab.lanes :=
    (congrArg (fun u => u.fab.lanes) blockState_beyond).trans followPrimary_keeps.1
  unfold laneOf; rw [e]

theorem blockState_linkOf (k : Nat) : linkOf (blockState f s) k = linkOf (followPrimary f s) k := by
  have e : (blockState f s).fab.links = (followPrimary f s).fab.links :=
    congrArg (fun u => u.fab.links) blockState_beyond
  unfold linkOf; rw [e]

theorem blockState_laneCfg : laneCfg (blockState f s) f = laneCfg s f := by
  have e : (blockState f s).set = s.set :=
    (congrArg (fun u => u.set) blockState_beyond).trans followPrimary_keeps.2.1
  unfold laneCfg; rw [e]

/-- Where a link sends. -/
def sendsAt (l : Link) : Nat × Nat := (l.txSlot, l.txCal)

theorem takeCell_sendsAt (l : Link) : sendsAt (takeCell l).2 = sendsAt l := by
  unfold takeCell
  dsimp only
  (repeat' split) <;> rfl

theorem takeCells4_sendsAt (n : Nat) (l : Link) : sendsAt (takeCells4 n l).2 = sendsAt l := by
  induction n generalizing l with
  | zero => rfl
  | succ n ih => exact (ih _).trans (takeCell_sendsAt l)

theorem fillMessageSlot_sendsAt (l : Link) : sendsAt (fillMessageSlot l).2.2 = sendsAt l := by
  unfold fillMessageSlot
  split
  · rfl
  · split
    · rfl
    · split
      · exact takeCells4_sendsAt 4 l
      · split <;> rfl

/-- The link of the next block stands at the slot at which the link stood. -/
theorem nextBlock_sendsAt (words : List Word64) : sendsAt (nextBlock s f words).2.2 = sendsAt (linkOf s f) := by
  unfold nextBlock
  dsimp only
  split
  · split
    · rfl
    · split
      · exact fillMessageSlot_sendsAt _
      · split <;> rfl
  · split <;> rfl
  · split <;> rfl
  · rfl

theorem slotAfter_next {lag slot cal n : Nat} (hl : lag < 8432) (hn : n ≤ 128) :
    (slotAfter lag slot cal n).2 = nextSlot (slot, cal) := by
  have none : slotExcess n = 0 := if_neg (by omega)
  unfold slotAfter
  dsimp only
  rw [none, if_neg (by omega)]

/-- The state when a block is on the line. -/
def onLine (f : Nat) (u : State) (l : Link) (v : Lane) : State := putLane (putLink u f l) f v

/-- Counting a block that is sent. -/
def countSent (n : Nat) (c : LaneCounters) : LaneCounters :=
  { c with stuffBits := sat48 c.stuffBits n, stuffOver := sat32 c.stuffOver (bit (decide (128 < n))) }

/-- What a block that is sent makes of the state in which it is formed. -/
theorem sendBlock_eq : ∃ (words : List Word64) (sent : List Bool) (key : BitVec 31) (lag slot cal : Nat)
    (x : Word × List Word64) (cells : List Cell),
    let u := blockState f s
    let l := (nextBlock u f words).2.2
    let v := laneOf u f
    slotAfter v.stuffLag l.txSlot l.txCal (stuffCount sent) = (lag, slot, cal) ∧
    sendBlock f s = countLane f (countSent (stuffCount sent)) (timeCellsSent f cells
      (onLine f u { l with txSlot := slot, txCal := cal, sent := some x }
        { v with txKey := key, stuffLag := lag
                 sent := lineLevels v.rate (laneCfg u f).txInvert (slotBits sent) })) := by
  unfold sendBlock blockState
  dsimp only
  generalize (nextWords f (followPrimary f s)).1 = words
  generalize (nextWords f (followPrimary f s)).2 = u
  refine ⟨words, ?_⟩
  generalize nextBlock u f words = b
  generalize blockHeader b.1 b.2.2.txSlot b.2.2.txCal (bit (tget (fun _ => false) u.set.planes f)) (pairWith u f).isSome = h
  generalize scramble (bitsOf 32 h.toNat ++ wordBits (padWords 128 b.2.1)
    ++ bitsOf 32 (crc32 (bitsOf 32 h.toNat ++ wordBits (padWords 128 b.2.1))).toNat) (laneOf u f).txKey = sent
  refine ⟨sent.1, sent.2, ?_⟩
  generalize slotAfter (laneOf u f).stuffLag b.2.2.txSlot b.2.2.txCal (stuffCount sent.1) = next
  exact ⟨next.1, next.2.1, next.2.2, (h, padWords 128 b.2.1), _, rfl, rfl⟩

theorem laneOf_of_fab (h : t.fab = s.fab) (k : Nat) : laneOf t k = laneOf s k := by unfold laneOf; rw [h]
theorem linkOf_of_fab (h : t.fab = s.fab) (k : Nat) : linkOf t k = linkOf s k := by unfold linkOf; rw [h]

theorem laneOf_countLane (g : LaneCounters → LaneCounters) (k : Nat) : laneOf (countLane f g s) k =
    if f = k then { laneOf s f with counters := g (laneOf s f).counters } else laneOf s k := laneOf_putLane _ _ _ _

theorem linkOf_countLane (g : LaneCounters → LaneCounters) (k : Nat) : linkOf (countLane f g s) k = linkOf s k := rfl

/-- A block that is sent: the lane, the link and the others (R50, R68). -/
theorem sendBlock_sends (hl : (laneOf s f).stuffLag < 8432) :
    let at0 := linkOf (followPrimary f s) f
    ∃ bits, let t := sendBlock f s
      (laneOf t f).sent = lineLevels (laneOf s f).rate (laneCfg s f).txInvert (slotBits bits)
      ∧ (laneOf t f).counters.stuffBits = sat48 (laneOf s f).counters.stuffBits (stuffCount bits)
      ∧ (laneOf t f).counters.stuffOver
          = sat32 (laneOf s f).counters.stuffOver (if 128 < stuffCount bits then 1 else 0)
      ∧ (stuffCount bits ≤ 128 → ((linkOf t f).txSlot, (linkOf t f).txCal) = nextSlot (at0.txSlot, at0.txCal))
      ∧ (linkOf t f).sent.isSome = true
      ∧ (∀ k, k ≠ f → laneOf t k = laneOf s k ∧ linkOf t k = linkOf s k) := by
  obtain ⟨words, bits, key, lag, slot, cal, x, cells, ha, hs⟩ := sendBlock_eq (f := f) (s := s)
  refine ⟨bits, ?_⟩
  have place := nextBlock_sendsAt (s := blockState f s) (f := f) words
  rw [blockState_linkOf] at place
  rw [blockState_laneOf] at ha
  have fab := timeCellsSent_fab (f := f) (s := onLine f (blockState f s)
    { (nextBlock (blockState f s) f words).2.2 with txSlot := slot, txCal := cal, sent := some x }
    { laneOf (blockState f s) f with
      txKey := key, stuffLag := lag
      sent := lineLevels (laneOf (blockState f s) f).rate (laneCfg (blockState f s) f).txInvert (slotBits bits) }) cells
  have lane : ∀ k, laneOf (sendBlock f s) k = if f = k then { laneOf s f with
      txKey := key, stuffLag := lag, sent := lineLevels (laneOf s f).rate (laneCfg s f).txInvert (slotBits bits)
      counters := countSent (stuffCount bits) (laneOf s f).counters } else laneOf s k := fun k => by
    rw [hs, laneOf_countLane, laneOf_of_fab fab, laneOf_of_fab fab]
    unfold onLine
    rw [laneOf_putLane, laneOf_putLane, if_pos rfl, blockState_laneCfg, blockState_laneOf]
    split
    · rfl
    · exact (blockState_laneOf k)
  have link : ∀ k, linkOf (sendBlock f s) k = if f = k then { (nextBlock (blockState f s) f words).2.2 with
      txSlot := slot, txCal := cal, sent := some x } else linkOf s k := fun k => by
    rw [hs, linkOf_countLane, linkOf_of_fab fab]
    show linkOf (putLink (blockState f s) f _) k = _
    rw [linkOf_putLink]
    split
    · rfl
    · rename_i ne
      rw [blockState_linkOf, followPrimary_keeps.2.2 k (Ne.symm ne)]
  refine ⟨by rw [lane, if_pos rfl], by rw [lane, if_pos rfl]; rfl, ?_, fun hn => ?_, by rw [link, if_pos rfl]; rfl,
    fun k hk => ⟨by rw [lane, if_neg (Ne.symm hk)], by rw [link, if_neg (Ne.symm hk)]⟩⟩
  · rw [lane, if_pos rfl]
    show sat32 _ (bit (decide (128 < stuffCount bits))) = _
    by_cases h : 128 < stuffCount bits <;> simp [h, bit]
  · rw [link, if_pos rfl]
    have next := slotAfter_next (slot := (nextBlock (blockState f s) f words).2.2.txSlot)
      (cal := (nextBlock (blockState f s) f words).2.2.txCal) hl hn
    rw [ha] at next
    exact next.trans (congrArg nextSlot place)

end Sys2Proof.Machine
end

section
namespace Sys2Proof.Machine
open Relation

/-! ## Blocks that are received (R52 to R74) -/

variable {T : List Area} {a s t u : State} {f : Nat}

/-- What a received block may change. -/
def receiveAreas : List Area := laneAreas ++ [.time]

section
variable (hT : receiveAreas ⊆ T)
include hT

theorem violate_moves {g : LinkCounters → LinkCounters} (h : Moves T a s) : Moves T a (violate f g s) :=
  raiseFabric_follows (List.Subset.trans (by decide) hT)
    (raiseCore_moves (hT (by decide)) (countLink_moves (hT (by decide)) h))

/-! ### Containers -/

theorem finishLine_moves {n : Nat} (h : Moves T a s) : Moves T a (finishLine n s) := by
  unfold finishLine
  extract_lets v
  split
  · exact presentLine_moves (hT (by decide)) (putFabricSource_moves (hT (by decide)) h)
  · exact putFabricSource_moves (hT (by decide)) h

theorem receiveVideo_moves {n : Nat} {x : SegHeader} {ws : List (Option Word64)} (h : Moves T a s) :
    Moves T a (receiveVideo n x ws s) := by
  unfold receiveVideo
  extract_lets same s1 v x0 x1 s2
  have h1 : Moves T a s1 := ite_moves h (finishLine_moves hT h)
  have h2 : Moves T a s2 := putFabricSource_moves (hT (by decide)) h1
  split
  · exact ite_moves (finishLine_moves hT h2) h2
  · exact h2

theorem continueFrame_moves {n : Nat} (h : Moves T a s) : Moves T a (continueFrame n s) :=
  ite_moves (finishLine_moves hT h)
    (beginFrame_moves (hT (by decide)) (putFabricSource_moves (hT (by decide)) (finishLine_moves hT h)))

theorem segmentLost_moves {n : Nat} {x : Option Word64} (h : Moves T a s) : Moves T a (segmentLost n x s) := by
  have hp : Area.pair ∈ T := hT (by decide)
  unfold segmentLost
  extract_lets noAnc
  split
  · exact ite_moves (receiveVideo_moves hT h)
      (ite_moves (foldl_moves (fun _ _ => repeatSample_moves (hT (by decide))) h)
      (ite_moves (putFabricSource_moves hp h) (ite_moves (continueFrame_moves hT h) h)))
  · have h1 : Moves T a (noAnc s) := putFabricSource_moves hp h
    split
    · exact receiveVideo_moves hT h1
    · exact h1

theorem receiveAudio_moves {n : Nat} {ps : List (List Word)} (h : Moves T a s) : Moves T a (receiveAudio n ps s) :=
  ite_moves (foldl_moves (fun _ _ => presentSamples_moves (hT (by decide))) h) h

theorem receiveAnc_moves {n : Nat} {x : SegHeader} {ws : List Word64} (h : Moves T a s) :
    Moves T a (receiveAnc n x ws s) :=
  foldl_moves (fun _ _ => presentAnc_moves (hT (by decide)) (hT (by decide)))
    (putFabricSource_moves (hT (by decide)) h)

theorem loseFabricBond_moves {n : Nat} (h : Moves T a s) : Moves T a (loseFabricBond n s) :=
  foldl_moves (fun _ _ => loseSource_moves (hT (by decide)) (hT (by decide))) h

theorem gainFabricBond_moves {n : Nat} (h : Moves T a s) : Moves T a (gainFabricBond n s) :=
  ite_moves (foldl_moves (fun _ _ => gainSource_moves (hT (by decide)) (hT (by decide))) h) h

theorem frameStart_moves {n : Nat} {w1 w2 : Word64} (h : Moves T a s) : Moves T a (frameStart f n w1 w2 s) := by
  unfold frameStart
  extract_lets pid fam hang s1 v same apart good split s2 s3 s4 s5
  have h2 : Moves T a s2 := putFabricSource_moves (hT (by decide)) (finishLine_moves hT h)
  have h3 : Moves T a s3 := ite_moves (loseFabricBond_moves hT h2) h2
  have h4 : Moves T a s4 := ite_moves (gainFabricBond_moves hT h3) h3
  have h5 : Moves T a s5 := beginFrame_moves (hT (by decide)) h4
  exact ite_moves (violate_moves hT h5) h5

theorem segmentDone_moves {c : Nat} {g : SegmentRx} (h : Moves T a s) : Moves T a (segmentDone f c g s) := by
  unfold segmentDone
  extract_lets n
  refine ite_moves (segmentLost_moves hT (countLink_moves (hT (by decide)) h)) ?_
  split
  · exact h
  · extract_lets x data
    refine ite_moves (segmentLost_moves hT (violate_moves hT h)) ?_
    split
    · exact receiveVideo_moves hT h
    · exact receiveAudio_moves hT h
    · exact receiveAnc_moves hT h
    · exact frameStart_moves hT h
    · exact h

theorem feedWord_moves {c i : Nat} {w : Option Word64} (h : Moves T a s) : Moves T a (feedWord f c i w s) :=
  ite_moves (segmentDone_moves hT (putLink_moves (hT (by decide)) h)) (putLink_moves (hT (by decide)) h)

theorem feedSlot_moves {m j i : Nat} {ws : List (Option Word64)} (h : Moves T a s) : Moves T a (feedSlot f m j i ws s) := by
  induction ws generalizing i s with
  | nil => exact h
  | cons w rest ih => exact ih (feedWord_moves hT h)

theorem useSlot_moves {r x : Nat} {ws : Option (List Word64)} (h : Moves T a s) : Moves T a (useSlot f r x ws s) :=
  ite_moves h (feedSlot_moves hT h)

/-! ### Pairs -/

theorem raisePair_moves {k : Nat} (h : Moves T a s) : Moves T a (raisePair k s) := raiseCore_moves (hT (by decide)) h

theorem fixSchedule_moves {k r : Nat} {p : Nat × Nat} (h : Moves T a s) : Moves T a (fixSchedule k r p s) := by
  unfold fixSchedule
  split
  · exact setPair_moves (hT (by decide)) h
  · exact h

theorem judgePair_moves {k x y : Nat} (h : Moves T a s) : Moves T a (judgePair k x y s) := by
  unfold judgePair
  split
  · exact h
  · extract_lets ra rb v s1 fast s2 start
    have h1 : Moves T a s1 := ite_moves (raisePair_moves hT h) h
    have h2 : Moves T a s2 := setPair_moves (hT (by decide)) h1
    split
    · exact fixSchedule_moves hT h2
    · exact ite_moves (fixSchedule_moves hT h2) h2

theorem judgeAgreement_moves {k x y : Nat} (h : Moves T a s) : Moves T a (judgeAgreement k x y s) := by
  have hp : Area.pair ∈ T := hT (by decide)
  unfold judgeAgreement
  split
  · exact ite_moves (setPair_moves hp h) (ite_moves (raisePair_moves hT (setPair_moves hp h)) (setPair_moves hp h))
  · exact h

theorem releaseSlot_moves {k x r n : Nat} {p q : Option PairCopy} (h : Moves T a s) :
    Moves T a (releaseSlot k x r n p q s) := by
  have hp : Area.pair ∈ T := hT (by decide)
  unfold releaseSlot
  split
  · exact useSlot_moves hT (ite_moves (setPair_moves hp h) (raisePair_moves hT (setPair_moves hp (setPair_moves hp h))))
  · exact useSlot_moves hT (setPair_moves hp h)
  · exact useSlot_moves hT (setPair_moves hp h)
  · exact useSlot_moves hT (setPair_moves hp h)

theorem releaseNext_moves {k x y : Nat} (h : Moves T a s) : Moves T a (releaseNext k x y s) := by
  unfold releaseNext
  extract_lets v
  split
  · exact h
  · extract_lets p s1 s2
    have h1 : Moves T a s1 := putPair_moves (hT (by decide)) h
    have h2 : Moves T a s2 := ite_moves (judgeAgreement_moves hT h1) h1
    exact ite_moves (releaseSlot_moves hT h2) h1

theorem releaseTimes_moves {k x y n : Nat} (h : Moves T a s) : Moves T a (releaseTimes k x y n s) := by
  induction n generalizing s with
  | zero => exact h
  | succ n ih => exact ih (releaseNext_moves hT h)

theorem releaseDue_moves {k x y : Nat} (h : Moves T a s) : Moves T a (releaseDue k x y s) := by
  unfold releaseDue
  split
  · exact h
  · exact ite_moves h (releaseTimes_moves hT h)

theorem addCopy_moves {k x : Nat} {c : PairCopy} {b : Bool} (h : Moves T a s) : Moves T a (addCopy k x f c b s) := by
  have hp : Area.pair ∈ T := hT (by decide)
  unfold addCopy
  extract_lets v
  split
  · exact h
  · extract_lets s1
    have h1 : Moves T a s1 := by
      refine ite_moves ?_ h
      split
      · exact putPair_moves hp h
      · exact h
    exact ite_moves h1 (ite_moves (ite_moves h1 (raisePair_moves hT (setPair_moves hp h1))) (setPair_moves hp h1))

theorem noteEnd_moves {p : Nat × Nat} {n : Nat} (h : Moves T a s) : Moves T a (noteEnd f p n s) :=
  putLink_moves (hT (by decide)) h

theorem mergeCopy_moves {k x y n : Nat} {c : PairCopy} (h : Moves T a s) : Moves T a (mergeCopy k x y f n c s) := by
  unfold mergeCopy
  extract_lets s1 had s2 s3 s4 rate
  have h1 : Moves T a s1 := noteEnd_moves hT h
  have h2 : Moves T a s2 := ite_moves (judgePair_moves hT h1) h1
  have h4 : Moves T a s4 := setPair_moves (hT (by decide)) h2
  exact ite_moves (addCopy_moves hT (releaseDue_moves hT h2))
    (ite_moves h4 (ite_moves (releaseSlot_moves hT h4) (releaseSlot_moves hT h4)))

theorem containerSlot_moves {x c : Nat} {b : Block} {g : Bool} (h : Moves T a s) :
    Moves T a (containerSlot f x c b g s) := by
  unfold containerSlot
  extract_lets words
  split
  · exact useSlot_moves hT h
  · exact mergeCopy_moves hT h

/-! ### Messages -/

theorem applyReport_moves {x y : BitVec 16} (h : Moves T a s) : Moves T a (applyReport f x y s) :=
  ite_moves (putLink_moves (hT (by decide)) h) (violate_moves hT h)

theorem releaseBuffers_moves {n : Nat} (h : Moves T a s) : Moves T a (releaseBuffers f n s) :=
  putLink_moves (hT (by decide)) h

theorem readAnnounce_moves {n : Nat} {b : Bytes} (h : Moves T a s) : Moves T a (readAnnounce n b s) := by
  have ht : Area.time ∈ T := hT (by decide)
  exact ite_moves (time_moves ht (putPtpPort_moves ht h)) h

theorem ptpReceived_moves {n : Nat} {b : Bytes} {x : Option (Time × Word64)} (h : Moves T a s) :
    Moves T a (ptpReceived n b x s) := by
  have ht : Area.time ∈ T := hT (by decide)
  unfold ptpReceived
  extract_lets v
  split
  · exact putPtpPort_moves ht h
  · exact ite_moves (putPtpPort_moves ht h) h
  · exact ite_moves (putPtpPort_moves ht h) h
  · exact putPtpPort_moves ht h
  · exact ite_moves (putPtpPort_moves ht h) h
  · exact readAnnounce_moves hT h
  · exact h

theorem ptpMessage_moves {n : Nat} {m : PtpMessage} {x : PtpFill} (h : Moves T a s) :
    Moves T a (ptpMessage n m x s).2 := draws_moves (hT (by decide)) h

theorem sendPtp_moves {n : Nat} {m : PtpMessage} {x : PtpFill} (h : Moves T a s) : Moves T a (sendPtp n m x s) := by
  have h1 := ptpMessage_moves hT (n := n) (m := m) (x := x)
    (putPtpPort_moves (hT (by decide)) h (n := n) (v := { ptpPortOf s n with sent := (ptpPortOf s n).sent + 1 }))
  unfold sendPtp
  dsimp only
  exact ite_moves (ite_moves (offerControl_moves (hT (by decide)) h1) h1) (sendMessage_moves (hT (by decide)) h1)

theorem takeEgress_moves {n : Nat} {e : EgressTime} (h : Moves T a s) : Moves T a (takeEgress n e s) := by
  unfold takeEgress
  split
  · exact sendPtp_moves hT h
  · exact putPtpPort_moves (hT (by decide)) h
  · exact putPtpPort_moves (hT (by decide)) h
  · exact h

theorem readEgress_moves {n : Nat} (h : Moves T a s) : Moves T a (readEgress n s) :=
  foldl_moves (fun _ _ => takeEgress_moves hT) (putPtpPort_moves (hT (by decide)) h)

theorem ptpProcess_moves {n : Nat} {b : Bytes} {x : Option (Time × Word64)} (h : Moves T a s) :
    Moves T a (ptpProcess n b x s) := by
  unfold ptpProcess
  extract_lets c s1
  have h1 : Moves T a s1 := ptpReceived_moves hT (readEgress_moves hT h)
  refine ite_moves ?_ h
  split
  · exact ite_moves h1 (sendPtp_moves hT h1)
  · exact sendPtp_moves hT h1
  · exact h1

theorem timeReceived_moves {d : Bytes} {b : Bool} (h : Moves T a s) : Moves T a (timeReceived f d b s) := by
  have h1 := stampUnits_moves (hT (by decide)) (x := -(latencyUnits (ptpLatency s (fabricPtpPort f)).1)) h
  unfold timeReceived
  exact ite_moves (ptpProcess_moves hT h1) h

theorem messageDone_moves {l : List Cell} (h : Moves T a s) : Moves T a (messageDone f l s) := by
  unfold messageDone
  extract_lets n
  split
  · exact h
  · have h1 := releaseBuffers_moves hT (n := n) (f := f) h
    exact ite_moves (violate_moves hT h1) (ite_moves (putLink_moves (hT (by decide)) h)
      (ite_moves (timeReceived_moves hT h1) h1))

theorem joinMessage_moves {c : Cell} (h : Moves T a s) : Moves T a (joinMessage f c s) := by
  have hk : Area.link ∈ T := hT (by decide)
  exact ite_moves (releaseBuffers_moves hT (putLink_moves hk h))
    (ite_moves (violate_moves hT (releaseBuffers_moves hT (putLink_moves hk h)))
    (ite_moves (messageDone_moves hT (putLink_moves hk h)) (putLink_moves hk h)))

theorem oweRetry_moves (h : Moves T a s) : Moves T a (oweRetry f s) :=
  ite_moves h (putLink_moves (hT (by decide)) h)

theorem receiveCell_moves {c : Cell} (h : Moves T a s) : Moves T a (receiveCell f c s) := by
  have hk : Area.link ∈ T := hT (by decide)
  unfold receiveCell
  extract_lets l c1 l1 s1 d s2 s3
  have h1 : Moves T a s1 := putLink_moves hk h
  exact ite_moves (ite_moves (violate_moves hT (putLink_moves hk h1))
      (joinMessage_moves hT (countLink_moves hk (putLink_moves hk h1))))
    (ite_moves (oweRetry_moves hT h1) (countLink_moves hk h1))

theorem receiveCellWords_moves {ws : List Word64} (h : Moves T a s) : Moves T a (receiveCellWords f ws s) :=
  ite_moves (applyReport_moves hT h) (receiveCell_moves hT (applyReport_moves hT h))

theorem receiveMessage_moves {ws : List Word64} (h : Moves T a s) : Moves T a (receiveMessage f ws s) :=
  receiveCellWords_moves hT (receiveCellWords_moves hT (receiveCellWords_moves hT (receiveCellWords_moves hT h)))

theorem rewind_moves (h : Moves T a s) : Moves T a (rewind f s) := by
  have h1 := putLink_moves (hT (by decide)) h (f := f) (v := { linkOf s f with
    sendCredits := (linkOf s f).sendCredits + (linkOf s f).inFlight, inFlight := 0
    resend := (linkOf s f).retry.length, rewinds := (linkOf s f).rewinds + 1 })
  exact ite_moves (raiseFabric_follows (List.Subset.trans (by decide) hT) (raiseCore_moves (hT (by decide)) h1)) h1

theorem receiveControl_moves {w : Word64} (h : Moves T a s) : Moves T a (receiveControl f w s) := by
  have hk : Area.link ∈ T := hT (by decide)
  unfold receiveControl
  extract_lets ack limit free
  split
  · exact applyReport_moves hT h
  · exact rewind_moves hT (applyReport_moves hT (countLink_moves hk h))
  · have h1 := rewind_moves hT (f := f) (applyReport_moves hT (f := f) (x := ack) (y := limit) (countLink_moves hk h (f := f)
      (g := fun c => { c with creditResyncRcvd := sat32 c.creditResyncRcvd 1 })))
    exact ite_moves (putLink_moves hk h1) h1
  · exact violate_moves hT h

/-! ### The calendar -/

theorem placedBlock_moves {x c : Nat} {b : Block} (h : Moves T a s) : Moves T a (placedBlock f x c b s) := by
  unfold placedBlock
  extract_lets k s1 lose
  have h1 : Moves T a s1 := ite_moves h (violate_moves hT h)
  have lost : ∀ {u}, Moves T a u → Moves T a (lose u) := fun h => ite_moves (containerSlot_moves hT h) h
  exact ite_moves (lost (violate_moves hT h1))
    (ite_moves (ite_moves (containerSlot_moves hT h1) (ite_moves (lost h1) (lost (violate_moves hT h1))))
    (ite_moves h1 (ite_moves (receiveMessage_moves hT h1)
      (ite_moves (receiveControl_moves hT h1) (violate_moves hT h1)))))

theorem noteOmission_moves {p : Nat × Nat} {b : Bool} (h : Moves T a s) : Moves T a (noteOmission f p b s) := by
  have hk : Area.link ∈ T := hT (by decide)
  exact ite_moves (putLink_moves hk h) (ite_moves h (putLink_moves hk h))

theorem setPos_moves {p q : Option (Nat × Nat)} (h : Moves T a s) : Moves T a (setPos f p q s) :=
  putLink_moves (hT (by decide)) h

theorem missSlot_moves {x : Nat} (h : Moves T a s) : Moves T a (missSlot f x s) := by
  unfold missSlot
  extract_lets rate
  split
  · exact useSlot_moves hT h
  · exact ite_moves h (releaseSlot_moves hT h)

theorem loseSlots_moves {n : Nat} {p : Nat × Nat} (h : Moves T a s) : Moves T a (loseSlots f n p s) := by
  induction n generalizing s p with
  | zero => exact h
  | succ n ih => exact ih (ite_moves (missSlot_moves hT h) h)

theorem calendarBlock_moves {b : Block} (h : Moves T a s) : Moves T a (calendarBlock f b s) := by
  unfold calendarBlock
  extract_lets here l use
  have used : ∀ {x u}, Moves T a u → Moves T a (use x u) := fun h =>
    placedBlock_moves hT (noteOmission_moves hT (setPos_moves hT h))
  have missed : ∀ {p q u}, Moves T a u →
      Moves T a (if isContainerSlot p then containerSlot f p q b false u else u) := fun h =>
    ite_moves (containerSlot_moves hT h) h
  split
  · exact ite_moves (used h) h
  · exact ite_moves (missed (setPos_moves hT h)) (ite_moves (used h) (ite_moves (used h)
      (ite_moves (used (loseSlots_moves hT (violate_moves hT h))) (missed (setPos_moves hT (violate_moves hT h))))))

theorem noteLag_moves {n : Nat} (h : Moves T a s) : Moves T a (noteLag f n s) :=
  ite_moves (putLink_moves (hT (by decide)) h) h
end

end Sys2Proof.Machine
end

section
namespace Sys2Proof.Machine
open Relation

variable {T : List Area} {a s t u : State} {f : Nat}

/-! ### A LOCKED lane that receives (R54, R62) -/

theorem laneLocked_countLane (g : LaneCounters → LaneCounters) (k : Nat) :
    laneLocked (countLane f g s) k = laneLocked s k := by
  unfold laneLocked
  rw [laneOf_countLane]
  split
  · rename_i e; subst e; rfl
  · rfl

/-- Idle bits are counted apart from what a block is judged by. -/
theorem measureIdle_judged (b : Block) (p : Option (Nat × Nat)) (k : Nat) :
    (laneOf (measureIdle f b p s) k).counters.blocksGood = (laneOf s k).counters.blocksGood
    ∧ (laneOf (measureIdle f b p s) k).counters.lockLoss = (laneOf s k).counters.lockLoss := by
  unfold measureIdle
  extract_lets idle n
  split
  · rw [laneOf_countLane]
    split
    · rename_i e; subst e
      dsimp only
      split <;> exact ⟨rfl, rfl⟩
    · exact ⟨rfl, rfl⟩
  · exact ⟨rfl, rfl⟩

/-- The state in which a block that came is judged and counted. -/
def judgedBlock (f : Nat) (r : RxSlot) (s : State) : State :=
  let v := laneOf s f
  let b := (readBlock r v.rxOver v.rxKey).1
  let s := putLane s f { v with
    rxKey := (readBlock r v.rxOver v.rxKey).2, recent := (b.good :: v.recent).take 64
    rxOver := decide (128 < b.stuffs) }
  let s := countLane f (fun c =>
    { c with
      blocksGood := sat48 c.blocksGood (bit b.good)
      blocksBad := sat48 c.blocksBad (bit (!b.good))
      commaMiss := sat32 c.commaMiss (bit (!b.comma))
      stuffViol := sat32 c.stuffViol b.violations }) s
  measureIdle f b (linkOf s f).rxPos s

theorem judgedBlock_counts (r : RxSlot) :
    let v := laneOf s f
    (laneOf (judgedBlock f r s) f).counters.blocksGood
        = sat48 v.counters.blocksGood (bit (readBlock r v.rxOver v.rxKey).1.good)
    ∧ (laneOf (judgedBlock f r s) f).counters.lockLoss = v.counters.lockLoss := by
  intro v
  unfold judgedBlock
  dsimp only
  obtain ⟨good, loss⟩ := measureIdle_judged (f := f) (readBlock r v.rxOver v.rxKey).1 _ f
  rw [good, loss, laneOf_countLane, if_pos rfl, laneOf_putLane, if_pos rfl]
  exact ⟨rfl, rfl⟩

/-- What a LOCKED lane makes of a slot: it leaves LOCKED at the fourth bad block, or reads its place in the calendar. -/
theorem lockedSlot_eq (r : RxSlot) :
    let v := laneOf s f
    let b := (readBlock r v.rxOver v.rxKey).1
    lockedSlot f r s = if 4 ≤ (((b.good :: v.recent).take 64).filter (fun g => !g)).length
      then raiseLane (laneFault f) (leaveLock f .hunt
        (countLane f (fun c => { c with lockLoss := sat32 c.lockLoss 1 }) (judgedBlock f r s)))
      else noteLag f b.stuffs (calendarBlock f b (judgedBlock f r s)) := by
  unfold lockedSlot judgedBlock
  dsimp only

/-- The fourth bad block ends LOCKED. -/
theorem lockLost_ends :
    let t := raiseLane (laneFault f) (leaveLock f .hunt s)
    laneLocked t f = false ∧ (laneOf t f).counters = (laneOf s f).counters
      ∧ (faultOf t (laneFault f)).sticky = true := by
  have fab : Area.fab ∉ laneAreas := by decide
  have left : Moves laneAreas (unlockedLane f .hunt s) (leaveLock f .hunt s) :=
    leaveLock_follows (by decide) .refl
  have all := raiseLane_moves (List.Subset.refl laneAreas) (id := laneFault f) left
  have lane : laneOf (unlockedLane f .hunt s) f = { laneOf s f with state := .hunt, goodRun := 0, recent := [] } := by
    unfold unlockedLane; rw [laneOf_putLane, if_pos rfl]
  refine ⟨all.unlocked fab f ?_, (all.counters fab f).trans (by rw [lane]), ?_⟩
  · unfold laneLocked; rw [lane]; rfl
  · have after := raiseLane_follows (List.Subset.refl laneAreas) (id := laneFault f)
      (a := raiseCore (laneFault f) (leaveLock f .hunt s)) (s := leaveLock f .hunt s) .refl
    exact after.rises.1 _ (raiseCore_sticky _ _)

/-- The lane after a FIFO that filled. -/
theorem fifoOverflow_counts :
    (faultOf (fifoOverflow f s) (laneFault f)).sticky = true
      ∧ (laneOf (fifoOverflow f s) f).counters.fifoOverflow = sat32 (laneOf s f).counters.fifoOverflow 1 := by
  have after := raiseLane_follows (List.Subset.refl laneAreas) (id := laneFault f)
    (a := raiseCore (laneFault f) (countLane f (fun c => { c with fifoOverflow := sat32 c.fifoOverflow 1 }) s)) .refl
  refine ⟨after.rises.1 _ (raiseCore_sticky _ _), ?_⟩
  have kept := raiseLane_moves (List.Subset.refl laneAreas) (id := laneFault f)
    (a := countLane f (fun c => { c with fifoOverflow := sat32 c.fifoOverflow 1 }) s) .refl
  have e := kept.counters (by decide) f
  rw [laneOf_countLane, if_pos rfl] at e
  exact congrArg LaneCounters.fifoOverflow e

/-! ### The steps of a fabric lane -/

section
variable {lane : Fin 256} {raw : Nat} {slot : RxSlot}

theorem execBlockSlotTx_sends
    (h : (laneOf s lane.val).state ∈ [LaneState.hunt, .verify, .locked, .fbBase, .fbVerdict]) :
    execBlockSlotTx lane raw s = .next (sendBlock lane.val s) := by
  unfold execBlockSlotTx
  simp only [List.mem_cons, List.not_mem_nil, or_false] at h
  rcases h with h | h | h | h | h <;> simp only [h]

theorem execBlockSlotTx_silent (h : (laneOf s lane.val).state ∈ [LaneState.reset, .down]
      ∨ ((laneOf s lane.val).state = .fbCheck ∧ (laneOf s lane.val).stageWaiting = true)) :
    execBlockSlotTx lane raw s = .next s := by
  unfold execBlockSlotTx
  simp only [List.mem_cons, List.not_mem_nil, or_false] at h
  rcases h with (h | h) | ⟨h, waits⟩
  · simp only [h]
  · simp only [h]
  · simp only [h, waits, if_true]

theorem execFabricBlockRx_hunts (h : slot.overflow = false) (hunts : (laneOf s lane.val).state = .hunt)
    (run : (laneOf s lane.val).goodRun = 0) :
    execFabricBlockRx lane slot s = .next (huntSlot lane.val (seenSlot (rxInverts s lane.val) slot) s) := by
  unfold execFabricBlockRx
  simp only [hunts, run, h, Bool.false_and, Bool.false_eq_true, if_true, if_false]

theorem execFabricBlockRx_locked (h : slot.overflow = false) (locked : (laneOf s lane.val).state = .locked) :
    execFabricBlockRx lane slot s = .next (lockedSlot lane.val (seenSlot (rxInverts s lane.val) slot) s) := by
  unfold execFabricBlockRx
  simp only [locked, h, Bool.false_and, Bool.false_eq_true, if_false]

theorem execFabricBlockRx_idle (h : slot.overflow = false)
    (idle : (laneOf s lane.val).state ∈ [LaneState.reset, .fbCheck, .test, .down]) :
    execFabricBlockRx lane slot s = .next s := by
  unfold execFabricBlockRx
  simp only [List.mem_cons, List.not_mem_nil, or_false] at idle
  rcases idle with idle | idle | idle | idle <;>
    simp only [idle, h, Bool.false_and, Bool.false_eq_true, if_false]

theorem execFabricBlockRx_overflows (h : slot.overflow = true) (on : laneMode s lane.val ≠ 0)
    (idle : (laneOf s lane.val).state ∈ [LaneState.fbCheck, .test]) :
    execFabricBlockRx lane slot s = .next (fifoOverflow lane.val s) := by
  unfold execFabricBlockRx
  simp only [List.mem_cons, List.not_mem_nil, or_false] at idle
  rcases idle with idle | idle <;> simp [idle, h, on]
end

/-- A hunting lane without a seed stays as it is; with one it takes its key. -/
theorem huntSlot_none {r : RxSlot} (h : seedOf r = none) : huntSlot f r s = s := by
  unfold huntSlot; simp only [h]
theorem huntSlot_some {r : RxSlot} {k : BitVec 31} {inv : Bool} (h : seedOf r = some (k, inv))
    (hunts : (laneOf s f).state = .hunt) : huntSlot f r s = putLane s f { laneOf s f with
      rxKey := k, goodRun := 1, polarityAuto := xor (laneOf s f).polarityAuto inv, rxOver := false
      state := .verify } := by
  unfold huntSlot; simp only [h, hunts, if_true]

/-- Settles O25: a block that is sent by its equation, a block that is received by what the calendar, the pairs and the
messages may change, none of which counts blocks or locks a lane. -/
theorem blocksAreSentAndReceived : Obligations.BlocksAreSentAndReceived := by
  unfold Obligations.BlocksAreSentAndReceived
  refine ⟨fun f raw s sends lag => ?_, fun f raw s h => execBlockSlotTx_silent h, fun f raw s => ⟨fun h w => ?_, fun h => ?_⟩,
    fun f r k inv s hunts run plain seed => ?_, fun f r s hunts run plain seed => ?_, fun f r s locked plain => ?_,
    fun f r s idle plain => execFabricBlockRx_idle plain idle,
    fun f r s idle fills on => execFabricBlockRx_overflows fills on idle, fun f s => fifoOverflow_counts⟩
  · obtain ⟨bits, sent⟩ := sendBlock_sends lag
    exact ⟨_, bits, execBlockSlotTx_sends sends, sent⟩
  · show execBlockSlotTx f raw s = _
    unfold execBlockSlotTx
    simp only [h, w, Bool.false_eq_true, if_false]
  · show execBlockSlotTx f raw s = _
    unfold execBlockSlotTx
    simp only [h]
  · exact (execFabricBlockRx_hunts plain hunts run).trans (congrArg Host.Outcome.next (huntSlot_some seed hunts))
  · exact (execFabricBlockRx_hunts plain hunts run).trans (congrArg Host.Outcome.next (huntSlot_none seed))
  · intro v b bad
    obtain ⟨good, loss⟩ := judgedBlock_counts (f := f.val) (s := s) (seenSlot (rxInverts s f.val) r)
    have read := lockedSlot_eq (f := f.val) (s := s) (seenSlot (rxInverts s f.val) r)
    refine ⟨fun hb few => ⟨_, execFabricBlockRx_locked plain locked, ?_⟩,
      fun many => ⟨_, execFabricBlockRx_locked plain locked, ?_⟩⟩
    · rw [read, if_neg (Nat.not_le.mpr few)]
      have kept := noteLag_moves (List.Subset.refl receiveAreas) (f := f.val) (n := b.stuffs)
        (calendarBlock_moves (List.Subset.refl receiveAreas) (f := f.val) (b := b)
          (.refl (a := judgedBlock f.val (seenSlot (rxInverts s f.val) r) s)))
      refine (congrArg LaneCounters.blocksGood (kept.counters (by decide) f.val)).trans (good.trans ?_)
      change sat48 _ (bit b.good) = _
      rw [hb]
      rfl
    · rw [read, if_pos many]
      obtain ⟨unlocked, counters, sticky⟩ := lockLost_ends (f := f.val) (s := countLane f.val
        (fun c => { c with lockLoss := sat32 c.lockLoss 1 }) (judgedBlock f.val (seenSlot (rxInverts s f.val) r) s))
      refine ⟨unlocked, ?_, sticky⟩
      rw [laneOf_countLane, if_pos rfl] at counters
      exact (congrArg LaneCounters.lockLoss counters).trans (congrArg (sat32 · 1) loss)

end Sys2Proof.Machine
end

section
namespace Sys2Proof.Machine
open Relation

/-! ## Resets (R505 to R512) -/

variable {T : List Area} {a s t u : State}

/-- The candidates of the lost ports and lanes. -/
def loseCandidates (s : State) : State := [4, 5, 6].foldl (fun s c => loseActivity c false s) s

theorem loseCandidates_beyond : beyond [.fault, .ref] (loseCandidates s) = beyond [.fault, .ref] s :=
  (foldl_moves (fun _ _ => loseActivity_moves (T := [.fault, .ref]) (by decide) (by decide)) .refl).beyond

theorem kept_of_beyond (h : beyond [.fault, .ref] t = beyond [.fault, .ref] s) : t.chip = s.chip ∧ t.time = s.time
    ∧ t.aud = s.aud ∧ t.flt.standing = s.flt.standing ∧ t.set = s.set ∧ t.store = s.store ∧ t.life = s.life
    ∧ t.draws = s.draws ∧ t.pending = s.pending :=
  ⟨congrArg (fun u => u.chip) h, congrArg (fun u => u.time) h, congrArg (fun u => u.aud) h,
    congrArg (fun u => u.flt.standing) h, congrArg (fun u => u.set) h, congrArg (fun u => u.store) h,
    congrArg (fun u => u.life) h, congrArg (fun u => u.draws) h, congrArg (fun u => u.pending) h⟩

/-- A device reset reads of the state, beside the reference unit, what no lost candidate changes. -/
theorem deviceReset_eq : deviceReset s = { State.reset with
      chip := { State.reset.chip with
        rootLocked := true, startPhase := 1, pcieLink := s.chip.pcieLink, jtag := s.chip.jtag
        jtagData := s.chip.jtagData, temps := s.chip.temps, railsOut := s.chip.railsOut }
      time := { State.reset.time with count := s.time.count, uptimeHi := s.time.uptimeHi }
      ref := (loseCandidates s).ref
      aud := { State.reset.aud with period := s.aud.period }
      flt := { State.reset.flt with standing := s.flt.standing }
      set := { State.reset.set with refs := s.set.refs, dpll := s.set.dpll, pulses := s.set.pulses }
      store := flashOf s.store
      life := { s.life with testRoot := false, resetDue := false }
      draws := s.draws
      pending := s.pending } := by
  obtain ⟨chip, time, aud, standing, set, store, life, draws, pending⟩ := kept_of_beyond (loseCandidates_beyond (s := s))
  rw [← chip, ← time, ← aud, ← standing, ← set, ← store, ← life, ← draws, ← pending]
  rfl

/-- Whether a cause starts a reset, and the state that it leaves: a pulse between 100 ns and 1 µs takes a free bit. -/
theorem resetCause_draws (c : ResetCause) : ∃ n, n ≤ 1 ∧ (resetCause c s).2 = { s with draws := s.draws + n } := by
  have none : ∃ n, n ≤ 1 ∧ s = { s with draws := s.draws + n } := ⟨0, Nat.zero_le _, rfl⟩
  cases c with
  | sysrst ns =>
    unfold resetCause
    dsimp only
    split
    · exact none
    · split
      · exact none
      · exact ⟨1, Nat.le_refl _, rfl⟩
  | lifecycle => exact none
  | boundaryScan => exact none
  | docent => exact none

theorem starting_iff : starting s = true ↔ s.chip.startPhase < 6 ∧ s.chip.bootFailed = false := by
  unfold starting; simp

/-- No reset begins in a start. -/
theorem execDeviceReset_inStart (c : ResetCause) (h : s.chip.startPhase < 6 ∧ s.chip.bootFailed = false) :
    ∃ n, n ≤ 1 ∧ execDeviceReset c s = .next { s with draws := s.draws + n } := by
  obtain ⟨n, hn, e⟩ := resetCause_draws (s := s) c
  refine ⟨n, hn, ?_⟩
  have inStart : starting (resetCause c s).2 = true := by rw [e]; exact starting_iff.2 h
  unfold execDeviceReset
  dsimp only
  rw [inStart, Bool.not_true, Bool.and_false, if_neg Bool.false_ne_true, e]

/-- Outside a start a cause resets the device or leaves it. -/
theorem execDeviceReset_outside {c : ResetCause} (h : ¬ (s.chip.startPhase < 6 ∧ s.chip.bootFailed = false)) :
    execDeviceReset c s = .next (if (resetCause c s).1 = true then deviceReset (resetCause c s).2
      else (resetCause c s).2) := by
  obtain ⟨n, _, e⟩ := resetCause_draws (s := s) c
  have outside : starting (resetCause c s).2 = false := by
    rw [e, Bool.eq_false_iff]
    exact fun on => h (starting_iff.1 on)
  unfold execDeviceReset
  dsimp only
  rw [outside, Bool.not_false, Bool.and_true]

/-- Two states with the same reference unit and settings. -/
def SameRef (s t : State) : Prop := s.ref = t.ref ∧ s.set = t.set

theorem raiseCore_ref (id : Nat) : (raiseCore id s).ref = s.ref := raiseCore_keeps (fun u => u.ref) (fun _ => rfl) id

theorem SameRef.raised {id : Nat} (h : SameRef s t) : SameRef (raiseCore id s) (raiseCore id t) :=
  ⟨by rw [raiseCore_ref, raiseCore_ref, h.1], by rw [raiseCore_set, raiseCore_set, h.2]⟩

theorem SameRef.putRef {r : Reference} (h : SameRef s t) : SameRef (putRef s r) (putRef t r) := ⟨rfl, h.2⟩

theorem SameRef.putCandidate {c : Nat} {v : Candidate} (h : SameRef s t) :
    SameRef (putCandidate s c v) (putCandidate t c v) :=
  ⟨by unfold Machine.putCandidate; rw [h.1], h.2⟩

theorem SameRef.loopUnusable (h : SameRef s t) : SameRef (loopUnusable s) (loopUnusable t) := by
  have e : historyValid s = historyValid t := by unfold historyValid; rw [h.1]
  unfold Machine.loopUnusable
  dsimp only
  rw [e, h.1]
  split <;> exact SameRef.raised h.putRef

theorem SameRef.forcedUnusable (h : SameRef s t) : SameRef (forcedUnusable s) (forcedUnusable t) := by
  unfold Machine.forcedUnusable
  rw [h.1]
  split
  · exact h.loopUnusable
  · exact h.loopUnusable
  · exact h

theorem SameRef.disqualify {c why : Nat} (h : SameRef s t) : SameRef (disqualify c why s) (disqualify c why t) := by
  have e : candidateOf s c = candidateOf t c := by unfold candidateOf; rw [h.1]
  unfold Machine.disqualify
  dsimp only
  rw [e]
  split
  · generalize { candidateOf t c with qualified := false, lastReason := why, gates := 0 } = v
    have raised : SameRef (raiseCore (faultId 0x08 31 c) (Machine.putCandidate s c v))
        (raiseCore (faultId 0x08 31 c) (Machine.putCandidate t c v)) := h.putCandidate.raised
    have forced : isForced (raiseCore (faultId 0x08 31 c) (Machine.putCandidate s c v)) c
        = isForced (raiseCore (faultId 0x08 31 c) (Machine.putCandidate t c v)) c := by
      unfold isForced; rw [raised.1]
    rw [forced]
    split
    · exact raised.forcedUnusable
    · exact raised
  · exact h.putCandidate

theorem SameRef.loseActivity {c : Nat} {g : Bool} (h : SameRef s t) : SameRef (loseActivity c g s) (loseActivity c g t) := by
  have cand : candidateOf s c = candidateOf t c := by unfold candidateOf; rw [h.1]
  have cfg : refCfg s c = refCfg t c := by unfold refCfg; rw [h.2]
  unfold Machine.loseActivity
  dsimp only
  rw [cand, cfg]
  split
  · exact h.putCandidate.disqualify
  · split
    · exact h.putCandidate
    · exact h

theorem SameRef.loseCandidates (h : SameRef s t) : SameRef (loseCandidates s) (loseCandidates t) :=
  h.loseActivity.loseActivity.loseActivity

/-- A free value taken changes nothing that a reset keeps but the count of free values. -/
theorem deviceReset_draws (n : Nat) : deviceReset { s with draws := n } = { deviceReset s with draws := n } := by
  have same : SameRef { s with draws := n } s := ⟨rfl, rfl⟩
  rw [deviceReset_eq, deviceReset_eq, same.loseCandidates.1]

/-! ### PCIe reset (R512) -/

/-- The ring sessions that a PCIe reset closes. -/
def ringSession (s : State) (n : Nat) : Bool := (sessionOf s n).isOpen && (sessionOf s n).endpoint == .pcie

theorem ringSession_iff (n : Nat) :
    ringSession s n = true ↔ (sessionOf s n).isOpen = true ∧ (sessionOf s n).endpoint = .pcie := by
  unfold ringSession; simp

/-- The commands that are taken and not yet served. -/
def queued (s : State) : List HostPacket := s.cmd.takeQueue ++ s.cmd.workQueue

theorem dropRestate_cmd (n : Nat) : (dropRestate n s).cmd = s.cmd := by
  unfold dropRestate
  split
  · split <;> rfl
  · rfl

theorem dropRestate_restate (n : Nat) :
    (dropRestate n s).mtx.restate = s.mtx.restate.filter (fun r => r.session != n) := by
  unfold dropRestate
  split
  · rename_i r hr
    rw [hr, Option.filter_some]
    split <;> simp_all
  · rename_i hr
    rw [hr]; rfl

theorem dropRestate_rest (n : Nat) :
    { dropRestate n s with mtx := { (dropRestate n s).mtx with restate := s.mtx.restate } } = s := by
  unfold dropRestate
  split
  · split <;> rfl
  · rfl

theorem sessionOf_resetSession (n k : Nat) : sessionOf (resetSession n s) k =
    if n = k then { window := (sessionOf s n).window } else sessionOf s k := by
  have sessions : (resetSession n s).cmd.sessions = (putSession s n { window := (sessionOf s n).window }).cmd.sessions := by
    unfold resetSession dropCommands closeSession
    rw [dropRestate_cmd]
  have e : sessionOf (resetSession n s) k = sessionOf (putSession s n { window := (sessionOf s n).window }) k := by
    unfold sessionOf
    rw [sessions]
    rfl
  rw [e, sessionOf_putSession]

theorem queued_resetSession (n : Nat) (x : HostPacket) :
    x ∈ queued (resetSession n s) ↔ x ∈ queued s ∧ sess x.body ≠ n := by
  unfold resetSession queued dropCommands closeSession
  rw [dropRestate_cmd]
  simp [putSession, or_and_right]

theorem resetSession_restate (n : Nat) :
    (resetSession n s).mtx.restate = s.mtx.restate.filter (fun r => r.session != n) :=
  dropRestate_restate (s := putSession s n { window := (sessionOf s n).window }) n

/-- What the close of ring sessions leaves. -/
def unsessioned (s : State) : State := { s with cmd := {}, mtx := { s.mtx with restate := none } }

theorem resetSession_rest (n : Nat) : unsessioned (resetSession n s) = unsessioned s := by
  have e := congrArg unsessioned (dropRestate_rest (s := putSession s n { window := (sessionOf s n).window }) n)
  exact e

/-- What closing a session leaves of the command channel. -/
def unqueued (x : Command) : Command := { x with sessions := [], workQueue := [], takeQueue := [] }

theorem resetSession_unqueued (n : Nat) : unqueued (resetSession n s).cmd = unqueued s.cmd := by
  unfold resetSession dropCommands closeSession
  rw [dropRestate_cmd]
  rfl

section
variable {n : Nat}

/-- One session in turn. -/
def resetRingSession (n : Nat) (s : State) : State := if ringSession s n = true then resetSession n s else s

theorem resetRingSessions_succ : resetRingSessions (n + 1) s = resetRingSessions n (resetRingSession (n + 1) s) := rfl

theorem sessionOf_resetRingSession (k : Nat) : sessionOf (resetRingSession n s) k =
    if n = k ∧ ringSession s k = true then { window := (sessionOf s k).window } else sessionOf s k := by
  unfold resetRingSession
  split
  · rename_i h
    rw [sessionOf_resetSession]
    by_cases e : n = k
    · subst e; simp [h]
    · simp [e]
  · rename_i h
    rw [if_neg]
    rintro ⟨rfl, g⟩
    exact h g

theorem sessionOf_resetRingSessions (k : Nat) : sessionOf (resetRingSessions n s) k =
    if 1 ≤ k ∧ k ≤ n ∧ ringSession s k = true then { window := (sessionOf s k).window } else sessionOf s k := by
  induction n generalizing s with
  | zero => rw [if_neg (fun h => by omega)]; rfl
  | succ n ih =>
    rw [resetRingSessions_succ, ih]
    by_cases e : n + 1 = k
    · subst e
      have out : ¬ n + 1 ≤ n := by omega
      simp [out, sessionOf_resetRingSession]
    · have same : sessionOf (resetRingSession (n + 1) s) k = sessionOf s k := by
        rw [sessionOf_resetRingSession, if_neg (fun h => e h.1)]
      rw [same]
      refine if_congr (and_congr_right fun _ => and_congr (by omega) ?_) rfl rfl
      rw [ringSession, same, ringSession]

theorem queued_resetRingSession {x : HostPacket} : x ∈ queued (resetRingSession n s) ↔
    x ∈ queued s ∧ ¬ (sess x.body = n ∧ ringSession s n = true) := by
  unfold resetRingSession
  split
  · rename_i h
    rw [queued_resetSession]; simp [h]
  · rename_i h
    simp [h]

theorem queued_resetRingSessions {x : HostPacket} (hx : x ∈ queued (resetRingSessions n s)) :
    x ∈ queued s ∧ ∀ k, 1 ≤ k → k ≤ n → ringSession s k = true → sess x.body ≠ k := by
  induction n generalizing s with
  | zero => exact ⟨hx, fun k _ _ => by omega⟩
  | succ n ih =>
    rw [resetRingSessions_succ] at hx
    obtain ⟨mem, left⟩ := ih hx
    obtain ⟨mem, own⟩ := queued_resetRingSession.1 mem
    refine ⟨mem, fun k h1 hk ring => ?_⟩
    by_cases e : n + 1 = k
    · subst e
      exact fun h => own ⟨h, ring⟩
    · refine left k h1 (by omega) ?_
      unfold ringSession at ring ⊢
      rw [sessionOf_resetRingSession, if_neg (fun h => e h.1)]
      exact ring

theorem resetRingSession_restate {r : Restate} (h : s.mtx.restate = some r) : (resetRingSession n s).mtx.restate =
    if r.session = n ∧ ringSession s n = true then none else some r := by
  unfold resetRingSession
  split
  · rename_i ring
    rw [resetSession_restate, h]
    by_cases e : r.session = n <;> simp [Option.filter, e, ring]
  · rename_i ring
    rw [h]; simp [ring]

theorem resetRingSessions_restate_none (h : s.mtx.restate = none) : (resetRingSessions n s).mtx.restate = none := by
  induction n generalizing s with
  | zero => exact h
  | succ n ih =>
    rw [resetRingSessions_succ]
    refine ih ?_
    unfold resetRingSession
    split
    · rw [resetSession_restate, h]; rfl
    · exact h

theorem resetRingSessions_restate {r : Restate} (h : s.mtx.restate = some r) : (resetRingSessions n s).mtx.restate =
    if 1 ≤ r.session ∧ r.session ≤ n ∧ ringSession s r.session = true then none else some r := by
  induction n generalizing s with
  | zero => rw [if_neg (fun h => by omega)]; exact h
  | succ n ih =>
    rw [resetRingSessions_succ]
    by_cases e : r.session = n + 1 ∧ ringSession s (n + 1) = true
    · rw [resetRingSessions_restate_none (by rw [resetRingSession_restate h, if_pos e]), if_pos]
      rw [e.1]
      exact ⟨by omega, Nat.le_refl _, e.2⟩
    · rw [ih (by rw [resetRingSession_restate h, if_neg e])]
      by_cases own : r.session = n + 1
      · have ring : ringSession s r.session ≠ true := fun g => e ⟨own, own ▸ g⟩
        rw [if_neg (fun g => by omega), if_neg (fun g => ring g.2.2)]
      · have same : sessionOf (resetRingSession (n + 1) s) r.session = sessionOf s r.session := by
          rw [sessionOf_resetRingSession, if_neg (fun h => own h.1.symm)]
        refine if_congr (and_congr_right fun _ => and_congr (by omega) ?_) rfl rfl
        rw [ringSession, same, ringSession]

theorem resetRingSessions_rest : unsessioned (resetRingSessions n s) = unsessioned s
    ∧ unqueued (resetRingSessions n s).cmd = unqueued s.cmd := by
  induction n generalizing s with
  | zero => exact ⟨rfl, rfl⟩
  | succ n ih =>
    have one : unsessioned (resetRingSession (n + 1) s) = unsessioned s
        ∧ unqueued (resetRingSession (n + 1) s).cmd = unqueued s.cmd := by
      unfold resetRingSession
      split
      · exact ⟨resetSession_rest _, resetSession_unqueued _⟩
      · exact ⟨rfl, rfl⟩
    exact ⟨ih.1.trans one.1, ih.2.trans one.2⟩
end

end Sys2Proof.Machine
end

section
namespace Sys2Proof.Machine
open Relation

/-! ## The start phases (R44, R446 to R471, R487) -/

variable {T : List Area} {a s t u : State} {o : BootObs}

/-! ### Phase 2: what it leaves -/

/-- A state with everything blanked that reading the store and choosing the image may touch. -/
def unbooted (s : State) : State :=
  { unraised s with
    doc := {}, draws := 0, life := { s.life with testRoot := false }, store := { chunks := s.store.chunks }, strong := {} }

theorem note_unbooted (c i : Nat) : unbooted (note c i s) = unbooted s := raiseCore_keeps unbooted (fun _ => rfl) _

theorem cleanUp_unbooted : unbooted (cleanUp o s) = unbooted s := by
  unfold cleanUp
  split
  · rfl
  · unfold stripBanks
    split
    · rfl
    · split <;> rfl
  · rfl

theorem confirmRoot_unbooted (r : BitVec 256) : unbooted (confirmRoot o r s) = unbooted s := by
  unfold confirmRoot
  dsimp only
  split
  · exact note_unbooted _ _
  · rfl

theorem startRoot_unbooted : unbooted (startRoot o s) = unbooted s := by
  unfold startRoot
  split
  · exact note_unbooted _ _
  · split
    · rfl
    · split
      · exact confirmRoot_unbooted _
      · split
        · exact confirmRoot_unbooted _
        · exact note_unbooted _ _

theorem noteCmac_unbooted (k c : Bool) : unbooted (noteCmac k c s) = unbooted s := by
  unfold noteCmac
  split
  · split
    · exact note_unbooted _ _
    · rfl
  · rfl

/-- The state in which the store bank is selected. -/
def judgedBanks (o : BootObs) (s : State) : State :=
  noteCmac (keptB o s).isSome o.bankBCmac (noteCmac (keptA o s).isSome o.bankACmac s)

/-- The state in which the bank is selected. -/
def selectedBank (o : BootObs) (s : State) : State :=
  let a := (keptA o s).filter (fun _ => bankPasses s o.bankACmac)
  let b := (keptB o s).filter (fun _ => bankPasses s o.bankBCmac)
  let t := (judgedBanks o s).store
  { judgedBanks o s with store := { t with
      validA := a.isSome, validB := b.isSome, selectedB := newerIsB a b, noBank := a.isNone && b.isNone
      debugNewB := newerIsB t.debugA t.debugB } }

theorem selectBank_eq : selectBank o s = if (baseBank (selectedBank o s)).isNone = true
    then note 0x0F 0 (selectedBank o s) else selectedBank o s := rfl

theorem judgedBanks_unbooted : unbooted (judgedBanks o s) = unbooted s :=
  (noteCmac_unbooted _ _).trans (noteCmac_unbooted _ _)

theorem selectBank_unbooted : unbooted (selectBank o s) = unbooted s := by
  have selected : unbooted (selectedBank o s) = unbooted s := judgedBanks_unbooted
  rw [selectBank_eq]
  split
  · exact (note_unbooted _ _).trans selected
  · exact selected

theorem writeHelper_unbooted : unbooted (writeHelper o s) = unbooted s := by
  have next : unbooted (nextBank s).2 = unbooted s := by
    unfold nextBank
    split <;> rfl
  refine Eq.trans ?_ next
  unfold writeHelper installBank
  dsimp only
  split <;> rfl

theorem checkSlot_unbooted (n : Nat) : unbooted (checkSlot n s) = unbooted s := by
  unfold checkSlot
  dsimp only
  split
  · exact note_unbooted _ _
  · rfl

theorem checkSlots_unbooted (n : Nat) : unbooted (checkSlots n s) = unbooted s := by
  induction n with
  | zero => rfl
  | succ n ih => exact (checkSlot_unbooted n).trans ih

theorem readStore_unbooted : unbooted (readStore o s) = unbooted s := by
  unfold readStore
  dsimp only
  refine (checkSlots_unbooted 32).trans ?_
  have selected : unbooted (selectBank o (startRoot o (cleanUp o s))) = unbooted s :=
    selectBank_unbooted.trans (startRoot_unbooted.trans cleanUp_unbooted)
  split
  · exact writeHelper_unbooted.trans selected
  · exact selected

/-! ### Phase 2: the root and the debug store -/

/-- The root of a start, and the debug store. -/
def rooted (s : State) : Root × Bool × Option Bank × Option Bank :=
  (s.strong.root, s.life.testRoot, s.store.debugA, s.store.debugB)

theorem rooted_eq (h : rooted t = rooted s) : t.strong.root = s.strong.root ∧ t.life.testRoot = s.life.testRoot
    ∧ t.store.debugA = s.store.debugA ∧ t.store.debugB = s.store.debugB := by
  simpa [rooted] using h

theorem note_rooted (c i : Nat) : rooted (note c i s) = rooted s := raiseCore_keeps rooted (fun _ => rfl) _

theorem noteCmac_rooted (k c : Bool) : rooted (noteCmac k c s) = rooted s := by
  unfold noteCmac
  split
  · split
    · exact note_rooted _ _
    · rfl
  · rfl

theorem selectBank_rooted : rooted (selectBank o s) = rooted s := by
  have judged : rooted (judgedBanks o s) = rooted s := (noteCmac_rooted _ _).trans (noteCmac_rooted _ _)
  have selected : rooted (selectedBank o s) = rooted s := judged
  rw [selectBank_eq]
  split
  · exact (note_rooted _ _).trans selected
  · exact selected

theorem checkSlots_rooted (n : Nat) : rooted (checkSlots n s) = rooted s := by
  induction n with
  | zero => rfl
  | succ n ih =>
    refine Eq.trans ?_ ih
    show rooted (checkSlot n (checkSlots n s)) = _
    unfold checkSlot
    dsimp only
    split
    · exact note_rooted _ _
    · rfl

theorem cleanUp_life : (cleanUp o s).life = s.life := by
  unfold cleanUp
  split
  · rfl
  · unfold stripBanks
    split
    · rfl
    · split <;> rfl
  · rfl

theorem lifeState_of_life (h : t.life = s.life) : lifeState t = lifeState s := by unfold lifeState; rw [h]

theorem substitutes_cleanUp : substitutes (cleanUp o s) = substitutes s := by
  unfold substitutes
  rw [lifeState_of_life cleanUp_life, cleanUp_life]

/-- What phase 2 makes of the root where nothing is enrolled. -/
theorem readStore_rooted (h : (enrols o (cleanUp o s) && !substitutes (cleanUp o s)) = false) :
    rooted (readStore o s) = rooted (startRoot o (cleanUp o s)) := by
  unfold readStore
  dsimp only
  rw [h, if_neg Bool.false_ne_true]
  exact (checkSlots_rooted 32).trans selectBank_rooted

theorem readStore_substitutes (h : substitutes s = true) :
    (readStore o s).strong.root = .test Config.testRoot ∧ (readStore o s).life.testRoot = true := by
  have none : (enrols o (cleanUp o s) && !substitutes (cleanUp o s)) = false := by
    rw [substitutes_cleanUp, h, Bool.not_true, Bool.and_false]
  have root : startRoot o (cleanUp o s) = note 0x0E 4 { cleanUp o s with
      strong := { (cleanUp o s).strong with root := .test Config.testRoot }
      life := { (cleanUp o s).life with testRoot := true } } := by
    unfold startRoot
    rw [substitutes_cleanUp, if_pos h]
  obtain ⟨key, test, _, _⟩ := rooted_eq ((readStore_rooted none).trans (root ▸ note_rooted _ _))
  exact ⟨key, test⟩

theorem startRoot_store : (startRoot o s).store = s.store := by
  have confirmed : ∀ r, (confirmRoot o r s).store = s.store := fun r => by
    unfold confirmRoot
    dsimp only
    split
    · exact raiseCore_store _
    · rfl
  unfold startRoot
  split
  · exact raiseCore_store _
  · split
    · rfl
    · split
      · exact confirmed _
      · split
        · exact confirmed _
        · exact raiseCore_store _

theorem cleanUp_erases (h : lifeState s = 1 ∨ lifeState s = 3) :
    (cleanUp o s).store.debugA = none ∧ (cleanUp o s).store.debugB = none := by
  unfold cleanUp
  rcases h with h | h <;> rw [h] <;> exact ⟨rfl, rfl⟩

theorem readStore_erases (h : lifeState s = 1 ∨ lifeState s = 3) :
    (readStore o s).store.debugA = none ∧ (readStore o s).store.debugB = none := by
  have apart : (lifeState (cleanUp o s) == 0) = false := by
    rw [lifeState_of_life cleanUp_life]
    rcases h with h | h <;> rw [h] <;> rfl
  have none : (enrols o (cleanUp o s) && !substitutes (cleanUp o s)) = false := by
    unfold enrols
    rw [apart]
    rfl
  obtain ⟨ha, hb⟩ := cleanUp_erases (o := o) h
  obtain ⟨_, _, ea, eb⟩ := rooted_eq (readStore_rooted none)
  rw [ea, eb, startRoot_store, ha, hb]
  exact ⟨rfl, rfl⟩

/-! ### Phase 2: the image -/

theorem chooseImage_none (h : o.slot0Good = false ∧ o.slot1Good = false) : chooseImage o s = none := by
  have bad : ∀ n, slotGood o n = false := fun n => by unfold slotGood; split <;> simp [h]
  unfold chooseImage
  simp only [bad, Bool.false_eq_true, if_false]

/-- Of two slots one passes. -/
theorem slotGood_other (h : o.slot0Good = true ∨ o.slot1Good = true) (n : Nat) (hn : slotGood o n ≠ true) :
    slotGood o (1 - n) = true := by
  unfold slotGood at hn ⊢
  by_cases e : n = 0
  · subst e; simp_all
  · have z : 1 - n = 0 := by omega
    simp_all

theorem chooseImage_some (h : o.slot0Good = true ∨ o.slot1Good = true) : ∃ u, chooseImage o s = some u
    ∧ unbooted u = unbooted s ∧ rooted u = rooted s ∧ slotGood o u.store.bootSlot = true := by
  unfold chooseImage
  dsimp only
  generalize (if (match baseBank s with | some x => x.trial | none => false) = true
    then 1 - (match baseBank s with | some x => x.activeSlot | none => 0)
    else match baseBank s with | some x => x.activeSlot | none => 0) = first
  split
  · rename_i good
    exact ⟨_, rfl, rfl, rfl, good⟩
  · rename_i bad
    rw [if_pos (slotGood_other h _ bad)]
    exact ⟨_, rfl, note_unbooted _ _, note_rooted _ _, by
      show slotGood o (raiseCore _ _).store.bootSlot = true
      rw [raiseCore_store]
      exact slotGood_other h _ bad⟩

end Sys2Proof.Machine
end

section
namespace Sys2Proof.Machine
open Relation

/-! ## The stored settings and the begin of service (R44, R466) -/

variable {T : List Area} {a s t u : State} {o : BootObs}

/-- What the stored settings leave: the chip, the Curator, the root, the life cycle and the memories. -/
def core (s : State) : State :=
  { chip := s.chip, cur := s.cur, strong := s.strong, life := s.life, mem := s.mem, bar2 := s.bar2 }

theorem Moves.core (g : Moves T s t) (h : core s = a) : core t = a :=
  (congrArg Machine.core (Moves.beyond g)).trans h

theorem raiseCore_core {id : Nat} (h : core s = a) : core (raiseCore id s) = a :=
  (raiseCore_keeps core (fun _ => rfl) id).trans h

theorem ite_core {c : Prop} [Decidable c] (h : core s = a) (g : core t = a) : core (if c then s else t) = a := by
  split <;> assumption

theorem foldl_core {α : Type} {f : State → α → State} {l : List α} (hf : ∀ u x, core u = a → core (f u x) = a)
    (h : core s = a) : core (l.foldl f s) = a := by
  induction l generalizing s with
  | nil => exact h
  | cons x l ih => exact ih (hf s x h)

theorem applyTab_core {α : Type} {f : Nat → α → State → State} {l : Tab α}
    (hf : ∀ k c u, core u = a → core (f k c u) = a) (h : core s = a) : core (applyTab f l s) = a :=
  foldl_core (fun u e => hf e.1 e.2 u) h

/-! ### Reference, time and audio -/

theorem setPartner_core {c : Nat} {now : Option Nat} (h : core s = a) : core (setPartner c now s) = a := by
  unfold setPartner
  extract_lets s1
  have h1 : core s1 = a := by
    unfold s1
    split
    · exact ite_core h h
    · exact h
  split
  · exact h1
  · exact h1

theorem loseActivity_core {c : Nat} {g : Bool} (h : core s = a) : core (loseActivity c g s) = a :=
  (loseActivity_moves (T := [.fault, .ref]) (by decide) (by decide) .refl).core h

theorem restartMonitors_core {c : Nat} (h : core s = a) : core (restartMonitors c s) = a :=
  (disqualify_moves (T := [.fault, .ref]) (by decide) (by decide) (c := c) (why := 3) (.refl (a := s))).core h

theorem applyRefCfg_core {c : Nat} {v : RefCfg} (h : core s = a) : core (applyRefCfg c v s) = a := by
  unfold applyRefCfg
  extract_lets old s1 s2
  have h1 : core s1 = a := setPartner_core h
  have h2 : core s2 = a := ite_core (restartMonitors_core h1) h1
  exact ite_core h2 h2

theorem applyRefs_core {x : Tab RefCfg} (h : core s = a) : core (applyRefs x s) = a :=
  foldl_core (fun _ _ => applyRefCfg_core) (foldl_core (fun _ _ h => h) h)

theorem leaveSlave_core {n : Nat} (h : core s = a) : core (leaveSlave n s) = a := by
  unfold leaveSlave
  refine ite_core ?_ h
  extract_lets v s1 was time s2
  have h2 : core s2 = a := h
  clear_value was
  split
  · exact raiseCore_core (loseActivity_core h2)
  · exact loseActivity_core h2

theorem applyPtpPort_core {n : Nat} {c : PtpPortCfg} (h : core s = a) : core (applyPtpPort n c s) = a :=
  ite_core h (leaveSlave_core h)

theorem applyPtpDev_core {c : PtpDevCfg} (h : core s = a) : core (applyPtpDev c s) = a := ite_core h h

theorem applyTdm_core {n : Nat} {c : TdmCfg} (h : core s = a) : core (applyTdm n c s) = a :=
  ite_core h (ite_core h h)

theorem applyTiming_core {x : Settings} (h : core s = a) : core (applyTiming x s) = a := by
  unfold applyTiming
  extract_lets s1 x1 s2 s3 x2 x3 s4
  have h1 : core s1 = a := applyTab_core (fun _ _ _ => applyPtpPort_core) (applyPtpDev_core h)
  have h2 : core s2 = a := h1
  have h3 : core s3 = a := applyRefs_core h2
  clear_value s3
  have h4 : core s4 = a := h3
  exact applyTab_core (fun _ _ _ => applyTdm_core) h4

/-! ### Families and the twin -/

theorem placeFamily_core {n : Nat} (h : core s = a) : core (placeFamily n s) = a := ite_core (raiseCore_core h) h

theorem applyFamilyCfg_core {n : Nat} {c : FamilyCfg} (h : core s = a) : core (applyFamilyCfg n c s) = a :=
  ite_core (ite_core h h) (ite_core (placeFamily_core h) h)

theorem applyTwin_core {x : Settings} (h : core s = a) : core (applyTwin x s) = a := ite_core h h

/-! ### Destinations and sources -/

theorem putDest_core {m : Matrix} {d : Nat} {v : Dest} (h : core s = a) : core (putDest s m d v) = a := by
  cases m <;> exact h

theorem unstageCount_core {e : Entry} (h : core s = a) : core (unstageCount e s) = a := by
  unfold unstageCount
  refine ite_core h ?_
  split <;> exact h

theorem unstageWhere_core {m : Matrix} {d : Nat} {f : Entry → Bool} (h : core s = a) : core (unstageWhere m d f s) = a :=
  ite_core h (foldl_core (fun _ _ => unstageCount_core) (putDest_core h))

theorem unstageForConfig_core {d : Nat} {c : DestCfg} (h : core s = a) : core (unstageForConfig d c s) = a := by
  have each : ∀ {m : Matrix} {f : Entry → Bool} {l : List Nat} {u : State}, core u = a →
      core (l.foldl (fun u k => unstageWhere m k f u) u) = a := foldl_core (fun _ _ => unstageWhere_core)
  unfold unstageForConfig
  exact ite_core (each (foldl_core (fun _ _ h => unstageWhere_core (unstageWhere_core h)) h))
    (ite_core (unstageWhere_core (unstageWhere_core (each (each h)))) h)

theorem sendDue_core (h : core s = a) : core (sendDue s) = a :=
  foldl_core (fun _ _ h => ite_core ((sendReply_moves (List.Subset.refl replyAreas) .refl).core h) h) h

theorem judgeDest_core {d : Nat} (h : core s = a) : core (judgeDest d s) = a :=
  (judgeDest_moves (T := [.fault, .mtx]) (by decide) (by decide) .refl).core h

theorem judgeAll_core {n : Nat} (h : core s = a) : core (judgeAll n s) = a :=
  (judgeAll_moves (T := [.fault, .mtx]) (by decide) (by decide) .refl).core h

theorem applyDestCfg_core {d : Nat} {c : DestCfg} (h : core s = a) : core (applyDestCfg d c s) = a := by
  unfold applyDestCfg
  extract_lets old s1 s2 waits run s3
  have h1 : core s1 = a := sendDue_core (unstageForConfig_core h)
  have h3 : core s3 = a := ite_core h1 h1
  exact judgeDest_core h3

theorem applySourceCfg_core {n : Nat} {c : SourceCfg} (h : core s = a) : core (applySourceCfg n c s) = a := judgeAll_core h

theorem applyMatrix_core {x : Settings} (h : core s = a) : core (applyMatrix x s) = a :=
  applyTab_core (fun _ _ _ => applySourceCfg_core) (applyTab_core (fun _ _ _ => applyDestCfg_core) h)

/-! ### Lanes and SDI -/

theorem reconfigSdiIn_core {e : Nat} {v : SdiState} (h : core s = a) : core (reconfigSdiIn e v s) = a :=
  (loseEssence_moves (T := [.fault, .mtx]) (by decide) (by decide) .refl).core (ite_core h h)

theorem portLinkDown_core {n : Nat} (h : core s = a) : core (portLinkDown n s) = a :=
  (portLinkDown_moves (T := .fault :: wireAreas) (by decide) (by decide) .refl).core h

theorem commandStop_core {l : Nat} (h : core s = a) : core (commandStop l s) = a := by
  unfold commandStop
  refine ite_core ((leaveLock_moves (List.Subset.refl lockAreas) (by decide) .refl).core h) ?_
  extract_lets e
  split
  · exact (loseQuadLink_moves (List.Subset.refl sdiAreas) .refl).core (reconfigSdiIn_core h)
  · exact portLinkDown_core h
  · exact portLinkDown_core h
  · exact h

theorem startLane_core {l : Nat} {v : Lane} (h : core s = a) : core (startLane l v s) = a := ite_core h h

theorem judgeEdge_core {e : Nat} (h : core s = a) : core (judgeEdge e s) = a := judgeDest_core (judgeAll_core h)

theorem applyLaneCfg_core {l : Nat} {c : LaneCfg} (h : core s = a) : core (applyLaneCfg l c s) = a := by
  unfold applyLaneCfg
  extract_lets old bound s1 s2 eq settings s3 s4 s5 s6 s7
  have h1 : core s1 = a := commandStop_core h
  have h2 : core s2 = a := ite_core (foldl_core (fun _ _ => commandStop_core) h1) h1
  have h3 : core s3 = a := h2
  have h4 : core s4 = a := startLane_core h3
  have h5 : core s5 = a := ite_core h4 h4
  have h6 : core s6 = a := foldl_core (fun _ _ => startLane_core) h5
  have h7 : core s7 = a := ite_core (reconfigSdiIn_core h6) h6
  exact ite_core h6 (foldl_core (fun _ _ => judgeEdge_core) h7)

theorem setPlanePair_core {k : Nat} {lanes : Option (Nat × Nat)} (h : core s = a) : core (setPlanePair k lanes s) = a := by
  have lose : ∀ (u : State) (f : Nat), core u = a → core (loseContainers f u) = a := fun u f =>
    foldl_core (fun _ _ => (loseContainer_moves (List.Subset.refl lockAreas) .refl).core)
  unfold setPlanePair
  refine foldl_core lose ?_
  split
  · exact ite_core h (raiseCore_core h)
  · exact h

theorem setOutFormat_core {e f : Nat} (h : core s = a) : core (setOutFormat e f s) = a := ite_core h h

theorem followFormat_core {e : Nat} (h : core s = a) : core (followFormat e s) = a := by
  unfold followFormat
  extract_lets d c
  refine ite_core ?_ (setOutFormat_core h)
  split
  · refine ite_core h ?_
    split
    · exact setOutFormat_core h
    · exact h
  · exact h

theorem idleLanes_core {e n : Nat} (h : core s = a) : core (idleLanes e n s) = a := foldl_core (fun _ _ h => h) h

theorem setSdiOut_core {e : Nat} {c : SdiOutCfg} (h : core s = a) : core (setSdiOut e c s) = a := by
  unfold setSdiOut
  extract_lets old s1 settings s2 out s3 s4
  have h1 : core s1 = a := ite_core (idleLanes_core h) h
  have h3 : core s3 = a := h1
  have h4 : core s4 = a := ite_core (setOutFormat_core h3) h3
  exact judgeDest_core (followFormat_core h4)

theorem applySdiOut_core {e : Nat} {c : SdiOutCfg} (h : core s = a) : core (applySdiOut e c s) = a := by
  have idle : core (if c.enable = true then s else idleLanes e (if (sdiOutCfg s e).links = 4 then 4 else 1) s) = a :=
    ite_core h (idleLanes_core h)
  exact ite_core h (setSdiOut_core idle)

theorem applySdiIn_core {e : Nat} {c : SdiInCfg} (h : core s = a) : core (applySdiIn e c s) = a := reconfigSdiIn_core h

theorem applyLanes_core {x : Settings} (h : core s = a) : core (applyLanes x s) = a := by
  unfold applyLanes
  extract_lets s1 settings s2 s3 s4
  have h1 : core s1 = a := applyTab_core (fun _ _ _ => applyLaneCfg_core) h
  have h3 : core s3 = a := applyTab_core (fun _ _ _ h => ite_core (setPlanePair_core h) h) h1
  exact applyTab_core (fun _ _ _ => applySdiOut_core) (applyTab_core (fun _ _ _ => applySdiIn_core) h3)

/-! ### The begin of service -/

theorem startEngine_core {p : Nat} {c : EngineCfg} (h : core s = a) : core (startEngine p c s) = a :=
  ite_core h (ite_core ((raiseEngine_moves (List.Subset.refl engineAreas) .refl).core h) h)

theorem applyStored_core (h : core s = a) : core (applyStored s) = a := by
  unfold applyStored
  split
  · exact applyRefs_core h
  · rename_i x _
    have lanes : core (applyLanes x (applyTab applyFamilyCfg x.families (applyTwin x s))) = a :=
      applyLanes_core (applyTab_core (fun _ _ _ => applyFamilyCfg_core) (applyTwin_core h))
    have timing := applyTiming_core (x := x) (applyMatrix_core (x := x) lanes)
    exact applyTab_core (fun _ _ _ => startEngine_core) timing

theorem afterOtherSlot_core (h : core s = a) : core (afterOtherSlot s) = a :=
  ite_core (raiseCore_core (s := { s with store := { s.store with trial := false } }) h) (ite_core h h)

/-- The chip while the data plane runs and the Curator serves. -/
def inService (x : Chip) : Chip := { x with startPhase := 6, dataPlaneReady := true, curatorServing := true }

theorem beginService_core : core (beginService s) = core { s with chip := inService s.chip } := by
  have stored : core (afterOtherSlot (applyStored s)) = core s := afterOtherSlot_core (applyStored_core rfl)
  have started := congrArg (fun u : State => { u with chip := inService u.chip }) stored
  unfold beginService
  exact (readRings_moves (List.Subset.refl replyAreas) .refl).core (ite_core started started)

end Sys2Proof.Machine
end

section
namespace Sys2Proof.Machine
open Relation

variable {s t u : State} {o : BootObs}

/-! ## Resets and start phases -/

/-- A pulse of 100 to 999 ns takes a free bit. -/
theorem execDeviceReset_pulse {ns : Nat} (h1 : 100 ≤ ns) (h2 : ns < 1000)
    (h : ¬ (s.chip.startPhase < 6 ∧ s.chip.bootFailed = false)) : execDeviceReset (.sysrst ns) s
      = .next (if (draw 1 s).1 = 1 then { deviceReset s with draws := s.draws + 1 } else { s with draws := s.draws + 1 }) := by
  have cause : resetCause (.sysrst ns) s = ((draw 1 s).1 == 1, { s with draws := s.draws + 1 }) := by
    unfold resetCause
    dsimp only
    rw [if_neg (by omega), if_neg (by omega)]
    rfl
  rw [execDeviceReset_outside h, cause]
  simp only [beq_iff_eq, deviceReset_draws]

/-- A device reset by its causes (R505, R515, R522). -/
theorem deviceReset_causes :
    (∀ c, (s.chip.startPhase < 6 ∧ s.chip.bootFailed = false) →
      ∃ n, n ≤ 1 ∧ execDeviceReset c s = .next { s with draws := s.draws + n }) ∧
    (∀ ns, ns < 100 → execDeviceReset (.sysrst ns) s = .next s) ∧
    (∀ ns, 1000 ≤ ns → ¬ (s.chip.startPhase < 6 ∧ s.chip.bootFailed = false) →
      execDeviceReset (.sysrst ns) s = .next (deviceReset s)) ∧
    (∀ ns, 100 ≤ ns → ns < 1000 → ¬ (s.chip.startPhase < 6 ∧ s.chip.bootFailed = false) →
      execDeviceReset (.sysrst ns) s = .next (if (draw 1 s).1 = 1 then { deviceReset s with draws := s.draws + 1 }
        else { s with draws := s.draws + 1 })) ∧
    (¬ (s.chip.startPhase < 6 ∧ s.chip.bootFailed = false) →
      execDeviceReset .boundaryScan s = .next (deviceReset s) ∧
      execDeviceReset .lifecycle s = .next (if s.life.resetDue = true then deviceReset s else s) ∧
      execDeviceReset .docent s = .next (if s.doc.resetDue = true then deviceReset s else s)) := by
  refine ⟨fun c => execDeviceReset_inStart c, fun ns short => ?_, fun ns long h => ?_, fun ns h1 h2 h => execDeviceReset_pulse h1 h2 h,
    fun h => ⟨execDeviceReset_outside h, execDeviceReset_outside h, execDeviceReset_outside h⟩⟩
  · unfold execDeviceReset resetCause
    dsimp only
    rw [if_pos short]
    rfl
  · have cause : resetCause (.sysrst ns) s = (true, s) := by
      unfold resetCause
      dsimp only
      rw [if_neg (by omega), if_pos long]
    rw [execDeviceReset_outside h, cause]
    rfl

/-- The rings, the interrupt registers and the link after a PCIe reset. -/
def ringsReset (s : State) : State :=
  { s with
    cmd := { s.cmd with
      ring0 := {}, ring1 := {}, ring2 := {}, ring3 := {}, replyRing := {}, waiting := [], doorbellBusy := false
      irqStatus := State.reset.cmd.irqStatus, irqMask := State.reset.cmd.irqMask, irqMap0 := State.reset.cmd.irqMap0
      irqMap1 := State.reset.cmd.irqMap1, msix := [], msixPending := 0 }
    chip := { s.chip with pcieLink := false } }

theorem pcieReset_eq : pcieReset s = ringsReset (resetRingSessions 16 s) := by
  unfold pcieReset
  generalize resetRingSessions 16 s = u
  rfl

theorem sessionOf_ringsReset (n : Nat) : sessionOf (ringsReset s) n = sessionOf s n := rfl
theorem ringsReset_mtx : (ringsReset s).mtx = s.mtx := rfl
theorem ringsReset_clears : let x := (ringsReset s).cmd
    [x.ring0, x.ring1, x.ring2, x.ring3, x.replyRing] = [{}, {}, {}, {}, {}] ∧ x.waiting = [] ∧ x.irqStatus = 0
      ∧ x.irqMask = State.reset.cmd.irqMask ∧ x.msix = [] ∧ x.msixPending = 0 ∧ x.irqMap0 = State.reset.cmd.irqMap0
      ∧ x.irqMap1 = State.reset.cmd.irqMap1 := ⟨rfl, rfl, rfl, rfl, rfl, rfl, rfl, rfl⟩
theorem queued_ringsReset : queued (ringsReset s) = queued s := rfl

/-- A state with the command channel, the chip and the restate of `s`. -/
def apartFromRings (s t : State) : State :=
  { t with cmd := s.cmd, chip := s.chip, mtx := { t.mtx with restate := s.mtx.restate } }

/-- Of the command channel and the chip a PCIe reset takes back what belongs to the rings. -/
theorem ringsReset_of_rest (h : unsessioned u = unsessioned s) : (ringsReset u).chip = { s.chip with pcieLink := false } ∧
    apartFromRings s (ringsReset u) = s :=
  have rest := congrArg (apartFromRings s) h
  ⟨congrArg (fun u => { u.chip with pcieLink := false }) h, rest⟩

/-- The sessions of the rings after a PCIe reset (R512). -/
theorem ringsReset_session {n : Nat} (h1 : 1 ≤ n) (h16 : n ≤ 16) :
    let t := ringsReset (resetRingSessions 16 s)
    ((sessionOf s n).isOpen = true ∧ (sessionOf s n).endpoint = .pcie →
            sessionOf t n = { window := (sessionOf s n).window }
              ∧ ∀ h ∈ t.cmd.takeQueue ++ t.cmd.workQueue, sess h.body ≠ n) ∧
          (¬ ((sessionOf s n).isOpen = true ∧ (sessionOf s n).endpoint = .pcie) → sessionOf t n = sessionOf s n) := by
  refine ⟨fun ring => ⟨?_, fun x hx => ?_⟩, fun apart => ?_⟩
  · rw [sessionOf_ringsReset, sessionOf_resetRingSessions, if_pos ⟨h1, h16, (ringSession_iff n).2 ring⟩]
  · change x ∈ queued (ringsReset _) at hx
    rw [queued_ringsReset] at hx
    exact (queued_resetRingSessions hx).2 n h1 h16 ((ringSession_iff n).2 ring)
  · rw [sessionOf_ringsReset, sessionOf_resetRingSessions, if_neg (fun h => apart ((ringSession_iff n).1 h.2.2))]

theorem ringsReset_restate {r : Restate} (h : s.mtx.restate = some r) :
    (ringsReset (resetRingSessions 16 s)).mtx.restate = if 1 ≤ r.session ∧ r.session ≤ 16
      ∧ (sessionOf s r.session).isOpen = true ∧ (sessionOf s r.session).endpoint = .pcie then none else some r := by
  rw [ringsReset_mtx, resetRingSessions_restate h]
  simp only [ringSession_iff]

/-- What reading the store leaves, in the words of the statement. -/
theorem unbooted_parts (h : unbooted t = unbooted s) : t.chip = s.chip ∧ t.store.chunks = s.store.chunks
    ∧ { t.life with testRoot := s.life.testRoot } = s.life
    ∧ settled { t with chip := s.chip, doc := s.doc, draws := s.draws, life := s.life, store := s.store
                       strong := s.strong } = settled s :=
  ⟨congrArg (fun u => u.chip) h, congrArg (fun u => u.store.chunks) h,
    congrArg (fun u => { u.life with testRoot := s.life.testRoot }) h,
    congrArg (fun u => settled { u with chip := s.chip, doc := s.doc, draws := s.draws, life := s.life, store := s.store
                                        strong := s.strong }) h⟩

/-- The state after phase 2 where an image passes, and where none does. -/
def imageRuns (s : State) : State := { startDocent s with chip := { (startDocent s).chip with startPhase := 3 } }
def imageFails (s : State) : State := { s with chip := { s.chip with bootFailed := true } }

theorem advancePhase_two (h2 : s.chip.startPhase = 2) (hb : s.chip.bootFailed = false) :
    (∀ u, chooseImage o (readStore o s) = some u → advancePhase o s = imageRuns u)
    ∧ (chooseImage o (readStore o s) = none → advancePhase o s = imageFails (readStore o s)) := by
  unfold advancePhase
  simp only [h2, hb, Bool.false_eq_true, if_false]
  generalize readStore o s = r
  refine ⟨fun u h => ?_, fun h => ?_⟩ <;> rw [h] <;> rfl

/-- Start phase 2 (R446 to R471, R487). -/
theorem advancePhase_image (h2 : s.chip.startPhase = 2) (hb : s.chip.bootFailed = false) :
    let t := advancePhase o s
    settled { t with chip := s.chip, doc := s.doc, draws := s.draws, life := s.life, store := s.store
                     strong := s.strong } = settled s
        ∧ t.store.chunks = s.store.chunks ∧ { t.life with testRoot := s.life.testRoot } = s.life
        ∧ (substitutes s = true → t.strong.root = .test Config.testRoot ∧ t.life.testRoot = true)
        ∧ ((lifeState s = 1 ∨ lifeState s = 3) → t.store.debugA = none ∧ t.store.debugB = none)
        ∧ ((o.slot0Good = false ∧ o.slot1Good = false) → t.chip = { s.chip with bootFailed := true })
        ∧ ((o.slot0Good = true ∨ o.slot1Good = true) → t.chip = { s.chip with startPhase := 3 }
            ∧ (if t.store.bootSlot = 0 then o.slot0Good else o.slot1Good) = true
            ∧ t.doc.mode = (if underTestRoot t then 2 else 1)) := by
  have read := readStore_unbooted (o := o) (s := s)
  have test := readStore_substitutes (o := o) (s := s)
  have erased := readStore_erases (o := o) (s := s)
  obtain ⟨runs, fails⟩ := advancePhase_two (o := o) h2 hb
  generalize readStore o s = r at read test erased runs fails
  by_cases good : o.slot0Good = true ∨ o.slot1Good = true
  · obtain ⟨u, hu, kept, root, slot⟩ := chooseImage_some (s := r) good
    obtain ⟨key, life, da, db⟩ := rooted_eq root
    obtain ⟨chip, chunks, hl, rest⟩ := unbooted_parts (kept.trans read)
    rw [runs u hu]
    refine ⟨rest, chunks, hl, fun h => ?_, fun h => ?_, fun h => ?_, fun _ => ⟨?_, slot, rfl⟩⟩
    · exact ⟨key.trans (test h).1, life.trans (test h).2⟩
    · exact ⟨da.trans (erased h).1, db.trans (erased h).2⟩
    · simp [h.1, h.2] at good
    · exact congrArg (fun x : Chip => { x with startPhase := 3 }) chip
  · have bad : o.slot0Good = false ∧ o.slot1Good = false := by
      simpa [not_or] using good
    obtain ⟨chip, chunks, hl, rest⟩ := unbooted_parts read
    rw [fails (chooseImage_none bad)]
    exact ⟨rest, chunks, hl, test, erased, fun _ => congrArg (fun x : Chip => { x with bootFailed := true }) chip,
      fun h => absurd h good⟩

theorem core_parts (h : core t = core u) : t.chip = u.chip ∧ t.cur = u.cur ∧ t.strong = u.strong ∧ t.life = u.life
    ∧ t.mem = u.mem ∧ t.bar2 = u.bar2 :=
  ⟨congrArg (fun u => u.chip) h, congrArg (fun u => u.cur) h, congrArg (fun u => u.strong) h,
    congrArg (fun u => u.life) h, congrArg (fun u => u.mem) h, congrArg (fun u => u.bar2) h⟩

theorem substitutes_iff : substitutes s = true ↔ lifeState s = 2 ∨ (lifeState s = 0 ∧ s.life.unlockPending = true) := by
  unfold substitutes; simp

/-- The other start phases (R44). -/
theorem advancePhase_one (h : s.chip.startPhase = 1) : advancePhase o s = { s with chip := { s.chip with startPhase := 2 } } := by
  unfold advancePhase; simp only [h]
theorem advancePhase_failed (h : s.chip.startPhase = 2) (hb : s.chip.bootFailed = true) : advancePhase o s = s := by
  unfold advancePhase; simp only [h, hb, if_true]
theorem advancePhase_three (h : s.chip.startPhase = 3) : advancePhase o s =
    { s with chip := { s.chip with startPhase := 4 }, cur := { s.cur with remap := true } } := by
  unfold advancePhase; simp only [h]
theorem advancePhase_four (h : s.chip.startPhase = 4) :
    advancePhase o s = { s with chip := { s.chip with startPhase := 5, reserveReady := true } } := by
  unfold advancePhase; simp only [h]
theorem advancePhase_five (h : s.chip.startPhase = 5) : advancePhase o s = beginService s := by
  unfold advancePhase; simp only [h]
theorem advancePhase_done (h : 6 ≤ s.chip.startPhase) : advancePhase o s = s := by
  unfold advancePhase
  split
  · omega
  · omega
  · omega
  · omega
  · omega
  · rfl

/-- Settles O56: the resets by their equations, phase 2 by what each of its parts may touch, and phase 5 by what the
stored settings leave. -/
theorem resetsAndStartPhases : Obligations.ResetsAndStartPhases := by
  unfold Obligations.ResetsAndStartPhases
  refine ⟨fun s => ?_, fun s => ⟨rfl, ?_⟩, fun o s => ⟨fun h => congrArg _ (advancePhase_one h),
    fun h hb => congrArg _ (advancePhase_failed h hb), fun h hb => ⟨_, rfl, ?_⟩, fun h => congrArg _ (advancePhase_three h),
    fun h => congrArg _ (advancePhase_four h), fun h => ⟨_, rfl, ?_⟩, fun h => congrArg _ (advancePhase_done h)⟩⟩
  · intro flash lost after inStart
    have reset : deviceReset s = after := deviceReset_eq
    obtain ⟨within, short, long, pulse, others⟩ := deviceReset_causes (s := s)
    rw [reset] at long pulse others
    refine ⟨rfl, fun h => ?_, fun h => ?_, within, short, long, pulse, others⟩
    · exact congrArg Host.Outcome.next (if_pos h)
    · exact congrArg Host.Outcome.next (if_neg h)
  · refine ⟨_, congrArg Host.Outcome.next pcieReset_eq, ?_⟩
    have closed := fun n => ringsReset_session (s := s) (n := n)
    have restate := fun r => ringsReset_restate (s := s) (r := r)
    obtain ⟨rest, -⟩ := resetRingSessions_rest (n := 16) (s := s)
    generalize resetRingSessions 16 s = u at rest closed restate ⊢
    obtain ⟨chip, kept⟩ := ringsReset_of_rest rest
    obtain ⟨rings, waiting, status, mask, msix, pending, map0, map1⟩ := ringsReset_clears (s := u)
    exact ⟨chip, rings, waiting, status, mask, msix, pending, map0, map1, closed, restate, kept⟩
  · obtain ⟨rest, chunks, life, test, erased, fails, runs⟩ := advancePhase_image (o := o) h hb
    exact ⟨rest, chunks, life, fun hs => test (substitutes_iff.2 hs), erased, fails, runs⟩
  · rw [advancePhase_five h]
    exact core_parts beginService_core

end Sys2Proof.Machine
end

section
namespace Sys2Proof.Machine

/-! ## Rings, interrupts and snapshots (R43, R144, R244, R357 to R360, R378 to R380) -/

variable {s t u : State}

/-! ### Rings -/

theorem putRing_putRing (c : Nat) (r x : Ring) : putRing (putRing s c r) c x = putRing s c x :=
  match c with | 0 => rfl | 1 => rfl | 2 => rfl | _ + 3 => rfl

theorem putRing_ringOf (c : Nat) : putRing s c (ringOf s c) = s :=
  match c with | 0 => rfl | 1 => rfl | 2 => rfl | _ + 3 => rfl

theorem settled_putRing (c : Nat) (r : Ring) : settled (putRing s c r) = putRing (settled s) c r :=
  match c with | 0 => rfl | 1 => rfl | 2 => rfl | _ + 3 => rfl

theorem ringOf_putRing_other {c k : Nat} (hc : c < 4) (hk : k < 4) (h : k ≠ c) (r : Ring) :
    ringOf (putRing s c r) k = ringOf s k := by
  interval_cases c <;> interval_cases k <;> simp [ringOf, putRing] at h ⊢

theorem ringOf_raiseIrq (e c : Nat) : ringOf (raiseIrq e s) c = ringOf s c := ringOf_settled (raiseIrq_settled s e) c

/-- A ring that halts: its reason, its interrupt, and nothing else (R359). -/
theorem haltRing_halts (c : Fin 4) (n : Nat) :
    ringOf (haltRing c.val n s) c.val = { ringOf s c.val with halted := true, haltReason := n }
      ∧ (haltRing c.val n s).cmd.irqStatus.getLsbD 1 = true
      ∧ settled (putRing (haltRing c.val n s) c.val (ringOf s c.val)) = settled s := by
  refine ⟨?_, raiseIrq_bit _ _ (by decide), ?_⟩
  · exact (ringOf_raiseIrq _ _).trans (ringOf_putRing _ c _)
  · unfold haltRing
    rw [settled_putRing, raiseIrq_settled, settled_putRing, putRing_putRing, ← settled_putRing, putRing_ringOf]

/-! ### Reading the rings -/

theorem canReadRing_empty {c : Nat} (h : (ringOf s c).unread = []) : canReadRing s c = false := by
  unfold canReadRing
  simp [h]

theorem readRing_stuck {c : Nat} (h : canReadRing s c = false) (n : Nat) : readRing c n s = s := by
  cases n with
  | zero => rfl
  | succ n => exact if_neg (by rw [h]; exact Bool.false_ne_true)

theorem readBulk_stuck {c : Nat} (h : canReadRing s c = false) (g : canReadRing s (5 - c) = false) (n : Nat) :
    readBulk n c s = s := by
  cases n with
  | zero => rfl
  | succ n => unfold readBulk; rw [h, g]; rfl

theorem readRings_stuck (h : ∀ c, canReadRing s c = false) : readRings s = s := by
  unfold readRings
  rw [readRing_stuck (h 0)]
  dsimp only
  rw [readRing_stuck (h 1)]
  split
  · exact readBulk_stuck (h 2) (h 3) _
  · rfl

theorem readRings_steps (h0 : readRing 0 (ringOf s 0).unread.length s = t)
    (h1 : readRing 1 (ringOf t 1).unread.length t = u) : readRings s = if noControlWaits u = true
      then readBulk ((ringOf u 2).unread.length + (ringOf u 3).unread.length) 2 u else u := by
  unfold readRings
  rw [h0]
  dsimp only
  rw [h1]

section
variable {c : Fin 4} {x : HostPacket}

theorem readRing_empty {k : Nat} (h : (ringOf s k).unread = []) : readRing k (ringOf s k).unread.length s = s := by
  rw [h]; rfl

theorem readRing_one {k : Nat} (can : canReadRing s k = true) (one : (ringOf s k).unread = [x]) :
    readRing k (ringOf s k).unread.length s = readPacket k s := by
  rw [one]; exact if_pos can

theorem readBulk_empty (h2 : (ringOf s 2).unread = []) (h3 : (ringOf s 3).unread = []) :
    (if noControlWaits s = true then readBulk ((ringOf s 2).unread.length + (ringOf s 3).unread.length) 2 s else s)
      = s := by
  rw [h2, h3]
  exact ite_self _

/-- Where one packet waits in one ring, that packet is read. -/
theorem readRings_one (can : canReadRing s c.val = true) (one : (ringOf s c.val).unread = [x])
    (others : ∀ k, k ≠ c.val → k < 4 → (ringOf s k).unread = [])
    (after : ∀ k, k ≠ c.val → k < 4 → ringOf (readPacket c.val s) k = ringOf s k)
    (control : 2 ≤ c.val → noControlWaits s = true) : readRings s = readPacket c.val s := by
  have none : ∀ k, k ≠ c.val → k < 4 → (ringOf (readPacket c.val s) k).unread = [] := fun k hk h4 => by
    rw [after k hk h4]; exact others k hk h4
  match c, can, one, others, none, control with
  | 0, can, one, others, none, _ =>
    rw [readRings_steps (readRing_one can one) (readRing_empty (none 1 (by decide) (by decide)))]
    exact readBulk_empty (none 2 (by decide) (by decide)) (none 3 (by decide) (by decide))
  | 1, can, one, others, none, _ =>
    rw [readRings_steps (readRing_empty (others 0 (by decide) (by decide))) (readRing_one can one)]
    exact readBulk_empty (none 2 (by decide) (by decide)) (none 3 (by decide) (by decide))
  | 2, can, one, others, none, control =>
    rw [readRings_steps (readRing_empty (others 0 (by decide) (by decide)))
      (readRing_empty (others 1 (by decide) (by decide))), if_pos (control (by decide)),
      others 3 (by decide) (by decide)]
    have len : (ringOf s 2).unread.length = 1 := congrArg List.length one
    rw [len]
    exact if_pos can
  | 3, can, one, others, none, control =>
    rw [readRings_steps (readRing_empty (others 0 (by decide) (by decide)))
      (readRing_empty (others 1 (by decide) (by decide))), if_pos (control (by decide)),
      others 2 (by decide) (by decide)]
    have len : (ringOf s 3).unread.length = 1 := congrArg List.length one
    have stuck : canReadRing s 2 ≠ true := by
      rw [canReadRing_empty (others 2 (by decide) (by decide))]; exact Bool.false_ne_true
    rw [len]
    exact (if_neg stuck).trans (if_pos can)
end

section
variable {c : Fin 4} {x : HostPacket} {n : Nat}

/-- A packet of an opcode goes to its server's queue. -/
theorem takeIn_queues (op : isOpcode x.opcode.toNat = true) (pcie : x.body.endpoint = .pcie) (ring : x.body.ring = c) :
    takeIn x s = if c.val = 0 then { s with cmd := { s.cmd with takeQueue := s.cmd.takeQueue ++ [x] } }
      else { s with cmd := { s.cmd with workQueue := s.cmd.workQueue ++ [x] } } := by
  unfold takeIn
  rw [op, pcie, ring]
  simp only [Bool.not_true, Bool.false_eq_true, if_false, if_true, beq_iff_eq]

/-- The oldest packet of a ring: it halts the ring, or goes to its server's queue with HEAD past it. -/
theorem readPacket_eq (one : (ringOf s c.val).unread = [x]) :
    let r := ringOf s c.val
    let n := ringUnits (36 + x.body.paramLength.toNat)
    readPacket c.val s = if 32768 < x.body.paramLength.toNat ∨ (r.tail.toNat + r.size.toNat - r.head.toNat) % r.size.toNat < n
      then haltRing c.val 2 s
      else takeIn x (putRing s c.val { r with
        head := BitVec.ofNat 32 ((r.head.toNat + n) % r.size.toNat), unread := [] }) := by
  unfold readPacket
  simp only [one]

theorem readPacket_others (one : (ringOf s c.val).unread = [x]) (k : Nat) (hk : k ≠ c.val) (h4 : k < 4) :
    ringOf (readPacket c.val s) k = ringOf s k := by
  rw [readPacket_eq one]
  split
  · exact (ringOf_raiseIrq _ _).trans (ringOf_putRing_other c.isLt h4 hk _)
  · exact (ringOf_settled (takeIn_settled x) k).trans (ringOf_putRing_other c.isLt h4 hk _)
end

/-! ### RINGc_TAIL (R358, R359) -/

section
variable {c : Fin 4} {tail : Word} {new : List HostPacket} {err : Bool}

/-- A ring with its new TAIL and the packets up to it. -/
def publishedRing (c : Fin 4) (tail : Word) (new : List HostPacket) (s : State) : Ring :=
  { ringOf s c.val with tail := tail, unread := (ringOf s c.val).unread ++ new.map (inRing c) }

/-- The state with that ring. -/
def published (c : Fin 4) (tail : Word) (new : List HostPacket) (s : State) : State :=
  putRing s c.val (publishedRing c tail new s)

theorem ringOf_published : ringOf (published c tail new s) c.val = publishedRing c tail new s := ringOf_putRing _ c _

/-- A ring that halts on what was published. -/
theorem published_halts (n : Nat) : let t := haltRing c.val n (published c tail new s)
    ringOf t c.val = { publishedRing c tail new s with halted := true, haltReason := n }
      ∧ t.cmd.irqStatus.getLsbD 1 = true
      ∧ settled (putRing t c.val (publishedRing c tail new s)) = settled (published c tail new s) := by
  have all := haltRing_halts (s := published c tail new s) c n
  rw [ringOf_published] at all
  exact all

theorem execRingTailWrite_eq (root : s.chip.rootLocked = true) : execRingTailWrite c tail new err s =
    .next (if (publishedRing c tail new s).halted = true then published c tail new s
      else if tailOk (publishedRing c tail new s).size.toNat tail.toNat = false
        then haltRing c.val 1 (published c tail new s)
      else if (err && canReadRing (published c tail new s) c.val) = true
        then haltRing c.val 3 (published c tail new s)
      else readRings (published c tail new s)) := by
  unfold execRingTailWrite clocked writeTail
  rw [if_pos root]
  simp only [Bool.not_eq_true']
  rfl
end

/-! ### Interrupts (R378 to R380) -/

/-- The vectors that a list sends: each once, and none that is masked. -/
def sentVectors (l : List Nat) (s : State) : List Nat := l.dedup.filter (fun v => !(msixEntry s v).control.getLsbD 0)

theorem sendVector_keeps (v : Nat) : (sendVector v s).cmd.msix = s.cmd.msix ∧ (sendVector v s).cmd.irqMask = s.cmd.irqMask
    ∧ (sendVector v s).cmd.irqStatus = s.cmd.irqStatus := by
  unfold sendVector
  split <;> exact ⟨rfl, rfl, rfl⟩

theorem sendVector_messages (v : Nat) : (sendVector v s).cmd.messages =
    s.cmd.messages ++ [v].filter (fun v => !(msixEntry s v).control.getLsbD 0) := by
  unfold sendVector
  split
  · rename_i h
    rw [List.filter_cons_of_neg (by simpa using h)]
    exact (List.append_nil _).symm
  · rename_i h
    rw [List.filter_cons_of_pos (by simpa using h)]
    rfl

theorem sendVectors_sends (l : List Nat) : (sendVectors l s).cmd.messages = s.cmd.messages ++ sentVectors l s
    ∧ (sendVectors l s).cmd.irqMask = s.cmd.irqMask ∧ (sendVectors l s).cmd.irqStatus = s.cmd.irqStatus
    ∧ settled (sendVectors l s) = settled s := by
  induction l generalizing s with
  | nil => exact ⟨(List.append_nil _).symm, rfl, rfl, rfl⟩
  | cons v l ih =>
    unfold sendVectors sentVectors
    split
    · rename_i h
      rw [List.dedup_cons_of_mem (by simpa using h)]
      exact ih
    · rename_i h
      obtain ⟨sent, mask, status, rest⟩ := ih (s := sendVector v s)
      obtain ⟨msix, mask1, status1⟩ := sendVector_keeps (s := s) v
      rw [List.dedup_cons_of_notMem (by simpa using h)]
      refine ⟨?_, mask.trans mask1, status.trans status1, rest.trans (sendVector_settled s v)⟩
      rw [sent, sendVector_messages, List.append_assoc]
      unfold sentVectors msixEntry
      rw [msix, ← List.filter_append]
      rfl

theorem mem_eventsOf {w : Word} {e : Nat} : e ∈ eventsOf w ↔ e < 12 ∧ w.getLsbD e = true := by
  unfold eventsOf; simp

theorem lowTwelve {e : Nat} (h : e < 12) : (0xFFF#32).getLsbD e = true := by
  interval_cases e <;> rfl

/-- IRQ_MASK is written: each vector of an event that it unmasks is sent once (R380). -/
theorem writeIrqMask_sends (v : Word) :
    ∃ l, let t := writeIrqMask v s
      t.cmd.irqMask = v &&& 0xFFF ∧ t.cmd.irqStatus = s.cmd.irqStatus
      ∧ t.cmd.messages = s.cmd.messages ++ l ∧ l.Nodup
      ∧ (∀ k, k ∈ l ↔ (msixEntry s k).control.getLsbD 0 = false ∧ ∃ e < 12, s.cmd.irqStatus.getLsbD e = true
          ∧ s.cmd.irqMask.getLsbD e = true ∧ v.getLsbD e = false ∧ irqVector s e = k)
      ∧ settled t = settled { s with cmd := { s.cmd with irqMask := v &&& 0xFFF } } := by
  obtain ⟨sent, mask, status, rest⟩ := sendVectors_sends (s := { s with cmd := { s.cmd with irqMask := v &&& 0xFFF } })
    ((eventsOf (s.cmd.irqStatus &&& s.cmd.irqMask &&& ~~~(v &&& 0xFFF))).map (irqVector s))
  refine ⟨_, mask, status, sent, (List.nodup_dedup _).filter _, fun k => ?_, rest⟩
  have freed : ∀ e, e ∈ eventsOf (s.cmd.irqStatus &&& s.cmd.irqMask &&& ~~~(v &&& 0xFFF)) ↔ e < 12
      ∧ s.cmd.irqStatus.getLsbD e = true ∧ s.cmd.irqMask.getLsbD e = true ∧ v.getLsbD e = false := fun e => by
    rw [mem_eventsOf]
    refine and_congr_right fun he => ?_
    have low := lowTwelve he
    have word : e < 32 := by omega
    simp [low, word, and_assoc]
  unfold sentVectors
  rw [List.mem_filter, List.mem_dedup, List.mem_map]
  simp only [freed]
  constructor
  · rintro ⟨⟨e, ⟨h12, status, mask, on⟩, ev⟩, hk⟩
    exact ⟨Bool.not_eq_true' _ ▸ hk, e, h12, status, mask, on, ev⟩
  · rintro ⟨hk, e, h12, status, mask, on, ev⟩
    exact ⟨⟨e, ⟨h12, status, mask, on⟩, ev⟩, Bool.not_eq_true' _ ▸ hk⟩

/-! ### Snapshots (R143 to R145, R243 to R245) -/

theorem familyMask_bit (f : Nat → Bool) {n : Nat} (h : n < 4) : (familyMask f).getLsbD n = f n := by
  have bits : ∀ a b c d : Bool, let m : BitVec 4 := BitVec.ofNat 4 (natOfBits [a, b, c, d])
      m.getLsbD 0 = a ∧ m.getLsbD 1 = b ∧ m.getLsbD 2 = c ∧ m.getLsbD 3 = d := by decide
  obtain ⟨h0, h1, h2, h3⟩ := bits (f 0) (f 1) (f 2) (f 3)
  interval_cases n
  · exact h0
  · exact h1
  · exact h2
  · exact h3

theorem halves_append (x : Word64) : ((x >>> 32).truncate 32 : Word) ++ (x.truncate 32 : Word) = x := by
  ext i hi
  rw [BitVec.getElem_append]
  split
  · simp [BitVec.getElem_setWidth, BitVec.getLsbD_eq_getElem hi]
  · have low : i - 32 < 32 := by omega
    have back : 32 + (i - 32) = i := by omega
    simp [BitVec.getElem_setWidth, BitVec.getLsbD_ushiftRight, back, BitVec.getLsbD_eq_getElem hi]

/-- The hang snapshot, captured at one instant (R144, R145). -/
theorem captureHang_snap : let t := captureHang s
    t.mtx.snap.valid = true ∧ t.mtx.snap.capture = false
        ∧ [t.mtx.snap.hang0, t.mtx.snap.hang1, t.mtx.snap.hang2, t.mtx.snap.hang3]
            = [hangNumber s 0, hangNumber s 1, hangNumber s 2, hangNumber s 3]
        ∧ [t.mtx.snap.remain0, t.mtx.snap.remain1, t.mtx.snap.remain2, t.mtx.snap.remain3]
            = [remainOf s 0, remainOf s 1, remainOf s 2, remainOf s 3]
        ∧ (∀ n < 4, t.mtx.snap.enabled.getLsbD n = familyOn s n
            ∧ t.mtx.snap.aligned.getLsbD n = (familyOn s n && (familyOf s n).aligned)
            ∧ t.mtx.snap.pastCutoff.getLsbD n = (familyOn s n && (familyOf s n).cutoffPassed))
        ∧ t.mtx.snap.countHi ++ t.mtx.snap.countLo = s.time.count
        ∧ { t with mtx := { t.mtx with snap := s.mtx.snap } } = s :=
  ⟨rfl, rfl, rfl, rfl, fun _ hn => ⟨familyMask_bit _ hn, familyMask_bit _ hn, familyMask_bit _ hn⟩,
    halves_append _, rfl⟩

/-- The time snapshot (R244, R245). -/
theorem captureTime_snap (hang : Bool) : let b := timeAt s.time.triple s.time.count
    let t := captureTime hang s
    t.time.snap.valid = true ∧ t.time.snap.capture = false
        ∧ t.time.snap.withHang = hang ∧ t.time.snap.servo = s.time.servo
        ∧ t.time.snap.countHi ++ t.time.snap.countLo = s.time.count
        ∧ t.time.snap.secLo = BitVec.ofNat 32 b.sec ∧ t.time.snap.secHi = BitVec.ofNat 32 (b.sec / 2 ^ 32 % 2 ^ 16)
        ∧ t.time.snap.ns = BitVec.ofNat 32 b.ns ∧ t.time.snap.frac = BitVec.ofNat 32 b.frac
        ∧ { t with mtx := s.mtx, time := { t.time with snap := s.time.snap } } = s :=
  ⟨rfl, rfl, rfl, rfl, halves_append _, rfl, rfl, rfl, rfl, rfl⟩

/-- The hang snapshot does not see the time snapshot. -/
theorem captureHang_captureTime (hang : Bool) : (captureHang (captureTime hang s)).mtx = (captureHang s).mtx
    ∧ { captureHang (captureTime hang s) with mtx := s.mtx } = captureTime hang s := ⟨rfl, rfl⟩

end Sys2Proof.Machine
end

section
namespace Sys2Proof.Machine

variable {s t u : State}

/-! ### The registers -/

section
variable {c : Fin 4} {tail : Word} {new : List HostPacket} {err : Bool}

/-- What a write of RINGc_TAIL makes of the ring (R358, R359). -/
theorem execRingTailWrite_cases (root : s.chip.rootLocked = true) :
    let r := publishedRing c tail new s
    let u := published c tail new s
    let halts := fun (n : Nat) => ∃ t, execRingTailWrite c tail new err s = .next t
      ∧ ringOf t c.val = { r with halted := true, haltReason := n } ∧ t.cmd.irqStatus.getLsbD 1 = true
      ∧ settled (putRing t c.val r) = settled u
    (r.halted = true → execRingTailWrite c tail new err s = .next u) ∧
    (r.halted = false → tailOk r.size.toNat tail.toNat = false → halts 1) ∧
    (r.halted = false → tailOk r.size.toNat tail.toNat = true → err = true → canReadRing u c.val = true → halts 3) ∧
    (r.halted = false → tailOk r.size.toNat tail.toNat = true → (err && canReadRing u c.val) = false →
      execRingTailWrite c tail new err s = .next (readRings u)) := by
  intro r u halts
  have eq := execRingTailWrite_eq (c := c) (tail := tail) (new := new) (err := err) root
  refine ⟨fun h => ?_, fun h bad => ?_, fun h ok fails can => ?_, fun h ok reads => ?_⟩
  · rw [eq, if_pos h]
  · exact ⟨_, by rw [eq, if_neg (by rw [h]; exact Bool.false_ne_true), if_pos bad], published_halts 1⟩
  · refine ⟨_, ?_, published_halts 3⟩
    rw [eq, if_neg (by rw [h]; exact Bool.false_ne_true), if_neg (by rw [ok]; decide), fails, can]
    rfl
  · rw [eq, if_neg (by rw [h]; exact Bool.false_ne_true), if_neg (by rw [ok]; decide), reads,
      if_neg Bool.false_ne_true]

/-- The one packet that waits is read: it halts the ring, or goes to its server's queue. -/
theorem published_read {x : HostPacket} (can : canReadRing (published c tail new s) c.val = true)
    (others : ∀ k, k ≠ c.val → k < 4 → (ringOf s k).unread = [])
    (control : 2 ≤ c.val → noControlWaits (published c tail new s) = true)
    (one : (publishedRing c tail new s).unread = [x]) :
    readRings (published c tail new s) = readPacket c.val (published c tail new s) := by
  have one' : (ringOf (published c tail new s) c.val).unread = [x] := by rw [ringOf_published]; exact one
  refine readRings_one can one' (fun k hk h4 => ?_) (readPacket_others one') control
  exact (congrArg Ring.unread (ringOf_putRing_other c.isLt h4 hk _)).trans (others k hk h4)

theorem published_readPacket {x : HostPacket} (one : (publishedRing c tail new s).unread = [x])
    (pcie : x.body.endpoint = .pcie) (ring : x.body.ring = c) (op : isOpcode x.opcode.toNat = true) :
    let r := publishedRing c tail new s
    let n := ringUnits (36 + x.body.paramLength.toNat)
    readPacket c.val (published c tail new s) =
      if 32768 < x.body.paramLength.toNat ∨ (tail.toNat + r.size.toNat - r.head.toNat) % r.size.toNat < n
      then haltRing c.val 2 (published c tail new s)
      else
        let v := putRing s c.val { r with
          head := BitVec.ofNat 32 ((r.head.toNat + n) % r.size.toNat), unread := [] }
        if c.val = 0 then { v with cmd := { v.cmd with takeQueue := s.cmd.takeQueue ++ [x] } }
          else { v with cmd := { v.cmd with workQueue := s.cmd.workQueue ++ [x] } } := by
  have eq := readPacket_eq (s := published c tail new s) (c := c) (x := x) (by rw [ringOf_published]; exact one)
  rw [ringOf_published] at eq
  refine eq.trans (if_congr Iff.rfl rfl ?_)
  rw [takeIn_queues op pcie ring]
  unfold published
  rw [putRing_putRing, putRing_cmd_takeQueue, putRing_cmd_workQueue]
end

/-- REPLY_WRITE: the oldest reply that waits stalls, or is written (R360). -/
theorem writeReply_cases {r : Reply} {rest : List Reply} (h : s.cmd.waiting = r :: rest) :
    let q := s.cmd.replyRing
    let n := (36 + r.results.length + 63) / 64 * 64
    (replyRoom q < n → writeReply s = raiseIrq irqReplyStall s) ∧
    (n ≤ replyRoom q → writeReply s = readRings (raiseIrq irqReply { s with cmd := { s.cmd with
          replyRing := { q with tail := BitVec.ofNat 32 ((q.tail.toNat + n) % q.size.toNat) }
          waiting := rest, written := s.cmd.written ++ [r] } })) := by
  unfold writeReply
  rw [h]
  exact ⟨fun short => if_pos short, fun room => if_neg (Nat.not_lt.mpr room)⟩

theorem canReadRing_raiseIrq (e c : Nat) : canReadRing (raiseIrq e s) c = canReadRing s c := by
  have blank : ∀ u, canReadRing (unraised u) c = canReadRing u c := fun _ => rfl
  rw [← blank, raiseIrq_unraised, blank]

theorem waiting_raiseIrq (e : Nat) : (raiseIrq e s).cmd.waiting = s.cmd.waiting :=
  congrArg (fun m => m.1) (raiseIrq_mail s e)

/-- REPLY_WRITE, in the words of the statement. -/
theorem execReplyWrite_cases {r : Reply} {rest : List Reply} (link : s.chip.pcieLink = true)
    (h : s.cmd.waiting = r :: rest) :
    let q := s.cmd.replyRing
    let n := (36 + r.results.length + 63) / 64 * 64
    (replyRoom q < n →
        ∃ t, execReplyWrite s = .next t ∧ t.cmd.irqStatus.getLsbD 6 = true ∧ t.cmd.waiting = s.cmd.waiting
          ∧ settled t = settled s) ∧
      (∀ v, v = { s with cmd := { s.cmd with
          replyRing := { q with tail := BitVec.ofNat 32 ((q.tail.toNat + n) % q.size.toNat) }
          waiting := rest, written := s.cmd.written ++ [r] } } →
        n ≤ replyRoom q → (∀ c, canReadRing v c = false) →
        ∃ t, execReplyWrite s = .next t ∧ t.cmd.irqStatus.getLsbD 0 = true ∧ t.cmd.waiting = rest
          ∧ settled t = settled v) := by
  intro q n
  obtain ⟨stalls, writes⟩ := writeReply_cases h
  have exec : execReplyWrite s = .next (writeReply s) := congrArg Host.Outcome.next (if_pos link)
  refine ⟨fun short => ⟨_, exec.trans (congrArg _ (stalls short)), raiseIrq_bit _ _ (by decide), waiting_raiseIrq _,
    raiseIrq_settled _ _⟩, fun v hv room quiet => ⟨raiseIrq irqReply v, ?_, raiseIrq_bit _ _ (by decide),
      (waiting_raiseIrq _).trans (by rw [hv]), raiseIrq_settled _ _⟩⟩
  rw [exec, writes room, ← hv, readRings_stuck (fun c => (canReadRing_raiseIrq _ c).trans (quiet c))]

/-- A register that is written before ROOT has locked does nothing (R32). -/
theorem clocked_off {f : State → State} (h : s.chip.rootLocked = false) : clocked f s = s :=
  if_neg (by rw [h]; exact Bool.false_ne_true)
theorem clocked_on {f : State → State} (h : s.chip.rootLocked = true) : clocked f s = f s := if_pos h

theorem registers_unclocked (v : Word) (h : s.chip.rootLocked = false) :
    ∀ i ∈ [Instr.ringSizeWrite 0 v, .ringSizeWrite 1 v, .ringSizeWrite 2 v, .ringSizeWrite 3 v, .ringSizeWrite 4 v,
      .replyHeadWrite v, .irqStatusClear v, .irqMaskWrite v, .hangSnapCapture v, .timeSnapCapture v, .uptimeLoRead,
      .remap, .wdogKick v], exec i s = .next s := by
  have off : ∀ f : State → State, (Host.Outcome.next (clocked f s) : Host.Outcome State Fault Refusal) = .next s :=
    fun f => congrArg _ (clocked_off h)
  simp only [List.forall_mem_cons, List.not_mem_nil, false_imp_iff, implies_true, and_true]
  exact ⟨off _, off _, off _, off _, off _, off _, off _, off _, off _, off _, off _, off _, off _⟩

theorem writeTimeSnap_on {v : Word} (h0 : v.getLsbD 0 = true) :
    writeTimeSnap v s = if v.getLsbD 2 = true then captureHang (captureTime (v.getLsbD 2) s)
      else captureTime (v.getLsbD 2) s := if_pos h0

/-- TIME_SNAP_CTRL captures, with the hang snapshot where it says so (R244, R245). -/
theorem writeTimeSnap_captures {v : Word} (h0 : v.getLsbD 0 = true) : let b := timeAt s.time.triple s.time.count
    let t := writeTimeSnap v s
    t.time.snap.valid = true ∧ t.time.snap.capture = false
        ∧ t.time.snap.withHang = v.getLsbD 2 ∧ t.time.snap.servo = s.time.servo
        ∧ t.time.snap.countHi ++ t.time.snap.countLo = s.time.count
        ∧ t.time.snap.secLo = BitVec.ofNat 32 b.sec ∧ t.time.snap.secHi = BitVec.ofNat 32 (b.sec / 2 ^ 32 % 2 ^ 16)
        ∧ t.time.snap.ns = BitVec.ofNat 32 b.ns ∧ t.time.snap.frac = BitVec.ofNat 32 b.frac
        ∧ (v.getLsbD 2 = true → t.mtx = (captureHang s).mtx) ∧ (v.getLsbD 2 = false → t.mtx = s.mtx)
        ∧ { t with mtx := s.mtx, time := { t.time with snap := s.time.snap } } = s := by
  obtain ⟨valid, capture, hang, servo, count, secLo, secHi, ns, frac, rest⟩ := captureTime_snap (s := s) (v.getLsbD 2)
  rw [writeTimeSnap_on h0]
  split
  · rename_i h2
    exact ⟨valid, capture, hang, servo, count, secLo, secHi, ns, frac, fun _ => (captureHang_captureTime _).1,
      fun h => absurd (h2.symm.trans h) (by decide), rest⟩
  · rename_i h2
    exact ⟨valid, capture, hang, servo, count, secLo, secHi, ns, frac, fun h => absurd h h2, fun _ => rfl, rest⟩

/-- Settles O54: each register by what its write makes of the state, a ring by the packet that is read from it. -/
theorem ringAndSnapshotRegistersAct : Obligations.RingAndSnapshotRegistersAct := by
  unfold Obligations.RingAndSnapshotRegistersAct
  refine ⟨fun c tail new err s => ?_, fun v s root => ⟨fun c => ?_, ?_, fun u hu quiet => ?_⟩,
    fun s => ⟨fun h => ?_, fun r rest link h => execReplyWrite_cases link h⟩, fun v s h => registers_unclocked v h,
    fun v s root => ?_, fun s root => ?_⟩
  · intro r u halts
    refine ⟨fun off => congrArg Host.Outcome.next (clocked_off off), fun root => ?_⟩
    obtain ⟨halted, bad, fails, reads⟩ := execRingTailWrite_cases (c := c) (tail := tail) (new := new) (err := err) root
    refine ⟨halted, bad, fails, fun h ok quiet => ?_, fun x h ok noErr can others control one pcie ring op => ?_⟩
    · refine (reads h ok ?_).trans (congrArg _ (readRings_stuck quiet))
      exact (congrArg _ (quiet c.val)).trans (Bool.and_false _)
    · intro n
      have read := (reads h ok (by rw [noErr]; rfl)).trans (congrArg Host.Outcome.next
        ((published_read can others control one).trans (published_readPacket one pcie ring op)))
      refine ⟨fun short => ⟨_, read.trans (congrArg _ (if_pos short)), published_halts 2⟩, fun fits room => ?_⟩
      exact read.trans (congrArg _ (if_neg (by rintro (h | h) <;> [exact absurd h (Nat.not_lt.mpr fits); exact absurd h (Nat.not_lt.mpr room)])))
  · refine congrArg Host.Outcome.next ((clocked_on root).trans ?_)
    match c with | 0 => rfl | 1 => rfl | 2 => rfl | 3 => rfl
  · exact congrArg Host.Outcome.next (clocked_on root)
  · refine congrArg Host.Outcome.next ((clocked_on root).trans ?_)
    rw [hu]
    exact readRings_stuck (hu ▸ quiet)
  · refine congrArg Host.Outcome.next ?_
    rcases h with h | h
    · exact if_neg (by rw [h]; exact Bool.false_ne_true)
    · have none : writeReply s = s := by unfold writeReply; rw [h]
      rw [none]
      exact ite_self _
  · obtain ⟨l, sent⟩ := writeIrqMask_sends (s := s) v
    refine ⟨congrArg Host.Outcome.next (clocked_on root), ⟨_, l, congrArg Host.Outcome.next (clocked_on root), sent⟩,
      fun h => congrArg Host.Outcome.next ((clocked_on root).trans (if_neg (by rw [h]; exact Bool.false_ne_true))),
      fun h => ⟨_, congrArg Host.Outcome.next ((clocked_on root).trans (if_pos h)), captureHang_snap⟩,
      fun h => congrArg Host.Outcome.next ((clocked_on root).trans (if_neg (by rw [h]; exact Bool.false_ne_true))),
      fun h => ⟨_, congrArg Host.Outcome.next (clocked_on root), writeTimeSnap_captures h⟩⟩
  · refine ⟨congrArg Host.Outcome.next (clocked_on root), congrArg Host.Outcome.next (clocked_on root),
      congrArg Host.Outcome.next (clocked_on root), fun v h => ?_⟩
    refine congrArg Host.Outcome.next ?_
    rw [clocked_on root, clocked_on root]
    exact if_neg h

end Sys2Proof.Machine
end

section
namespace Sys2Proof.Machine

/-! ## A bus write into a cell that a packetizer leg is writing (R24, R25, R221) -/

/-- The one-byte frame that a leg writes into cell 0. -/
def writtenFrame : QFrame := { bytes := 1, cells := 1, data := [0], at' := [0], launch := 0 }

/-- Transmit flow 0 while its leg writes that frame. -/
def writingFlow : TxFlow :=
  { kind := .video, slot := 0, chBase := 0, chCount := 0, format := 0, family := 0, profile := 0, block := false
    payload := 0, ptime := 0, l16 := false, ancPackets := 0
    legA := { queue := 0, template := [], writing := some writtenFrame }, legB := none }

/-- A device whose only frame is the one that flow 0 writes. -/
def writingState : State := { chip := { rootLocked := true }, pkt := { txFlows := [(0, writingFlow)] } }

/-- The bytes of the frames in writing. -/
def bytesInWriting (s : State) : List Bytes :=
  s.pkt.txFlows.filterMap (fun e => e.2.legA.writing.map (fun f => f.data))

/-- The address of the first cell of the pool, and the Curator's data master. -/
def poolStart : BitVec 40 := 0x82000000
def curatorData : Fin 6 := 1

/-- The store of the word 1 at that cell. -/
def pokedState : State := park curatorData.val .shared (storeMemory (busAddr poolStart.toNat) 4 1 writingState)

theorem poolWrite_admitted : busRefusal writingState curatorData.val poolStart.toNat 4 true = none
    ∧ busTarget writingState poolStart.toNat = .shared := by decide

theorem busWrite_shared {m w : Nat} {a : BitVec 40} {v : Word} {s : State} (h : busRefusal s m a.toNat w true = none)
    (ht : busTarget s a.toNat = .shared) :
    busWrite m a w v s = some (true, park m .shared (storeMemory (busAddr a.toNat) w v s)) := by
  unfold busWrite
  simp only [h, ht]

theorem execRegisterWrite_bus {m : Fin 6} {w : Nat} {a : BitVec 40} {v : Word} {s : State} {r : Bool × State}
    (root : s.chip.rootLocked = true) (hm : m.val ≠ 2) (h : busWrite m.val a w v s = some r) :
    execRegisterWrite m (.bus a) w v s = .next r.2 := by
  unfold execRegisterWrite
  simp only [root, Bool.true_eq_false, if_false, hm, h]

theorem poolWrite_exec : exec (.registerWrite curatorData (.bus poolStart) 4 1) writingState = .next pokedState := by
  obtain ⟨admitted, target⟩ := poolWrite_admitted
  exact execRegisterWrite_bus (m := curatorData) rfl (by decide) (busWrite_shared admitted target)

/-- The write changes the frame in writing, which stands in the transmit flow. -/
theorem poolWrite_changes : bytesInWriting pokedState = [[1]] ∧ bytesInWriting writingState = [[0]] := by decide

/-- Refutes O55: a write of a cell of the egress pool changes the frame that holds the cell also while a packetizer
leg writes it, so it changes a transmit flow; the statement lets only queues and ports change. The counterexample is
the Curator's write of the word 1 at the first cell of the pool while flow 0 writes a frame into that cell. -/
theorem not_busWritesReachTheirTarget : ¬ Obligations.BusWritesReachTheirTarget := by
  unfold Obligations.BusWritesReachTheirTarget
  rintro ⟨writes, -⟩
  obtain ⟨-, locked⟩ := writes curatorData (.bus poolStart) 4 1 writingState
  obtain ⟨-, -, -, -, -, -, -, memory, -⟩ := locked rfl
  obtain ⟨admitted, target⟩ := poolWrite_admitted
  obtain ⟨u, run, ⟨-, -, -, -, kept, -⟩, -⟩ := memory poolStart rfl (by decide) admitted (by rw [target]; decide)
  obtain rfl : pokedState = u := Host.Outcome.next.inj (poolWrite_exec.symm.trans run)
  have flows : pokedState.pkt.txFlows = writingState.pkt.txFlows := congrArg (fun x => x.txFlows) kept
  have same : bytesInWriting pokedState = bytesInWriting writingState := by unfold bytesInWriting; rw [flows]
  obtain ⟨after, before⟩ := poolWrite_changes
  rw [after, before] at same
  exact absurd same (by decide)

end Sys2Proof.Machine
end

section
namespace Sys2Proof.Machine

/-! ## A queue that freezes while its port's record stands twice (R219) -/

/-- A frame of one byte in cell 7. -/
def frameInSeven : QFrame := { bytes := 1, cells := 1, data := [0], at' := [7], launch := 0 }

/-- Cell 7 of queue 5 is bad. The port table holds port 0 twice: the record in front sends a frame of queue 5, the one
behind it a frame of queue 0. -/
def doubledPort : State :=
  { chip := { rootLocked := true }
    pkt := { ports := [(0, { sending := some (5, frameInSeven) }), (0, { sending := some (0, frameInSeven) })]
             pool := { badCells := [(5, 7)] } } }

/-- An uncorrected error of the queue link RAM, in the descriptor of queue 0. -/
def linkError : EccSite :=
  { source := 0x33E0, queue := 0, cell := none, tdm := none, flip := none, corrected := false }

/-- The device after the error. -/
def frozenState : State := eccError linkError doubledPort

/-- The frame that is cut is that of queue 5, which is not frozen, so its bad cell is retired. -/
theorem frozenState_badCells : frozenState.pkt.pool.badCells = [] := by decide

/-- Refutes O50: the freeze finds the port that sends for the queue in the whole port table and cuts what the record in
front of it sends. Where the table holds that port twice, the cut frame is one of another queue, whose bad cells are
then retired, while the statement keeps every bad cell. The counterexample is a table that holds port 0 twice. -/
theorem not_monitorsRaiseTheirSources : ¬ Obligations.MonitorsRaiseTheirSources := by
  unfold Obligations.MonitorsRaiseTheirSources
  rintro ⟨-, -, errors, -⟩
  obtain ⟨-, -, -, -, -, -, -, -, freezes⟩ := errors linkError doubledPort rfl
  obtain ⟨t, run, -, bad, -⟩ := freezes (by decide) rfl
  have after : Host.Outcome.next frozenState = (.next t : Host.Outcome State Fault Refusal) := run
  obtain rfl := Host.Outcome.next.inj after
  rw [frozenState_badCells] at bad
  exact absurd bad (by decide)

end Sys2Proof.Machine
end

section
namespace Sys2Proof.Machine

/-! ## Status reads (R72, R386) -/

variable {s : State}

/-! ### Records within a budget -/

theorem recordsFrom_length_le (f : Nat → Bytes) (first n room : Nat) : (recordsFrom f first n room).length ≤ n := by
  induction n generalizing first room with
  | zero => exact Nat.le_refl 0
  | succ n ih =>
    unfold recordsFrom
    dsimp only
    split
    · exact Nat.succ_le_succ (ih _ _)
    · exact Nat.zero_le _

theorem recordsFrom_bytes_le (f : Nat → Bytes) (first n room : Nat) :
    (recordsFrom f first n room).flatten.length ≤ room := by
  induction n generalizing first room with
  | zero => exact Nat.zero_le room
  | succ n ih =>
    unfold recordsFrom
    dsimp only
    split
    · rename_i fits
      have rest := ih (first + 1) (room - (record first (f first)).length)
      rw [List.flatten_cons, List.length_append]
      omega
    · exact Nat.zero_le _

/-! ### What CLEAR leaves -/

/-- A status space whose CLEAR leaves the command channel. -/
def StatusSpace.KeepsCmd (sp : StatusSpace) : Prop :=
  ∀ u, (sp.clearDevice u).cmd = u.cmd ∧ ∀ k, (sp.clear k u).cmd = u.cmd

/-- The state that a status read leaves has the command channel that it found. -/
theorem effectStatus_cmd {space : Nat → Option StatusSpace} (h : ∀ g sp, space g = some sp → sp.KeepsCmd)
    (p : Packet) : (effectStatus space p s).1.cmd = s.cmd := by
  unfold effectStatus
  split
  · rfl
  · rename_i sp found
    have keeps := h _ sp found
    dsimp only
    split
    · exact (foldl_keeps (g := fun u : State => u.cmd) (fun u k => (keeps u).2 _) _).trans (keeps s).1
    · rfl

theorem onlySpace_keepsCmd {sp : StatusSpace} (h : sp.KeepsCmd) (g : Nat) (x : StatusSpace)
    (found : onlySpace sp g = some x) : x.KeepsCmd := by
  unfold onlySpace at found
  split at found
  · exact Option.some.inj found ▸ h
  · cases found

theorem clearTdm_cmd (n : Nat) : (clearTdm n s).cmd = s.cmd := by unfold clearTdm; split <;> rfl
theorem clearFabric_cmd (n : Nat) : (clearFabric n s).cmd = s.cmd := by unfold clearFabric; split <;> rfl
theorem clearHead_cmd (n : Nat) : (clearHead n s).cmd = s.cmd := by
  have video : ∀ u l, (clearVideoLayer n l u).cmd = u.cmd := fun _ _ => rfl
  have graphic : ∀ u k, (clearGraphicLayer n (12 + k) u).cmd = u.cmd := fun _ _ => rfl
  unfold clearHead
  exact (foldl_keeps (g := fun u => u.cmd) graphic _).trans (foldl_keeps (g := fun u => u.cmd) video _)
theorem clearFlow_cmd (n : Nat) : (clearFlow n s).cmd = s.cmd := by
  unfold clearFlow
  dsimp only
  (repeat' split) <;> rfl

theorem counterSpace_keepsCmd (g : Nat) (sp : StatusSpace) (found : counterSpace g = some sp) : sp.KeepsCmd := by
  unfold counterSpace at found
  split at found <;> cases found
  · exact fun _ => ⟨rfl, fun _ => rfl⟩
  · exact fun _ => ⟨rfl, fun _ => rfl⟩
  · exact fun _ => ⟨rfl, fun _ => rfl⟩
  · exact fun _ => ⟨rfl, fun _ => rfl⟩
  · exact fun _ => ⟨rfl, clearFlow_cmd⟩

/-! ### The reads -/

/-- The commands that read status. -/
def statusReads (p : Packet) : List (Instr × OpSpec) :=
  [(.laneStatus p, specLaneStatus), (.fabricStatus p, specFabricStatus), (.sdiStatus p, specSdiStatus),
    (.macCounters p, specMacCounters), (.timeRead p, specTimeRead), (.refStatus p, specRefStatus),
    (.audioStatus p, specAudioStatus), (.headStatus p, specHeadStatus), (.engineStatus p, specEngineStatus),
    (.twinStatus p, specTwinStatus), (.countersRead p, specCountersRead)]

/-- Each of them is run for the host over spaces whose CLEAR leaves the command channel. -/
theorem statusReads_known {i : Instr} {o : OpSpec} {p : Packet} (h : (i, o) ∈ statusReads p) :
    exec i s = .next (runHost o p s)
      ∧ ∃ code space, o = specStatus code space ∧ ∀ g sp, space g = some sp → sp.KeepsCmd := by
  simp only [statusReads, List.mem_cons, Prod.mk.injEq, List.not_mem_nil, or_false] at h
  rcases h with ⟨rfl, rfl⟩ | ⟨rfl, rfl⟩ | ⟨rfl, rfl⟩ | ⟨rfl, rfl⟩ | ⟨rfl, rfl⟩ | ⟨rfl, rfl⟩ | ⟨rfl, rfl⟩ | ⟨rfl, rfl⟩
    | ⟨rfl, rfl⟩ | ⟨rfl, rfl⟩ | ⟨rfl, rfl⟩
  · exact ⟨rfl, _, _, rfl, onlySpace_keepsCmd fun _ => ⟨rfl, fun _ => rfl⟩⟩
  · exact ⟨rfl, _, _, rfl, onlySpace_keepsCmd fun _ => ⟨rfl, clearFabric_cmd⟩⟩
  · exact ⟨rfl, _, _, rfl, onlySpace_keepsCmd fun _ => ⟨rfl, fun _ => rfl⟩⟩
  · exact ⟨rfl, _, _, rfl, onlySpace_keepsCmd fun _ => ⟨rfl, fun _ => rfl⟩⟩
  · exact ⟨rfl, _, _, rfl, onlySpace_keepsCmd fun _ => ⟨rfl, fun _ => rfl⟩⟩
  · exact ⟨rfl, _, _, rfl, onlySpace_keepsCmd fun _ => ⟨rfl, fun _ => rfl⟩⟩
  · exact ⟨rfl, _, _, rfl, onlySpace_keepsCmd fun _ => ⟨rfl, clearTdm_cmd⟩⟩
  · exact ⟨rfl, _, _, rfl, onlySpace_keepsCmd fun _ => ⟨rfl, clearHead_cmd⟩⟩
  · exact ⟨rfl, _, _, rfl, onlySpace_keepsCmd fun _ => ⟨rfl, fun _ => rfl⟩⟩
  · exact ⟨rfl, _, _, rfl, onlySpace_keepsCmd fun _ => ⟨rfl, fun _ => rfl⟩⟩
  · exact ⟨rfl, _, _, rfl, counterSpace_keepsCmd⟩

/-- A read of a space that exists. -/
theorem effectStatus_found {space : Nat → Option StatusSpace} {sp : StatusSpace} {p : Packet}
    (h : space (u8 p 5) = some sp) : effectStatus space p s = effectStatus (fun _ => some sp) p s := by
  unfold effectStatus
  rw [h]

/-- Reads that are one operation do the same with the state, whatever spaces describe them. -/
theorem effectStatus_state {c d : BitVec 16} {space other : Nat → Option StatusSpace}
    (h : specStatus c space = specStatus d other) (p : Packet) :
    (effectStatus space p s).1 = (effectStatus other p s).1 :=
  congrArg (fun o : OpSpec => (o.effect (replyHeader c p) p s).1) h

/-- Settles O37: the records by the budget that cuts them off, the state by what each CLEAR leaves. -/
theorem statusReadsReturnRecords : Obligations.StatusReadsReturnRecords := by
  unfold Obligations.StatusReadsReturnRecords
  intro i o code space sp p s listed spec runs found u head rs cleared
  have within : rs.flatten.length ≤ 32768 - head.length := recordsFrom_bytes_le _ _ _ _
  refine ⟨?_, by omega, recordsFrom_length_le _ _ _ _⟩
  obtain ⟨run, d, other, known, keeps⟩ := statusReads_known (s := s) listed
  have effect : effectStatus space p u = (if u8 p 4 = 1 then cleared else u, done (head ++ rs.flatten) rs.length) :=
    effectStatus_found found
  have taken : o.effect (replyHeader o.code p) p u
      = (if u8 p 4 = 1 then cleared else u, some (done (head ++ rs.flatten) rs.length)) := by
    rw [spec]
    show ((effectStatus space p u).1, some (effectStatus space p u).2) = _
    rw [effect]
  by_cases clear : u8 p 4 = 1
  · rw [if_pos clear] at effect taken ⊢
    have cmd : cleared.cmd = u.cmd := by
      rw [show cleared = (effectStatus space p u).1 by rw [effect], effectStatus_state (spec.symm.trans known),
        effectStatus_cmd keeps]
    exact runs_effects run runs taken (by rw [cmd])
      fun c => (show ringOf cleared c = ringOf u c by simp only [ringOf, cmd]).trans (taken_ringOf o p c)
  · rw [if_neg clear] at taken ⊢
    exact effects_kept run runs taken rfl (taken_settled s o p) (taken_beyondCmd s o p) fun _ => rfl

end Sys2Proof.Machine
end

section
namespace Sys2Proof.Machine

/-! ## Patterns and equalizers of a lane (R66 to R70, R392) -/

variable {s : State} {l : Nat}

/-! ### Commands whose effect leaves the command channel -/

/-- An effect that leaves the command channel as it finds it. -/
theorem effects_atOnce {o : OpSpec} {p : Packet} {i : Instr} {e : State} {a : Answer}
    (run : exec i s = .next (runHost o p s)) (h : Runs o p s)
    (effect : o.effect (replyHeader o.code p) p (taken o p s) = ({ e with cmd := (taken o p s).cmd }, some a))
    (kept : e.cmd = s.cmd) : Effects o p s i e a := by
  have same : settled { e with cmd := (taken o p s).cmd } = settled { e with cmd := s.cmd } :=
    congrArg (fun c => { settled e with cmd := c }) (congrArg State.cmd (taken_settled s o p))
  refine effects_kept run h effect rfl (same.trans ?_) rfl fun c => ?_
  · rw [← kept]
  · simp only [ringOf, kept]

/-! ### The taps of a receiver -/

/-- The taps that n draws give, the first at number k. -/
def tapsFrom (k n : Nat) : List Int := (List.range n).map fun i => (Config.free 8 (k + i)).toInt

theorem tapsFrom_succ (k n : Nat) : tapsFrom k (n + 1) = (Config.free 8 k).toInt :: tapsFrom (k + 1) n := by
  simp only [tapsFrom, List.range_succ_eq_map, List.map_cons, List.map_map, Nat.add_zero, Function.comp_def,
    Nat.succ_eq_add_one, Nat.add_assoc, Nat.add_comm 1]

theorem drawTaps_eq (n : Nat) : drawTaps n s = (tapsFrom s.draws n, { s with draws := s.draws + n }) := by
  induction n generalizing s with
  | zero => rfl
  | succ n ih =>
    unfold drawTaps draw
    simp only [ih, tapsFrom_succ, Nat.add_assoc, Nat.add_comm 1]

/-- Lane l with the taps that it has found standing from now on. -/
def frozenLane (s : State) (l : Nat) : Lane :=
  { laneOf s l with adaptFrozen := true, dfe := tapsFrom s.draws (dfeTaps s l) }

theorem freezeTaps_adapting (h : (laneOf s l).adaptFrozen = false) :
    freezeTaps l s = putLane { s with draws := s.draws + dfeTaps s l } l (frozenLane s l) := by
  unfold freezeTaps
  simp only [h, Bool.false_eq_true, if_false, drawTaps_eq]
  rfl

theorem freezeTaps_frozen (h : (laneOf s l).adaptFrozen = true) : freezeTaps l s = s := if_pos h

theorem tapsFrom_length (k n : Nat) : (tapsFrom k n).length = n := by
  simp only [tapsFrom, List.length_map, List.length_range]

/-! ### LANE_PRBS and LANE_EQ -/

theorem lanePrbs_effects {p : Packet} (h : Runs specLanePrbs p s) :
    Effects specLanePrbs p s (.lanePrbs p) (putLane s (u16 p 0) { laneOf s (u16 p 0) with
      prbs := { tx := u8 p 2 % 8, txInvert := decide (128 ≤ u8 p 2), rx := u8 p 3 % 8
                rxInvert := decide (128 ≤ u8 p 3), insert := u8 p 4 } }) (done []) := by
  refine effects_atOnce rfl h ?_ rfl
  rw [taken_eq]
  rfl

/-- The state with the overrides that a LANE_EQ sets. -/
def overridden (p : Packet) (s : State) : State :=
  { s with set := { s.set with eq := tset (fun _ => {}) s.set.eq (u16 p 0) (newEq s p) } }

theorem eqOf_overridden (p : Packet) : eqOf (overridden p s) (u16 p 0) = newEq s p := tget_tset_same _ _ _ _

theorem laneEq_effects {p : Packet} {e : State} (h : Runs specLaneEq p s) (kept : e.cmd = s.cmd)
    (tapped : ∀ c, (effectLaneEq p { s with cmd := c }).1 = { e with cmd := c }) :
    Effects specLaneEq p s (.laneEq p) e (done []) := by
  refine effects_atOnce rfl h ?_ kept
  rw [← tapped, ← taken_eq]
  rfl

theorem effectLaneEq_kept {p : Packet} (h : adaptMode (overridden p s) (u16 p 0) = 1
      ∨ (adaptMode (overridden p s) (u16 p 0) = 2 ∧ (laneOf s (u16 p 0)).adaptFrozen = true)) :
    (effectLaneEq p s).1 = overridden p s := by
  unfold overridden at h ⊢
  unfold effectLaneEq
  rcases h with h | ⟨h, frozen⟩ <;> simp only [h]
  exact freezeTaps_frozen frozen

theorem effectLaneEq_freezes {p : Packet} (h : adaptMode (overridden p s) (u16 p 0) = 2)
    (adapts : (laneOf s (u16 p 0)).adaptFrozen = false) :
    (effectLaneEq p s).1 = putLane { overridden p s with draws := s.draws + dfeTaps s (u16 p 0) } (u16 p 0)
      (frozenLane s (u16 p 0)) := by
  unfold overridden at h
  unfold effectLaneEq
  simp only [h]
  exact freezeTaps_adapting (s := overridden p s) adapts

theorem effectLaneEq_restarts {p : Packet} (h1 : adaptMode (overridden p s) (u16 p 0) ≠ 1)
    (h2 : adaptMode (overridden p s) (u16 p 0) ≠ 2) : (effectLaneEq p s).1 = putLane (overridden p s) (u16 p 0)
      { laneOf s (u16 p 0) with adaptFrozen := false, dfe := [] } := by
  unfold effectLaneEq
  dsimp only
  split
  · contradiction
  · contradiction
  · exact if_neg h2

/-- Settles O22: the commands by what their effect writes, the checker by the state of its lane, the taps by what
freezing draws. -/
theorem lanePatternsAndEqualizersApply : Obligations.LanePatternsAndEqualizersApply := by
  unfold Obligations.LanePatternsAndEqualizersApply
  refine ⟨fun p s h => lanePrbs_effects h, fun p s h => ⟨eqOf_overridden p, fun kept => ?_, fun frozen adapts => ?_,
    fun h1 h2 => ?_⟩, fun l bits s test => ?_, fun l bits s check runs => ?_, fun l bits s other idle => ?_,
    fun l s => ⟨fun locked once adapts => ?_, fun h => ?_⟩⟩
  · exact laneEq_effects (e := overridden p s) h rfl fun c => effectLaneEq_kept (s := { s with cmd := c }) kept
  · exact ⟨tapsFrom s.draws (dfeTaps s (u16 p 0)), s.draws + dfeTaps s (u16 p 0), tapsFrom_length _ _,
      laneEq_effects h rfl fun c => effectLaneEq_freezes (s := { s with cmd := c }) frozen adapts⟩
  · exact laneEq_effects h rfl fun c => effectLaneEq_restarts (s := { s with cmd := c }) h1 h2
  · intro v seen r e
    show execPrbsCheckerRx l bits s = _
    unfold execPrbsCheckerRx
    dsimp only
    split
    · rw [List.length_map]
    · rename_i check
      cases test.symm.trans check
    · contradiction
  · show execPrbsCheckerRx l bits s = _
    unfold execPrbsCheckerRx
    simp only [check, runs, Bool.false_eq_true, if_false]
  · show execPrbsCheckerRx l bits s = _
    unfold execPrbsCheckerRx
    dsimp only
    split
    · contradiction
    · rename_i check
      rw [if_pos (idle.resolve_left (not_not_intro check))]
    · rfl
  · refine ⟨tapsFrom s.draws (dfeTaps s l.val), s.draws + dfeTaps s l.val, tapsFrom_length _ _, ?_⟩
    exact congrArg Host.Outcome.next ((if_pos ⟨locked, once⟩).trans (freezeTaps_adapting adapts))
  · show Host.Outcome.next (if _ then _ else _) = _
    split
    · rename_i on
      obtain ⟨locked, once⟩ := on
      rw [freezeTaps_frozen]
      rcases h with h | h | h
      · rw [h] at locked; cases locked
      · contradiction
      · exact h
    · rfl

end Sys2Proof.Machine
end

section
namespace Sys2Proof.Machine
open Relation

/-! ## What the loss of a lane leaves standing (R74, R81, R92) -/

variable {T : List Area} {α : Type} {s t : State}

/-- The destinations, and of each link its cells in flight and the rewinds in a row. -/
def steady (s : State) : Tab Dest × Tab Dest × Tab Dest × (Nat → Nat × Nat) :=
  (s.mtx.video, s.mtx.anc, s.mtx.audio, fun f => ((linkOf s f).inFlight, (linkOf s f).rewinds))

theorem destOf_of_steady (h : steady t = steady s) (m : Matrix) (d : Nat) : destOf t m d = destOf s m d := by
  simp only [steady, Prod.mk.injEq] at h
  obtain ⟨video, anc, audio, -⟩ := h
  cases m <;> simp only [destOf, video, anc, audio]

theorem flight_of_steady (h : steady t = steady s) (f : Nat) :
    (linkOf t f).inFlight = (linkOf s f).inFlight ∧ (linkOf t f).rewinds = (linkOf s f).rewinds := by
  simp only [steady, Prod.mk.injEq] at h
  exact Prod.mk.inj (congrFun h.2.2.2 f)

theorem steady_of_parts (m : t.mtx = s.mtx) (l : t.fab.links = s.fab.links) : steady t = steady s := by
  simp only [steady, linkOf, m, l]

/-- Areas beside the matrices and the links. -/
theorem Moves.steady (g : Moves T s t) (hm : .mtx ∉ T) (hk : .link ∉ T) (hf : .fab ∉ T) : steady t = steady s := by
  have b := g.beyond
  have m := congrArg (fun u => u.mtx) b
  have l := congrArg (fun u => u.fab.links) b
  simp only [Machine.beyond, unraised, hm, hk, hf, if_false] at m l
  exact steady_of_parts m l

variable {a : Tab Dest × Tab Dest × Tab Dest × (Nat → Nat × Nat)}

theorem ite_steady {c : Prop} [Decidable c] (h : steady s = a) (g : steady t = a) :
    steady (if c then s else t) = a := by split <;> assumption

theorem foldl_steady {f : State → α → State} {l : List α} (hf : ∀ u x, steady u = a → steady (f u x) = a)
    (h : steady s = a) : steady (l.foldl f s) = a :=
  List.foldlRecOn (motive := fun u => steady u = a) l f h fun u hu x _ => hf u x hu

theorem raiseCore_steady {id : Nat} (h : steady s = a) : steady (raiseCore id s) = a :=
  (raiseCore_keeps steady (fun _ => rfl) id).trans h

/-! ### Sources and destinations -/

theorem blackRest_steady {d : Nat} (h : steady s = a) : steady (blackRest d s) = a := by
  have push : ∀ u l, steady u = a → steady (pushLine d l u) = a := fun u l hu => by
    unfold pushLine
    split
    exact ite_steady hu hu
  unfold blackRest
  exact ite_steady h (foldl_steady push h)

theorem countJudgment_steady {d : Nat} (h : steady s = a) : steady (countJudgment d s) = a := by
  unfold countJudgment
  extract_lets r
  split
  · exact h
  · extract_lets mism ref s1 again src s2
    have h2 : steady s2 = a := ite_steady h h
    exact ite_steady (raiseCore_steady h2) h2

theorem enterFallback_steady {d : Nat} (h : steady s = a) : steady (enterFallback d s) = a := by
  unfold enterFallback
  have h1 := blackRest_steady (s := putDestRun s d { destRun s d with inFallback := true }) (d := d) h
  exact ite_steady h (ite_steady (raiseCore_steady h1) h1)

theorem judgeDest_steady {d : Nat} (h : steady s = a) : steady (judgeDest d s) = a :=
  ite_steady (enterFallback_steady (countJudgment_steady h)) (countJudgment_steady h)

theorem judgeAll_steady {n : Nat} (h : steady s = a) : steady (judgeAll n s) = a :=
  foldl_steady (fun _ _ => judgeDest_steady) h

theorem loseSource_steady {n : Nat} (h : steady s = a) : steady (loseSource n s) = a := judgeAll_steady h
theorem loseEssence_steady {n : Nat} (h : steady s = a) : steady (loseEssence n s) = a := loseSource_steady h
theorem loseContainer_steady {n : Nat} (h : steady s = a) : steady (loseContainer n s) = a := loseSource_steady h
theorem putTx_steady {d : Nat} {v : TxContainer} (h : steady s = a) : steady (putTx s d v) = a := h
theorem loseUncarried_steady {f : Nat} (h : steady s = a) : steady (loseUncarried f s) = a :=
  foldl_steady (fun _ _ hu => putTx_steady (loseContainer_steady hu)) h

/-! ### SDI -/

theorem isolateSdiIn_steady {e : Nat} (h : steady s = a) : steady (isolateSdiIn e s) = a := by
  unfold isolateSdiIn
  extract_lets i freeze left next src s1 s2
  have h2 : steady s2 = a := ite_steady h h
  exact ite_steady h2 (loseEssence_steady h2)

theorem raiseSdi_steady {id : Nat} (h : steady s = a) : steady (raiseSdi id s) = a :=
  ite_steady (ite_steady (isolateSdiIn_steady (raiseCore_steady h)) (judgeDest_steady (raiseCore_steady h)))
    (raiseCore_steady h)

theorem dropSdiIn_steady {e why : Nat} {next : SdiState} (h : steady s = a) : steady (dropSdiIn e next why s) = a := by
  unfold dropSdiIn
  extract_lets i left linkGone freeze src s1 s2
  have h2 : steady s2 = a := ite_steady h (loseEssence_steady h)
  exact ite_steady (raiseSdi_steady h2) (ite_steady (raiseSdi_steady h2) h2)

theorem sdiSignalGone_steady {e why : Nat} (h : steady s = a) : steady (sdiSignalGone e why s) = a :=
  ite_steady (ite_steady (dropSdiIn_steady h) h) (dropSdiIn_steady h)

/-! ### Lanes -/

theorem putLink_steady {f : Nat} {v : Link} (hi : v.inFlight = (linkOf s f).inFlight)
    (hr : v.rewinds = (linkOf s f).rewinds) (h : steady s = a) : steady (putLink s f v) = a := by
  rw [← h]
  have same : ∀ k, ((linkOf (putLink s f v) k).inFlight, (linkOf (putLink s f v) k).rewinds)
      = ((linkOf s k).inFlight, (linkOf s k).rewinds) := fun k => by
    rw [linkOf_putLink]
    split
    · rename_i e; rw [← e, hi, hr]
    · rfl
  exact congrArg (fun x => (s.mtx.video, s.mtx.anc, s.mtx.audio, x)) (funext same)

theorem moveTwin_steady {f g : Nat} (h : steady s = a) : steady (moveTwin f g s) = a := by
  unfold moveTwin
  extract_lets l m s1
  have put : steady s1 = steady s := putLink_steady rfl rfl rfl
  obtain ⟨flying, tried⟩ := flight_of_steady put f
  exact putLink_steady flying.symm tried.symm (put.trans h)

theorem gatherTwin_steady (h : steady s = a) : steady (gatherTwin s) = a := by
  unfold gatherTwin
  split
  · exact h
  · exact ite_steady (foldl_steady (fun _ _ => moveTwin_steady) h) h

theorem laneClockLost_steady {f : Nat} (h : steady s = a) : steady (laneClockLost f s) = a :=
  ((laneClockLost_moves (T := [.fault, .ref]) (by decide) (by decide) .refl).steady
    (by decide) (by decide) (by decide)).trans h

theorem moveReference_steady {k b f other : Nat} (h : steady s = a) : steady (moveReference k b f other s) = a :=
  ((moveReference_moves (T := [.pair]) (by decide) .refl).steady (by decide) (by decide) (by decide)).trans h

theorem clearPair_steady {k : Nat} (h : steady s = a) : steady (clearPair k s) = a := h

theorem leaveLock_steady {f : Nat} {next : LaneState} (h : steady s = a) : steady (leaveLock f next s) = a := by
  unfold leaveLock
  extract_lets was carried src s1 s2 l s3
  have h2 : steady s2 = a := ite_steady (gatherTwin_steady h) h
  have h3 : steady s3 = a := laneClockLost_steady (putLink_steady rfl rfl h2)
  refine ite_steady h ?_
  split
  · exact loseUncarried_steady (putLink_steady rfl rfl h3)
  · exact ite_steady (raiseCore_steady (loseUncarried_steady (moveReference_steady h3)))
      (loseUncarried_steady (clearPair_steady (putLink_steady rfl rfl h3)))

theorem portLinkDown_steady {n : Nat} (h : steady s = a) : steady (portLinkDown n s) = a :=
  ((portLinkDown_moves (T := .fault :: wireAreas) (by decide) (by decide) .refl).steady
    (by decide) (by decide) (by decide)).trans h

theorem stopLane_steady {l : Nat} {next : LaneState} (h : steady s = a) : steady (stopLane l next s) = a := by
  unfold stopLane
  refine ite_steady (ite_steady (leaveLock_steady h) (leaveLock_steady h)) ?_
  extract_lets e mode src s1 s2
  exact ite_steady (sdiSignalGone_steady h) (ite_steady (portLinkDown_steady h) h)

theorem downLane_steady {l : Nat} (h : steady s = a) : steady (downLane l s) = a := ite_steady h (stopLane_steady h)

theorem raiseLane_steady {id : Nat} (h : steady s = a) : steady (raiseLane id s) = a := by
  have raised : steady (raiseCore id s) = a := raiseCore_steady h
  exact ite_steady raised (ite_steady (downLane_steady raised) (ite_steady (downLane_steady raised)
    (foldl_steady (fun _ _ => downLane_steady) raised)))

theorem raiseFabric_steady {id : Nat} (h : steady s = a) : steady (raiseFabric id s) = a :=
  ite_steady (downLane_steady (raiseCore_steady h)) (raiseCore_steady h)

theorem loseLaneLock_steady {l : Nat} (h : steady s = a) : steady (loseLaneLock l s) = a :=
  raiseLane_steady (ite_steady h (stopLane_steady h))

end Sys2Proof.Machine
end

section
namespace Sys2Proof.Machine
open Relation

/-! ## The timers of bring-up, and the lane PLLs (R32, R62, R74, R100, R102) -/

variable {s t : State} {f g l : Nat} {r : LaneRef}

/-! ### The fallback (R62) -/

theorem raiseLane_minor {id : Nat} (h : effectiveSeverity s id < 2) : raiseLane id s = raiseCore id s :=
  if_pos (by simp only [Nat.not_le.mpr h, decide_false, Bool.not_false])

/-- A lane that starts the fallback. -/
def baseLane (v : Lane) : Lane :=
  { v with state := .fbBase, rate := 0, goodRun := 0, attempts := v.attempts + 1, partnerCeiling := none
           partnerPass := false, counters := { v.counters with fallback := sat32 v.counters.fallback 1 } }

/-- The device with its lane f in FB_BASE, before the raise. -/
def based (f : Nat) (s : State) : State :=
  putLink (putLane s f (baseLane (laneOf s f))) f { linkOf s f with txCapability := true }

theorem enterBase_minor (h : effectiveSeverity s (laneFault f) < 2) :
    enterBase f s = raiseCore (laneFault f) (based f s) := raiseLane_minor (s := based f s) h

theorem enterBase_starts (h : effectiveSeverity s (laneFault f) < 2) :
    laneOf (enterBase f s) f = baseLane (laneOf s f) ∧ (linkOf (enterBase f s) f).txCapability = true
      ∧ (faultOf (enterBase f s) (laneFault f)).sticky = true ∧ (∀ k, k ≠ f → laneOf (enterBase f s) k = laneOf s k)
      ∧ settled { enterBase f s with fab := s.fab } = settled s := by
  rw [enterBase_minor h]
  have lanes : ∀ k, laneOf (raiseCore (laneFault f) (based f s)) k = if f = k then baseLane (laneOf s f) else laneOf s k :=
    fun k => (laneOf_of_fab (raiseCore_fab _) k).trans (laneOf_putLane s f k (baseLane (laneOf s f)))
  refine ⟨(lanes f).trans (if_pos rfl), ?_, raiseCore_sticky _ _, fun k hk => (lanes k).trans (if_neg (Ne.symm hk)), ?_⟩
  · rw [linkOf_of_fab (raiseCore_fab _)]
    show (linkOf (putLink _ f _) f).txCapability = true
    rw [linkOf_putLink, if_pos rfl]
  · exact congrArg (fun u => { u with fab := { s.fab with links := [] } })
      (raiseCore_settled (based f s) (laneFault f))

/-! ### Cells in flight (R100, R102) -/

/-- The device with every cell of lane f that is not acknowledged due again. -/
def rewound (f : Nat) (s : State) : State :=
  putLink s f { linkOf s f with
    sendCredits := (linkOf s f).sendCredits + (linkOf s f).inFlight, inFlight := 0
    resend := (linkOf s f).retry.length, rewinds := (linkOf s f).rewinds + 1 }

theorem rewind_few (h : (linkOf s f).rewinds + 1 ≠ 16) : rewind f s = rewound f s := if_neg h

theorem rewind_sixteenth (h : (linkOf s f).rewinds + 1 = 16) :
    (faultOf (rewind f s) (linkFault f)).sticky = true
      ∧ (linkOf (rewind f s) f).inFlight = 0 ∧ (linkOf (rewind f s) f).rewinds = 16 := by
  have raises : rewind f s = raiseFabric (linkFault f) (rewound f s) := if_pos h
  have raised := raiseFabric_follows (List.Subset.refl laneAreas) (id := linkFault f)
    (a := raiseCore (linkFault f) (rewound f s)) .refl
  obtain ⟨flying, tried⟩ := flight_of_steady (raiseFabric_steady (id := linkFault f) (s := rewound f s) rfl) f
  have link : linkOf (rewound f s) f = _ := (linkOf_putLink _ _ _ _).trans (if_pos rfl)
  rw [link] at flying tried
  rw [raises]
  exact ⟨raised.rises.sticky _ (raiseCore_sticky _ _), flying, tried.trans h⟩

/-! ### A lane loses its lock (R74) -/

theorem stopLane_unlocks : laneLocked (stopLane l .hunt s) l = false := by
  have fab : Area.fab ∉ laneAreas := by decide
  have hunts : ∀ v : Lane, v.state = .hunt → laneLocked (putLane s l v) l = false := fun v h => by
    unfold laneLocked
    rw [laneOf_putLane, if_pos rfl, h]
    rfl
  unfold stopLane
  split
  · have left : Moves laneAreas (unlockedLane l .hunt s) (leaveLock l .hunt s) := leaveLock_follows (by decide) .refl
    exact left.unlocked fab l (hunts _ rfl)
  · extract_lets e mode v s1 o s2
    have h1 : laneLocked s1 l = false := hunts _ rfl
    refine Moves.unlocked (T := laneAreas) (s := s1) ?_ fab l h1
    exact ite_moves (sdiSignalGone_moves (by decide) (putSdiOut_moves (by decide) .refl))
      (ite_moves (portLinkDown_moves (by decide) (by decide) .refl) .refl)

/-- The device with the loss of lock of lane l counted. -/
def lossCounted (l : Nat) (s : State) : State := countLane l (fun c => { c with lockLoss := sat32 c.lockLoss 1 }) s

/-- The device with what lane l carries stopped, before the raise. -/
def lossStopped (l : Nat) (s : State) : State := if (laneOf s l).state = .down then s else stopLane l .hunt s

theorem loseLaneLock_eq : loseLaneLock l s = raiseLane (laneFault l) (lossStopped l (lossCounted l s)) := rfl

theorem lossStopped_unlocks : laneLocked (lossStopped l s) l = false := by
  unfold lossStopped
  split
  · rename_i down
    unfold laneLocked
    rw [down]
    rfl
  · exact stopLane_unlocks

theorem loseLaneLock_moves : Moves laneAreas (lossCounted l s) (loseLaneLock l s) :=
  raiseLane_moves (List.Subset.refl laneAreas)
    (ite_moves .refl (stopLane_moves (List.Subset.refl laneAreas) (by decide) .refl))

theorem loseLaneLock_unlocks : laneLocked (loseLaneLock l s) l = false := by
  have raised : Moves laneAreas (lossStopped l (lossCounted l s)) (loseLaneLock l s) :=
    raiseLane_moves (List.Subset.refl laneAreas) .refl
  exact raised.unlocked (by decide) l lossStopped_unlocks

theorem loseLaneLock_unlocked {k : Nat} (h : laneLocked s k = false) : laneLocked (loseLaneLock l s) k = false :=
  loseLaneLock_moves.unlocked (by decide) k ((laneLocked_countLane _ k).trans h)

theorem loseLaneLock_rises : Rises s (loseLaneLock l s) := by
  have counted : Rises s (lossCounted l s) := rises_of_flt rfl fun _ h => h
  exact counted.trans loseLaneLock_moves.rises

theorem Moves.plls {T : List Area} (h : Moves T s t) (hT : .fab ∉ T) : t.fab.plls = s.fab.plls := by
  have b := congrArg (fun u => u.fab.plls) h.beyond
  simpa only [Machine.beyond, unraised, hT, if_false] using b

theorem loseLaneLock_plls : (loseLaneLock l s).fab.plls = s.fab.plls :=
  Moves.plls (s := lossCounted l s) loseLaneLock_moves (by decide)

/-! ### Lanes lose their lock one after the other -/

def loseLocks (ls : List Nat) (s : State) : State := ls.foldl (fun s l => loseLaneLock l s) s

theorem loseLocks_unlocks {ls : List Nat} {k : Nat} (h : k ∈ ls ∨ laneLocked s k = false) :
    laneLocked (loseLocks ls s) k = false := by
  induction ls generalizing s with
  | nil => exact h.resolve_left List.not_mem_nil
  | cons l ls ih =>
    refine ih ?_
    rcases h with h | h
    · rcases List.mem_cons.mp h with rfl | h
      · exact .inr loseLaneLock_unlocks
      · exact .inl h
    · exact .inr (loseLaneLock_unlocked h)

theorem loseLocks_rises (ls : List Nat) : Rises s (loseLocks ls s) := by
  induction ls generalizing s with
  | nil => exact rises_refl
  | cons l ls ih => exact loseLaneLock_rises.trans ih

theorem loseLocks_plls (ls : List Nat) : (loseLocks ls s).fab.plls = s.fab.plls :=
  foldl_keeps (g := fun u => u.fab.plls) (fun _ _ => loseLaneLock_plls) ls

/-! ### The lane PLLs -/

theorem pllUp_of_plls (h : t.fab.plls = s.fab.plls) : pllUp t g r = pllUp s g r := by
  simp only [pllUp, pllsOf, h]

theorem pllUp_setPll (up : Bool) (k : Nat) (q : LaneRef) :
    pllUp (setPll g r up s) k q = if k = g ∧ q = r then up else pllUp s k q := by
  by_cases same : g = k
  · subst same
    cases r <;> cases q <;> simp [pllUp, setPll]
  · have other : ¬ (k = g ∧ q = r) := fun e => same e.1.symm
    rw [if_neg other]
    cases q <;> simp only [pllUp, setPll, pllsOf_putPlls, if_neg same]

/-- The lanes of a gallery that are LOCKED on a reference. -/
def lockedOn (g : Nat) (r : LaneRef) (s : State) : List Nat :=
  (galleryLanes g).filter fun l => laneLocked s l && usesRefNow s r l

/-- The device with a PLL down and its source raised. -/
def pllLost (g : Nat) (r : LaneRef) (s : State) : State := raiseLane (faultId 0x01 g (pllIndex r)) (setPll g r false s)

theorem lanePllLoss_loses {g : Fin 16} (root : s.chip.rootLocked = true) (up : pllUp s g.val r = true) :
    exec (.lanePllLoss g r) s = .next (loseLocks (lockedOn g.val r s) (pllLost g.val r s)) :=
  congrArg Host.Outcome.next (if_pos (by rw [root, up]; rfl))

theorem pllLost_moves : Moves laneAreas (setPll g r false s) (pllLost g r s) :=
  raiseLane_moves (List.Subset.refl laneAreas) .refl

/-- No lane that used the reference stays LOCKED: those that were lose their lock, the others do not enter it. -/
theorem pllLoss_unlocks (h : l ∈ galleryLanes g) (uses : usesRefNow s r l = true) :
    laneLocked (loseLocks (lockedOn g r s) (pllLost g r s)) l = false := by
  refine loseLocks_unlocks ?_
  by_cases locked : laneLocked s l = true
  · exact .inl (List.mem_filter.mpr ⟨h, by rw [locked, uses]; rfl⟩)
  · exact .inr (pllLost_moves.unlocked (by decide) l (Bool.not_eq_true _ ▸ locked))

theorem pllLoss_sticky (ls : List Nat) :
    (faultOf (loseLocks ls (pllLost g r s)) (faultId 0x01 g (pllIndex r))).sticky = true := by
  have raised : Moves laneAreas (raiseCore (faultId 0x01 g (pllIndex r)) (setPll g r false s)) (pllLost g r s) :=
    raiseLane_follows (List.Subset.refl laneAreas) .refl
  exact (loseLocks_rises ls).sticky _ (raised.rises.sticky _ (raiseCore_sticky _ _))

theorem pllLoss_down (ls : List Nat) : pllUp (loseLocks ls (pllLost g r s)) g r = false := by
  rw [pllUp_of_plls ((loseLocks_plls ls).trans (pllLost_moves.plls (by decide))), pllUp_setPll, if_pos ⟨rfl, rfl⟩]

theorem pllLoss_steady (ls : List Nat) : steady (loseLocks ls (pllLost g r s)) = steady s :=
  foldl_steady (fun _ _ => loseLaneLock_steady) (raiseLane_steady (s := setPll g r false s) rfl)

/-! ### Each timer -/

section
variable {lane : Fin 256}

theorem huntTimeout_hunts (h : (laneOf s lane.val).state = .hunt ∨ (laneOf s lane.val).state = .verify) :
    exec (.huntTimeout lane) s = .next (if (laneCfg s lane.val).blindOnly then
        putLane s lane.val { laneOf s lane.val with
          state := .hunt, goodRun := 0, counters := { (laneOf s lane.val).counters with
            huntTimeout := sat32 (laneOf s lane.val).counters.huntTimeout 1 } }
      else enterBase lane.val s) := by
  show execHuntTimeout lane s = _
  unfold execHuntTimeout
  rcases h with h | h <;> simp only [h]

theorem huntTimeout_bases (h : (laneOf s lane.val).state = .fbBase) :
    exec (.huntTimeout lane) s = .next (putLane s lane.val { laneOf s lane.val with
      attempts := (laneOf s lane.val).attempts + 1, counters := { (laneOf s lane.val).counters with
        fallback := sat32 (laneOf s lane.val).counters.fallback 1 } }) := by
  show execHuntTimeout lane s = _
  unfold execHuntTimeout
  dsimp only
  split
  · rename_i other; cases h.symm.trans other
  · rename_i other; cases h.symm.trans other
  · rfl
  · contradiction

theorem huntTimeout_nothing (h1 : (laneOf s lane.val).state ≠ .hunt) (h2 : (laneOf s lane.val).state ≠ .verify)
    (h3 : (laneOf s lane.val).state ≠ .fbBase) : exec (.huntTimeout lane) s = .next s := by
  show execHuntTimeout lane s = _
  unfold execHuntTimeout
  dsimp only
  split
  · contradiction
  · contradiction
  · contradiction
  · rfl

/-- The stage timer of a lane in FB_CHECK ends the wait, or the check. -/
theorem stageTimer_checks (h : (laneOf s lane.val).state = .fbCheck) :
    exec (.fallbackStageTimer lane) s = .next (if (laneOf s lane.val).stageWaiting then
        putLane s lane.val { laneOf s lane.val with
          rate := min 3 ((laneOf s lane.val).rate + 1), stageWaiting := false, stageBits := 0, stageErrors := 0
          stageSync := false
          prbs := { prbsReload (laneOf s lane.val).prbs with gen := none, genBits := 0, insert := 0 } }
      else putLink (putLane s lane.val { laneOf s lane.val with
          state := .fbVerdict, goodRun := 0, partnerPass := false
          ownPass := (laneOf s lane.val).stageSync && (laneOf s lane.val).stageErrors == 0 })
        lane.val { linkOf s lane.val with txCapability := true }) := by
  show execFallbackStageTimer lane s = _
  unfold execFallbackStageTimer
  dsimp only
  split
  · rfl
  · rename_i other; cases h.symm.trans other
  · contradiction

/-- The stage timer of a lane in FB_VERDICT goes to the next rate, to HUNT at this one, or back to the last that
passed. -/
theorem stageTimer_judges (h : (laneOf s lane.val).state = .fbVerdict) :
    exec (.fallbackStageTimer lane) s = .next (
      if (laneOf s lane.val).ownPass && (laneOf s lane.val).partnerPass then
        if (laneOf s lane.val).rate < agreedCeiling s lane.val then
          putLane s lane.val { laneOf s lane.val with
            state := .fbCheck, lastPassed := (laneOf s lane.val).rate, stageWaiting := true, goodRun := 0 }
        else putLane s lane.val { laneOf s lane.val with state := .hunt, goodRun := 0 }
      else putLane s lane.val { laneOf s lane.val with
        state := .hunt, rate := (laneOf s lane.val).lastPassed, goodRun := 0 }) := by
  show execFallbackStageTimer lane s = _
  unfold execFallbackStageTimer
  dsimp only
  split
  · rename_i other; cases h.symm.trans other
  · rfl
  · contradiction

theorem stageTimer_nothing (h1 : (laneOf s lane.val).state ≠ .fbCheck) (h2 : (laneOf s lane.val).state ≠ .fbVerdict) :
    exec (.fallbackStageTimer lane) s = .next s := by
  show execFallbackStageTimer lane s = _
  unfold execFallbackStageTimer
  dsimp only
  split
  · contradiction
  · contradiction
  · rfl

theorem retryTimeout_rewinds (h : laneLocked s lane.val = true) (sent : 0 < (linkOf s lane.val).inFlight) :
    exec (.retryTimeout lane) s = .next (rewind lane.val s) :=
  congrArg Host.Outcome.next (if_pos (by rw [h, decide_eq_true sent]; rfl))

theorem retryTimeout_nothing (h : laneLocked s lane.val = false ∨ (linkOf s lane.val).inFlight = 0) :
    exec (.retryTimeout lane) s = .next s := by
  refine congrArg Host.Outcome.next (if_neg ?_)
  rcases h with h | h <;> simp only [h, Bool.false_and, Nat.lt_irrefl, decide_false, Bool.and_false, Bool.false_eq_true,
    not_false_eq_true]
end

/-- Settles O23: each timer by the state of its lane, the sixteenth rewind and the loss of a PLL by what the isolation
that follows a raise leaves standing. -/
theorem laneTimersMoveBringup : Obligations.LaneTimersMoveBringup := by
  unfold Obligations.LaneTimersMoveBringup
  refine ⟨fun l s => ⟨fun h blind => ?_, fun h sighted minor => ?_, huntTimeout_bases, huntTimeout_nothing⟩,
    fun l s => ⟨fun h waits => ?_, fun h runs => ?_, fun h pass below => ?_, fun h pass reached => ?_,
      fun h fails => ?_, stageTimer_nothing⟩,
    fun l s => ⟨fun h sent few => ?_, fun h sent last => ?_, retryTimeout_nothing⟩,
    fun g r s root up => ⟨_, lanePllLoss_loses root up, pllLoss_down _, pllLoss_sticky _,
      fun l on uses => pllLoss_unlocks on uses, destOf_of_steady (pllLoss_steady _)⟩,
    fun g r s off => ?_, fun g r s off => congrArg Host.Outcome.next (clocked_unlocked s _ off),
    fun g r s root => ⟨_, congrArg Host.Outcome.next (clocked_locked s _ root), ?_, fun k q other => ?_, fun l => ?_, ?_⟩⟩
  · rw [huntTimeout_hunts h, if_pos blind]
  · obtain ⟨lane, link, sticky, others, rest⟩ := enterBase_starts minor
    refine ⟨_, (huntTimeout_hunts h).trans (congrArg Host.Outcome.next (if_neg ?_)), lane, link, sticky, others, rest⟩
    rw [sighted]
    exact Bool.false_ne_true
  · rw [stageTimer_checks h, if_pos waits]
  · rw [stageTimer_checks h, if_neg (by rw [runs]; exact Bool.false_ne_true)]
  · rw [stageTimer_judges h, if_pos pass, if_pos below]
  · rw [stageTimer_judges h, if_pos pass, if_neg (Nat.not_lt.mpr reached)]
  · rw [stageTimer_judges h, if_neg (by rw [fails]; exact Bool.false_ne_true)]
  · exact (retryTimeout_rewinds h sent).trans (congrArg Host.Outcome.next (rewind_few few))
  · exact ⟨_, retryTimeout_rewinds h sent, rewind_sixteenth last⟩
  · refine congrArg Host.Outcome.next (if_neg ?_)
    rcases off with off | off <;> simp [off]
  · rw [pllUp_setPll, if_pos ⟨rfl, rfl⟩]
  · rw [pllUp_setPll, if_neg]
    rintro ⟨rfl, rfl⟩
    exact other.elim (fun e => e rfl) fun e => e rfl
  · rfl
  · rfl

end Sys2Proof.Machine
end

section
namespace Sys2Proof.Machine
open Relation

/-! ## A lane that runs in a mode it does not support (R45, R182) -/

variable {s t : State} {l n : Nat}

/-! ### What a lane has sent -/

/-- Lane l has sent levels of NRZ. -/
def SendsBits (l : Nat) (s : State) : Prop := ∀ x ∈ (laneOf s l).sent, x ≤ 1

theorem SendsBits.of_lanes (h : SendsBits l s) (e : t.fab.lanes = s.fab.lanes) : SendsBits l t := by
  unfold SendsBits laneOf at h ⊢
  rwa [e]

theorem mem_map_bit_le {f : Bool → Bool} {bs : List Bool} {x : Nat} (h : x ∈ bs.map fun b => bit (f b)) : x ≤ 1 := by
  obtain ⟨b, -, rfl⟩ := List.mem_map.mp h
  cases f b <;> decide

/-- The device once a lane has sent bits. -/
def wired (s : State) (x : Nat × List Bool) : State :=
  putLane s x.1 { laneOf s x.1 with sent := x.2.map fun b => bit (xor b (laneCfg s x.1).txInvert) }

theorem wired_sendsBits (x : Nat × List Bool) : SendsBits x.1 (wired s x) := by
  unfold SendsBits wired
  rw [laneOf_putLane, if_pos rfl]
  exact fun _ => mem_map_bit_le

theorem SendsBits.wired (h : SendsBits l s) (x : Nat × List Bool) : SendsBits l (wired s x) := by
  by_cases same : x.1 = l
  · exact same ▸ wired_sendsBits x
  · unfold SendsBits Machine.wired
    rwa [laneOf_putLane, if_neg same]

theorem SendsBits.sendWire (h : SendsBits l s) (w : Bytes) : SendsBits l (sendWire n w s) := by
  unfold Machine.sendWire
  extract_lets v lanes
  split
  exact List.foldlRecOn (motive := SendsBits l) _ Machine.wired h fun _ hu x _ => hu.wired x

theorem portBits_plain (w : Bytes) (k : BitVec 58) : ∃ bs k', portBits false n w k = ([bs], k') := ⟨_, _, rfl⟩

/-- A port of 25 Gb/s without FEC sends on its own lane. -/
theorem sendWire_sendsBits (w : Bytes) (slow : portIs100 s n = false) (plain : (macCfg s n).fec ≠ 1) :
    SendsBits (256 + 10 * (n / 4) + n % 4) (sendWire n w s) := by
  have lanes : portLanes s n = [256 + 10 * (n / 4) + n % 4] := if_neg (by rw [slow]; exact Bool.false_ne_true)
  have fec : (portIs100 s n || (macCfg s n).fec == 1) = false := by rw [slow, beq_false_of_ne plain]; rfl
  unfold sendWire
  rw [lanes, fec]
  obtain ⟨bs, k, bits⟩ := portBits_plain (n := 1) w (portOf s n).scrambler
  dsimp only [List.length_singleton]
  rw [bits]
  exact wired_sendsBits (_, bs)

/-! ### A frame that is cut off -/

theorem Moves.lanes {T : List Area} (h : Moves T s t) (hf : .fab ∉ T) (hl : .lane ∉ T) : t.fab.lanes = s.fab.lanes := by
  have b := congrArg (fun u => u.fab.lanes) h.beyond
  simpa only [Machine.beyond, unraised, hf, hl, if_false] using b

/-- What a cut leaves of a frame goes on the line; the rest is the pool's and the queues'. -/
theorem cutFrame_sends {q : Nat} {f : QFrame} (spoil : Bool) (h : (portOf s n).sending = some (q, f)) :
    ∃ w u, u.fab = s.fab ∧ u.set = s.set ∧ (cutFrame spoil n s).fab.lanes = (sendWire n w u).fab.lanes := by
  refine ⟨if spoil then spoiltFrame (f.data.take (drawBelow (f.bytes + 1) s).1)
      else preamble ++ f.data.take (drawBelow (f.bytes + 1) s).1,
    putPort (drawBelow (f.bytes + 1) s).2 n { portOf s n with sending := none }, rfl, rfl, ?_⟩
  unfold cutFrame
  simp only [h]
  exact (retryAll_moves (T := [.pkt]) (by decide) (discardCells_moves (by decide) (putPool_moves (by decide)
    (countQueue_moves (by decide) .refl)))).lanes (by decide) (by decide)

theorem SendsBits.cutFrame (h : SendsBits l s) (spoil : Bool) : SendsBits l (cutFrame spoil n s) := by
  cases sends : (portOf s n).sending with
  | none =>
    unfold Machine.cutFrame
    simp only [sends]
    exact h
  | some x =>
    obtain ⟨w, u, fab, -, cut⟩ := cutFrame_sends spoil sends
    exact ((h.of_lanes (by rw [fab])).sendWire w).of_lanes cut

theorem cutFrame_sendsBits {q : Nat} {f : QFrame} (spoil : Bool) (h : (portOf s n).sending = some (q, f))
    (slow : portIs100 s n = false) (plain : (macCfg s n).fec ≠ 1) :
    SendsBits (256 + 10 * (n / 4) + n % 4) (cutFrame spoil n s) := by
  obtain ⟨w, u, -, set, cut⟩ := cutFrame_sends spoil h
  refine (sendWire_sendsBits w ?_ ?_).of_lanes cut
  · rw [← slow]; unfold portIs100 laneCfg; rw [set]
  · unfold macCfg; rw [set]; exact plain

theorem SendsBits.raisePacket (h : SendsBits l s) (id : Nat) : SendsBits l (raisePacket id s) := by
  have raised : SendsBits l (raiseCore id s) := h.of_lanes (by rw [raiseCore_fab])
  have isolated : ∀ m, SendsBits l (isolatePort m (raiseCore id s)) := fun m =>
    SendsBits.cutFrame (s := putPort _ m _) raised false
  unfold Machine.raisePacket
  dsimp only
  split
  · exact isolated _
  · exact raised

/-- A port that loses its link in the middle of a frame sends what it cuts off on its own lane. -/
theorem portLinkDown_sendsBits {q : Nat} {f : QFrame} (up : (portOf s n).link = true)
    (h : (portOf s n).sending = some (q, f)) (slow : portIs100 s n = false) (plain : (macCfg s n).fec ≠ 1) :
    SendsBits (256 + 10 * (n / 4) + n % 4) (portLinkDown n s) := by
  have cut : SendsBits (256 + 10 * (n / 4) + n % 4)
      (cutFrame false n (putPort s n { portOf s n with link := false })) :=
    cutFrame_sendsBits (q := q) (f := f) false (by rw [portOf_putPort, if_pos rfl]; exact h) slow plain
  unfold portLinkDown
  simp only [up, if_true]
  exact (cut.of_lanes (t := countPort n _ _) rfl).raisePacket _

end Sys2Proof.Machine
end

section
namespace Sys2Proof.Machine

/-! ### The counterexample to O21 -/

/-- LANE_BRINGUP of lane 260, edge lane 4 of gallery 0, from session 1 on the rings. -/
def strayBringup : Packet :=
  let p : Packet := {
    endpoint := .pcie, ring := 1, version := 1, cls := 1, flags := 0, session := 1, seq := 1, target := 0, family := 0
    rsvd17 := 0, paramLength := 4, rsvd20 := 0, params := [4, 1, 0, 0], crc := 0 }
  { p with crc := crc32c (packetBody specLaneBringup.code p) }

/-- Lane 260 is set to ETH25, which only lanes 0 to 3 of a gallery support (R45). Port 4, which is that of lane 266 in
the next gallery, sends a frame; lane 266 shows the level 7, which no NRZ lane sends. -/
def strayState : State :=
  { chip := { rootLocked := true, curatorServing := true }
    cmd := { sessions := [(1, { isOpen := true, endpoint := .pcie })] }
    set := { lanes := [(260, { mode := 3 })] }
    pkt := { ports := [(4, { link := true, sending := some (0, frameInSeven) })] }
    fab := { lanes := [(266, { sent := [7] })] } }

theorem strayBringup_runs : Runs specLaneBringup strayBringup strayState where
  served := rfl
  front := by decide +kernel
  cls := by decide +kernel
  room := by decide +kernel
  checks := by decide +kernel
  alone := by decide +kernel
  noUnread c := by unfold ringOf; split <;> rfl

/-- The same with another command channel. -/
def strayWith (c : Command) : State := { strayState with cmd := c }

theorem strayWith_mode (c : Command) : laneMode (strayWith c) 260 = 3 := rfl

/-- The port that the lane's mode and number name is port 4. -/
theorem strayWith_stop (c : Command) : commandStop 260 (strayWith c) = portLinkDown 4 (strayWith c) := by
  have port : portOfLane (strayWith c) (260 - 256) = 4 := rfl
  unfold commandStop
  rw [if_neg (by decide), strayWith_mode]
  show portLinkDown (portOfLane _ _) _ = _
  rw [port]

theorem startLane_sendsBits {k l : Nat} {s : State} (h : SendsBits l s) (v : Lane) (other : k ≠ l) :
    SendsBits l (startLane k v s) := by
  have put : ∀ u w, SendsBits l u → SendsBits l (putLane u k w) := fun u w hu => by
    unfold SendsBits
    rwa [laneOf_putLane, if_neg other]
  unfold startLane
  dsimp only
  split
  · exact put _ _ (put _ _ h)
  · exact put _ _ h

theorem judgeEdge_lanes (e : Nat) (s : State) : (judgeEdge e s).fab.lanes = s.fab.lanes :=
  (judgeDest_moves (T := [.fault, .mtx]) (by decide) (by decide)
    (judgeAll_moves (by decide) (by decide) .refl)).lanes (by decide) (by decide)

theorem endLaneIsolation_lanes (l : Nat) (s : State) : (endLaneIsolation l s).fab.lanes = s.fab.lanes := by
  have clear : ∀ id u, (clearIsolating id u).fab.lanes = u.fab.lanes := fun id u => by
    unfold clearIsolating
    dsimp only
    split <;> rfl
  unfold endLaneIsolation
  extract_lets g s1 s2
  have ended : s2.fab.lanes = s.fab.lanes := by
    show (if _ then _ else _ : State).fab.lanes = _
    split
    · exact (clear _ _).trans (clear _ _)
    · exact clear _ _
  refine (foldl_keeps (g := fun u => u.fab.lanes) (fun u i => ?_) _).trans ended
  show (if _ then _ else _ : State).fab.lanes = _
  split
  · rfl
  · exact clear _ _

theorem strayBringup_lane : u16 strayBringup 0 = 260 := rfl

theorem effectLaneBringup_state (p : Packet) (s : State) :
    (effectLaneBringup p s).1 = endLaneIsolation (u16 p 0) (applyBringup (u16 p 0) s) := rfl

theorem applyBringup_on {l : Nat} {s : State} (h : laneMode s l ≠ 0) (edge : 256 ≤ l) :
    ∃ v, applyBringup l s = judgeEdge (l - 256) (startLane l v (commandStop l s)) := by
  unfold applyBringup
  dsimp only
  rw [if_neg h, if_neg (Nat.not_lt.mpr edge)]
  exact ⟨_, rfl⟩

/-- The command changes what lane 266 has sent. -/
theorem strayBringup_sendsBits (c : Command) : SendsBits 266 (effectLaneBringup strayBringup (strayWith c)).1 := by
  have plain : (macCfg (strayWith c) 4).fec ≠ 1 := Nat.zero_ne_one
  have stopped : SendsBits 266 (commandStop 260 (strayWith c)) := by
    rw [strayWith_stop]
    have up : (portOf (strayWith c) 4).link = true := rfl
    have sends : (portOf (strayWith c) 4).sending = some (0, frameInSeven) := rfl
    have slow : portIs100 (strayWith c) 4 = false := rfl
    exact portLinkDown_sendsBits up sends slow plain
  obtain ⟨v, starts⟩ := applyBringup_on (l := 260) (s := strayWith c) (by rw [strayWith_mode]; decide) (by decide)
  rw [effectLaneBringup_state, strayBringup_lane, starts]
  exact ((startLane_sendsBits stopped v (by decide)).of_lanes (judgeEdge_lanes _ _)).of_lanes
    (endLaneIsolation_lanes _ _)

/-- A host command leaves the lanes as its effect does. -/
theorem runHost_lanes {o : OpSpec} {p : Packet} {s : State} (h : Runs o p s) : (runHost o p s).fab.lanes
    = (o.effect (replyHeader o.code p) p (taken o p s)).1.fab.lanes := by
  rw [runHost_runs h]
  dsimp only
  rw [readRings_keeps (fun u => u.fab.lanes) (fun _ => rfl)]
  exact congrArg (fun u => u.fab.lanes) ((answerCommand_settled _ _ _ _ _).trans (mirrorAfter_settled _ _ _ _))

/-- Refutes O21: LANE_BRINGUP of a lane whose setting says ETH25 stops the port that its number names, and where the
lane is none of the first four of its gallery that is the port of a lane of the next gallery. The statement lets no
other lane change. The counterexample is lane 260 in ETH25 while port 4 sends a frame: the command cuts it off on lane
266. LANE_CONFIG refuses that setting (R45), but the statement ranges over every state. -/
theorem not_lanesAreConfiguredAndBroughtUp : ¬ Obligations.LanesAreConfiguredAndBroughtUp := by
  unfold Obligations.LanesAreConfiguredAndBroughtUp
  rintro ⟨-, bringup⟩
  obtain ⟨-, started⟩ := bringup strayBringup strayState strayBringup_runs
  obtain ⟨t, e, run, ⟨leaves, -⟩, -, -, -, -, others, -⟩ := started (by decide)
  obtain ⟨-, kept⟩ := others 266 (by decide)
  have same : laneOf t 266 = laneOf strayState 266 := by
    rw [← kept (by decide)]
    exact congrArg (fun u : State => tget (fun _ => {}) u.fab.lanes 266) leaves
  obtain rfl : runHost specLaneBringup strayBringup strayState = t := Host.Outcome.next.inj run
  have bits : SendsBits 266 (runHost specLaneBringup strayBringup strayState) := by
    refine SendsBits.of_lanes ?_ (runHost_lanes strayBringup_runs)
    rw [taken_eq]
    exact strayBringup_sendsBits _
  have sent : (laneOf (runHost specLaneBringup strayBringup strayState) 266).sent = [7] := by rw [same]; rfl
  exact absurd (bits 7 (sent ▸ List.mem_singleton_self 7)) (by decide)

end Sys2Proof.Machine
end

section
namespace Sys2Proof.Machine
open Relation

/-! ## Sources that are lost, and the destinations that show them (R92, R169) -/

variable {α : Type} {s t u : State} {d m n k f : Nat}

/-! ### What the loss of sources keeps and where it leads -/

/-- What losing sources, and judging destinations after it, can do: each destination shows the source that it showed,
stays in fallback if it is, and a lost source stays lost. -/
structure Loses (s t : State) : Prop where
  shown : ∀ d, shownSource t d = shownSource s d
  fallback : ∀ d, (destRun s d).inFallback = true → (destRun t d).inFallback = true
  unusable : ∀ n, (sourceOf s n).usable = false → (sourceOf t n).usable = false

theorem Loses.refl : Loses s s := ⟨fun _ => rfl, fun _ h => h, fun _ h => h⟩

theorem Loses.trans (h : Loses s t) (g : Loses t u) : Loses s u :=
  ⟨fun d => (g.shown d).trans (h.shown d), fun d x => g.fallback d (h.fallback d x),
    fun n x => g.unusable n (h.unusable n x)⟩

theorem Loses.ite {c : Prop} [Decidable c] (h : Loses s t) (g : Loses s u) : Loses s (if c then t else u) := by
  split <;> assumption

theorem foldl_loses {g : State → α → State} (hg : ∀ u x, Loses u (g u x)) (l : List α) : Loses s (l.foldl g s) :=
  List.foldlRecOn (motive := Loses s) l g .refl fun _ hu x _ => hu.trans (hg _ x)

/-- Where each step keeps `I`, the step for one element leads from `I` to `P`, and each step keeps `P`, a fold over the
elements ends in `P`. -/
theorem foldl_reaches {I P : State → Prop} {g : State → α → State} {l : List α} {x : α} (mem : x ∈ l) (start : I s)
    (inv : ∀ u y, I u → I (g u y)) (reach : ∀ u, I u → P (g u x)) (kept : ∀ u y, P u → P (g u y)) : P (l.foldl g s) := by
  obtain ⟨before, after, rfl⟩ := List.append_of_mem mem
  rw [List.foldl_append, List.foldl_cons]
  have arrived : I (before.foldl g s) := List.foldlRecOn before g start fun u hu y _ => inv u y hu
  exact List.foldlRecOn after g (reach _ arrived) fun u hu y _ => kept u y hu

theorem foldl_unusable {g : State → α → State} {l : List α} {x : α} (mem : x ∈ l) (loses : ∀ u y, Loses u (g u y))
    (lost : ∀ u, (sourceOf (g u x) n).usable = false) : (sourceOf (l.foldl g s) n).usable = false :=
  foldl_reaches (I := fun _ => True) (P := fun u => (sourceOf u n).usable = false) mem trivial (fun _ _ _ => trivial)
    (fun u _ => lost u) fun u y => (loses u y).unusable n

theorem loses_of_parts (matrices : t.mtx = s.mtx) (settings : t.set = s.set) : Loses s t := by
  refine ⟨fun d => ?_, fun d h => ?_, fun n h => ?_⟩
  · unfold shownSource destRun destCfg destOf
    rw [matrices, settings]
  · simpa only [destRun, matrices] using h
  · simpa only [sourceOf, matrices] using h

theorem raiseCore_loses (id : Nat) : Loses s (raiseCore id s) := loses_of_parts (raiseCore_mtx id) (raiseCore_set id)

theorem shownSource_putDestRun {v : DestRun} (protects : v.onProtection = (destRun s d).onProtection)
    (source : v.protSource = (destRun s d).protSource) (j : Nat) :
    shownSource (putDestRun s d v) j = shownSource s j := by
  unfold shownSource
  rw [destRun_putDestRun]
  by_cases same : d = j
  · subst same
    rw [if_pos rfl]
    dsimp only
    rw [protects, source]
    rfl
  · rw [if_neg same]
    rfl

theorem putDestRun_loses {v : DestRun} (protects : v.onProtection = (destRun s d).onProtection)
    (source : v.protSource = (destRun s d).protSource)
    (stays : (destRun s d).inFallback = true → v.inFallback = true) : Loses s (putDestRun s d v) := by
  refine ⟨shownSource_putDestRun protects source, fun j h => ?_, fun _ h => h⟩
  rw [destRun_putDestRun]
  split
  · rename_i same
    subst same
    exact stays h
  · exact h

theorem putSource_loses {v : Source} (lost : v.usable = false) : Loses s (putSource s n v) := by
  refine ⟨fun _ => rfl, fun _ h => h, fun j h => ?_⟩
  rw [sourceOf_putSource]
  split
  · exact lost
  · exact h

/-! ### Judging -/

theorem blackRest_loses : Loses s (blackRest d s) := by
  have push : ∀ u l, Loses u (pushLine d l u) := fun u l => by
    unfold pushLine
    split
    exact .ite (loses_of_parts rfl rfl) (loses_of_parts rfl rfl)
  unfold blackRest
  exact .ite .refl (foldl_loses push _)

theorem countJudgment_loses : Loses s (countJudgment d s) := by
  unfold countJudgment
  extract_lets r
  split
  · exact putDestRun_loses rfl rfl id
  · extract_lets mism ref s1 again src s2
    have judged : Loses s s1 := putDestRun_loses rfl rfl id
    have counted : Loses s s2 := .ite (judged.trans ⟨fun _ => rfl, fun _ h => h, fun _ h => h⟩) judged
    have refused : Loses s2 { s2 with mtx := { s2.mtx with formatRefused := sat32 s2.mtx.formatRefused 1 } } :=
      ⟨fun _ => rfl, fun _ h => h, fun _ h => h⟩
    exact .ite (counted.trans (refused.trans (raiseCore_loses _))) counted

/-- A destination whose fallback begins. -/
def fallen (d : Nat) (s : State) : State := blackRest d (putDestRun s d { destRun s d with inFallback := true })

theorem fallen_loses : Loses s (fallen d s) :=
  (putDestRun_loses (v := { destRun s d with inFallback := true }) rfl rfl fun _ => rfl).trans blackRest_loses

theorem fallen_inFallback : (destRun (fallen d s) d).inFallback = true := by
  refine blackRest_loses.fallback d ?_
  rw [destRun_putDestRun, if_pos rfl]

theorem enterFallback_eq : enterFallback d s = if (destRun s d).inFallback then s
    else if (destCfg (fallen d s) d).report then note 0x04 6 (fallen d s) else fallen d s := rfl

theorem enterFallback_loses : Loses s (enterFallback d s) := by
  rw [enterFallback_eq]
  exact .ite .refl (.ite (fallen_loses.trans (raiseCore_loses _)) fallen_loses)

theorem enterFallback_inFallback : (destRun (enterFallback d s) d).inFallback = true := by
  rw [enterFallback_eq]
  split
  · assumption
  · split
    · exact (raiseCore_loses _).fallback d fallen_inFallback
    · exact fallen_inFallback

theorem judgeDest_loses : Loses s (judgeDest d s) :=
  .ite (countJudgment_loses.trans enterFallback_loses) countJudgment_loses

/-! ### A source that is lost -/

theorem sourceBond_cases (s : State) (n : Nat) :
    sourceBond s n = (n - n % 4, 4) ∨ sourceBond s n = (n - n % 2, 2) ∨ sourceBond s n = (n, 1) := by
  unfold sourceBond bondIn
  split
  · exact .inl rfl
  · split
    · exact .inr (.inl rfl)
    · exact .inr (.inr rfl)

theorem mem_bondMembers : m ∈ bondMembers s n ↔ ∃ i < (sourceBond s n).2, (sourceBond s n).1 + i = m := by
  simp only [bondMembers, List.mem_map, List.mem_range]

theorem mem_bondMembers_self : n ∈ bondMembers s n := by
  rw [mem_bondMembers]
  rcases sourceBond_cases s n with four | two | one
  · rw [four]; exact ⟨n % 4, by omega, by omega⟩
  · rw [two]; exact ⟨n % 2, by omega, by omega⟩
  · rw [one]; exact ⟨0, by omega, rfl⟩

/-- No bond reaches beyond the sources of the fabric lanes. -/
theorem bondMembers_lt (h : m ∈ bondMembers s n) (small : n < 1280) : m < 1280 := by
  obtain ⟨i, below, rfl⟩ := mem_bondMembers.mp h
  rcases sourceBond_cases s n with size | size | size <;> simp only [size] at below ⊢ <;> omega

theorem sourceUsable_lost (lost : (sourceOf s m).usable = false) (small : m < 1280) : sourceUsable s m = false := by
  have notPlayed : playDest s m = none := if_neg (by omega)
  refine List.all_eq_false.mpr ⟨m, mem_bondMembers_self, ?_⟩
  unfold ownUsable
  rw [notPlayed]
  simp only [lost, Bool.false_eq_true, not_false_eq_true]

theorem shownLost_lost (shown : shownSource s d = some m) (lost : (sourceOf s m).usable = false) (small : m < 1280) :
    shownLost s d = true := by
  unfold shownLost lostAt
  simp only [shown, sourceUsable_lost lost small, Bool.not_false, Bool.true_or]

theorem judgeDest_falls (shown : shownSource s d = some m) (lost : (sourceOf s m).usable = false) (small : m < 1280) :
    (destRun (judgeDest d s) d).inFallback = true := by
  have counted : Loses s (countJudgment d s) := countJudgment_loses
  have judged : judgeDest d s = enterFallback d (countJudgment d s) :=
    if_pos (shownLost_lost ((counted.shown d).trans shown) (counted.unusable m lost) small)
  rw [judged]
  exact enterFallback_inFallback

theorem exists_mem_of_tfind {v : α} {x : Tab α} (h : tfind x d = some v) : ∃ e ∈ x, e.1 = d := by
  induction x with
  | nil => cases h
  | cons e x ih =>
    by_cases same : e.1 = d
    · exact ⟨e, List.mem_cons_self, same⟩
    · obtain ⟨e', mem, at'⟩ := ih ((if_neg same).symm.trans h)
      exact ⟨e', List.mem_cons_of_mem _ mem, at'⟩

/-- A destination that shows a source is one of those that the model looks for. -/
theorem mem_showing (shown : shownSource s d = some m) : d ∈ showing s m := by
  unfold showing
  simp only [List.mem_append, List.mem_map, List.mem_filter, beq_iff_eq, Bool.and_eq_true, Option.isNone_iff_eq_none]
  cases video : tfind s.mtx.video d with
  | some v =>
    obtain ⟨e, mem, rfl⟩ := exists_mem_of_tfind video
    exact .inl ⟨e, ⟨mem, shown⟩, rfl⟩
  | none =>
    cases run : tfind s.mtx.destRun d with
    | some v =>
      obtain ⟨e, mem, rfl⟩ := exists_mem_of_tfind run
      exact .inr ⟨e, ⟨mem, video, shown⟩, rfl⟩
    | none => simp [shownSource, destRun, destOf, tget, video, run] at shown

theorem judgeAll_loses : Loses s (judgeAll n s) := foldl_loses (fun _ _ => judgeDest_loses) _

theorem judgeAll_falls (shown : shownSource s d = some m) (lost : (sourceOf s m).usable = false) (small : m < 1280) :
    (destRun (judgeAll m s) d).inFallback = true :=
  foldl_reaches (I := fun u => shownSource u d = some m ∧ (sourceOf u m).usable = false)
    (P := fun u => (destRun u d).inFallback = true)
    (List.mem_flatMap.mpr ⟨m, mem_bondMembers_self, mem_showing shown⟩) ⟨shown, lost⟩
    (fun _ _ ⟨h, g⟩ => ⟨(judgeDest_loses.shown d).trans h, judgeDest_loses.unusable m g⟩)
    (fun _ ⟨h, g⟩ => judgeDest_falls h g small) (fun _ _ => judgeDest_loses.fallback d)

theorem loseSource_loses : Loses s (loseSource n s) :=
  (putSource_loses (v := { sourceOf s n with usable := false }) rfl).trans judgeAll_loses

theorem loseSource_unusable : (sourceOf (loseSource n s) n).usable = false := by
  refine judgeAll_loses.unusable n ?_
  rw [sourceOf_putSource, if_pos rfl]

theorem loseSource_falls (shown : shownSource s d = some m) (small : m < 1280) :
    (destRun (loseSource m s) d).inFallback = true := by
  refine judgeAll_falls shown ?_ small
  rw [sourceOf_putSource, if_pos rfl]

/-- The loss of a source stays within the fault sources and the matrices, with what these send. -/
theorem loseSource_beyond : beyond [.fault, .mtx] (loseSource n s) = beyond [.fault, .mtx] s :=
  (loseSource_moves (T := [.fault, .mtx]) (by decide) (by decide) .refl).beyond

theorem loseSource_pairs : (loseSource n s).fab.pairs = s.fab.pairs := by
  simpa [beyond, unraised] using congrArg (fun u => u.fab.pairs) (loseSource_beyond (n := n) (s := s))

theorem loseSource_sources : (loseSource n s).fab.sources = s.fab.sources := by
  simpa [beyond, unraised] using congrArg (fun u => u.fab.sources) (loseSource_beyond (n := n) (s := s))

theorem settled_of_beyond (h : beyond [.fault, .mtx] t = beyond [.fault, .mtx] s) (x : Fabric) (y : Matrices) :
    settled { t with fab := x, mtx := y } = settled { s with fab := x, mtx := y } :=
  congrArg (fun u => settled { u with fab := x, mtx := y }) h

theorem loseSource_settled (x : Fabric) (y : Matrices) :
    settled { loseSource n s with fab := x, mtx := y } = settled { s with fab := x, mtx := y } :=
  settled_of_beyond loseSource_beyond x y

/-! ### The sources of a bond (R90, R92) -/

theorem loseFabricBond_eq : loseFabricBond n s = (bondMembers s n).foldl (fun s k => loseSource k s) s :=
  (List.foldl_map (f := fun i => (sourceBond s n).1 + i) (g := fun s k => loseSource k s)).symm

theorem loseFabricBond_unusable (h : k ∈ bondMembers s n) : (sourceOf (loseFabricBond n s) k).usable = false := by
  rw [loseFabricBond_eq]
  exact foldl_unusable h (fun _ _ => loseSource_loses) fun _ => loseSource_unusable

theorem loseFabricBond_falls (h : k ∈ bondMembers s n) (small : n < 1280) (shown : shownSource s d = some k) :
    (destRun (loseFabricBond n s) d).inFallback = true := by
  rw [loseFabricBond_eq]
  exact foldl_reaches (I := fun u => shownSource u d = some k) (P := fun u => (destRun u d).inFallback = true) h shown
    (fun _ _ => (loseSource_loses.shown d).trans) (fun _ hu => loseSource_falls hu (bondMembers_lt h small))
    fun _ _ => loseSource_loses.fallback d

theorem fabricSource_loseFabricBond (j : Nat) : fabricSource (loseFabricBond n s) j = fabricSource s j := by
  have kept : (loseFabricBond n s).fab.sources = s.fab.sources := by
    rw [loseFabricBond_eq]
    exact foldl_keeps (g := fun u => u.fab.sources) (fun _ _ => loseSource_sources) _
  simp only [fabricSource, kept]

theorem loseFabricBond_settled (x : Fabric) (y : Matrices) :
    settled { loseFabricBond n s with fab := x, mtx := y } = settled { s with fab := x, mtx := y } := by
  rw [loseFabricBond_eq]
  exact foldl_keeps (g := fun u => settled { u with fab := x, mtx := y }) (fun _ _ => loseSource_settled x y) _

/-! ### The sources that a lane carries (R92) -/

theorem loseContainer_loses : Loses s (loseContainer n s) :=
  have emptied : Loses s (putEssence (putFabricSource s n { fabricSource s n with
      starts := 0, good := false, line := none, ancPart := [] }) n {}) := ⟨fun _ => rfl, fun _ h => h, fun _ h => h⟩
  emptied.trans loseSource_loses

theorem loseContainers_loses : Loses s (loseContainers f s) := foldl_loses (fun _ _ => loseContainer_loses) _

theorem loseContainers_unusable {c : Nat} (h : c < 5) : (sourceOf (loseContainers f s) (5 * f + c)).usable = false :=
  foldl_unusable (List.mem_range.mpr h) (fun _ _ => loseContainer_loses) fun _ => loseSource_unusable

theorem loseContainers_steady {a : Tab Dest × Tab Dest × Tab Dest × (Nat → Nat × Nat)} (h : steady s = a) :
    steady (loseContainers f s) = a := foldl_steady (fun _ _ => loseContainer_steady) h

theorem loseContainer_pairs : (loseContainer n s).fab.pairs = s.fab.pairs := by
  unfold loseContainer
  exact loseSource_pairs

theorem loseContainers_pairs : (loseContainers f s).fab.pairs = s.fab.pairs := by
  unfold loseContainers
  exact foldl_keeps (g := fun u => u.fab.pairs) (fun _ _ => loseContainer_pairs) _

theorem loseContainers_moves {T : List Area} {a : State} (hf : .fault ∈ T) (hp : .pair ∈ T) (hm : .mtx ∈ T)
    (h : Moves T a s) : Moves T a (loseContainers f s) :=
  foldl_moves (fun _ _ h => loseSource_moves hf hm (putEssence_moves hm (putFabricSource_moves hp h))) h

theorem loseContainers_links : (loseContainers f s).fab.links = s.fab.links := by
  have kept := congrArg (fun u => u.fab.links)
    (loseContainers_moves (T := [.fault, .pair, .mtx]) (f := f) (by decide) (by decide) (by decide) (.refl (a := s))).beyond
  simpa [beyond, unraised] using kept

end Sys2Proof.Machine
end

section
namespace Sys2Proof.Machine
open Relation

/-! ## The settings of the fabric link (R75, R92, R94) -/

variable {s : State} {k : Nat} {lanes : Option (Nat × Nat)}

/-! ### A plane pair that changes (R94, R95) -/

/-- The lanes of pair k, by their numbers in the device. -/
def lanesOfPair (k : Nat) (lanes : Option (Nat × Nat)) : List Nat :=
  match lanes with | some (a, b) => [16 * (k / 8) + a, 16 * (k / 8) + b] | none => []

/-- Pair k with its new lanes and a record that starts anew. -/
def pairBegun (k : Nat) (lanes : Option (Nat × Nat)) (s : State) : State :=
  putPair { s with set := { s.set with pairs := tset (fun _ => {}) s.set.pairs k { lanes := lanes } } } k {}

/-- Lane b sends on from the slot and the calendar of lane a. -/
def slotFollowed (a b : Nat) (s : State) : State :=
  putLink s b { linkOf s b with txSlot := (linkOf s a).txSlot, txCal := (linkOf s a).txCal }

/-- The lanes of pair k send in step; its source is raised where only one of them is LOCKED. -/
def pairAligned (k : Nat) (lanes : Option (Nat × Nat)) (s : State) : State :=
  match lanes with
  | some (a, b) =>
    let t := slotFollowed (16 * (k / 8) + a) (16 * (k / 8) + b) s
    if laneLocked t (16 * (k / 8) + a) == laneLocked t (16 * (k / 8) + b) then t else raisePair k t
  | none => s

theorem setPlanePair_eq (k : Nat) (lanes : Option (Nat × Nat)) (s : State) : setPlanePair k lanes s =
    (lanesOfPair k (pairCfg s k).lanes ++ lanesOfPair k lanes).dedup.foldl (fun s f => loseContainers f s)
      (pairAligned k lanes (pairBegun k lanes s)) := rfl

theorem pairAligned_moves {T : List Area} {a : State} (hf : .fault ∈ T) (hk : .link ∈ T) (h : Moves T a s) :
    Moves T a (pairAligned k lanes s) := by
  unfold pairAligned
  split
  · exact ite_moves (putLink_moves hk h) (raiseCore_moves hf (putLink_moves hk h))
  · exact h

theorem pairAligned_pairs : (pairAligned k lanes s).fab.pairs = s.fab.pairs := by
  have kept := congrArg (fun u => u.fab.pairs)
    (pairAligned_moves (T := [.fault, .link]) (k := k) (lanes := lanes) (by decide) (by decide) (.refl (a := s))).beyond
  simpa [beyond, unraised] using kept

theorem pairAligned_mtx : (pairAligned k lanes s).mtx = s.mtx := by
  have kept := congrArg (fun u => u.mtx)
    (pairAligned_moves (T := [.fault, .link]) (k := k) (lanes := lanes) (by decide) (by decide) (.refl (a := s))).beyond
  simpa [beyond, unraised] using kept

theorem pairAligned_links (a b : Nat) : (pairAligned k (some (a, b)) s).fab.links
    = (slotFollowed (16 * (k / 8) + a) (16 * (k / 8) + b) s).fab.links := by
  unfold pairAligned
  dsimp only
  split
  · rfl
  · exact congrArg Fabric.links (raiseCore_fab _)

/-- What the loss of a lane's sources keeps, a change of a pair keeps once its schedule has begun. -/
theorem setPlanePair_keeps {α : Type} (g : State → α) (kept : ∀ u f, g (loseContainers f u) = g u) :
    g (setPlanePair k lanes s) = g (pairAligned k lanes (pairBegun k lanes s)) := by
  rw [setPlanePair_eq]
  exact foldl_keeps (g := g) kept _

/-- What a change of a pair may touch beside its settings. -/
def pairAreas : List Area := [.fault, .pair, .mtx, .link]

theorem setPlanePair_beyond : beyond pairAreas (setPlanePair k lanes s) = beyond pairAreas (pairBegun k lanes s) := by
  refine Moves.beyond ?_
  rw [setPlanePair_eq]
  exact foldl_moves (fun _ _ => loseContainers_moves (by decide) (by decide) (by decide))
    (pairAligned_moves (by decide) (by decide) .refl)

theorem setPlanePair_set : (setPlanePair k lanes s).set = (pairBegun k lanes s).set :=
  (congrArg (fun u : State => u.set) setPlanePair_beyond :)

theorem setPlanePair_sessions : (setPlanePair k lanes s).cmd.sessions = s.cmd.sessions :=
  (congrArg (fun u : State => u.cmd.sessions) setPlanePair_beyond :)

theorem setPlanePair_settled : settled { setPlanePair k lanes s with
    fab := s.fab, mtx := s.mtx, set := { (setPlanePair k lanes s).set with pairs := s.set.pairs } } = settled s :=
  (congrArg (fun u : State => settled { u with
    fab := s.fab, mtx := s.mtx, set := { u.set with pairs := s.set.pairs } }) setPlanePair_beyond :)

theorem setPlanePair_ringOf (c : Nat) : ringOf (setPlanePair k lanes s) c = ringOf s c :=
  (ringOf_settled setPlanePair_settled c :)

theorem setPlanePair_pairs : (setPlanePair k lanes s).fab.pairs = (pairBegun k lanes s).fab.pairs :=
  (setPlanePair_keeps (fun u => u.fab.pairs) fun _ _ => loseContainers_pairs).trans pairAligned_pairs

theorem pairCfg_setPlanePair (j : Nat) :
    pairCfg (setPlanePair k lanes s) j = if k = j then { lanes := lanes } else pairCfg s j := by
  unfold pairCfg
  rw [setPlanePair_set]
  exact tget_tset _ _ _ _ _

theorem pairOf_setPlanePair (j : Nat) :
    pairOf (setPlanePair k lanes s) j = if k = j then {} else pairOf s j := by
  unfold pairOf
  rw [setPlanePair_pairs]
  exact pairOf_putPair _ _ _ _

/-- The secondary lane goes on in the slot of the primary. -/
theorem setPlanePair_slots (a b : Nat) :
    ((linkOf (setPlanePair k (some (a, b)) s) (16 * (k / 8) + b)).txSlot,
        (linkOf (setPlanePair k (some (a, b)) s) (16 * (k / 8) + b)).txCal)
      = ((linkOf s (16 * (k / 8) + a)).txSlot, (linkOf s (16 * (k / 8) + a)).txCal) := by
  let begun := slotFollowed (16 * (k / 8) + a) (16 * (k / 8) + b) (pairBegun k (some (a, b)) s)
  have links : (setPlanePair k (some (a, b)) s).fab.links = begun.fab.links :=
    (setPlanePair_keeps (fun u => u.fab.links) fun _ _ => loseContainers_links).trans (pairAligned_links a b)
  have same : ∀ f, linkOf (setPlanePair k (some (a, b)) s) f = linkOf begun f :=
    fun f => by simp only [linkOf, links]
  have follows : linkOf begun (16 * (k / 8) + b) = { linkOf s (16 * (k / 8) + b) with
      txSlot := (linkOf s (16 * (k / 8) + a)).txSlot, txCal := (linkOf s (16 * (k / 8) + a)).txCal } :=
    (linkOf_putLink _ _ _ _).trans (if_pos rfl)
  rw [same, follows]

theorem setPlanePair_unusable_of_mem {f c : Nat} (container : c < 5)
    (h : f ∈ lanesOfPair k (pairCfg s k).lanes ++ lanesOfPair k lanes) :
    (sourceOf (setPlanePair k lanes s) (5 * f + c)).usable = false := by
  rw [setPlanePair_eq]
  exact foldl_unusable (List.mem_dedup.mpr h) (fun _ _ => loseContainers_loses)
    fun _ => loseContainers_unusable container

/-- The sources of the lanes that were in the pair, or are now, are lost. -/
theorem setPlanePair_unusable {a b c : Nat} (member : (pairCfg s k).lanes = some (a, b) ∨ lanes = some (a, b))
    (container : c < 5) : (sourceOf (setPlanePair k lanes s) (5 * (16 * (k / 8) + a) + c)).usable = false
      ∧ (sourceOf (setPlanePair k lanes s) (5 * (16 * (k / 8) + b) + c)).usable = false := by
  have joins : ∀ f ∈ lanesOfPair k (some (a, b)), f ∈ lanesOfPair k (pairCfg s k).lanes ++ lanesOfPair k lanes :=
    fun f here => by
      rcases member with before | now
      · exact List.mem_append_left _ (before ▸ here)
      · exact List.mem_append_right _ (now ▸ here)
  exact ⟨setPlanePair_unusable_of_mem container (joins _ List.mem_cons_self),
    setPlanePair_unusable_of_mem container (joins _ (List.mem_cons_of_mem _ List.mem_cons_self))⟩

theorem setPlanePair_destOf (m : Matrix) (d : Nat) : destOf (setPlanePair k lanes s) m d = destOf s m d := by
  have lost : destOf (setPlanePair k lanes s) m d = destOf (pairAligned k lanes (pairBegun k lanes s)) m d :=
    setPlanePair_keeps (fun u => destOf u m d) fun _ _ => destOf_of_steady (loseContainers_steady rfl) m d
  rw [lost]
  unfold destOf
  rw [pairAligned_mtx]
  rfl

/-! ### The commands, and a source that stops announcing itself -/

theorem fabricMap_effects {p : Packet} (h : Runs specFabricMap p s) : Effects specFabricMap p s (.fabricMap p)
    { s with set := { s.set with planes := tset (fun _ => false) s.set.planes (u8 p 0) (u8 p 1 == 1) } } (done []) := by
  refine effects_atOnce rfl h ?_ rfl
  rw [taken_eq]
  rfl

/-- The lanes that a FABRIC_PLANE_PAIR names for its pair: none where it releases the pair. -/
def planeLanes (p : Packet) : Option (Nat × Nat) := if u8 p 3 = 0xFF then none else some (u8 p 2, u8 p 3)

/-- The pair that a FABRIC_PLANE_PAIR names. -/
def planePair (p : Packet) : Nat := 8 * u8 p 0 + u8 p 1

theorem effectFabricPlanePair_eq (p : Packet) (s : State) : effectFabricPlanePair p s =
    (if (pairCfg s (planePair p)).lanes = planeLanes p then s else setPlanePair (planePair p) (planeLanes p) s, done) :=
  rfl

theorem fabricPlanePair_kept {p : Packet} (h : Runs specFabricPlanePair p s)
    (kept : (pairCfg s (planePair p)).lanes = planeLanes p) :
    Effects specFabricPlanePair p s (.fabricPlanePair p) s (done []) := by
  refine effects_atOnce rfl h ?_ rfl
  rw [← taken_eq]
  show atOnce effectFabricPlanePair (replyHeader specFabricPlanePair.code p) p _ = _
  have same : (pairCfg (taken specFabricPlanePair p s) (planePair p)).lanes = planeLanes p := by
    rw [taken_eq]
    exact kept
  unfold atOnce
  rw [effectFabricPlanePair_eq, if_pos same]

theorem fabricPlanePair_changed {p : Packet} (h : Runs specFabricPlanePair p s)
    (changes : (pairCfg s (planePair p)).lanes ≠ planeLanes p) :
    Effects specFabricPlanePair p s (.fabricPlanePair p)
      (setPlanePair (planePair p) (planeLanes p) (taken specFabricPlanePair p s)) (done []) := by
  have other : (pairCfg (taken specFabricPlanePair p s) (planePair p)).lanes ≠ planeLanes p := by
    rw [taken_eq]
    exact changes
  refine runs_effects rfl h ?_ setPlanePair_sessions fun c => (setPlanePair_ringOf c).trans (taken_ringOf _ _ c)
  show atOnce effectFabricPlanePair (replyHeader specFabricPlanePair.code p) p _ = _
  unfold atOnce
  rw [effectFabricPlanePair_eq, if_neg other]

/-- A fabric source that has announced nothing since it was lost. -/
def unannounced (n : Nat) (s : State) : State :=
  putFabricSource s n { fabricSource s n with starts := 0, good := false, line := none, ancPart := [] }

theorem fabricSourceTimeout_silences {n : Fin 1280} (announced : (fabricSource s n.val).starts ≠ 0) :
    exec (.fabricSourceTimeout n) s = .next
      (if (fabricSource s n.val).good then loseFabricBond n.val (unannounced n.val s) else unannounced n.val s) :=
  congrArg Host.Outcome.next (if_neg announced)

/-- Settles O24: the commands by what their effect writes, a pair that changes by what the loss of its lanes' sources
leaves and where it leads, a source that falls silent by the destinations that judge it. -/
theorem fabricSettingsApply : Obligations.FabricSettingsApply := by
  unfold Obligations.FabricSettingsApply
  refine ⟨fun p s => fabricMap_effects, fun p s h => ⟨fabricPlanePair_kept h, fun changes => ?_⟩,
    fun n s => ⟨fun quiet => congrArg Host.Outcome.next (if_pos quiet), fun announced bad => ?_,
      fun announced good => ?_⟩⟩
  · obtain ⟨t, run, leaves, answered⟩ := fabricPlanePair_changed h changes
    refine ⟨t, _, run, leaves, answered, ?_⟩
    have rest := setPlanePair_settled (k := planePair p) (lanes := planeLanes p) (s := taken specFabricPlanePair p s)
    rw [taken_settled] at rest
    rw [taken_eq] at rest ⊢
    generalize (taken specFabricPlanePair p s).cmd = c at rest ⊢
    refine ⟨?_, ?_, fun j other => ⟨?_, ?_⟩, fun a b named => ?_, fun a b i member container => ?_, setPlanePair_destOf,
      rest⟩
    · exact congrArg PairCfg.lanes ((pairCfg_setPlanePair _).trans (if_pos rfl))
    · exact (pairOf_setPlanePair _).trans (if_pos rfl)
    · exact (pairCfg_setPlanePair j).trans (if_neg (Ne.symm other))
    · exact (pairOf_setPlanePair j).trans (if_neg (Ne.symm other))
    · have lanes : planeLanes p = some (a, b) := named
      rw [lanes]
      exact setPlanePair_slots a b
    · exact setPlanePair_unusable member container
  · rw [fabricSourceTimeout_silences announced, bad]
    rfl
  · refine ⟨_, fabricSourceTimeout_silences announced, ?_, ?_, ?_, ?_⟩
    all_goals rw [if_pos good]
    · rw [fabricSource_loseFabricBond]
      exact (fabricSource_putFabricSource _ _ _ _).trans (if_pos rfl)
    · exact fun k member => loseFabricBond_unusable (s := unannounced n.val s) member
    · exact fun k member d shown => loseFabricBond_falls (s := unannounced n.val s) member n.isLt shown
    · exact loseFabricBond_settled s.fab s.mtx

end Sys2Proof.Machine
end

section
namespace Sys2Proof.Machine
open Relation

/-! ## What presenting and judging leave (R16, R85, R88, R169) -/

variable {T U : List Area} {α : Type} {a s t : State}

/-- The selections, the families' time, and the settings of destinations that wait for a frame start. -/
def lasting (s : State) : Tab Dest × Tab Dest × Tab Dest × Tab Family × (Nat → Option DestCfg) :=
  (s.mtx.video, s.mtx.anc, s.mtx.audio, s.mtx.families, fun d => (destRun s d).pendingCfg)

/-- One change inside the areas `T`, or of the free space of the Reserve, that leaves what lasts. -/
inductive Show (T : List Area) : State → State → Prop
  | touch {s t : State} (h : Touch T s t) (kept : Machine.lasting t = Machine.lasting s) : Show T s t
  | space (s : State) (n : Nat) : Show T s { s with reserveFree := n }

/-- A run of changes inside the areas `T` that leave what lasts. -/
abbrev Shows (T : List Area) : State → State → Prop := ReflTransGen (Show T)

/-! ### What such a run keeps -/

theorem Shows.lasting (h : Shows T s t) : Machine.lasting t = Machine.lasting s := by
  induction h with
  | refl => rfl
  | tail _ g ih =>
    cases g with
    | touch _ kept => exact kept.trans ih
    | space n => exact ih

theorem Shows.destOf (h : Shows T s t) (m : Matrix) (d : Nat) : destOf t m d = destOf s m d := by
  have kept := h.lasting
  simp only [Machine.lasting, Prod.mk.injEq] at kept
  obtain ⟨video, anc, audio, -⟩ := kept
  cases m <;> simp only [Machine.destOf, video, anc, audio]

theorem Shows.familyOf (h : Shows T s t) (k : Nat) : familyOf t k = familyOf s k := by
  have kept := h.lasting
  simp only [Machine.lasting, Prod.mk.injEq] at kept
  obtain ⟨-, -, -, families, -⟩ := kept
  simp only [Machine.familyOf, families]

theorem Shows.pendingCfg (h : Shows T s t) (d : Nat) : (destRun t d).pendingCfg = (destRun s d).pendingCfg := by
  have kept := h.lasting
  simp only [Machine.lasting, Prod.mk.injEq] at kept
  obtain ⟨-, -, -, -, pending⟩ := kept
  exact congrFun pending d

/-- A state with the areas `T` blanked, what a raise may touch, and the free space of the Reserve. -/
def outside (T : List Area) (s : State) : State := { beyond T s with reserveFree := 0 }

theorem Shows.outside (h : Shows T s t) : Machine.outside T t = Machine.outside T s := by
  induction h with
  | refl => rfl
  | tail _ g ih =>
    cases g with
    | touch h _ => exact (congrArg (fun u => { u with reserveFree := 0 }) h.beyond).trans ih
    | space n => exact ih

/-- What does not look into the areas `T`. -/
theorem Shows.keeps (h : Shows T s t) (f : State → α) (hf : ∀ u, f (Machine.outside T u) = f u) : f t = f s := by
  rw [← hf, h.outside, hf]

theorem Moves.keeps (h : Moves T s t) (f : State → α) (hf : ∀ u, f (Machine.beyond T u) = f u) : f t = f s := by
  rw [← hf, h.beyond, hf]

/-! ### Composing -/

theorem Touch.mono (sub : T ⊆ U) (h : Touch T s t) : Touch U s t := by
  cases h with
  | raise id h => exact .raise _ id (h.imp_left (sub ·))
  | irq e => exact .irq _ e
  | lane l v h hc hl => exact .lane _ l v (sub h) hc hl
  | link x h => exact .link _ x (sub h)
  | pair x y h => exact .pair _ x y (sub h)
  | port n v h hc => exact .port _ n v (sub h) hc
  | pkt x h hp => exact .pkt _ x (sub h) hp
  | cmd x h hi => exact .cmd _ x (sub h) hi
  | tx x h => exact .tx _ x (sub h)
  | _ => constructor; apply sub; assumption

/-- A run of changes beside the matrices leaves what lasts. -/
theorem Moves.shows (h : Moves T s t) (sub : T ⊆ U) (hm : .mtx ∉ T) : Shows U s t := by
  induction h with
  | refl => exact .refl
  | tail _ g ih =>
    have kept := congrArg (fun u => u.mtx) g.beyond
    simp only [Machine.beyond, unraised, hm, if_false] at kept
    exact ih.tail (.touch (g.mono sub) (by simp only [Machine.lasting, destRun, kept]))

theorem ite_shows {c : Prop} [Decidable c] (h : Shows T a s) (g : Shows T a t) : Shows T a (if c then s else t) := by
  split <;> assumption

theorem foldl_shows {f : State → α → State} {l : List α} (hf : ∀ s x, Shows T a s → Shows T a (f s x))
    (h : Shows T a s) : Shows T a (l.foldl f s) := List.foldlRecOn l f h fun u hu x _ => hf u x hu

theorem raiseCore_shows (hf : .fault ∈ T) {id : Nat} (h : Shows T a s) : Shows T a (raiseCore id s) :=
  h.trans ((raiseCore_moves (T := [.fault]) (by decide) .refl).shows (by simpa using hf) (by decide))

/-! ### Records of the matrices -/

section
variable (hm : .mtx ∈ T)
include hm

/-- The matrices change, but for what lasts. -/
theorem mtx_shows {x : Matrices} (kept : lasting { s with mtx := x } = lasting s) (h : Shows T a s) :
    Shows T a { s with mtx := x } := h.tail (.touch (.mtx s x hm) kept)

theorem putEssence_shows {n : Nat} {v : Essence} (h : Shows T a s) : Shows T a (putEssence s n v) := mtx_shows hm rfl h
theorem putSource_shows {n : Nat} {v : Source} (h : Shows T a s) : Shows T a (putSource s n v) := mtx_shows hm rfl h
theorem putTx_shows {d : Nat} {v : TxContainer} (h : Shows T a s) : Shows T a (putTx s d v) :=
  h.tail (.touch (.tx s _ hm) rfl)

theorem putDestRun_shows {d : Nat} {v : DestRun} (same : v.pendingCfg = (destRun s d).pendingCfg) (h : Shows T a s) :
    Shows T a (putDestRun s d v) := by
  refine mtx_shows hm ?_ h
  have kept : ∀ k, (destRun (putDestRun s d v) k).pendingCfg = (destRun s k).pendingCfg := fun k => by
    rw [destRun_putDestRun]
    split
    · rename_i here; rw [same, here]
    · rfl
  exact congrArg (fun x => (s.mtx.video, s.mtx.anc, s.mtx.audio, s.mtx.families, x)) (funext kept)

/-! ### Container destinations -/

theorem pushLine_shows {d : Nat} {l : PicLine} (h : Shows T a s) : Shows T a (pushLine d l s) := by
  unfold pushLine
  split
  exact ite_shows (putTx_shows hm (putTx_shows hm h)) (putTx_shows hm h)

theorem pushFrameStart_shows {d : Nat} {p g : Word} (h : Shows T a s) : Shows T a (pushFrameStart d p g s) :=
  putTx_shows hm (putTx_shows hm h)

theorem fallbackFrame_shows {d : Nat} (h : Shows T a s) : Shows T a (fallbackFrame d s) := by
  unfold fallbackFrame
  exact ite_shows h (foldl_shows (fun _ _ => pushLine_shows hm) (pushFrameStart_shows hm h))

theorem blackRest_shows {d : Nat} (h : Shows T a s) : Shows T a (blackRest d s) := by
  unfold blackRest
  exact ite_shows h (foldl_shows (fun _ _ => pushLine_shows hm) h)

/-! ### What a source presents -/

theorem beginFrame_shows {n : Nat} {p : Word} (h : Shows T a s) : Shows T a (beginFrame n p s) := by
  unfold beginFrame
  exact foldl_shows (fun _ _ => pushFrameStart_shows hm) (foldl_shows (fun _ _ => fallbackFrame_shows hm)
    (putEssence_shows hm h))

theorem presentLine_shows {n : Nat} {l : PicLine} (h : Shows T a s) : Shows T a (presentLine n l s) :=
  foldl_shows (fun _ _ => pushLine_shows hm) (putEssence_shows hm h)

theorem presentSamples_shows {n k : Nat} {ws : List Word} (h : Shows T a s) : Shows T a (presentSamples n k ws s) :=
  putEssence_shows hm h

theorem pushAnc_shows (hk : .link ∈ T) {d : Nat} {p : AncPacket} (h : Shows T a s) : Shows T a (pushAnc d p s) := by
  have counted : Shows T a (countLink (d / 5) (fun c => { c with ancOverflow := sat32 c.ancOverflow 1 }) s) :=
    h.trans ((countLink_moves (T := [.link]) (by decide) .refl).shows (by simpa using hk) (by decide))
  unfold pushAnc
  split
  exact ite_shows h (ite_shows (putTx_shows hm (putTx_shows hm h)) counted)

theorem presentAnc_shows (hk : .link ∈ T) {n : Nat} {p : AncPacket} (h : Shows T a s) : Shows T a (presentAnc n p s) :=
  foldl_shows (fun _ _ => pushAnc_shows hm hk) (putEssence_shows hm h)

theorem presentFrame_shows (hk : .link ∈ T) {n : Nat} {f : MediaFrame} (h : Shows T a s) :
    Shows T a (presentFrame n f s) := by
  unfold presentFrame
  exact foldl_shows (fun _ _ => presentAnc_shows hm hk) (foldl_shows (fun _ _ => presentLine_shows hm)
    (beginFrame_shows hm h))

/-! ### Judging -/

variable (hf : .fault ∈ T)
include hf

theorem countJudgment_shows {d : Nat} (h : Shows T a s) : Shows T a (countJudgment d s) := by
  unfold countJudgment
  extract_lets r
  split
  · exact putDestRun_shows hm rfl h
  · extract_lets mism ref s1 again src s2
    have h1 : Shows T a s1 := putDestRun_shows hm rfl h
    have h2 : Shows T a s2 := ite_shows (mtx_shows hm rfl h1) h1
    exact ite_shows (raiseCore_shows hf (mtx_shows hm rfl h2)) h2

theorem enterFallback_shows {d : Nat} (h : Shows T a s) : Shows T a (enterFallback d s) := by
  have fell : Shows T a (fallen d s) := blackRest_shows hm (putDestRun_shows hm rfl h)
  rw [enterFallback_eq]
  exact ite_shows h (ite_shows (raiseCore_shows hf fell) fell)

theorem judgeDest_shows {d : Nat} (h : Shows T a s) : Shows T a (judgeDest d s) :=
  ite_shows (enterFallback_shows hm hf (countJudgment_shows hm hf h)) (countJudgment_shows hm hf h)

theorem judgeAll_shows {n : Nat} (h : Shows T a s) : Shows T a (judgeAll n s) :=
  foldl_shows (fun _ _ => judgeDest_shows hm hf) h

theorem loseSource_shows {n : Nat} (h : Shows T a s) : Shows T a (loseSource n s) :=
  judgeAll_shows hm hf (putSource_shows hm h)

theorem gainSource_shows {n f k : Nat} {p : Word} (h : Shows T a s) : Shows T a (gainSource n f k p s) :=
  judgeAll_shows hm hf (putSource_shows hm h)
end

end Sys2Proof.Machine
end

section
namespace Sys2Proof.Machine
open Relation

/-! ## A family's presentation point (R120, R167, R198, R308) -/

variable {T : List Area} {a s t : State}

theorem pkt_shows (hp : .pkt ∈ T) {x : Packets} (ports : x.ports = s.pkt.ports) (h : Shows T a s) :
    Shows T a { s with pkt := x } := h.tail (.touch (.pkt s x hp ports) rfl)
theorem comp_shows (hc : .comp ∈ T) {x : Compositor} (h : Shows T a s) : Shows T a { s with comp := x } :=
  h.tail (.touch (.comp s x hc) rfl)
theorem eng_shows (he : .eng ∈ T) {x : Engines} (h : Shows T a s) : Shows T a { s with eng := x } :=
  h.tail (.touch (.eng s x he) rfl)
theorem sdi_shows (hs : .sdi ∈ T) {x : Sdi} (h : Shows T a s) : Shows T a { s with sdi := x } :=
  h.tail (.touch (.sdi s x hs) rfl)

/-! ### Receive flows (R198 to R203) -/

section
variable (hT : flowAreas ⊆ T)
include hT

theorem putRxFlow_shows {n : Nat} {v : RxFlow} (h : Shows T a s) : Shows T a (putRxFlow s n v) :=
  pkt_shows (hT (by decide)) rfl h

theorem countIncomplete_shows {n : Nat} {f : RxFlow} {b : Bool} (h : Shows T a s) :
    Shows T a (countIncomplete n f b s) := ite_shows (putRxFlow_shows hT h) h

theorem releaseRow_shows {n y : Nat} {f : RxFlow} {b : RxBuffer} (h : Shows T a s) :
    Shows T a (releaseRow n y f b s) := by
  unfold releaseRow
  split
  extract_lets xs s1 src
  have counted : Shows T a s1 := countIncomplete_shows hT h
  exact ite_shows (presentLine_shows (hT (by decide)) counted) counted

theorem flowPacket_shows {n src : Nat} {sd : Bool} {line : List RxAnc} {x : RxAnc} (h : Shows T a s) :
    Shows T a (flowPacket n src sd line s x) := by
  have hm : Area.mtx ∈ T := hT (by decide)
  unfold flowPacket
  split
  · exact h
  · split
    · refine ite_shows h ?_
      split
      · exact foldl_shows (fun _ _ => presentSamples_shows hm) h
      · exact foldl_shows (fun _ _ => presentSamples_shows hm) h
    · exact ite_shows (putRxFlow_shows hT h) h
    · exact ite_shows (presentAnc_shows hm (hT (by decide)) h) h
    · exact h

theorem releaseRaster_shows {n y fmt : Nat} {f : RxFlow} {b : RxBuffer} (h : Shows T a s) :
    Shows T a (releaseRaster n y fmt f b s) := by
  have counted : ∀ m, Shows T a (countIncomplete n f m s) := fun _ => countIncomplete_shows hT h
  unfold releaseRaster
  exact ite_shows (foldl_shows (fun _ _ => flowPacket_shows hT)
    (foldl_shows (fun _ _ => presentLine_shows (hT (by decide))) (counted _))) (counted _)

theorem releaseLine_shows {n y : Nat} (h : Shows T a s) : Shows T a (releaseLine n s y) := by
  unfold releaseLine
  split
  · exact h
  · extract_lets s1 f1
    have shown : Shows T a s1 := putRxFlow_shows hT h
    split
    · exact shown
    · split
      · exact releaseRow_shows hT shown
      · exact releaseRaster_shows hT shown
      · exact shown

theorem releaseTo_shows {n y : Nat} (h : Shows T a s) : Shows T a (releaseTo n y s) := by
  unfold releaseTo
  split
  · exact h
  · exact foldl_shows (fun _ _ => releaseLine_shows hT) h

theorem loseFlow_shows {n : Nat} {f : RxFlow} (h : Shows T a s) : Shows T a (loseFlow n f s) := by
  have lost : Shows T a ((flowSources n f).foldl (fun s x => loseSource x s) s) :=
    foldl_shows (fun _ _ => loseSource_shows (hT (by decide)) (hT (by decide))) h
  have raised := (raisePacket_moves (T := .fault :: wireAreas)
    (id := faultId 0x05 (n / 1024) 12) (by decide) (by decide)
    (.refl (a := (flowSources n f).foldl (fun s x => loseSource x s) s))).shows (U := T)
      (List.Subset.trans (by decide) hT) (by decide)
  exact ite_shows (lost.trans raised) lost

theorem settleShown_shows {n : Nat} (h : Shows T a s) : Shows T a (settleShown n s) := by
  unfold settleShown
  split
  · exact h
  · extract_lets s1
    have released : Shows T a s1 := releaseTo_shows hT h
    split
    · extract_lets holds pid same f1 s2
      have counted : Shows T a s2 := putRxFlow_shows hT released
      exact ite_shows (loseFlow_shows hT counted) counted
    · exact putRxFlow_shows hT released

theorem presentAncillary_shows {n : Nat} {f : RxFlow} {b : Option RxBuffer} (h : Shows T a s) :
    Shows T a (presentAncillary n f b s) := by
  have hm : Area.mtx ∈ T := hT (by decide)
  unfold presentAncillary
  split
  · exact h
  · exact foldl_shows (fun _ _ => presentAnc_shows hm (hT (by decide))) (ite_shows h (putEssence_shows hm h))

theorem presentPicture_shows {n : Nat} {f : RxFlow} {b : Bool} (h : Shows T a s) :
    Shows T a (presentPicture n f b s) := by
  have hm : Area.mtx ∈ T := hT (by decide)
  unfold presentPicture
  exact ite_shows (loseFlow_shows hT h) (ite_shows h (foldl_shows (fun _ _ => beginFrame_shows hm)
    (foldl_shows (fun _ _ => gainSource_shows hm (hT (by decide))) h)))

theorem presentAt_shows {n : Nat} {x : Int} (h : Shows T a s) : Shows T a (presentAt n x s) := by
  unfold presentAt
  extract_lets s1
  have settled : Shows T a s1 := settleShown_shows hT h
  split
  · exact settled
  · exact ite_shows (presentAncillary_shows hT (putRxFlow_shows hT settled))
      (presentPicture_shows hT (putRxFlow_shows hT settled))

theorem presentFlow_shows {n : Nat} (h : Shows T a s) : Shows T a (presentFlow n s) := by
  unfold presentFlow
  split
  · exact h
  · exact ite_shows h (presentAt_shows hT (ite_shows (presentAt_shows hT h) h))
end

/-! ### Transmit flows (R206, R209) -/

theorem finishLeg_moves (hp : .pkt ∈ T) {l : TxLeg} (h : Moves T a s) : Moves T a (finishLeg l s).1 := by
  unfold finishLeg
  split
  · exact h
  · exact appendFrame_moves hp (putPool_moves hp h)

theorem flushQueue_moves (hp : .pkt ∈ T) {q : Nat} (h : Moves T a s) : Moves T a (flushQueue q s) :=
  foldl_moves (fun _ _ => discardCells_moves hp) (putQueue_moves hp h)

theorem endTxFlow_moves (hp : .pkt ∈ T) {n : Nat} (h : Moves T a s) : Moves T a (endTxFlow n s) := by
  unfold endTxFlow
  split
  · exact h
  · exact retryAll_moves hp (foldl_moves (fun _ _ => finishLeg_moves hp)
      (foldl_moves (fun _ _ => flushQueue_moves hp) (pkt_moves hp rfl h)))

theorem startTxFlow_moves (hp : .pkt ∈ T) {n : Nat} (h : Moves T a s) : Moves T a (startTxFlow n s) := by
  unfold startTxFlow
  split
  · exact h
  · exact ite_moves h (ite_moves (endTxFlow_moves hp h) (putTxFlow_moves hp h))

theorem presentFlows_shows (hT : flowAreas ⊆ T) {fam : Nat} (h : Shows T a s) : Shows T a (presentFlows fam s) := by
  have starts : ∀ u n, Shows T a u → Shows T a (startTxFlow n u) := fun u n hu =>
    hu.trans ((startTxFlow_moves (T := [.pkt]) (by decide) .refl).shows (List.Subset.trans (by decide) hT) (by decide))
  unfold presentFlows
  exact foldl_shows starts (foldl_shows (fun _ _ => presentFlow_shows hT) h)

/-! ### Generators, record slots and fallback frames (R19, R146, R340) -/

section
variable (hm : .mtx ∈ T)
include hm

theorem presentFallback_shows {fam : Nat} {n : Word} (h : Shows T a s) : Shows T a (presentFallback fam n s) := by
  unfold presentFallback
  exact foldl_shows (fun _ _ hu => ite_shows (fallbackFrame_shows hm hu) hu) h

variable (hk : .link ∈ T)
include hk

theorem presentPlayback_shows {n : Nat} (h : Shows T a s) : Shows T a (presentPlayback n s) := by
  unfold presentPlayback
  split
  · exact foldl_shows (fun _ _ => presentSamples_shows hm) (presentFrame_shows hm hk h)
  · exact h

variable (hf : .fault ∈ T)
include hf

theorem presentGenerators_shows (he : .eng ∈ T) {fam : Nat} {n : Word} (h : Shows T a s) :
    Shows T a (presentGenerators fam n s) := by
  refine foldl_shows (fun u p hu => ?_) h
  dsimp only
  split
  · exact ite_shows (presentFrame_shows hm hk (ite_shows hu (gainSource_shows hm hf (eng_shows he hu)))) hu
  · exact hu

omit hk in
theorem recordFrame_shows {d : Nat} (h : Shows T a s) : Shows T a (recordFrame d s) := by
  unfold recordFrame
  extract_lets k
  split
  · exact h
  · exact foldl_shows (fun _ _ hu => judgeAll_shows hm hf (putSource_shows hm hu)) (mtx_shows hm rfl h)

theorem presentRecords_shows {fam : Nat} {n : Word} (h : Shows T a s) : Shows T a (presentRecords fam n s) := by
  unfold presentRecords
  exact foldl_shows (fun _ _ hu => ite_shows (recordFrame_shows hm hf hu) hu)
    (foldl_shows (fun _ _ hu => ite_shows (presentPlayback_shows hm hk hu) hu) h)
end

/-! ### The compositor (R308, R309, R317, R323) -/

theorem mem_insertChange {c d : CompStaged} {l : List CompStaged} (h : c ∈ insertChange d l) : c = d ∨ c ∈ l := by
  induction l with
  | nil => exact .inl (List.mem_singleton.mp h)
  | cons e r ih =>
    unfold insertChange at h
    split at h
    · exact List.mem_cons.mp h
    · rcases List.mem_cons.mp h with same | h
      · exact .inr (same ▸ List.mem_cons_self)
      · exact (ih h).imp_right (List.mem_cons_of_mem e)

/-- The changes that become due are of those that were staged. -/
theorem mem_sortedChanges {c : CompStaged} {l : List CompStaged} (h : c ∈ l.foldl (fun r c => insertChange c r) []) :
    c ∈ l := by
  refine List.foldlRecOn (motive := fun r => ∀ x ∈ r, x ∈ l) l _ (fun x hx => absurd hx List.not_mem_nil)
    (fun r hr d hd x hx => ?_) c h
  rcases mem_insertChange hx with rfl | hx
  · exact hd
  · exact hr x hx

theorem eachLayer_shows {heads : List Nat} {f : Nat → Nat → State → State}
    (hf : ∀ u h l, Shows T a u → Shows T a (f h l u)) (h : Shows T a s) : Shows T a (eachLayer heads f s) :=
  foldl_shows (fun _ _ => foldl_shows fun _ _ => hf _ _ _) h

/-- What the compositor may change at a presentation point. -/
def compAreas : List Area := [.fault, .mtx, .link, .pkt, .cmd, .comp]

section
variable (hT : compAreas ⊆ T)
include hT

theorem complete_shows {r : Option Reply} {x : Answer} (h : Shows T a s) : Shows T a (complete r x s) :=
  h.trans ((complete_moves (List.Subset.refl replyAreas) .refl).shows (List.Subset.trans (by decide) hT) (by decide))

/-- Staged changes that are due are applied; those of video layers alone touch nothing but the compositor. -/
theorem applyStaged_shows {test : CompStaged → Bool} {hang : Nat → Word} {fam : Nat}
    (video : ∀ c, test c = true → isVideoChange c.change = true) (h : Shows T a s) :
    Shows T a (applyStaged test hang fam s) := by
  have hc : Area.comp ∈ T := hT (by decide)
  refine List.foldlRecOn _ _ (comp_shows hc h) fun u hu c mem => complete_shows hT ?_
  have isVideo := video c (List.mem_filter.mp (mem_sortedChanges mem)).2
  obtain ⟨head, hangs, change, reply⟩ := c
  cases change with
  | video l c => exact comp_shows hc hu
  | head | graphic | table => cases isVideo

theorem closeFrame_shows {n l : Nat} (h : Shows T a s) : Shows T a (closeFrame n l s) := by
  unfold closeFrame
  extract_lets v head
  split
  · exact h
  · exact comp_shows (hT (by decide)) h

theorem presentHead_shows {n : Nat} {m : Word} (h : Shows T a s) : Shows T a (presentHead n m s) := by
  have hm : Area.mtx ∈ T := hT (by decide)
  have hc : Area.comp ∈ T := hT (by decide)
  unfold presentHead
  extract_lets layers s1 v s2
  have shown : Shows T a s1 := foldl_shows (fun _ _ => comp_shows hc) h
  have offered : Shows T a s2 := ite_shows shown (gainSource_shows hm (hT (by decide)) (comp_shows hc shown))
  exact presentFrame_shows hm (hT (by decide)) offered

theorem trimHead_shows {n : Nat} (h : Shows T a s) : Shows T a (trimHead n s) :=
  ite_shows ((comp_shows (hT (by decide)) h).tail (.space _ _)) h

theorem judgeFit_shows {n l : Nat} {m : Word} (h : Shows T a s) : Shows T a (judgeFit n l m s) := by
  have hc : Area.comp ∈ T := hT (by decide)
  have raised : ∀ u id, Shows T a u → Shows T a (raiseComp id u) := fun u id hu =>
    ite_shows (ite_shows (comp_shows hc (raiseCore_shows (hT (by decide)) hu))
      (comp_shows hc (raiseCore_shows (hT (by decide)) hu))) (raiseCore_shows (hT (by decide)) hu)
  unfold judgeFit
  exact ite_shows h (ite_shows (raised _ _ (comp_shows hc h)) (comp_shows hc h))

theorem judgeWindow_shows {n l : Nat} {m : Word} (h : Shows T a s) : Shows T a (judgeWindow n l m s) := by
  have hc : Area.comp ∈ T := hT (by decide)
  unfold judgeWindow
  exact ite_shows (ite_shows h (comp_shows hc h)) (judgeDest_shows (hT (by decide)) (hT (by decide)) (comp_shows hc h))

theorem openFrame_shows {n l : Nat} {m : Word} (h : Shows T a s) : Shows T a (openFrame n l m s) := by
  have hc : Area.comp ∈ T := hT (by decide)
  unfold openFrame
  extract_lets v
  split
  · exact h
  · extract_lets v1
    split
    · exact comp_shows hc h
    · exact comp_shows hc h

theorem compPresent_shows {fam : Nat} {n : Word} (h : Shows T a s) : Shows T a (compPresent fam n s) := by
  have hc : Area.comp ∈ T := hT (by decide)
  unfold compPresent
  extract_lets heads s1 s2 s3 s4 s5
  have closed : Shows T a s1 := eachLayer_shows (fun _ _ _ => closeFrame_shows hT) h
  have presented : Shows T a s2 := foldl_shows (fun _ _ => presentHead_shows hT) closed
  have dropped : Shows T a s3 := eachLayer_shows (fun _ _ _ hu => ite_shows (comp_shows hc hu) hu) presented
  have applied : Shows T a s4 := applyStaged_shows hT (fun c due => (Bool.and_eq_true_iff.mp due).2) dropped
  have trimmed : Shows T a s5 := foldl_shows (fun _ _ => trimHead_shows hT) applied
  exact eachLayer_shows (fun _ _ _ hu => openFrame_shows hT (judgeFit_shows hT (judgeWindow_shows hT hu))) trimmed
end

end Sys2Proof.Machine
end

section
namespace Sys2Proof.Machine
open Relation

/-! ## What a presentation point applies and presents (R120, R167) -/

variable {T : List Area} {α : Type} {s t u : State} {d e k fam : Nat} {c : DestCfg} {n : Word}

/-- A record that differs from the reset record is listed. -/
theorem mem_keys_of_listed {x : Tab α} {v : α} (h : tfind x k = some v) : k ∈ x.map (fun e => e.1) :=
  List.mem_map.mpr (exists_mem_of_tfind h)

/-! ### Settings that wait for a frame start (R167) -/

/-- The device with the settings of destination d in force that waited, before it is judged. -/
def configured (d : Nat) (c : DestCfg) (s : State) : State :=
  setDestCfg d c (putDestRun s d { destRun s d with pendingCfg := none })

theorem applyPendingDest_none (h : (destRun s d).pendingCfg = none) : applyPendingDest d s = s := by
  unfold applyPendingDest
  rw [h]

theorem applyPendingDest_some (h : (destRun s d).pendingCfg = some c) :
    Shows [.fault, .mtx] (configured d c s) (applyPendingDest d s) := by
  unfold applyPendingDest
  rw [h]
  exact judgeDest_shows (by decide) (by decide) .refl

/-- What the settings of the destinations do not reach: the other settings, the SDI lanes, the compositor and the
families. -/
def beyondDests (s : State) : Settings × Sdi × Compositor × (Nat → Family) :=
  ({ s.set with dests := [] }, s.sdi, s.comp, familyOf s)

theorem applyPendingDest_beyondDests : beyondDests (applyPendingDest d s) = beyondDests s := by
  cases h : (destRun s d).pendingCfg with
  | none => rw [applyPendingDest_none h]
  | some c =>
    have judged := applyPendingDest_some h
    have rest := judged.keeps (fun u => ({ u.set with dests := [] }, u.sdi, u.comp)) fun _ => rfl
    have families : familyOf (applyPendingDest d s) = familyOf s := funext judged.familyOf
    exact congrArg₂ (fun (x : Settings × Sdi × Compositor) f => (x.1, x.2.1, x.2.2, f)) rest families

theorem applyPendingDests_beyondDests : beyondDests (applyPendingDests fam s) = beyondDests s :=
  foldl_keeps (g := beyondDests) (fun u d => by
    split
    · exact applyPendingDest_beyondDests
    · rfl) _

/-- The settings of destination d, in force and waiting. -/
def destSettings (s : State) (d : Nat) : DestCfg × Option DestCfg := (destCfg s d, (destRun s d).pendingCfg)

theorem destSettings_applyPendingDest (h : (destRun s d).pendingCfg = some c) (k : Nat) :
    destSettings (applyPendingDest d s) k = if d = k then (c, none) else destSettings s k := by
  have judged := applyPendingDest_some h
  have cfg : destCfg (applyPendingDest d s) k = if d = k then c else destCfg s k :=
    (judged.keeps (fun u => destCfg u k) fun _ => rfl).trans (tget_tset _ _ _ _ _)
  have run : destRun (configured d c s) k = if d = k then { destRun s d with pendingCfg := none } else destRun s k :=
    destRun_putDestRun _ _ _ _
  unfold destSettings
  rw [cfg, judged.pendingCfg, run]
  split <;> rfl

theorem destSettings_applyPendingDest_other (other : d ≠ k) :
    destSettings (applyPendingDest d s) k = destSettings s k := by
  cases h : (destRun s d).pendingCfg with
  | none => rw [applyPendingDest_none h]
  | some c => rw [destSettings_applyPendingDest h, if_neg other]

theorem destFamily_of_beyondDests (h : beyondDests t = beyondDests s) (cfg : destCfg t d = destCfg s d) :
    destFamily t d = destFamily s d := by
  have outputs : t.set.sdiOut = s.set.sdiOut := congrArg (fun x => x.1.sdiOut) h
  have comp : t.comp = s.comp := congrArg (fun x => x.2.2.1) h
  simp only [destFamily, sdiOutCfg, headOf, outputs, comp, cfg]

/-- A destination of the family has the settings that waited in force after the presentation point. -/
theorem applyPendingDests_applies (waits : (destRun s d).pendingCfg = some c) (here : destFamily s d = fam) :
    destSettings (applyPendingDests fam s) d = (c, none) := by
  have listed : ∃ v, tfind s.mtx.destRun d = some v := by
    refine Option.isSome_iff_exists.mp (Option.isSome_iff_ne_none.mpr fun gone => ?_)
    rw [destRun, tget, gone] at waits
    cases waits
  obtain ⟨v, listed⟩ := listed
  let Waits := fun u => destSettings u d = destSettings s d ∧ beyondDests u = beyondDests s
  let Applied := fun u => destSettings u d = (c, none)
  let step := fun (u : State) (y : Nat) => if destFamily u y = fam then applyPendingDest y u else u
  have applies : ∀ u, Waits u → Applied (step u d) := fun u ⟨same, rest⟩ => by
    obtain ⟨cfg, pending⟩ := Prod.mk.inj same
    have family : destFamily u d = fam := (destFamily_of_beyondDests rest cfg).trans here
    show destSettings (if _ then _ else _) d = _
    rw [if_pos family, destSettings_applyPendingDest (pending.trans waits), if_pos rfl]
  have keeps : ∀ u y, Applied u → Applied (step u y) := fun u y applied => by
    show destSettings (if _ then _ else _) d = _
    split
    · by_cases same : y = d
      · rw [same, applyPendingDest_none (Prod.mk.inj applied).2]
        exact applied
      · rw [destSettings_applyPendingDest_other same]
        exact applied
    · exact applied
  have goesOn : ∀ u y, y ≠ d → Waits u → Waits (step u y) := fun u y other ⟨same, rest⟩ => by
    show destSettings (if _ then _ else _) d = _ ∧ beyondDests (if _ then _ else _) = _
    split
    · exact ⟨(destSettings_applyPendingDest_other other).trans same, applyPendingDest_beyondDests.trans rest⟩
    · exact ⟨same, rest⟩
  refine foldl_reaches (I := fun u => Waits u ∨ Applied u) (P := Applied) (g := step) (mem_keys_of_listed listed)
    (.inl ⟨rfl, rfl⟩) (fun u y h => ?_) (fun u h => h.elim (applies u) (keeps u d)) keeps
  rcases h with h | h
  · by_cases same : y = d
    · exact .inr (same ▸ applies u h)
    · exact .inl (goesOn u y same h)
  · exact .inr (keeps u y h)

/-! ### Frame synchronizers (R120 to R122) -/

theorem sdiInOf_of_sdi (h : t.sdi = s.sdi) (k : Nat) : sdiInOf t k = sdiInOf s k := by simp only [sdiInOf, h]

theorem presentStored_shows (hm : .mtx ∈ T) (hk : .link ∈ T) {a : State} {anew : Bool} {f : MediaFrame}
    (h : Shows T a s) : Shows T a (presentStored e anew f s) := by
  have framed : Shows T a (presentFrame (sdiSource e) f s) := presentFrame_shows hm hk h
  unfold presentStored
  exact foldl_shows (fun _ _ => presentSamples_shows hm) (ite_shows (putEssence_shows hm framed) framed)

theorem presentStored_sdi {anew : Bool} {f : MediaFrame} : (presentStored e anew f s).sdi = s.sdi :=
  (presentStored_shows (T := [.mtx, .link]) (by decide) (by decide) .refl).keeps (fun u => u.sdi) fun _ => rfl

theorem presentFrame_sdi {m : Nat} {f : MediaFrame} : (presentFrame m f s).sdi = s.sdi :=
  (presentFrame_shows (T := [.mtx, .link]) (by decide) (by decide) .refl).keeps (fun u => u.sdi) fun _ => rfl

/-- A synchronizer that has presented its newest complete frame. -/
structure Presented (i : SdiIn) : Prop where
  completed : i.completed = 0
  haveFrame : i.haveFrame = true
  usablePending : i.usablePending = false
  frozen : i.frozen = false

/-- A synchronizer that presents its newest complete frame. -/
def presenting (i : SdiIn) : SdiIn :=
  { i with completed := 0, usablePending := false, frozen := false, haveFrame := true, shown := i.stored
           seam := false }

/-- The device with the newest complete frame of synchronizer e taken up. -/
def newestTaken (e : Nat) (s : State) : State := putSdiIn s e (presenting (sdiInOf s e))

/-- The device with the source of synchronizer e usable, or the frames counted that it has dropped. -/
def newestOffered (e : Nat) (s : State) : State :=
  let i := sdiInOf s e
  let n := sdiSource e
  let t := newestTaken e s
  if i.usablePending then
    let t := if i.frozen && (sourceOf t n).pid != i.pid then loseSource n t else t
    gainSource n (i.detected.getD 0) (sdiInCfg t e).family i.pid t
  else countSdiIn e (fun c => { c with drops := sat32 c.drops (i.completed - 1) }) t

theorem presentNewest_sdi : (presentNewest e s).sdi = (newestOffered e s).sdi := presentStored_sdi

theorem newestOffered_input (k : Nat) : (k ≠ e → sdiInOf (newestOffered e s) k = sdiInOf s k)
    ∧ Presented (sdiInOf (newestOffered e s) e) := by
  have taken : ∀ j, sdiInOf (newestTaken e s) j = if e = j then presenting (sdiInOf s e) else sdiInOf s j := fun j =>
    sdiInOf_putSdiIn _ _ j _
  have here := (taken e).trans (if_pos rfl)
  have there : k ≠ e → sdiInOf (newestTaken e s) k = sdiInOf s k := fun h => (taken k).trans (if_neg (Ne.symm h))
  unfold newestOffered
  extract_lets i m t t'
  split
  · have offered : Shows [.fault, .mtx] t (gainSource m (i.detected.getD 0) (sdiInCfg t' e).family i.pid t') :=
      gainSource_shows (by decide) (by decide) (ite_shows (loseSource_shows (by decide) (by decide) .refl) .refl)
    have kept := fun j => offered.keeps (fun u => sdiInOf u j) fun _ => rfl
    refine ⟨fun h => (kept k).trans (there h), ?_⟩
    rw [kept, here]
    exact ⟨rfl, rfl, rfl, rfl⟩
  · refine ⟨fun h => ?_, ?_⟩
    · exact (sdiInOf_putSdiIn _ _ _ _).trans ((if_neg (Ne.symm h)).trans (there h))
    · rw [countSdiIn, sdiInOf_putSdiIn, if_pos rfl, here]
      exact ⟨rfl, rfl, rfl, rfl⟩

theorem presentFrozen_sdi : (presentFrozen e s).sdi = (putSdiIn s e { sdiInOf s e with
    completed := 0, shown := if (sdiInOf s e).completed = 0 then (sdiInOf s e).shown else (sdiInOf s e).stored }).sdi :=
  presentFrame_sdi

/-- The device with a repeat of synchronizer e counted, and its seam. -/
def repeated (e : Nat) (s : State) : State :=
  countSdiIn e (fun c => { c with repeats := sat32 c.repeats 1 }) (putSdiIn s e { sdiInOf s e with seam := true })

theorem presentAgain_sdi : (presentAgain e s).sdi = (repeated e s).sdi := presentStored_sdi

theorem repeated_input (k : Nat) : sdiInOf (repeated e s) k = if e = k then
    { sdiInOf s e with seam := true, counters := { (sdiInOf s e).counters with
      repeats := sat32 (sdiInOf s e).counters.repeats 1 } } else sdiInOf s k := by
  simp only [repeated, countSdiIn, sdiInOf_putSdiIn, if_pos]
  split <;> rfl

/-- A synchronizer with a complete frame that is usable presents it. -/
theorem presentSync_newest (usable : (sdiInOf s e).state = .usable) (complete : (sdiInOf s e).completed ≠ 0) :
    presentSync e s = presentNewest e s := by
  unfold presentSync
  simp only [usable, complete, bne_self_eq_false, beq_eq_false_iff_ne.mpr complete, Bool.or_self, Bool.and_false,
    Bool.false_eq_true, if_false]

theorem presentSync_again (h : Presented (sdiInOf s e)) : presentSync e s = presentAgain e s := by
  unfold presentSync
  simp only [h.frozen, h.completed, h.usablePending, Bool.false_and, Bool.false_eq_true, if_false, if_true]

theorem presentSync_other (other : k ≠ e) : sdiInOf (presentSync e s) k = sdiInOf s k := by
  unfold presentSync
  extract_lets i
  split
  · rw [sdiInOf_of_sdi presentFrozen_sdi, sdiInOf_putSdiIn, if_neg (Ne.symm other)]
  · split
    · split
      · rfl
      · rw [sdiInOf_of_sdi presentAgain_sdi, repeated_input, if_neg (Ne.symm other)]
    · rw [sdiInOf_of_sdi presentNewest_sdi]
      exact (newestOffered_input k).1 other

theorem presentSync_presents (usable : (sdiInOf s e).state = .usable) (complete : (sdiInOf s e).completed ≠ 0) :
    Presented (sdiInOf (presentSync e s) e) := by
  rw [presentSync_newest usable complete, sdiInOf_of_sdi presentNewest_sdi]
  exact (newestOffered_input e).2

theorem presentSync_presented (h : Presented (sdiInOf s e)) : Presented (sdiInOf (presentSync e s) e) := by
  rw [presentSync_again h, sdiInOf_of_sdi presentAgain_sdi, repeated_input, if_pos rfl]
  exact ⟨h.completed, h.haveFrame, h.usablePending, h.frozen⟩

theorem presentSync_shows {a : State} (h : Shows [.fault, .mtx, .link, .sdi] a s) :
    Shows [.fault, .mtx, .link, .sdi] a (presentSync e s) := by
  have put : ∀ u v, Shows [.fault, .mtx, .link, .sdi] a u → Shows [.fault, .mtx, .link, .sdi] a (putSdiIn u e v) :=
    fun _ _ => sdi_shows (by decide)
  have offered : Shows [.fault, .mtx, .link, .sdi] a (newestOffered e s) :=
    ite_shows (gainSource_shows (by decide) (by decide)
      (ite_shows (loseSource_shows (by decide) (by decide) (put _ _ h)) (put _ _ h))) (put _ _ (put _ _ h))
  unfold presentSync
  exact ite_shows (presentFrame_shows (by decide) (by decide) (put _ _ h))
    (ite_shows (ite_shows h (presentStored_shows (by decide) (by decide) (put _ _ (put _ _ h))))
      (presentStored_shows (by decide) (by decide) offered))

/-! ### The family's synchronizers at the presentation point -/

/-- A synchronizer of the family that is due at hang n. -/
def syncDue (fam : Nat) (n : Word) (s : State) (e : Nat) : Bool :=
  isSdi s e && (sdiInCfg s e).mode == 2 && (sdiInCfg s e).family == fam
    && ((sdiInOf s e).state == .usable || (sdiInOf s e).frozen)
    && !(isHalf s fam (sdiInOf s e).detected && n.getLsbD 0)

theorem presentSyncs_eq (fam : Nat) (n : Word) (s : State) : presentSyncs fam n s =
    (s.sdi.inputs.map (fun e => e.1)).foldl (fun s e => if syncDue fam n s e then presentSync e s else s) s := rfl

theorem presentSyncs_shows : Shows [.fault, .mtx, .link, .sdi] s (presentSyncs fam n s) := by
  rw [presentSyncs_eq]
  exact foldl_shows (fun _ _ hu => ite_shows (presentSync_shows hu) hu) .refl

theorem syncDue_of_parts (lanes : t.set.lanes = s.set.lanes) (inputs : t.set.sdiIn = s.set.sdiIn)
    (families : t.set.families = s.set.families) (input : sdiInOf t e = sdiInOf s e) :
    syncDue fam n t e = syncDue fam n s e := by
  simp only [syncDue, isSdi, laneMode, boundLane, laneCfg, sdiInCfg, isHalf, familyRate, familyCfg, lanes, inputs,
    families, input]
  rfl

theorem syncDue_of_beyondDests (h : beyondDests t = beyondDests s) : syncDue fam n t e = syncDue fam n s e :=
  syncDue_of_parts (congrArg (fun x => x.1.lanes) h :) (congrArg (fun x => x.1.sdiIn) h :)
    (congrArg (fun x => x.1.families) h :) (sdiInOf_of_sdi (congrArg (fun x => x.2.1) h) e)

theorem presentSyncs_presents (due : syncDue fam n s e = true) (usable : (sdiInOf s e).state = .usable)
    (complete : (sdiInOf s e).completed ≠ 0) : Presented (sdiInOf (presentSyncs fam n s) e) := by
  have listed : ∃ v, tfind s.sdi.inputs e = some v := by
    refine Option.isSome_iff_exists.mp (Option.isSome_iff_ne_none.mpr fun gone => ?_)
    rw [sdiInOf, tget, gone] at complete
    exact complete rfl
  obtain ⟨v, listed⟩ := listed
  let Waits := fun u => sdiInOf u e = sdiInOf s e ∧ u.set = s.set
  let Done := fun u => Presented (sdiInOf u e)
  let step := fun (u : State) (y : Nat) => if syncDue fam n u y then presentSync y u else u
  have presents : ∀ u, Waits u → Done (step u e) := fun u ⟨input, set⟩ => by
    show Presented (sdiInOf (if _ then _ else _) e)
    rw [if_pos ((syncDue_of_parts (by rw [set]) (by rw [set]) (by rw [set]) input).trans due)]
    exact presentSync_presents (input ▸ usable) (input ▸ complete)
  have keeps : ∀ u y, Done u → Done (step u y) := fun u y done => by
    show Presented (sdiInOf (if _ then _ else _) e)
    split
    · by_cases same : e = y
      · exact same ▸ presentSync_presented done
      · rw [presentSync_other same]
        exact done
    · exact done
  have goesOn : ∀ u y, e ≠ y → Waits u → Waits (step u y) := fun u y other ⟨input, set⟩ => by
    show sdiInOf (if _ then _ else _) e = _ ∧ State.set (if _ then _ else _) = _
    split
    · exact ⟨(presentSync_other other).trans input,
        ((presentSync_shows .refl).keeps (fun u => u.set) fun _ => rfl).trans set⟩
    · exact ⟨input, set⟩
  rw [presentSyncs_eq]
  refine foldl_reaches (I := fun u => Waits u ∨ Done u) (P := Done) (g := step) (mem_keys_of_listed listed)
    (.inl ⟨rfl, rfl⟩) (fun u y h => ?_) (fun u h => h.elim (presents u) (keeps u e)) keeps
  rcases h with h | h
  · by_cases same : e = y
    · exact .inr (same ▸ presents u h)
    · exact .inl (goesOn u y same h)
  · exact .inr (keeps u y h)

/-! ### The presentation point -/

/-- What follows the frame synchronizers at a presentation point. -/
def presentRest (fam : Nat) (n : Word) (s : State) : State :=
  compPresent fam n (presentFallback fam n (presentRecords fam n (presentGenerators fam n (presentFlows fam s))))

theorem presentation_eq (fam : Nat) (s : State) : presentation fam s = presentRest fam (familyOf s fam).hang
    (presentSyncs fam (familyOf s fam).hang (applyPendingDests fam s)) := rfl

/-- What flows, generators, record slots and the compositor may change at a presentation point. -/
def restAreas : List Area := flowAreas ++ compAreas ++ [.eng]

theorem presentRest_shows : Shows restAreas s (presentRest fam n s) :=
  compPresent_shows (by decide) (presentFallback_shows (by decide) (presentRecords_shows (by decide) (by decide)
    (by decide) (presentGenerators_shows (by decide) (by decide) (by decide) (by decide)
      (presentFlows_shows (by decide) .refl))))

/-- Settles O20: what waited is applied first, and neither the synchronizers nor what follows them touch it; each
synchronizer that is due presents once, and what follows leaves the SDI inputs. -/
theorem presentationAppliesAndPresents : Obligations.PresentationAppliesAndPresents := by
  unfold Obligations.PresentationAppliesAndPresents
  refine ⟨fun fam s on => ⟨presentation fam.val s, congrArg Host.Outcome.next (if_pos on), ?_, ?_, ?_⟩,
    fun fam s off => congrArg Host.Outcome.next (if_neg (Bool.not_eq_true _ ▸ off))⟩
  all_goals
    rw [presentation_eq]
    have applied := applyPendingDests_beyondDests (fam := fam.val) (s := s)
    have synced := presentSyncs_shows (fam := fam.val) (n := (familyOf s fam.val).hang)
      (s := applyPendingDests fam.val s)
    have rest := presentRest_shows (fam := fam.val) (n := (familyOf s fam.val).hang)
      (s := presentSyncs fam.val (familyOf s fam.val).hang (applyPendingDests fam.val s))
  · intro d c waits here
    obtain ⟨cfg, pending⟩ := Prod.mk.inj (applyPendingDests_applies waits here)
    exact ⟨(rest.keeps (fun u => destCfg u d) fun _ => rfl).trans
        ((synced.keeps (fun u => destCfg u d) fun _ => rfl).trans cfg),
      (rest.pendingCfg d).trans ((synced.pendingCfg d).trans pending)⟩
  · intro e sdi mode family usable complete due
    have input := sdiInOf_of_sdi (congrArg (fun x => x.2.1) applied) e
    have due : syncDue fam.val (familyOf s fam.val).hang s e = true := by
      simp only [syncDue, sdi, mode, family, usable, due, beq_self_eq_true, Bool.true_or, Bool.and_true, Bool.not_false]
    have presented := presentSyncs_presents (syncDue_of_beyondDests applied |>.trans due)
      (input ▸ usable) (input ▸ complete)
    have kept := rest.keeps (fun u => sdiInOf u e) fun _ => rfl
    rw [kept]
    exact ⟨presented.completed, presented.haveFrame, presented.usablePending, presented.frozen⟩
  · intro k
    exact (rest.familyOf k).trans ((synced.familyOf k).trans (congrFun (congrArg (fun x => x.2.2.2) applied) k))

end Sys2Proof.Machine
end

section
namespace Sys2Proof.Machine

/-! ## SDI inputs that are lost (R110, R112, R122, R135, R136) -/

variable {s t : State} {e k why : Nat} {next : SdiState}

/-! ### A raise of an SDI source (R135, R136) -/

theorem raiseCore_sdi (id : Nat) : (raiseCore id s).sdi = s.sdi := raiseCore_keeps (fun u => u.sdi) (fun _ => rfl) id

theorem raiseSdi_input (small : e < 160) : raiseSdi (sdiInFault e) s =
    if 2 ≤ effectiveSeverity s (sdiInFault e) then isolateSdiIn e (raiseCore (sdiInFault e) s)
    else raiseCore (sdiInFault e) s := by
  have index : faultIndex (sdiInFault e) = e % 10 := by unfold faultIndex sdiInFault faultId; omega
  have gallery : faultLoc (sdiInFault e) = e / 10 := by unfold faultLoc sdiInFault faultId; omega
  have lane : 10 * (e / 10) + e % 10 = e := by omega
  simp only [raiseSdi, index, gallery, lane, if_pos (Nat.mod_lt e (by decide : 0 < 10)), decide_eq_true_eq]

theorem raiseSdi_output (small : e < 160) : raiseSdi (sdiOutFault e) s =
    if 2 ≤ effectiveSeverity s (sdiOutFault e) then isolateSdiOut e (raiseCore (sdiOutFault e) s)
    else raiseCore (sdiOutFault e) s := by
  have index : faultIndex (sdiOutFault e) = 10 + e % 10 := by unfold faultIndex sdiOutFault faultId; omega
  have gallery : faultLoc (sdiOutFault e) = e / 10 := by unfold faultLoc sdiOutFault faultId; omega
  have lane : 10 * (e / 10) + (10 + e % 10 - 10) = e := by omega
  simp only [raiseSdi, index, gallery, lane, if_neg (by omega : ¬ 10 + e % 10 < 10), decide_eq_true_eq]

/-! ### What brings a source into no state that it has not lost (R112, R169) -/

theorem putSdiIn_loses {v : SdiIn} : Loses s (putSdiIn s e v) := loses_of_parts rfl rfl

theorem loseEssence_loses {n : Nat} : Loses s (loseEssence n s) :=
  have emptied : Loses s (putEssence s n {}) := ⟨fun _ => rfl, fun _ h => h, fun _ h => h⟩
  emptied.trans loseSource_loses

theorem freezeAudio_loses : Loses s (freezeAudio e s) := ⟨fun _ => rfl, fun _ h => h, fun _ h => h⟩

theorem isolateSdiIn_loses : Loses s (isolateSdiIn e s) := by
  unfold isolateSdiIn
  extract_lets i freeze left next src s1 s2
  have counted : Loses s s2 := .ite (putSdiIn_loses.trans putSdiIn_loses) putSdiIn_loses
  exact .ite (counted.trans freezeAudio_loses) (counted.trans loseEssence_loses)

theorem putSdiOut_loses {v : SdiOut} : Loses s (putSdiOut s e v) := loses_of_parts rfl rfl

theorem isolateSdiOut_loses : Loses s (isolateSdiOut e s) := by
  unfold isolateSdiOut
  exact putSdiOut_loses.trans judgeDest_loses

theorem raiseSdi_loses {id : Nat} : Loses s (raiseSdi id s) :=
  .ite (.ite ((raiseCore_loses id).trans isolateSdiIn_loses) ((raiseCore_loses id).trans isolateSdiOut_loses))
    (raiseCore_loses id)

/-! ### What a loss makes of an input -/

/-- One more loss. -/
def countLoss (c : SdiInCounters) : SdiInCounters := { c with losses := sat32 c.losses 1 }

/-- The counters of an input that leaves the state in which it is: one more loss where it was usable. -/
def lostCounters (i : SdiIn) : SdiInCounters :=
  if i.state = .usable then countLoss i.counters else i.counters

theorem loseEssence_sdi {n : Nat} : (loseEssence n s).sdi = s.sdi :=
  (loseEssence_moves (T := [.fault, .mtx]) (by decide) (by decide) .refl).keeps (fun u => u.sdi) fun _ => rfl

/-- The source of an input is lost, or frozen: neither reaches an input. -/
theorem sourceLost_sdi {c : Prop} [Decidable c] {n : Nat} :
    (if c then freezeAudio e s else loseEssence n s).sdi = s.sdi := by
  split
  · rfl
  · exact loseEssence_sdi

theorem sdiInOf_countSdiIn (g : SdiInCounters → SdiInCounters) (k : Nat) : sdiInOf (countSdiIn e g s) k =
    if e = k then { sdiInOf s e with counters := g (sdiInOf s e).counters } else sdiInOf s k := sdiInOf_putSdiIn _ _ _ _

/-- Input e is in a state and has counted, and every other input is as it was. -/
structure Becomes (e : Nat) (next : SdiState) (c : SdiInCounters) (s t : State) : Prop where
  state : (sdiInOf t e).state = next
  counters : (sdiInOf t e).counters = c
  others : ∀ k, k ≠ e → sdiInOf t k = sdiInOf s k

theorem Becomes.trans {c c' : SdiInCounters} {u : State} {next' : SdiState} (h : Becomes e next c s t)
    (g : Becomes e next' c' t u) : Becomes e next' c' s u :=
  ⟨g.state, g.counters, fun k hk => (g.others k hk).trans (h.others k hk)⟩

theorem Becomes.of_sdi {c : SdiInCounters} {u : State} (h : Becomes e next c s t) (sdi : u.sdi = t.sdi) :
    Becomes e next c s u := by
  have same := sdiInOf_of_sdi sdi
  exact ⟨(congrArg SdiIn.state (same e)).trans h.state, (congrArg SdiIn.counters (same e)).trans h.counters,
    fun k hk => (same k).trans (h.others k hk)⟩

theorem putSdiIn_becomes {v : SdiIn} {c : SdiInCounters} (state : v.state = next) (counters : v.counters = c) :
    Becomes e next c s (putSdiIn s e v) := by
  have input : sdiInOf (putSdiIn s e v) e = v := (sdiInOf_putSdiIn _ _ _ _).trans (if_pos rfl)
  exact ⟨(congrArg SdiIn.state input).trans state, (congrArg SdiIn.counters input).trans counters,
    fun k hk => (sdiInOf_putSdiIn _ _ _ _).trans (if_neg (Ne.symm hk))⟩

theorem Becomes.count {c : SdiInCounters} (h : Becomes e next c s t) (g : SdiInCounters → SdiInCounters) :
    Becomes e next (g c) s (countSdiIn e g t) := h.trans (putSdiIn_becomes h.state (congrArg g h.counters))

/-- The state in which an isolation puts an input. -/
def isolatedState : SdiState → SdiState
  | .noSignal => .noSignal
  | _ => .detecting

/-- An input that is isolated counts a loss where it was usable. -/
theorem isolateSdiIn_becomes : Becomes e (isolatedState (sdiInOf s e).state) (lostCounters (sdiInOf s e)) s
    (isolateSdiIn e s) := by
  unfold isolateSdiIn
  extract_lets i freeze left next src s1 s2
  refine Becomes.of_sdi (t := s2) ?_ sourceLost_sdi
  have put : Becomes e next i.counters s s1 := putSdiIn_becomes rfl rfl
  show Becomes e next (lostCounters i) s (if left then _ else s1)
  unfold lostCounters
  by_cases usable : i.state = .usable
  · rw [if_pos (show left = true from beq_iff_eq.mpr usable), if_pos usable]
    exact put.count countLoss
  · rw [if_neg (show ¬ left = true from fun h => usable (beq_iff_eq.mp h)), if_neg usable]
    exact put

/-- A raise of the source of an input that has left USABLE and OUT_OF_WINDOW counts no further loss. -/
theorem raiseSdi_becomes (small : e < 160) (stays : isolatedState (sdiInOf s e).state = (sdiInOf s e).state)
    (left : (sdiInOf s e).state ≠ .usable) :
    Becomes e (sdiInOf s e).state (sdiInOf s e).counters s (raiseSdi (sdiInFault e) s) := by
  have raised : Becomes e (sdiInOf s e).state (sdiInOf s e).counters s (raiseCore (sdiInFault e) s) :=
    Becomes.of_sdi ⟨rfl, rfl, fun _ _ => rfl⟩ (raiseCore_sdi _)
  rw [raiseSdi_input small]
  split
  · have isolated := isolateSdiIn_becomes (s := raiseCore (sdiInFault e) s) (e := e)
    rw [lostCounters, sdiInOf_of_sdi (raiseCore_sdi _), stays, if_neg left] at isolated
    exact raised.trans isolated
  · exact raised

/-! ### The notes of a loss raise no SDI source's severity (R112, R135, R169) -/

/-- The settings stay, and no source of class SDI becomes sticky. -/
structure Calm (s t : State) : Prop where
  settings : t.set = s.set
  sticky : classSticky t 0x03 = true → classSticky s 0x03 = true

theorem Calm.refl : Calm s s := ⟨rfl, id⟩

theorem Calm.trans {u : State} (h : Calm s t) (g : Calm t u) : Calm s u :=
  ⟨g.settings.trans h.settings, fun x => h.sticky (g.sticky x)⟩

theorem Calm.ite {c : Prop} [Decidable c] {u : State} (h : Calm s t) (g : Calm s u) :
    Calm s (if c then t else u) := by split <;> assumption

theorem Calm.of_parts (settings : t.set = s.set) (sources : t.flt.sources = s.flt.sources) : Calm s t :=
  ⟨settings, fun h => by unfold classSticky at h ⊢; rwa [sources] at h⟩

theorem foldl_calm {α : Type} {f : State → α → State} (hf : ∀ u x, Calm u (f u x)) (l : List α) :
    Calm s (l.foldl f s) :=
  List.foldlRecOn l f .refl fun u hu x _ => hu.trans (hf u x)

/-- A source that raises below MAJOR still does. -/
theorem Calm.minor {id : Nat} (h : Calm s t) (sdi : faultClass id = 0x03) (minor : effectiveSeverity s id < 2) :
    effectiveSeverity t id < 2 := by
  have same : severityOf t id = severityOf s id := by unfold severityOf; rw [h.settings]
  unfold effectiveSeverity at minor ⊢
  rw [same, sdi]
  rw [sdi] at minor
  split
  · rename_i sticky
    rwa [if_pos (h.sticky sticky)] at minor
  · split at minor <;> omega

theorem classSticky_putFault {id c : Nat} {v : FaultSource} (other : faultClass id ≠ c)
    (h : classSticky (putFault s id v) c = true) : classSticky s c = true := by
  obtain ⟨x, mem, sticky⟩ := List.any_eq_true.mp h
  have mem : x ∈ tset (fun _ => faultDefault) s.flt.sources id v := mem
  refine List.any_eq_true.mpr ⟨x, ?_, sticky⟩
  unfold tset at mem
  split at mem
  · exact mem_tdel mem
  · obtain rfl | mem := mem_tput mem
    · simp only [Bool.and_eq_true, beq_iff_eq] at sticky
      exact absurd sticky.2 other
    · exact mem

theorem note_calm {i : Nat} : Calm s (note 0x04 i s) := by
  refine ⟨raiseCore_set _, fun h => ?_⟩
  rw [note, raiseCore_eq] at h
  have raised : classSticky (raisedSources (faultId 0x04 31 i) s) 0x03 = true := by
    unfold classSticky at h ⊢
    rwa [yieldRole_flt, faultIrqs_flt] at h
  have before := classSticky_putFault (by unfold faultClass faultId; omega) raised
  unfold classSticky at before ⊢
  split at before
  · rwa [enterHold_sources] at before
  · exact before

theorem blackRest_calm {d : Nat} : Calm s (blackRest d s) := by
  have push : ∀ u l, Calm u (pushLine d l u) := fun u l => by
    unfold pushLine
    split
    exact .ite (.of_parts rfl rfl) (.of_parts rfl rfl)
  unfold blackRest
  exact .ite .refl (foldl_calm push _)

theorem countJudgment_calm {d : Nat} : Calm s (countJudgment d s) := by
  unfold countJudgment
  extract_lets r
  split
  · exact .of_parts rfl rfl
  · extract_lets mism ref s1 again src s2
    have counted : Calm s s2 := .ite (.of_parts rfl rfl) (.of_parts rfl rfl)
    have refused : Calm s2 { s2 with mtx := { s2.mtx with formatRefused := sat32 s2.mtx.formatRefused 1 } } :=
      .of_parts rfl rfl
    exact .ite (counted.trans (refused.trans note_calm)) counted

theorem enterFallback_calm {d : Nat} : Calm s (enterFallback d s) := by
  have marked : Calm s (putDestRun s d { destRun s d with inFallback := true }) := .of_parts rfl rfl
  have fell : Calm s (fallen d s) := marked.trans blackRest_calm
  rw [enterFallback_eq]
  exact .ite .refl (.ite (fell.trans note_calm) fell)

theorem judgeAll_calm {n : Nat} : Calm s (judgeAll n s) :=
  foldl_calm (fun _ _ => .ite (countJudgment_calm.trans enterFallback_calm) countJudgment_calm) _

theorem loseEssence_calm {n : Nat} : Calm s (loseEssence n s) :=
  (Calm.of_parts rfl rfl : Calm s (putSource (putEssence s n {}) n _)).trans judgeAll_calm

/-- The device with an input in another state, its source lost or frozen. -/
def droppedSdiIn (e : Nat) (next : SdiState) (why : Nat) (s : State) : State :=
  let i := sdiInOf s e
  let freeze := freezes s e
  let t := putSdiIn s e { restartDetection i with state := next, usablePending := false
                                                  reason := if i.isolated then whyIsolated else why
                                                  frozen := i.frozen || freeze }
  if freeze then freezeAudio e t else loseEssence (sdiSource e) t

theorem dropSdiIn_eq (e : Nat) (next : SdiState) (why : Nat) (s : State) : dropSdiIn e next why s =
    if (sdiInOf s e).state == .usable then raiseSdi (sdiInFault e)
      (countSdiIn e countLoss (droppedSdiIn e next why s))
    else if why == whyLink && (sdiInOf s e).state == .outOfWindow then
      raiseSdi (sdiInFault e) (droppedSdiIn e next why s)
    else droppedSdiIn e next why s := rfl

theorem droppedSdiIn_becomes : Becomes e next (sdiInOf s e).counters s (droppedSdiIn e next why s) := by
  unfold droppedSdiIn
  extract_lets i freeze v t
  have put : Becomes e next i.counters s t := putSdiIn_becomes rfl rfl
  exact put.of_sdi sourceLost_sdi

theorem droppedSdiIn_loses : Loses s (droppedSdiIn e next why s) :=
  .ite (putSdiIn_loses.trans freezeAudio_loses) (putSdiIn_loses.trans loseEssence_loses)

theorem dropSdiIn_loses : Loses s (dropSdiIn e next why s) := by
  rw [dropSdiIn_eq]
  exact .ite (droppedSdiIn_loses.trans (putSdiIn_loses.trans raiseSdi_loses))
    (.ite (droppedSdiIn_loses.trans raiseSdi_loses) droppedSdiIn_loses)

theorem dropSdiIn_unusable (melts : freezes s e = false) :
    (sourceOf (dropSdiIn e next why s) (sdiSource e)).usable = false := by
  have lost : (sourceOf (droppedSdiIn e next why s) (sdiSource e)).usable = false := by
    unfold droppedSdiIn
    simp only [melts, Bool.false_eq_true, if_false]
    exact loseSource_unusable
  rw [dropSdiIn_eq]
  split
  · exact (putSdiIn_loses.trans raiseSdi_loses).unusable _ lost
  · split
    · exact raiseSdi_loses.unusable _ lost
    · exact lost

/-- An input that leaves its state for DETECTING or NO_SIGNAL counts a loss where it was usable. -/
theorem dropSdiIn_becomes (small : e < 160) (stays : isolatedState next = next) (left : next ≠ .usable) :
    Becomes e next (lostCounters (sdiInOf s e)) s (dropSdiIn e next why s) := by
  have dropped : Becomes e next (sdiInOf s e).counters s (droppedSdiIn e next why s) := droppedSdiIn_becomes
  have raised : ∀ {c t}, Becomes e next c s t → Becomes e next c s (raiseSdi (sdiInFault e) t) := fun {c t} h => by
    have raise := raiseSdi_becomes (s := t) small (h.state ▸ stays) (h.state ▸ left)
    rw [h.state, h.counters] at raise
    exact h.trans raise
  rw [dropSdiIn_eq, lostCounters]
  by_cases usable : (sdiInOf s e).state = .usable
  · rw [if_pos (beq_iff_eq.mpr usable), if_pos usable]
    exact raised (dropped.count countLoss)
  · rw [if_neg (mt beq_iff_eq.mp usable), if_neg usable]
    split
    · exact raised dropped
    · exact dropped

end Sys2Proof.Machine
end

section
namespace Sys2Proof.Machine

/-! ## Settings of SDI inputs and outputs (R112, R117, R122, R123) -/

variable {s t u : State} {e n k : Nat} {next : SdiState} {v : SdiInCfg} {c : SdiOutCfg}

/-! ### An input that is set -/

/-- The input behind a loss that a command causes, before its source is lost. -/
def resetSdiIn (i : SdiIn) (next : SdiState) : SdiIn :=
  { restartDetection i with
      state := next, usablePending := false, frozen := false, haveFrame := false, completed := 0
      stored := {}, shown := {}, seam := false
      reason := if i.isolated then whyIsolated else whyReconfig
      counters := lostCounters i }

/-- The device with an input in another state by a command, its source not yet lost. -/
def resetInput (e : Nat) (next : SdiState) (s : State) : State :=
  let i := sdiInOf s e
  let t := putSdiIn s e { resetSdiIn i next with counters := i.counters }
  if i.state == .usable then countSdiIn e countLoss t else t

theorem reconfigSdiIn_eq (e : Nat) (next : SdiState) (s : State) :
    reconfigSdiIn e next s = loseEssence (sdiSource e) (resetInput e next s) := rfl

theorem sdiInOf_resetInput (e k : Nat) (next : SdiState) (s : State) :
    sdiInOf (resetInput e next s) k = if e = k then resetSdiIn (sdiInOf s e) next else sdiInOf s k := by
  unfold resetInput resetSdiIn lostCounters
  by_cases usable : (sdiInOf s e).state = .usable
  · simp only [beq_iff_eq, usable, if_true, sdiInOf_countSdiIn, sdiInOf_putSdiIn]
    split <;> rfl
  · simp only [beq_iff_eq, usable, if_false, sdiInOf_putSdiIn]

theorem resetInput_moves : Moves [.fault, .mtx, .sdi] s (resetInput e next s) := by
  have put : ∀ x, Moves [.fault, .mtx, .sdi] s (putSdiIn s e x) := fun x => putSdiIn_moves (by decide) .refl
  exact ite_moves (countSdiIn_moves (by decide) (put _)) (put _)

theorem resetInput_steady : steady (resetInput e next s) = steady s := ite_steady rfl rfl

/-- The device with an input's settings in force, before the input is lost. -/
def withSdiInCfg (n : Nat) (v : SdiInCfg) (s : State) : State :=
  { s with set := { s.set with sdiIn := tset (fun _ => {}) s.set.sdiIn n v } }

/-- What the settings of an input leave: the input is lost and starts again, and only it, what a lost source reaches,
and the settings of inputs change. -/
structure Resets (n : Nat) (v : SdiInCfg) (s t : State) : Prop where
  moves : Moves [.fault, .mtx, .sdi] (withSdiInCfg n v s) t
  steady : steady t = steady s
  inputs : ∀ k, sdiInOf t k = if n = k then
    resetSdiIn (sdiInOf s n) (if cdrLocked s n then .detecting else .noSignal) else sdiInOf s k
  lost : (sourceOf t (sdiSource n)).usable = false

theorem applySdiIn_resets : Resets n v s (applySdiIn n v s) := by
  show Resets n v s (reconfigSdiIn n (if cdrLocked s n then .detecting else .noSignal) (withSdiInCfg n v s))
  rw [reconfigSdiIn_eq]
  exact ⟨loseEssence_moves (by decide) (by decide) resetInput_moves,
    loseEssence_steady resetInput_steady,
    fun k => (sdiInOf_of_sdi loseEssence_sdi k).trans (sdiInOf_resetInput _ _ _ _), loseSource_unusable⟩

theorem judgeAll_sdi : (judgeAll n s).sdi = s.sdi :=
  (judgeAll_moves (T := [.fault, .mtx]) (by decide) (by decide) .refl).keeps (fun u => u.sdi) fun _ => rfl

/-- The members of a quad-link group are judged again. -/
theorem Resets.judged (h : Resets n v s t) (l : List Nat) :
    Resets n v s (l.foldl (fun s k => judgeAll (sdiSource k) s) t) where
  moves := foldl_moves (fun _ _ => judgeAll_moves (by decide) (by decide)) h.moves
  steady := foldl_steady (fun _ _ => judgeAll_steady) h.steady
  inputs k := (sdiInOf_of_sdi (foldl_keeps (g := fun u => u.sdi) (fun _ _ => judgeAll_sdi) l) k).trans (h.inputs k)
  lost := (foldl_loses (fun _ _ => judgeAll_loses) l).unusable _ h.lost

theorem Resets.sessions (h : Resets n v s t) : t.cmd.sessions = s.cmd.sessions :=
  h.moves.keeps (fun u => u.cmd.sessions) fun _ => rfl

/-- Beside the settings of inputs, the SDI lanes and the matrices, the device stays. -/
theorem Resets.settled (h : Resets n v s t) : settled { t with
    fab := { t.fab with tx := s.fab.tx }, mtx := s.mtx, sdi := s.sdi,
    set := { t.set with sdiIn := s.set.sdiIn } } = settled s :=
  h.moves.keeps (fun u => Machine.settled { u with
    fab := { u.fab with tx := s.fab.tx }, mtx := s.mtx, sdi := s.sdi,
    set := { u.set with sdiIn := s.set.sdiIn } }) fun _ => rfl

theorem Resets.sdiInCfg (h : Resets n v s t) (k : Nat) : Machine.sdiInCfg t k = if n = k then v else sdiInCfg s k :=
  (h.moves.keeps (fun u => Machine.sdiInCfg u k) fun _ => rfl).trans (tget_tset _ _ _ _ _)

/-- A command that sets an input and is answered at once. -/
theorem resets_effects {o : OpSpec} {i : Instr} {p : Packet} (run : exec i s = .next (runHost o p s)) (h : Runs o p s)
    (effect : o.effect (replyHeader o.code p) p (taken o p s) = (u, some (done [])))
    (r : Resets n v (taken o p s) u) :
    ∃ t e, exec i s = .next t ∧ Leaves p e t ∧ Answered o p (done []) t
      ∧ sdiInCfg e n = v ∧ (∀ k, k ≠ n → sdiInCfg e k = sdiInCfg s k ∧ sdiInOf e k = sdiInOf s k)
      ∧ (sdiInOf e n).state = (if cdrLocked s n then .detecting else .noSignal)
      ∧ (sdiInOf e n).haveFrame = false ∧ (sdiInOf e n).completed = 0 ∧ (sdiInOf e n).same = 0
      ∧ (sourceOf e (1280 + n)).usable = false
      ∧ (∀ m d, destOf e m d = destOf s m d)
      ∧ settled { e with fab := { e.fab with tx := s.fab.tx }, mtx := s.mtx, sdi := s.sdi,
                         set := { e.set with sdiIn := s.set.sdiIn } } = settled s := by
  have rest := r.settled
  rw [taken_settled] at rest
  have rings : ∀ c, ringOf u c = ringOf s c := fun c => (ringOf_settled rest c :)
  obtain ⟨t, run, leaves, answered⟩ := runs_effects run h effect r.sessions rings
  refine ⟨t, u, run, leaves, answered, ?_⟩
  have input := (r.inputs n).trans (if_pos rfl)
  have locked : cdrLocked (taken o p s) n = cdrLocked s n := by rw [taken_eq]; rfl
  refine ⟨(r.sdiInCfg n).trans (if_pos rfl), fun k other => ⟨(r.sdiInCfg k).trans ?_, (r.inputs k).trans ?_⟩,
    ?_, ?_, ?_, ?_,
    r.lost, fun m d => ?_, ?_⟩
  · rw [if_neg (Ne.symm other), taken_eq]; rfl
  · rw [if_neg (Ne.symm other), taken_eq]; rfl
  · rw [input, locked]; rfl
  · rw [input]; rfl
  · rw [input]; rfl
  · rw [input]; rfl
  · rw [destOf_of_steady r.steady, taken_eq]; cases m <;> rfl
  · rw [taken_eq] at rest; exact rest

/-! ### An output that is set -/

theorem sdiOutOf_putSdiOut_same {v : SdiOut} : sdiOutOf (putSdiOut s e v) e = v := tget_tset_same _ _ _ _

theorem sdiOutOf_putSdiOut_other {v : SdiOut} (other : k ≠ e) : sdiOutOf (putSdiOut s e v) k = sdiOutOf s k :=
  tget_tset_other _ _ _ _ _ (Ne.symm other)

/-- The format of an output may have changed: its raster restarts with another one. -/
structure Formats (e : Nat) (s t : State) : Prop where
  beside : { t with sdi := { t.sdi with outputs := s.sdi.outputs } } = s
  others : ∀ k, k ≠ e → sdiOutOf t k = sdiOutOf s k
  kept : { sdiOutOf t e with current := 0, raster := [], formatSwitch := 0 }
    = { sdiOutOf s e with current := 0, raster := [], formatSwitch := 0 }
  raster : (sdiOutOf t e).raster =
    if (sdiOutOf t e).current = (sdiOutOf s e).current then (sdiOutOf s e).raster else []

theorem Formats.refl : Formats e s s := ⟨rfl, fun _ _ => rfl, rfl, (if_pos rfl).symm⟩

theorem setOutFormat_formats {f : Nat} : Formats e s (setOutFormat e f s) := by
  unfold setOutFormat
  extract_lets o
  split
  · exact .refl
  · rename_i changes
    refine ⟨rfl, fun k other => sdiOutOf_putSdiOut_other other, ?_, ?_⟩
    · rw [sdiOutOf_putSdiOut_same]
    · rw [sdiOutOf_putSdiOut_same, if_neg (Ne.symm changes)]

theorem followFormat_formats : Formats e s (followFormat e s) := by
  unfold followFormat
  extract_lets d c
  split
  · split
    · split
      · exact .refl
      · split
        · exact setOutFormat_formats
        · exact .refl
    · exact .refl
  · exact setOutFormat_formats

theorem Formats.running (h : Formats e s t) : (sdiOutOf t e).running = (sdiOutOf s e).running :=
  (congrArg SdiOut.running h.kept :)

theorem Formats.pendingCfg (h : Formats e s t) : (sdiOutOf t e).pendingCfg = (sdiOutOf s e).pendingCfg :=
  (congrArg SdiOut.pendingCfg h.kept :)

theorem Formats.fill (h : Formats e s t) : (sdiOutOf t e).fill = (sdiOutOf s e).fill := (congrArg SdiOut.fill h.kept :)
theorem Formats.slips (h : Formats e s t) : (sdiOutOf t e).slips = (sdiOutOf s e).slips :=
  (congrArg SdiOut.slips h.kept :)

theorem Formats.raster_or (h : Formats e s t) :
    (sdiOutOf t e).raster = (sdiOutOf s e).raster ∨ (sdiOutOf t e).raster = [] := by
  rw [h.raster]
  exact ite_eq_or_eq _ _ _

/-- What does not look at the outputs. -/
theorem Formats.keeps {α : Type} (h : Formats e s t) (f : State → α)
    (blank : ∀ u x, f { u with sdi := { u.sdi with outputs := x } } = f u) : f t = f s :=
  (blank t _).symm.trans (congrArg f h.beside)

theorem laneOf_idleLanes (e n l : Nat) (s : State) : laneOf (idleLanes e n s) l =
    if 256 + e ≤ l ∧ l < 256 + e + n then { laneOf s l with sent := [] } else laneOf s l := by
  unfold idleLanes
  induction n with
  | zero => rw [if_neg (by omega)]; rfl
  | succ n ih =>
    rw [List.range_succ, List.foldl_append, List.foldl_cons, List.foldl_nil, laneOf_putLane]
    by_cases here : 256 + (e + n) = l
    · rw [if_pos here, if_pos (by omega), here, ih, if_neg (by omega)]
    · rw [if_neg here, ih]
      exact if_congr (by omega) rfl rfl

theorem idleLanes_keeps {α : Type} (f : State → α)
    (blank : ∀ u x, f { u with fab := { u.fab with lanes := x } } = f u) :
    f (idleLanes e n s) = f s := foldl_keeps (fun u _ => blank u _) _

/-- The links that an output no longer has are idle. -/
def unlinked (e : Nat) (c : SdiOutCfg) (s : State) : State :=
  if (sdiOutCfg s e).links = 4 ∧ c.links ≠ 4 then idleLanes (e + 1) 3 s else s

/-- The device with an output's settings in force, before its format is chosen. -/
def withSdiOutCfg (e : Nat) (c : SdiOutCfg) (s : State) : State :=
  let t := { s with set := { s.set with sdiOut := tset (fun _ => {}) s.set.sdiOut e c } }
  putSdiOut t e { sdiOutOf t e with pendingCfg := none }

/-- An output that has shown no source takes its default format where it follows. -/
def defaulted (e : Nat) (c : SdiOutCfg) (old : SdiOut) (s : State) : State :=
  if c.format = 0xFF ∧ old.lastPid = none then setOutFormat e (ownMapping c.links c.defaultFormat) s else s

theorem setSdiOut_eq (e : Nat) (c : SdiOutCfg) (s : State) : setSdiOut e c s = judgeDest (1280 + e)
    (followFormat e (defaulted e c (sdiOutOf (unlinked e c s) e) (withSdiOutCfg e c (unlinked e c s)))) := rfl

theorem defaulted_formats {o : SdiOut} : Formats e s (defaulted e c o s) := by
  unfold defaulted
  split
  · exact setOutFormat_formats
  · exact .refl

theorem judgeDest_keeps {α : Type} {d : Nat} (f : State → α) (blank : ∀ u, f (beyond [.fault, .mtx] u) = f u) :
    f (judgeDest d s) = f s :=
  (judgeDest_moves (T := [.fault, .mtx]) (by decide) (by decide) .refl).keeps f blank

theorem judgeDest_sdi {d : Nat} : (judgeDest d s).sdi = s.sdi := judgeDest_keeps (fun u => u.sdi) fun _ => rfl

theorem sdiOutOf_of_sdi (h : t.sdi = s.sdi) (k : Nat) : sdiOutOf t k = sdiOutOf s k := by simp only [sdiOutOf, h]

/-- What looks at no lane, no output, no setting of an output, and at nothing that a judgment changes. -/
theorem setSdiOut_keeps {α : Type} (f : State → α)
    (blank : ∀ u x y z, f { u with fab := { u.fab with lanes := x }, sdi := { u.sdi with outputs := y },
                                   set := { u.set with sdiOut := z } } = f u)
    (judge : ∀ u d, f (judgeDest d u) = f u) : f (setSdiOut e c s) = f s := by
  have outputs : ∀ u y, f { u with sdi := { u.sdi with outputs := y } } = f u := fun u y =>
    blank u u.fab.lanes y u.set.sdiOut
  have idle : f (unlinked e c s) = f s := by
    unfold unlinked
    split
    · exact idleLanes_keeps f fun u x => blank u x u.sdi.outputs u.set.sdiOut
    · rfl
  rw [setSdiOut_eq, judge, followFormat_formats.keeps f outputs, defaulted_formats.keeps f outputs, ← idle]
  exact blank (unlinked e c s) (unlinked e c s).fab.lanes _ _

theorem sdiOutCfg_setSdiOut (k : Nat) : sdiOutCfg (setSdiOut e c s) k = if e = k then c else sdiOutCfg s k := by
  have idle : (unlinked e c s).set.sdiOut = s.set.sdiOut := by
    unfold unlinked
    split
    · exact idleLanes_keeps (fun u => u.set.sdiOut) fun _ _ => rfl
    · rfl
  rw [setSdiOut_eq, judgeDest_keeps (fun u => sdiOutCfg u k) fun _ => rfl,
    followFormat_formats.keeps (fun u => sdiOutCfg u k) fun _ _ => rfl,
    defaulted_formats.keeps (fun u => sdiOutCfg u k) fun _ _ => rfl]
  exact (tget_tset _ _ _ _ _).trans (by rw [idle]; rfl)

theorem laneOf_setSdiOut (l : Nat) : laneOf (setSdiOut e c s) l = laneOf s l
    ∨ (256 + e < l ∧ l ≤ 259 + e) ∧ laneOf (setSdiOut e c s) l = { laneOf s l with sent := [] } := by
  have lane : laneOf (setSdiOut e c s) l = laneOf (unlinked e c s) l := by
    rw [setSdiOut_eq, judgeDest_keeps (fun u => laneOf u l) fun _ => rfl,
      followFormat_formats.keeps (fun u => laneOf u l) fun _ _ => rfl,
      defaulted_formats.keeps (fun u => laneOf u l) fun _ _ => rfl]
    rfl
  rw [lane, unlinked]
  split
  · rw [laneOf_idleLanes]
    split
    · exact .inr ⟨by omega, rfl⟩
    · exact .inl rfl
  · exact .inl rfl

/-- An output whose settings have been set: it runs as before, with nothing waiting. -/
theorem sdiOutOf_setSdiOut : (sdiOutOf (setSdiOut e c s) e).running = (sdiOutOf s e).running
    ∧ (sdiOutOf (setSdiOut e c s) e).pendingCfg = none
    ∧ ((sdiOutOf (setSdiOut e c s) e).raster = (sdiOutOf s e).raster ∨ (sdiOutOf (setSdiOut e c s) e).raster = [])
    ∧ ∀ k, k ≠ e → sdiOutOf (setSdiOut e c s) k = sdiOutOf s k := by
  have idle : (unlinked e c s).sdi = s.sdi := by
    unfold unlinked
    split
    · exact idleLanes_keeps (fun u => u.sdi) fun _ _ => rfl
    · rfl
  let t := withSdiOutCfg e c (unlinked e c s)
  have output : sdiOutOf t e = { sdiOutOf s e with pendingCfg := none } :=
    sdiOutOf_putSdiOut_same.trans (by rw [← sdiOutOf_of_sdi idle e]; rfl)
  have first : Formats e t (defaulted e c (sdiOutOf (unlinked e c s) e) t) := defaulted_formats
  have second : Formats e _ (followFormat e (defaulted e c (sdiOutOf (unlinked e c s) e) t)) := followFormat_formats
  rw [setSdiOut_eq]
  simp only [sdiOutOf_of_sdi judgeDest_sdi]
  refine ⟨?_, ?_, ?_, fun k other => ?_⟩
  · exact second.running.trans (first.running.trans (congrArg SdiOut.running output :))
  · exact second.pendingCfg.trans (first.pendingCfg.trans (congrArg SdiOut.pendingCfg output :))
  · rcases second.raster_or with same | restarts
    · rw [same]
      exact first.raster_or.imp_left fun h => h.trans (congrArg SdiOut.raster output :)
    · exact .inr restarts
  · exact (second.others k other).trans ((first.others k other).trans
      ((sdiOutOf_putSdiOut_other other).trans (sdiOutOf_of_sdi idle k)))

/-! ### SDI_OUT_CONFIG -/

/-- The lanes that an output sends on. -/
def outLinks (s : State) (n : Nat) : Nat := if (sdiOutCfg s n).links = 4 then 4 else 1

theorem outLinks_pos : 0 < outLinks s n := by
  unfold outLinks
  split <;> decide

/-- The transmitters of an output are idle where its new settings disable it. -/
def idledOut (n : Nat) (c : SdiOutCfg) (s : State) : State :=
  if c.enable then s else idleLanes n (outLinks s n) s

/-- An output that has been stopped. -/
def stoppedOut (n : Nat) (c : SdiOutCfg) (s : State) : State :=
  putSdiOut (idledOut n c s) n { sdiOutOf s n with running := false, raster := [] }

theorem applySdiOut_now
    (now : ¬ ((sdiOutOf s n).running = true ∧ (sdiOutCfg s n).enable = true ∧ c.enable = true)) :
    applySdiOut n c s = setSdiOut n c (stoppedOut n c s) := by
  unfold applySdiOut stoppedOut
  exact if_neg fun h => now (by simpa only [Bool.and_eq_true, and_assoc] using h)

theorem stoppedOut_keeps {α : Type} (f : State → α)
    (blank : ∀ u x y z, f { u with fab := { u.fab with lanes := x }, sdi := { u.sdi with outputs := y },
                                   set := { u.set with sdiOut := z } } = f u) : f (stoppedOut n c s) = f s := by
  have idle : f (idledOut n c s) = f s := by
    unfold idledOut
    split
    · rfl
    · exact idleLanes_keeps f fun u x => blank u x u.sdi.outputs u.set.sdiOut
  exact (blank _ (idledOut n c s).fab.lanes _ (idledOut n c s).set.sdiOut).trans idle

theorem laneOf_idledOut (l : Nat) : laneOf (idledOut n c s) l = laneOf s l
    ∨ laneOf (idledOut n c s) l = { laneOf s l with sent := [] } := by
  unfold idledOut
  split
  · exact .inl rfl
  · rw [laneOf_idleLanes]
    exact (ite_eq_or_eq _ _ _).symm

theorem idledOut_idle (off : c.enable = false) : (laneOf (idledOut n c s) (256 + n)).sent = [] := by
  have some : 0 < outLinks s n := outLinks_pos
  unfold idledOut
  rw [off, if_neg Bool.false_ne_true, laneOf_idleLanes, if_pos (by omega)]

theorem sdiOutCfg_stoppedOut (k : Nat) : sdiOutCfg (stoppedOut n c s) k = sdiOutCfg s k := by
  unfold stoppedOut idledOut
  split
  · rfl
  · exact idleLanes_keeps (fun u => sdiOutCfg u k) fun _ _ => rfl

theorem sdiOutOf_stoppedOut (other : k ≠ n) : sdiOutOf (stoppedOut n c s) k = sdiOutOf s k := by
  unfold stoppedOut idledOut
  rw [sdiOutOf_putSdiOut_other other]
  split
  · rfl
  · exact idleLanes_keeps (fun u => sdiOutOf u k) fun _ _ => rfl

/-- Beside the lanes, the SDI lanes, the settings of outputs and what a judgment reaches, the device stays. -/
theorem applySdiOut_settled : settled { setSdiOut n c (stoppedOut n c s) with
    fab := { (setSdiOut n c (stoppedOut n c s)).fab with lanes := s.fab.lanes, tx := s.fab.tx }
    mtx := s.mtx, sdi := s.sdi
    set := { (setSdiOut n c (stoppedOut n c s)).set with sdiOut := s.set.sdiOut } } = settled s := by
  let rest := fun (u : State) => settled { u with
    fab := { u.fab with lanes := s.fab.lanes, tx := s.fab.tx }, mtx := s.mtx, sdi := s.sdi
    set := { u.set with sdiOut := s.set.sdiOut } }
  exact (setSdiOut_keeps rest (fun _ _ _ _ => rfl) fun _ _ => judgeDest_keeps rest fun _ => rfl).trans
    (stoppedOut_keeps rest fun _ _ _ _ => rfl)

theorem applySdiOut_sessions : (setSdiOut n c (stoppedOut n c s)).cmd.sessions = s.cmd.sessions :=
  (setSdiOut_keeps (fun u => u.cmd.sessions) (fun _ _ _ _ => rfl)
      fun _ _ => judgeDest_keeps (fun u => u.cmd.sessions) fun _ => rfl).trans
    (stoppedOut_keeps (fun u => u.cmd.sessions) fun _ _ _ _ => rfl)

theorem applySdiOut_ringOf (k : Nat) : ringOf (setSdiOut n c (stoppedOut n c s)) k = ringOf s k :=
  (ringOf_settled applySdiOut_settled k :)

theorem atOnce_sdiOutConfig (r : Reply) (p : Packet) (s : State) :
    atOnce effectSdiOutConfig r p s = (applySdiOut (u8 p 0) (readSdiOutCfg p) s, some (done [])) := rfl

/-- The device with an output's settings waiting for its next frame start. -/
def waitingOut (n : Nat) (c : SdiOutCfg) (s : State) : State :=
  let e := putSdiOut s n { sdiOutOf s n with pendingCfg := some c }
  { e with set := { e.set with
      sdiOut := tset (fun _ => {}) s.set.sdiOut n { sdiOutCfg s n with defaultFormat := c.defaultFormat } } }

theorem applySdiOut_waits
    (waits : (sdiOutOf s n).running = true ∧ (sdiOutCfg s n).enable = true ∧ c.enable = true) :
    applySdiOut n c s = waitingOut n c s := by
  unfold applySdiOut
  exact if_pos (by simpa only [Bool.and_eq_true, and_assoc] using waits)

/-- Settings wait for the next frame start of an output that runs and stays enabled. -/
theorem sdiOutConfig_waits {p : Packet} (h : Runs specSdiOutConfig p s)
    (waits : (sdiOutOf s (u8 p 0)).running = true ∧ (sdiOutCfg s (u8 p 0)).enable = true
      ∧ (readSdiOutCfg p).enable = true) :
    Effects specSdiOutConfig p s (.sdiOutConfig p) (waitingOut (u8 p 0) (readSdiOutCfg p) s) (done []) := by
  refine effects_atOnce rfl h ?_ rfl
  show atOnce effectSdiOutConfig (replyHeader specSdiOutConfig.code p) p _ = _
  have still : (sdiOutOf (taken specSdiOutConfig p s) (u8 p 0)).running = true
      ∧ (sdiOutCfg (taken specSdiOutConfig p s) (u8 p 0)).enable = true ∧ (readSdiOutCfg p).enable = true := by
    rw [taken_eq]
    exact waits
  rw [atOnce_sdiOutConfig, applySdiOut_waits still, taken_eq]
  rfl

/-- Settings of an output that is stopped apply at once. -/
theorem sdiOutConfig_now {p : Packet} (h : Runs specSdiOutConfig p s)
    (now : ¬ ((sdiOutOf s (u8 p 0)).running = true ∧ (sdiOutCfg s (u8 p 0)).enable = true
      ∧ (readSdiOutCfg p).enable = true)) :
    Effects specSdiOutConfig p s (.sdiOutConfig p)
      (setSdiOut (u8 p 0) (readSdiOutCfg p) (stoppedOut (u8 p 0) (readSdiOutCfg p) (taken specSdiOutConfig p s)))
      (done []) := by
  let n := u8 p 0
  let c := readSdiOutCfg p
  refine runs_effects rfl h ?_ applySdiOut_sessions fun k => (applySdiOut_ringOf k).trans (taken_ringOf _ _ k)
  show atOnce effectSdiOutConfig (replyHeader specSdiOutConfig.code p) p _ = _
  have other : ¬ ((sdiOutOf (taken specSdiOutConfig p s) n).running = true
      ∧ (sdiOutCfg (taken specSdiOutConfig p s) n).enable = true ∧ c.enable = true) := by
    rw [taken_eq]
    exact now
  rw [atOnce_sdiOutConfig, applySdiOut_now other]

theorem applySdiOut_steady : steady (setSdiOut n c (stoppedOut n c s)) = steady s :=
  (setSdiOut_keeps steady (fun _ _ _ _ => rfl) fun _ _ => judgeDest_steady rfl).trans
    (stoppedOut_keeps steady fun _ _ _ _ => rfl)

theorem laneOf_applySdiOut (l : Nat) : laneOf (setSdiOut n c (stoppedOut n c s)) l = laneOf s l
    ∨ laneOf (setSdiOut n c (stoppedOut n c s)) l = { laneOf s l with sent := [] } := by
  have stopped : laneOf (stoppedOut n c s) l = laneOf s l
      ∨ laneOf (stoppedOut n c s) l = { laneOf s l with sent := [] } :=
    laneOf_idledOut l
  rcases laneOf_setSdiOut (e := n) (c := c) (s := stoppedOut n c s) l with same | ⟨-, idle⟩
  · rwa [same]
  · rcases stopped with h | h <;> rw [idle, h] <;> exact .inr rfl

theorem applySdiOut_idle (off : c.enable = false) :
    (laneOf (setSdiOut n c (stoppedOut n c s)) (256 + n)).sent = [] := by
  rcases laneOf_setSdiOut (e := n) (c := c) (s := stoppedOut n c s) (256 + n) with same | ⟨⟨above, -⟩, -⟩
  · rw [same]
    exact idledOut_idle off
  · omega

/-- Settles O26: an input by what its loss leaves, an output by the stages in which its settings apply. -/
theorem sdiSettingsApply : Obligations.SdiSettingsApply := by
  unfold Obligations.SdiSettingsApply
  refine ⟨fun i o p s listed h => ?_, fun p s h => ⟨sdiOutConfig_waits h, fun now => ?_⟩⟩
  · simp only [List.mem_cons, Prod.mk.injEq, List.not_mem_nil, or_false] at listed
    obtain ⟨rfl, rfl⟩ | ⟨rfl, rfl⟩ := listed
    · exact resets_effects (v := readSdiInCfg s p) rfl h rfl (by
        rw [taken_eq]
        exact applySdiIn_resets.judged _)
    · exact resets_effects (v := { sdiInCfg s (u8 p 0) with freeze := u8 p 1 == 1 }) rfl h rfl (by
        rw [taken_eq]
        exact applySdiIn_resets)
  · obtain ⟨t, run, leaves, answered⟩ := sdiOutConfig_now h now
    refine ⟨t, _, run, leaves, answered, ?_⟩
    have rest := applySdiOut_settled (n := u8 p 0) (c := readSdiOutCfg p) (s := taken specSdiOutConfig p s)
    rw [taken_settled] at rest
    rw [taken_eq] at rest ⊢
    generalize (taken specSdiOutConfig p s).cmd = cmd at rest ⊢
    obtain ⟨running, waiting, -, others⟩ := sdiOutOf_setSdiOut (e := u8 p 0) (c := readSdiOutCfg p)
      (s := stoppedOut (u8 p 0) (readSdiOutCfg p) { s with cmd := cmd })
    refine ⟨?_, ?_, waiting, fun k other => ⟨?_, ?_⟩, fun m d => destOf_of_steady applySdiOut_steady m d,
      fun k => laneOf_applySdiOut k, applySdiOut_idle, rest⟩
    · exact (sdiOutCfg_setSdiOut _).trans (if_pos rfl)
    · rw [running]
      exact congrArg SdiOut.running sdiOutOf_putSdiOut_same
    · rw [sdiOutCfg_setSdiOut, if_neg (Ne.symm other), sdiOutCfg_stoppedOut]
      rfl
    · rw [others k other]
      exact sdiOutOf_stoppedOut other

end Sys2Proof.Machine
end

section
namespace Sys2Proof.Machine

/-! ## The clock and the signal of an SDI receiver (R74, R110, R112) -/

variable {s t u : State} {e why : Nat}

/-! ### Members of a quad-link group (R110) -/

theorem quadMemberIn_of_set (h : t.set = s.set) : quadMemberIn t e = quadMemberIn s e := by
  simp only [quadMemberIn, sdiInCfg, h]

theorem quadBaseIn_of_set (h : t.set = s.set) : quadBaseIn t e = quadBaseIn s e := by
  simp only [quadBaseIn, quadMemberIn_of_set h]

theorem quadBaseIn_le : quadBaseIn s e ≤ e := by
  unfold quadBaseIn
  split
  · rename_i member
    simp only [quadMemberIn, Bool.and_eq_true, decide_eq_true_eq, bne_iff_ne, ne_eq] at member
    split <;> omega
  · exact Nat.le_refl _

theorem quadBaseIn_ne (member : quadMemberIn s e = true) : quadBaseIn s e ≠ e := by
  unfold quadBaseIn
  rw [if_pos member]
  simp only [quadMemberIn, Bool.and_eq_true, bne_iff_ne, ne_eq] at member
  exact Ne.symm member.1.2

/-! ### A signal that is gone -/

theorem loseQuadLink_others {k : Nat} (small : e < 160) (other : k ≠ quadBaseIn s e) :
    sdiInOf (loseQuadLink e s) k = sdiInOf s k := by
  unfold loseQuadLink
  extract_lets b
  split
  · exact (dropSdiIn_becomes (Nat.lt_of_le_of_lt quadBaseIn_le small) rfl (by decide)).others k other
  · rfl

/-- A usable input that loses a link detects again, and one that detects goes on. -/
theorem loseQuadLink_base (small : e < 160) (member : quadBaseIn s e ≠ e)
    (h : (sdiInOf s (quadBaseIn s e)).state = .usable ∨ (sdiInOf s (quadBaseIn s e)).state = .detecting) :
    (sdiInOf (loseQuadLink e s) (quadBaseIn s e)).state = .detecting := by
  unfold loseQuadLink
  extract_lets b
  rcases h with usable | detecting
  · rw [if_pos ⟨member, .inl usable⟩]
    exact (dropSdiIn_becomes (Nat.lt_of_le_of_lt quadBaseIn_le small) rfl (by decide)).state
  · rw [if_neg (by rw [detecting]; simp)]
    exact detecting

/-- The device with the input of a member of a group without signal. -/
def silentMember (e why : Nat) (s : State) : State :=
  putSdiIn s e { restartDetection (sdiInOf s e) with
    state := .noSignal, reason := if (sdiInOf s e).isolated then whyIsolated else why }

theorem sdiSignalGone_member (member : quadMemberIn s e = true) :
    sdiSignalGone e why s = loseQuadLink e (silentMember e why s) := if_pos member

theorem sdiSignalGone_own (own : quadMemberIn s e = false) :
    sdiSignalGone e why s = dropSdiIn e .noSignal (if (sdiInCfg s e).links = 4 then whyLink else why) s :=
  if_neg (by rw [own]; exact Bool.false_ne_true)

theorem sdiInOf_silentMember : (sdiInOf (silentMember e why s) e).state = .noSignal :=
  congrArg SdiIn.state ((sdiInOf_putSdiIn _ _ _ _).trans (if_pos rfl))

theorem sdiSignalGone_silent (small : e < 160) : (sdiInOf (sdiSignalGone e why s) e).state = .noSignal := by
  by_cases member : quadMemberIn s e = true
  · rw [sdiSignalGone_member member, loseQuadLink_others small (quadBaseIn_ne (s := silentMember e why s) member).symm]
    exact sdiInOf_silentMember
  · rw [sdiSignalGone_own (Bool.not_eq_true _ ▸ member)]
    exact (dropSdiIn_becomes small rfl (by decide)).state

theorem sdiSignalGone_base (small : e < 160) (member : quadMemberIn s e = true)
    (h : (sdiInOf s (quadBaseIn s e)).state = .usable ∨ (sdiInOf s (quadBaseIn s e)).state = .detecting) :
    (sdiInOf (sdiSignalGone e why s) (quadBaseIn s e)).state = .detecting := by
  have base : sdiInOf (silentMember e why s) (quadBaseIn s e) = sdiInOf s (quadBaseIn s e) :=
    (sdiInOf_putSdiIn _ _ _ _).trans (if_neg (quadBaseIn_ne member).symm)
  rw [sdiSignalGone_member member]
  exact loseQuadLink_base (s := silentMember e why s) small (quadBaseIn_ne (s := silentMember e why s) member)
    (h.imp (base ▸ ·) (base ▸ ·))

theorem sdiSignalGone_loses : Loses s (sdiSignalGone e why s) :=
  .ite (.ite (putSdiIn_loses.trans dropSdiIn_loses) putSdiIn_loses) dropSdiIn_loses

theorem sdiSignalGone_unusable (own : quadMemberIn s e = false) (melts : freezes s e = false) :
    (sourceOf (sdiSignalGone e why s) (sdiSource e)).usable = false := by
  rw [sdiSignalGone_own own]
  exact dropSdiIn_unusable melts

/-! ### A raise of the lane's source -/

/-- Inputs, settings and matrices as in another state. -/
structure Alike (s t : State) : Prop where
  inputs : t.sdi.inputs = s.sdi.inputs
  settings : t.set = s.set
  matrices : t.mtx = s.mtx

theorem Alike.sdiInOf (h : Alike s t) (k : Nat) : sdiInOf t k = sdiInOf s k := by
  simp only [Machine.sdiInOf, h.inputs]

theorem Alike.loses (h : Alike s t) : Loses s t := loses_of_parts h.matrices h.settings

theorem raiseCore_alike (id : Nat) : Alike s (raiseCore id s) :=
  ⟨congrArg Sdi.inputs (raiseCore_sdi id), raiseCore_set id, raiseCore_mtx id⟩

theorem laneMode_of_set (h : t.set = s.set) (l : Nat) : laneMode t l = laneMode s l := by
  unfold laneMode boundLane laneCfg
  rw [h]

/-- The device with an SDI lane in DOWN and its output stopped. -/
def stoppedSdi (e : Nat) (s : State) : State :=
  let t := putLane s (256 + e) { laneOf s (256 + e) with state := .down, goodRun := 0, sent := [] }
  putSdiOut t e { sdiOutOf t e with running := false }

theorem downLane_sdi (sdi : isSdi s e = true) : downLane (256 + e) s = s
    ∨ ∃ u, Alike s u ∧ downLane (256 + e) s = sdiSignalGone e whyCdr u := by
  unfold downLane
  split
  · exact .inl rfl
  · right
    have mode : laneMode s (256 + e) = 2 := beq_iff_eq.mp sdi
    unfold stopLane
    rw [if_neg (by omega), Nat.add_sub_cancel_left, if_pos mode]
    exact ⟨stoppedSdi e s, ⟨rfl, rfl, rfl⟩, rfl⟩

/-- A raise of the source of an SDI lane that brings it down takes its signal once more. -/
theorem raiseLane_sdi (small : e < 160) (sdi : isSdi s e = true) :
    ∃ u, Alike s u ∧ (raiseLane (laneFault (256 + e)) s = u
      ∨ raiseLane (laneFault (256 + e)) s = sdiSignalGone e whyCdr u) := by
  have index : faultIndex (laneFault (256 + e)) = 16 + e % 10 := by
    unfold faultIndex laneFault faultId galleryOfLane laneIndex
    rw [if_neg (by omega), if_neg (by omega)]
    omega
  have gallery : faultLoc (laneFault (256 + e)) = e / 10 := by
    unfold faultLoc laneFault faultId galleryOfLane laneIndex
    rw [if_neg (by omega), if_neg (by omega)]
    omega
  have lane : 256 + 10 * (e / 10) + (16 + e % 10 - 16) = 256 + e := by omega
  have raised : Alike s (raiseCore (laneFault (256 + e)) s) := raiseCore_alike _
  unfold raiseLane
  simp only [index, gallery, lane, if_neg (by omega : ¬ 16 + e % 10 < 16), if_pos (by omega : 16 + e % 10 < 26)]
  split
  · exact ⟨_, raised, .inl rfl⟩
  · have mode : isSdi (raiseCore (laneFault (256 + e)) s) e = true := by
      rw [isSdi, laneMode_of_set raised.settings]
      exact sdi
    rcases downLane_sdi mode with stays | ⟨u, alike, falls⟩
    · exact ⟨_, raised, .inl stays⟩
    · exact ⟨u, ⟨alike.inputs.trans raised.inputs, alike.settings.trans raised.settings,
        alike.matrices.trans raised.matrices⟩, .inr falls⟩

/-! ### SDI_SIGNAL_LOSS and CDR_LOCK -/

/-- The device with an SDI lane hunting, and its loss of lock counted. -/
def hunting (e : Nat) (s : State) : State :=
  putLane (lossCounted (256 + e) s) (256 + e) { laneOf (lossCounted (256 + e) s) (256 + e) with state := .hunt }

theorem laneOf_hunting : laneOf (hunting e s) (256 + e) = { laneOf s (256 + e) with
    state := .hunt, counters := { (laneOf s (256 + e)).counters with
      lockLoss := sat32 (laneOf s (256 + e)).counters.lockLoss 1 } } := by
  unfold hunting lossCounted countLane
  rw [laneOf_putLane, if_pos rfl, laneOf_putLane, if_pos rfl]

/-- The device with the signal of an SDI lane gone. -/
def signalLost (e why : Nat) (s : State) : State :=
  raiseLane (laneFault (256 + e)) (sdiSignalGone e why (hunting e s))

theorem sdiSignalLoss_loses {l : Fin 160} {why : SignalLoss} (sdi : isSdi s l.val = true) (other : why ≠ .link)
    (locked : laneLocked s (256 + l.val) = true) : exec (.sdiSignalLoss l why) s = .next
      (signalLost l.val (if why = .cdr then whyCdr else whyNoSignal) s) := by
  refine congrArg Host.Outcome.next ((if_pos sdi).trans ?_)
  cases why with
  | link => exact absurd rfl other
  | _ => exact if_pos locked

theorem signalLost_moves : Moves laneAreas (hunting e s) (signalLost e why s) :=
  raiseLane_moves (List.Subset.refl _) (sdiSignalGone_moves (by decide) .refl)

theorem signalLost_sticky : (faultOf (signalLost e why s) (laneFault (256 + e))).sticky = true := by
  have raised : Moves laneAreas (raiseCore (laneFault (256 + e)) (sdiSignalGone e why (hunting e s)))
      (signalLost e why s) := raiseLane_follows (List.Subset.refl _) .refl
  exact raised.rises.sticky _ (raiseCore_sticky _ _)

/-- What a lost signal makes of the input, its base and its source stays through the raise. -/
theorem signalLost_cases (small : e < 160) (sdi : isSdi s e = true) : ∃ u, Alike (sdiSignalGone e why (hunting e s)) u
    ∧ (signalLost e why s = u ∨ signalLost e why s = sdiSignalGone e whyCdr u) := by
  refine raiseLane_sdi small ?_
  have settings : (sdiSignalGone e why (hunting e s)).set = s.set :=
    (sdiSignalGone_moves (T := sdiAreas) (List.Subset.refl _) .refl).keeps (fun u => u.set) fun _ => rfl
  rw [isSdi, laneMode_of_set settings]
  exact sdi

theorem signalLost_silent (small : e < 160) (sdi : isSdi s e = true) :
    (sdiInOf (signalLost e why s) e).state = .noSignal := by
  obtain ⟨u, alike, same | again⟩ := signalLost_cases (why := why) small sdi
  · rw [same, alike.sdiInOf]
    exact sdiSignalGone_silent small
  · rw [again]
    exact sdiSignalGone_silent small

theorem signalLost_base (small : e < 160) (sdi : isSdi s e = true) (member : quadMemberIn s e = true)
    (usable : (sdiInOf s (quadBaseIn s e)).state = .usable) :
    (sdiInOf (signalLost e why s) (quadBaseIn s e)).state = .detecting := by
  have first : (sdiInOf (sdiSignalGone e why (hunting e s)) (quadBaseIn s e)).state = .detecting :=
    sdiSignalGone_base (s := hunting e s) small member (.inl usable)
  obtain ⟨u, alike, same | again⟩ := signalLost_cases (why := why) small sdi
  · rw [same, alike.sdiInOf]
    exact first
  · have settings : u.set = s.set := alike.settings.trans
      ((sdiSignalGone_moves (T := sdiAreas) (List.Subset.refl _) .refl).keeps (fun u => u.set) fun _ => rfl)
    rw [again, ← quadBaseIn_of_set settings]
    refine sdiSignalGone_base small ((quadMemberIn_of_set settings).trans member) (.inr ?_)
    rw [alike.sdiInOf, quadBaseIn_of_set settings]
    exact first

theorem signalLost_unusable (small : e < 160) (sdi : isSdi s e = true) (own : quadMemberIn s e = false)
    (melts : freezes s e = false) : (sourceOf (signalLost e why s) (sdiSource e)).usable = false := by
  have first : (sourceOf (sdiSignalGone e why (hunting e s)) (sdiSource e)).usable = false :=
    sdiSignalGone_unusable (s := hunting e s) own melts
  obtain ⟨u, alike, same | again⟩ := signalLost_cases (why := why) small sdi
  · rw [same]
    exact alike.loses.unusable _ first
  · rw [again]
    exact sdiSignalGone_loses.unusable _ (alike.loses.unusable _ first)

theorem signalLost_destOf (m : Matrix) (d : Nat) : destOf (signalLost e why s) m d = destOf s m d :=
  destOf_of_steady (raiseLane_steady (sdiSignalGone_steady rfl)) m d

theorem restartAdaptation_sdi {l : Nat} : (restartAdaptation l s).sdi = s.sdi := by
  unfold restartAdaptation
  split <;> rfl

/-- The clock recovered makes an input without signal detect. -/
theorem cdrLock_detects {l : Fin 160} {rate : SdiRate} (sdi : isSdi s l.val = true)
    (up : (laneOf s (256 + l.val)).state ≠ .down) :
    let v := laneOf s (256 + l.val)
    let e := restartAdaptation (256 + l.val)
      (putLane s (256 + l.val) { v with state := .locked, counters := { v.counters with cdrRate := some rate } })
    let i := sdiInOf s l.val
    exec (.cdrLock l rate) s = .next
      (if i.state = .noSignal then
        putSdiIn e l.val { restartDetection i with state := .detecting, reason := if i.isolated then 11 else 3 }
       else e) := by
  intro v e i
  have input : sdiInOf e l.val = i := sdiInOf_of_sdi restartAdaptation_sdi l.val
  show execCdrLock l rate s = _
  unfold execCdrLock
  refine congrArg Host.Outcome.next ((if_pos (by simp [sdi, up])).trans ?_)
  show (if (sdiInOf e l.val).state = .noSignal then putSdiIn e l.val { restartDetection (sdiInOf e l.val) with
    state := .detecting, reason := if (sdiInOf e l.val).isolated then whyIsolated else whyDetecting } else e) = _
  rw [input]
  rfl

end Sys2Proof.Machine
end

section
namespace Sys2Proof.Machine

/-! ## Frames of an SDI receiver (R112, R115, R116, R119, R120) -/

variable {s t : State} {e why : Nat} {l : Fin 160} {x : SdiFrame}

/-! ### A loss that leaves the input outside its window -/

theorem dropSdiIn_outside (small : e < 160) (usable : (sdiInOf s e).state = .usable) (melts : freezes s e = false)
    (minor : effectiveSeverity s (sdiInFault e) < 2) :
    Becomes e .outOfWindow (countLoss (sdiInOf s e).counters) s (dropSdiIn e .outOfWindow why s) := by
  have dropped : Becomes e .outOfWindow (sdiInOf s e).counters s (droppedSdiIn e .outOfWindow why s) :=
    droppedSdiIn_becomes
  have counted := dropped.count countLoss
  have calm : Calm s (droppedSdiIn e .outOfWindow why s) := by
    unfold droppedSdiIn
    rw [melts]
    exact (Calm.of_parts rfl rfl : Calm s (putSdiIn s e _)).trans loseEssence_calm
  have still : effectiveSeverity (countSdiIn e countLoss (droppedSdiIn e .outOfWindow why s)) (sdiInFault e) < 2 :=
    calm.minor (by unfold faultClass sdiInFault faultId; omega) minor
  rw [dropSdiIn_eq, if_pos (beq_iff_eq.mpr usable), raiseSdi_input small, if_neg (Nat.not_le.mpr still)]
  exact counted.of_sdi (raiseCore_sdi _)

/-! ### A source that becomes usable (R92, R112) -/

theorem countJudgment_sources {d : Nat} : (countJudgment d s).mtx.sources = s.mtx.sources := by
  unfold countJudgment
  extract_lets r
  split
  · rfl
  · extract_lets mism ref s1 again src s2
    have counted : s2.mtx.sources = s.mtx.sources := by
      show (if _ then _ else _ : State).mtx.sources = _
      split <;> rfl
    split
    · rw [note, raiseCore_mtx]
      exact counted
    · exact counted

theorem blackRest_sources {d : Nat} : (blackRest d s).mtx.sources = s.mtx.sources := by
  have push : ∀ u l, (pushLine d l u).mtx.sources = u.mtx.sources := fun u l => by
    unfold pushLine
    split
    split <;> rfl
  unfold blackRest
  extract_lets t at'
  split
  · rfl
  · exact foldl_keeps (g := fun u => u.mtx.sources) push _

theorem enterFallback_sources {d : Nat} : (enterFallback d s).mtx.sources = s.mtx.sources := by
  have fell : (fallen d s).mtx.sources = s.mtx.sources := blackRest_sources
  rw [enterFallback_eq]
  split
  · rfl
  · split
    · rw [note, raiseCore_mtx]
      exact fell
    · exact fell

theorem judgeAll_sources {n : Nat} : (judgeAll n s).mtx.sources = s.mtx.sources := by
  refine foldl_keeps (g := fun u => u.mtx.sources) (fun u d => ?_) _
  show (if _ then _ else _ : State).mtx.sources = _
  split
  · exact enterFallback_sources.trans countJudgment_sources
  · exact countJudgment_sources

theorem gainSource_gains {n f k : Nat} {p : Word} : (sourceOf (gainSource n f k p s) n).usable = true
    ∧ (sourceOf (gainSource n f k p s) n).format = some f := by
  let v := sourceOf s n
  have source : sourceOf (gainSource n f k p s) n = { v with
      usable := true, format := some f, family := k, pid := p
      usableSince := if v.usable then v.usableSince else s.time.count } := by
    unfold sourceOf gainSource
    rw [judgeAll_sources]
    exact (sourceOf_putSource _ n n _).trans (if_pos rfl)
  rw [source]
  exact ⟨rfl, rfl⟩

theorem gainSource_sdi {n f k : Nat} {p : Word} : (gainSource n f k p s).sdi = s.sdi := judgeAll_sdi

/-! ### A frame that is received -/

/-- The device with a frame without payload ID counted (R115). -/
def pidCounted (e : Nat) (x : SdiFrame) (s : State) : State :=
  if x.pid.isNone then countSdiIn e (fun k => { k with pidAbsent := sat32 k.pidAbsent 1 }) s else s

/-- An input that has received a frame. -/
def frameSeen (e : Nat) (x : SdiFrame) (s : State) : SdiIn :=
  let i := sdiInOf (pidCounted e x s) e
  { i with
    last := some (x.format, x.pid), same := if i.last = some (x.format, x.pid) then i.same + 1 else 1
    offset := sdiOffset s (sdiInCfg s e).family x.format x.arrival }

/-- The device with a frame received. -/
def framed (e : Nat) (x : SdiFrame) (s : State) : State := putSdiIn (pidCounted e x s) e (frameSeen e x s)

theorem pidCounted_eq : pidCounted e x s = { s with sdi := (pidCounted e x s).sdi } := by
  unfold pidCounted
  split <;> rfl

theorem pidCounted_state : (sdiInOf (pidCounted e x s) e).state = (sdiInOf s e).state := by
  unfold pidCounted
  split
  · rw [sdiInOf_countSdiIn, if_pos rfl]
  · rfl

/-- What does not look at the SDI lanes. -/
theorem framed_keeps {α : Type} (f : State → α) (hf : ∀ u y, f { u with sdi := y } = f u) : f (framed e x s) = f s := by
  have counted : f (pidCounted e x s) = f s := by rw [pidCounted_eq, hf]
  exact (hf (pidCounted e x s) _).trans counted

theorem sdiInOf_framed : sdiInOf (framed e x s) e = frameSeen e x s := (sdiInOf_putSdiIn _ _ _ _).trans (if_pos rfl)

/-- What a frame does, by the state of the input. -/
theorem sdiFrameRx_brings (sdi : isSdi s l.val = true) (own : quadMemberIn s l.val = false)
    (signal : (sdiInOf (pidCounted l.val x s) l.val).state ≠ .noSignal) : exec (.sdiFrameRx l x) s = .next
      (match (sdiInOf (pidCounted l.val x s) l.val).state with
      | .usable => frameUsable l.val x (framed l.val x s)
      | .outOfWindow => frameOutside l.val x (framed l.val x s)
      | _ => frameDetecting l.val x (framed l.val x s)) := by
  have state := pidCounted_state (e := l.val) (x := x) (s := s)
  have receives : (isSdi s l.val && (sdiInOf s l.val).state != .noSignal && !quadMemberIn s l.val) = true := by
    rw [sdi, own, bne_iff_ne.mpr (state ▸ signal)]
    rfl
  refine congrArg Host.Outcome.next ((if_pos receives).trans ?_)
  have seen : putSdiIn (pidCounted l.val x s) l.val { sdiInOf (pidCounted l.val x s) l.val with
      last := some (x.format, x.pid)
      same := if (sdiInOf (pidCounted l.val x s) l.val).last = some (x.format, x.pid)
        then (sdiInOf (pidCounted l.val x s) l.val).same + 1 else 1
      offset := sdiOffset (pidCounted l.val x s) (sdiInCfg (pidCounted l.val x s) l.val).family x.format x.arrival }
      = framed l.val x s := by
    have offset : sdiOffset (pidCounted l.val x s) (sdiInCfg (pidCounted l.val x s) l.val).family x.format x.arrival
        = sdiOffset s (sdiInCfg s l.val).family x.format x.arrival := by rw [pidCounted_eq]; rfl
    rw [offset]
    rfl
  rw [← seen]
  rfl

theorem sdiFrameRx_silent (silent : (sdiInOf (pidCounted l.val x s) l.val).state = .noSignal) :
    exec (.sdiFrameRx l x) s = .next s := by
  have state := pidCounted_state (e := l.val) (x := x) (s := s)
  refine congrArg Host.Outcome.next (if_neg ?_)
  rw [← state, silent]
  simp

/-! ### What a frame makes of an input -/

theorem linksGood_framed : linksGood (framed e x s) e x = linksGood s e x :=
  framed_keeps (fun u => linksGood u e x) fun _ _ => rfl

theorem sdiInCfg_framed : sdiInCfg (framed e x s) e = sdiInCfg s e :=
  framed_keeps (fun u => sdiInCfg u e) fun _ _ => rfl

/-- An input with the identity of the frame that makes it usable. -/
def usableInput (i : SdiIn) (sync : Bool) (f : Nat) (pid : Word) : SdiIn :=
  { i with
    state := .usable, reason := 0, detected := some f, pid := pid, usablePending := sync, completed := 0
    haveFrame := i.haveFrame && i.frozen, writing := { pid := pid }
    counters := { i.counters with detects := sat32 i.counters.detects 1 } }

theorem enterUsable_enters : sdiInOf (enterUsable e x s) e
      = usableInput (sdiInOf s e) ((sdiInCfg s e).mode == 2) x.format (carriedPid (sdiInCfg s e).pidFill x.format x.pid)
    ∧ ((sdiInCfg s e).mode ≠ 2 → (sourceOf (enterUsable e x s) (sdiSource e)).usable = true
        ∧ (sourceOf (enterUsable e x s) (sdiSource e)).format = some x.format) := by
  unfold enterUsable
  extract_lets c pid i sync s1 s2
  have input : sdiInOf s2 e = usableInput (sdiInOf s e) sync x.format pid := by
    rw [sdiInOf_countSdiIn, if_pos rfl, sdiInOf_putSdiIn, if_pos rfl]
    rfl
  by_cases synchronizes : sync = true
  · rw [if_pos synchronizes]
    exact ⟨input, fun other => absurd (beq_iff_eq.mp synchronizes) other⟩
  · rw [if_neg synchronizes]
    exact ⟨(sdiInOf_of_sdi gainSource_sdi e).trans input, fun _ => gainSource_gains⟩

theorem frameDetecting_enters (twice : 2 ≤ (sdiInOf s e).same) (fits : (detectVerdict s e x).1 = .usable) :
    frameDetecting e x s = enterUsable e x s := by
  unfold frameDetecting
  extract_lets i
  rw [if_neg (Nat.not_lt.mpr twice)]
  split
  rename_i st why verdict
  rw [verdict] at fits
  exact if_pos fits

/-- A frame that does not fit what an input has detected ends USABLE. -/
theorem frameUsable_drops (h : linksGood s e x = false ∨ some x.format ≠ (sdiInOf s e).detected
      ∨ carriedPid (sdiInCfg s e).pidFill x.format x.pid ≠ (sdiInOf s e).pid) :
    ∃ why, frameUsable e x s = dropSdiIn e .detecting why s := by
  unfold frameUsable
  extract_lets i c
  cases links : linksGood s e x with
  | false => exact ⟨whyLink, rfl⟩
  | true =>
    refine ⟨whyFormatChange, if_pos (h.resolve_left ?_)⟩
    rw [links]
    decide

theorem frameUsable_stays (links : linksGood s e x = true) (format : some x.format = (sdiInOf s e).detected)
    (pid : carriedPid (sdiInCfg s e).pidFill x.format x.pid = (sdiInOf s e).pid)
    (inside : (sdiInCfg s e).mode = 1 → withinLines x.format 16 (sdiInOf s e).offset = true) :
    frameUsable e x s = if (sdiInCfg s e).mode = 2 then completeFrame e s else s := by
  unfold frameUsable
  extract_lets i c
  rw [links]
  refine (if_neg Bool.false_ne_true).trans ((if_neg ?_).trans (if_neg ?_))
  · exact not_or.mpr ⟨not_not.mpr format, not_not.mpr pid⟩
  · rintro ⟨window, outside⟩
    rw [inside window] at outside
    cases outside

theorem frameUsable_leaves (links : linksGood s e x = true) (format : some x.format = (sdiInOf s e).detected)
    (pid : carriedPid (sdiInCfg s e).pidFill x.format x.pid = (sdiInOf s e).pid) (window : (sdiInCfg s e).mode = 1)
    (outside : withinLines x.format 16 (sdiInOf s e).offset = false) :
    frameUsable e x s = dropSdiIn e .outOfWindow whyOutOfWindow s := by
  unfold frameUsable
  extract_lets i c
  rw [links]
  refine (if_neg Bool.false_ne_true).trans ((if_neg ?_).trans (if_pos ⟨window, ?_⟩))
  · exact not_or.mpr ⟨not_not.mpr format, not_not.mpr pid⟩
  · rw [outside]
    rfl

/-! ### SDI_FRAME_RX -/

section
variable (sdi : isSdi s l.val = true) (own : quadMemberIn s l.val = false)
include sdi own

theorem sdiFrameRx_usable (usable : (sdiInOf (pidCounted l.val x s) l.val).state = .usable) :
    exec (.sdiFrameRx l x) s = .next (frameUsable l.val x (framed l.val x s)) := by
  rw [sdiFrameRx_brings sdi own (by rw [usable]; decide), usable]

/-- The second of two identical frames of a fitting structure makes the input usable. -/
theorem sdiFrameRx_detects (detecting : (sdiInOf (pidCounted l.val x s) l.val).state = .detecting)
    (twice : 2 ≤ (frameSeen l.val x s).same) (fits : (detectVerdict (framed l.val x s) l.val x).1 = .usable) :
    exec (.sdiFrameRx l x) s = .next (enterUsable l.val x (framed l.val x s)) := by
  rw [sdiFrameRx_brings sdi own (by rw [detecting]; decide), detecting]
  exact congrArg Host.Outcome.next (frameDetecting_enters (by rwa [sdiInOf_framed]) fits)

theorem sdiFrameRx_differs (usable : (sdiInOf (pidCounted l.val x s) l.val).state = .usable)
    (differs : linksGood s l.val x = false ∨ some x.format ≠ (sdiInOf (pidCounted l.val x s) l.val).detected
      ∨ carriedPid (sdiInCfg s l.val).pidFill x.format x.pid ≠ (sdiInOf (pidCounted l.val x s) l.val).pid) :
    ∃ t, exec (.sdiFrameRx l x) s = .next t ∧ (sdiInOf t l.val).state = .detecting
      ∧ (sdiInOf t l.val).counters.losses = sat32 (sdiInOf (pidCounted l.val x s) l.val).counters.losses 1 := by
  obtain ⟨why, drops⟩ := frameUsable_drops (s := framed l.val x s) (e := l.val) (x := x)
    (by rw [linksGood_framed, sdiInCfg_framed, sdiInOf_framed]; exact differs)
  refine ⟨_, sdiFrameRx_usable sdi own usable, ?_⟩
  have lost := dropSdiIn_becomes (s := framed l.val x s) (next := .detecting) (why := why) l.isLt rfl (by decide)
  rw [drops, lost.state, lost.counters, lostCounters, sdiInOf_framed]
  exact ⟨rfl, congrArg SdiInCounters.losses (if_pos usable)⟩

theorem sdiFrameRx_outside (usable : (sdiInOf (pidCounted l.val x s) l.val).state = .usable)
    (links : linksGood s l.val x = true) (format : some x.format = (sdiInOf (pidCounted l.val x s) l.val).detected)
    (pid : carriedPid (sdiInCfg s l.val).pidFill x.format x.pid = (sdiInOf (pidCounted l.val x s) l.val).pid)
    (window : (sdiInCfg s l.val).mode = 1) (outside : withinLines x.format 16 (frameSeen l.val x s).offset = false)
    (minor : effectiveSeverity s (sdiInFault l.val) < 2) :
    ∃ t, exec (.sdiFrameRx l x) s = .next t ∧ (sdiInOf t l.val).state = .outOfWindow
      ∧ (sdiInOf t l.val).counters.losses = sat32 (sdiInOf (pidCounted l.val x s) l.val).counters.losses 1 := by
  have leaves : frameUsable l.val x (framed l.val x s)
      = dropSdiIn l.val .outOfWindow whyOutOfWindow (framed l.val x s) := by
    refine frameUsable_leaves ?_ ?_ ?_ ?_ ?_
    · rwa [linksGood_framed]
    · rwa [sdiInOf_framed]
    · rwa [sdiInCfg_framed, sdiInOf_framed]
    · rwa [sdiInCfg_framed]
    · rwa [sdiInOf_framed]
  have melts : freezes (framed l.val x s) l.val = false := by
    simp only [freezes, sdiInCfg_framed, window]
    rfl
  have quiet : effectiveSeverity (framed l.val x s) (sdiInFault l.val) < 2 :=
    (framed_keeps (fun u => effectiveSeverity u (sdiInFault l.val)) fun _ _ => rfl).symm ▸ minor
  have input := sdiInOf_framed (s := s) (e := l.val) (x := x)
  have lost := dropSdiIn_outside (why := whyOutOfWindow) l.isLt (by rw [input]; exact usable) melts quiet
  refine ⟨_, sdiFrameRx_usable sdi own usable, ?_⟩
  rw [leaves, lost.state, lost.counters, input]
  exact ⟨rfl, rfl⟩
end

end Sys2Proof.Machine
end

section
namespace Sys2Proof.Machine

/-! ## Lines of an SDI receiver (R110, R111, R112, R118 to R121, R130 to R132) -/

variable {α : Type} {s t u : State} {e b link k : Nat} {v : SdiIn} {p : AncPacket} {x : SdiLine}

/-! ### What a line brings to an input -/

/-- An input but for what a line brings to it, and what it counts of its packets. -/
def quiet (i : SdiIn) : SdiIn :=
  { i with writing := {}, window := [], groups := [], quad := []
           counters := { i.counters with
             audioRate := 0, audioErrors := 0, audioIgnored := 0, ancErrors := 0, ancDrop := 0 } }

/-- Input b has received something, and nothing else has changed but what it presents. -/
structure Brings (b : Nat) (s t : State) : Prop where
  kept : quiet (sdiInOf t b) = quiet (sdiInOf s b)
  others : ∀ k, k ≠ b → sdiInOf t k = sdiInOf s k
  dests : ∀ m d, destOf t m d = destOf s m d
  settings : t.set = s.set
  lanes : t.fab.lanes = s.fab.lanes

theorem Brings.refl : Brings b s s := ⟨rfl, fun _ _ => rfl, fun _ _ => rfl, rfl, rfl⟩

theorem Brings.trans (h : Brings b s t) (g : Brings b t u) : Brings b s u :=
  ⟨g.kept.trans h.kept, fun k hk => (g.others k hk).trans (h.others k hk),
    fun m d => (g.dests m d).trans (h.dests m d), g.settings.trans h.settings, g.lanes.trans h.lanes⟩

theorem Brings.ite {c : Prop} [Decidable c] (h : Brings b s t) (g : Brings b s u) :
    Brings b s (if c then t else u) := by
  split <;> assumption

theorem foldl_brings {f : State → α → State} (hf : ∀ u x, Brings b u (f u x)) (l : List α) : Brings b s (l.foldl f s) :=
  List.foldlRecOn (motive := Brings b s) l f .refl fun _ hu x _ => hu.trans (hf _ x)

theorem Brings.of_shows (h : Shows [.mtx, .link] s t) : Brings b s t := by
  have sdi : t.sdi = s.sdi := h.keeps (fun u => u.sdi) fun _ => rfl
  exact ⟨congrArg quiet (sdiInOf_of_sdi sdi b), fun k _ => sdiInOf_of_sdi sdi k, h.destOf,
    h.keeps (fun u => u.set) fun _ => rfl, h.keeps (fun u => u.fab.lanes) fun _ => rfl⟩

theorem Brings.put (same : quiet v = quiet (sdiInOf s b)) : Brings b s (putSdiIn s b v) :=
  ⟨(congrArg quiet ((sdiInOf_putSdiIn _ _ _ _).trans (if_pos rfl))).trans same,
    fun _ hk => (sdiInOf_putSdiIn _ _ _ _).trans (if_neg (Ne.symm hk)), fun m _ => by cases m <;> rfl, rfl, rfl⟩

theorem Brings.state (h : Brings b s t) : (sdiInOf t b).state = (sdiInOf s b).state := (congrArg SdiIn.state h.kept :)
theorem Brings.trsRun (h : Brings b s t) : (sdiInOf t b).trsRun = (sdiInOf s b).trsRun :=
  (congrArg SdiIn.trsRun h.kept :)
theorem Brings.losses (h : Brings b s t) : (sdiInOf t b).counters.losses = (sdiInOf s b).counters.losses :=
  (congrArg (fun i => i.counters.losses) h.kept :)
theorem Brings.detected (h : Brings b s t) : (sdiInOf t b).detected = (sdiInOf s b).detected :=
  (congrArg SdiIn.detected h.kept :)
theorem Brings.pid (h : Brings b s t) : (sdiInOf t b).pid = (sdiInOf s b).pid := (congrArg SdiIn.pid h.kept :)

/-- What a line counts of its own stays. -/
theorem Brings.counted (h : Brings b s t) : (sdiInOf t b).counters.trsErrors = (sdiInOf s b).counters.trsErrors
    ∧ (sdiInOf t b).counters.lnErrors = (sdiInOf s b).counters.lnErrors
    ∧ (sdiInOf t b).counters.crcErrors = (sdiInOf s b).counters.crcErrors
    ∧ (sdiInOf t b).counters.audioAsync = (sdiInOf s b).counters.audioAsync :=
  ⟨(congrArg (fun i => i.counters.trsErrors) h.kept :), (congrArg (fun i => i.counters.lnErrors) h.kept :),
    (congrArg (fun i => i.counters.crcErrors) h.kept :), (congrArg (fun i => i.counters.audioAsync) h.kept :)⟩

theorem Brings.receivesSd (h : Brings b s t) : receivesSd t b = receivesSd s b := by
  simp only [Machine.receivesSd, laneOf, h.lanes]

/-! ### Packets (R108, R130 to R132) -/

theorem inputSamples_brings {ws : List Word} : Brings b s (inputSamples b k ws s) :=
  .ite .refl (.ite (.put rfl) (.of_shows (presentSamples_shows (by decide) .refl)))

theorem countAudioError_brings {good : Bool} : Brings b s (countAudioError b good s) := .ite .refl (.put rfl)

theorem inputAudio_brings {g : Nat} {sd good : Bool} {low : Option (List Nat)} :
    Brings b s (inputAudio b g sd good low p s) := by
  have concealed : ∀ n, Brings b s
      ((List.range 4).foldl (fun s k => inputRepeat b (4 * (g - 1) + k) n s) (countAudioError b good s)) := fun n =>
    countAudioError_brings.trans (foldl_brings (fun _ _ => inputSamples_brings) _)
  unfold inputAudio
  refine .ite (.put rfl) (.ite .refl ?_)
  split
  · exact concealed _
  · exact concealed _
  · exact foldl_brings (fun _ _ => inputSamples_brings) _

theorem inputControl_brings {g : Nat} {sd : Bool} : Brings b s (inputControl b g sd p s) := by
  unfold inputControl
  split
  rename_i async other _
  have group : ∀ w, Brings b s (putSdiIn s b { sdiInOf s b with groups := w }) := fun w => .put rfl
  exact .ite ((group _).trans (.put rfl)) (group _)

theorem inputAnc_brings : Brings b s (inputAnc b p s) := by
  unfold inputAnc
  extract_lets i
  refine .ite .refl ?_
  split
  · exact .of_shows (presentAnc_shows (by decide) (by decide) .refl)
  · exact .put rfl
  · exact .put rfl

/-- An input that has detected a picture receives a packet with another payload ID (R112, R115). -/
structure PidDiffers (s : State) (b : Nat) (y : RxAnc) : Prop where
  carries : (sdiInOf s b).state = .usable ∨ (sdiInOf s b).state = .outOfWindow
  good : y.good = true
  kind : ancKind (receivesSd s b) y.packet = .payloadId
  other : samePid ((sdiInOf s b).detected.getD 0) (packetPid y.packet) (sdiInOf s b).pid = false

theorem Brings.pidDiffers (h : Brings b s t) {y : RxAnc} : PidDiffers t b y ↔ PidDiffers s b y := by
  constructor <;> rintro ⟨carries, good, kind, other⟩
  · exact ⟨h.state ▸ carries, good, h.receivesSd ▸ kind, h.detected ▸ h.pid ▸ other⟩
  · exact ⟨h.state ▸ carries, good, h.receivesSd ▸ kind, h.detected ▸ h.pid ▸ other⟩

theorem inputPid_same (same : ¬ (((sdiInOf s b).state = .usable ∨ (sdiInOf s b).state = .outOfWindow)
    ∧ samePid ((sdiInOf s b).detected.getD 0) (packetPid p) (sdiInOf s b).pid = false)) : inputPid b p s = s := by
  refine if_neg fun h => same ⟨h.1, ?_⟩
  simpa using h.2

theorem inputPacket_brings {line : List RxAnc} {y : RxAnc} (same : ¬ PidDiffers s b y) :
    Brings b s (inputPacket b line y s) := by
  unfold inputPacket
  extract_lets sd p
  generalize kind : ancKind sd p = which
  have damaged : Brings b s (countSdiIn b (fun c => { c with ancErrors := sat32 c.ancErrors 1 }) s) := .put rfl
  cases which with
  | audioData g => exact inputAudio_brings
  | audioExtended g => exact countAudioError_brings
  | audioControl g => exact .ite damaged (.ite inputControl_brings .refl)
  | edh => exact .ite damaged (.put rfl)
  | other => exact .ite damaged inputAnc_brings
  | payloadId =>
    cases good : y.good with
    | false => exact damaged
    | true =>
      have ignored : inputPid b p s = s := inputPid_same fun ⟨carries, other⟩ => same ⟨carries, good, kind, other⟩
      show Brings b s (inputPid b p s)
      rw [ignored]
      exact .refl

/-- A payload ID that differs ends USABLE and OUT_OF_WINDOW. -/
theorem inputPacket_drops {line : List RxAnc} {y : RxAnc} (differs : PidDiffers s b y) :
    inputPacket b line y s = dropSdiIn b .detecting whyFormatChange s := by
  obtain ⟨carries, good, kind, other⟩ := differs
  have ends : inputPid b y.packet s = dropSdiIn b .detecting whyFormatChange s := if_pos ⟨carries, by rw [other]; rfl⟩
  unfold inputPacket
  simp only [kind, good, Bool.not_true, Bool.false_eq_true, if_false, ends]

/-- The packets of a line on which no payload ID differs. -/
theorem inputPackets_brings {line ys : List RxAnc} (same : ∀ y ∈ ys, ¬ PidDiffers s b y) :
    Brings b s (ys.foldl (fun s y => inputPacket b line y s) s) := by
  induction ys generalizing s with
  | nil => exact .refl
  | cons y ys ih =>
    have first : Brings b s (inputPacket b line y s) := inputPacket_brings (same y List.mem_cons_self)
    exact first.trans (ih fun z mem => mt first.pidDiffers.mp (same z (List.mem_cons_of_mem _ mem)))

/-- The input detects again, its loss counted where it was usable. -/
def Falls (b : Nat) (s t : State) : Prop :=
  (sdiInOf t b).state = .detecting
    ∧ ((sdiInOf s b).state = .usable → (sdiInOf t b).counters.losses = sat32 (sdiInOf s b).counters.losses 1)

theorem Brings.falls (h : Brings b s t) (g : Falls b t u) : Falls b s u :=
  ⟨g.1, fun usable => (g.2 (h.state.trans usable)).trans (by rw [h.losses])⟩

theorem Falls.brings (h : Falls b s t) (g : Brings b t u) : Falls b s u :=
  ⟨g.state.trans h.1, fun usable => g.losses.trans (h.2 usable)⟩

theorem dropSdiIn_falls {why : Nat} (small : b < 160) : Falls b s (dropSdiIn b .detecting why s) := by
  have lost := dropSdiIn_becomes (s := s) (next := .detecting) (why := why) small rfl (by decide)
  refine ⟨lost.state, fun usable => ?_⟩
  rw [lost.counters, lostCounters, if_pos usable]
  rfl

/-- The packets of a line on which some payload ID differs: the first of these ends USABLE, the others find nothing
more to end. -/
theorem inputPackets_falls {line ys : List RxAnc} {y : RxAnc} (small : b < 160) (mem : y ∈ ys)
    (differs : PidDiffers s b y) : Falls b s (ys.foldl (fun s y => inputPacket b line y s) s) := by
  induction ys generalizing s with
  | nil => cases mem
  | cons z ys ih =>
    rw [List.foldl_cons]
    by_cases first : PidDiffers s b z
    · have fell : Falls b s (inputPacket b line z s) := inputPacket_drops first ▸ dropSdiIn_falls small
      refine fell.brings (inputPackets_brings fun w _ again => ?_)
      rcases again.carries with usable | outside
      · exact absurd (fell.1.symm.trans usable) (by decide)
      · exact absurd (fell.1.symm.trans outside) (by decide)
    · have goesOn : Brings b s (inputPacket b line z s) := inputPacket_brings first
      refine goesOn.falls (ih ?_ (goesOn.pidDiffers.mpr differs))
      exact (List.mem_cons.mp mem).resolve_left fun same => first (same ▸ differs)

/-! ### The picture (R110, R118 to R121) -/

theorem inputLine_brings {l : PicLine} : Brings b s (inputLine b l s) := by
  unfold inputLine
  extract_lets i
  split
  · exact .of_shows (presentLine_shows (by decide) .refl)
  · exact .put rfl
  · exact .put rfl

theorem inputFrame_brings : Brings b s (inputFrame b s) := by
  unfold inputFrame
  extract_lets i
  split
  · exact .of_shows (beginFrame_shows (by decide) .refl)
  · exact .put rfl
  · exact .refl

theorem moveWindow_brings {fmt : Nat} : Brings b s (moveWindow b fmt s) := by
  unfold moveWindow
  extract_lets i depth aged out t
  have aging : Brings b s t := .put rfl
  refine aging.trans (foldl_brings (fun u y => ?_) _)
  split
  · exact .of_shows (presentLine_shows (by decide) .refl)
  · exact .of_shows (presentAnc_shows (by decide) (by decide) .refl)
  · exact .of_shows (beginFrame_shows (by decide) .refl)

theorem gatherImages_brings : Brings b s (gatherImages b link x s).2 := by
  unfold gatherImages
  split
  · extract_lets i waiting own
    split
    · exact .put rfl
    · exact .put rfl
  · exact .refl

theorem inputStart_brings : Brings b s (inputStart b link x s) := .ite inputFrame_brings .refl

theorem inputContent_brings : Brings b s (inputContent b link x s) := by
  unfold inputContent
  refine .ite .refl ?_
  extract_lets fmt
  have gathered : Brings b s (gatherImages b link x s).2 := gatherImages_brings
  generalize gatherImages b link x s = gathering at gathered ⊢
  obtain ⟨images, t⟩ := gathering
  dsimp only at gathered ⊢
  refine gathered.trans ?_
  have pictured : ∀ l : List PicLine, Brings b t (l.foldl (fun s l => inputLine b l s) t) :=
    foldl_brings fun _ _ => inputLine_brings
  cases images with
  | none => exact .ite moveWindow_brings .refl
  | some ims => exact .ite ((pictured _).trans moveWindow_brings) (pictured _)

/-! ### All that a line brings -/

theorem inputWhole_brings (same : link = 0 → ∀ y ∈ x.anc, ¬ PidDiffers s b y) : Brings b s (inputWhole b link x s) := by
  unfold inputWhole
  have began : Brings b s (inputStart b link x s) := inputStart_brings
  refine (Brings.trans ?_ inputContent_brings)
  by_cases first : link = 0
  · rw [if_pos first]
    exact began.trans (inputPackets_brings fun y mem => mt began.pidDiffers.mp (same first y mem))
  · rw [if_neg first]
    exact began

theorem inputWhole_falls {y : RxAnc} (small : b < 160) (mem : y ∈ x.anc) (differs : PidDiffers s b y) :
    Falls b s (inputWhole b 0 x s) := by
  unfold inputWhole
  have began : Brings b s (inputStart b 0 x s) := inputStart_brings
  dsimp only
  rw [if_pos rfl]
  exact (began.falls (inputPackets_falls small mem (began.pidDiffers.mpr differs))).brings inputContent_brings

end Sys2Proof.Machine
end

section
namespace Sys2Proof.Machine

/-! ## SDI_LINE_RX (R38, R110 to R112) -/

variable {s t u : State} {e b link k : Nat} {l : Fin 160} {x : SdiLine}

/-! ### A line is counted (R111) -/

theorem sdiInOf_countLine_other (other : k ≠ b) : sdiInOf (countLine b link x s) k = sdiInOf s k :=
  (sdiInOf_countSdiIn _ _).trans (if_neg (Ne.symm other))

/-- An input that has counted a line, but for its counters. -/
theorem sdiInOf_countLine : sdiInOf (countLine b link x s) b =
    { sdiInOf s b with counters := (sdiInOf (countLine b link x s) b).counters } := by
  unfold countLine
  rw [sdiInOf_countSdiIn, if_pos rfl]

theorem losses_countLine : (sdiInOf (countLine b link x s) b).counters.losses = (sdiInOf s b).counters.losses := by
  unfold countLine
  rw [sdiInOf_countSdiIn, if_pos rfl]

theorem state_countLine (k : Nat) : (sdiInOf (countLine b link x s) k).state = (sdiInOf s k).state := by
  by_cases same : k = b
  · rw [same, sdiInOf_countLine]
  · rw [sdiInOf_countLine_other same]

theorem trsRun_countLine (k : Nat) : (sdiInOf (countLine b link x s) k).trsRun = (sdiInOf s k).trsRun := by
  by_cases same : k = b
  · rw [same, sdiInOf_countLine]
  · rw [sdiInOf_countLine_other same]

theorem pidDiffers_countLine {y : RxAnc} : PidDiffers (countLine b link x s) b y ↔ PidDiffers s b y := by
  have input : sdiInOf (countLine b link x s) b =
    { sdiInOf s b with counters := (sdiInOf (countLine b link x s) b).counters } := sdiInOf_countLine
  constructor <;> rintro ⟨carries, good, kind, other⟩
  · rw [input] at carries other
    exact ⟨carries, good, kind, other⟩
  · refine ⟨?_, good, kind, ?_⟩ <;> rw [input]
    · exact carries
    · exact other

theorem countLine_falls (h : Falls b (countLine b link x s) t) : Falls b s t :=
  ⟨h.1, fun usable => (h.2 ((state_countLine b).trans usable)).trans (by rw [losses_countLine])⟩

/-! ### The run of lines with a bad TRS (R111) -/

/-- Lines in a row with the TRS missing or moved, behind a line. -/
def runAfter (x : SdiLine) (i : SdiIn) : Nat := if trsBad x then i.trsRun + 1 else 0

/-- The device with the run of a lane's lines counted. -/
def withRun (e : Nat) (x : SdiLine) (s : State) : State :=
  putSdiIn s e { sdiInOf s e with trsRun := runAfter x (sdiInOf s e), atLine := x.number }

/-- Three bad lines in a row end USABLE and OUT_OF_WINDOW, or the detection in progress. -/
def judgeRun (e b : Nat) (x : SdiLine) (s : State) : State :=
  if runAfter x (sdiInOf s e) < 3 then withRun e x s
  else if (sdiInOf (withRun e x s) b).state = .usable ∨ (sdiInOf (withRun e x s) b).state = .outOfWindow then
    dropSdiIn b .detecting whyFormatChange (withRun e x s)
  else putSdiIn (withRun e x s) b (restartDetection (sdiInOf (withRun e x s) b))

theorem sdiInOf_withRun_other (other : k ≠ e) : sdiInOf (withRun e x s) k = sdiInOf s k :=
  (sdiInOf_putSdiIn _ _ _ _).trans (if_neg (Ne.symm other))

theorem trsRun_withRun : (sdiInOf (withRun e x s) e).trsRun = runAfter x (sdiInOf s e) :=
  congrArg SdiIn.trsRun ((sdiInOf_putSdiIn _ _ _ _).trans (if_pos rfl))

/-- The run changes neither the state nor the counters of an input. -/
theorem withRun_keeps (k : Nat) : (sdiInOf (withRun e x s) k).state = (sdiInOf s k).state
    ∧ (sdiInOf (withRun e x s) k).counters = (sdiInOf s k).counters := by
  by_cases same : k = e
  · rw [same, withRun, sdiInOf_putSdiIn, if_pos rfl]
    exact ⟨rfl, rfl⟩
  · rw [sdiInOf_withRun_other same]
    exact ⟨rfl, rfl⟩

theorem Falls.withRun (h : Falls b s t) : Falls b s (withRun e x t) :=
  ⟨(withRun_keeps b).1.trans h.1, fun usable => (congrArg SdiInCounters.losses (withRun_keeps b).2).trans (h.2 usable)⟩

/-! ### What a line does -/

/-- What a line does where an input or a member of it runs. -/
def lineEffect (e b : Nat) (x : SdiLine) (s : State) : State :=
  let counted := countLine b (e - b) x (if x.overflow then fifoOverflow (256 + e) s else s)
  judgeRun e b x (if x.overflow then counted else inputWhole b (e - b) x counted)

theorem sdiLineRx_runs (sdi : isSdi s l.val = true)
    (runs : (sdiInOf s l.val).state ≠ .noSignal ∨ (sdiInOf s (quadBaseIn s l.val)).state = .usable) :
    exec (.sdiLineRx l x) s = .next (lineEffect l.val (quadBaseIn s l.val) x s) :=
  congrArg Host.Outcome.next (if_pos (by simpa [sdi] using runs))

theorem sdiLineRx_idle
    (idle : ¬ ((sdiInOf s l.val).state ≠ .noSignal ∨ (sdiInOf s (quadBaseIn s l.val)).state = .usable)) :
    exec (.sdiLineRx l x) s = .next s :=
  congrArg Host.Outcome.next (if_neg (by simpa using fun _ => idle))

theorem lineEffect_clean (clean : x.overflow = false) :
    lineEffect e b x s = judgeRun e b x (inputWhole b (e - b) x (countLine b (e - b) x s)) := by
  simp only [lineEffect, clean, Bool.false_eq_true, if_false]

/-! ### A payload ID that differs -/

/-- An input that has fallen is not ended once more by the run of its lines. -/
theorem judgeRun_falls (h : Falls b s t) : Falls b s (judgeRun e b x t) := by
  have fell : Falls b s (withRun e x t) := h.withRun
  unfold judgeRun
  split
  · exact fell
  · have detects : ¬ ((sdiInOf (withRun e x t) b).state = .usable
        ∨ (sdiInOf (withRun e x t) b).state = .outOfWindow) := by
      rw [fell.1]
      simp
    rw [if_neg detects]
    have restarts : sdiInOf (putSdiIn (withRun e x t) b (restartDetection (sdiInOf (withRun e x t) b))) b
        = restartDetection (sdiInOf (withRun e x t) b) := (sdiInOf_putSdiIn _ _ _ _).trans (if_pos rfl)
    unfold Falls
    rw [restarts]
    exact fell

/-- A payload ID that differs, received on the base lane, ends USABLE with its line. -/
theorem lineEffect_falls {y : RxAnc} (small : b < 160) (clean : x.overflow = false) (mem : y ∈ x.anc)
    (differs : PidDiffers s b y) : Falls b s (lineEffect b b x s) := by
  rw [lineEffect_clean clean, Nat.sub_self]
  exact judgeRun_falls (countLine_falls (inputWhole_falls small mem (pidDiffers_countLine.mpr differs)))

/-! ### A line without such a payload ID -/

section
variable (same : e - b = 0 → ∀ y ∈ x.anc, ¬ PidDiffers s b y) (clean : x.overflow = false)
include same

/-- What the line brings, to the input that has counted it. -/
theorem line_brings : Brings b (countLine b (e - b) x s) (inputWhole b (e - b) x (countLine b (e - b) x s)) :=
  inputWhole_brings fun first y mem => mt pidDiffers_countLine.mp (same first y mem)

theorem runAfter_line : runAfter x (sdiInOf (inputWhole b (e - b) x (countLine b (e - b) x s)) e)
    = runAfter x (sdiInOf s e) := by
  have brings := line_brings same
  have run : (sdiInOf (inputWhole b (e - b) x (countLine b (e - b) x s)) e).trsRun = (sdiInOf s e).trsRun := by
    by_cases base : e = b
    · subst base
      exact brings.trsRun.trans (trsRun_countLine e)
    · rw [brings.others e base, sdiInOf_countLine_other base]
  unfold runAfter
  rw [run]

include clean

/-- A line that ends no run of three is counted, and brings what it brings. -/
theorem lineEffect_short (short : runAfter x (sdiInOf s e) < 3) :
    lineEffect e b x s = withRun e x (inputWhole b (e - b) x (countLine b (e - b) x s)) := by
  rw [lineEffect_clean clean, judgeRun, if_pos (by rwa [runAfter_line same])]

/-- The third bad line in a row ends USABLE. -/
theorem lineEffect_third (small : b < 160) (third : 3 ≤ runAfter x (sdiInOf s e))
    (usable : (sdiInOf s b).state = .usable) :
    Falls b s (lineEffect e b x s) := by
  let t := withRun e x (inputWhole b (e - b) x (countLine b (e - b) x s))
  have brings := line_brings same
  have state : (sdiInOf t b).state = .usable :=
    (withRun_keeps b).1.trans (brings.state.trans ((state_countLine b).trans usable))
  have losses : (sdiInOf t b).counters.losses = (sdiInOf s b).counters.losses :=
    (congrArg SdiInCounters.losses (withRun_keeps b).2).trans (brings.losses.trans losses_countLine)
  have ends : lineEffect e b x s = dropSdiIn b .detecting whyFormatChange t := by
    rw [lineEffect_clean clean, judgeRun, if_neg (by rw [runAfter_line same]; omega), if_pos (.inl state)]
  have fell : Falls b t (dropSdiIn b .detecting whyFormatChange t) := dropSdiIn_falls small
  rw [ends]
  exact ⟨fell.1, fun _ => (fell.2 state).trans (by rw [losses])⟩
end

/-! ### A line on which the FIFO filled (R38) -/

theorem lineEffect_overflows (full : x.overflow = true) :
    Moves sdiAreas (fifoOverflow (256 + e) s) (lineEffect e b x s) := by
  have counted : Moves sdiAreas (fifoOverflow (256 + e) s) (countLine b (e - b) x (fifoOverflow (256 + e) s)) := by
    unfold countLine
    exact countSdiIn_moves (by decide) .refl
  have run : ∀ {u}, Moves sdiAreas (fifoOverflow (256 + e) s) u →
      Moves sdiAreas (fifoOverflow (256 + e) s) (withRun e x u) :=
    fun h => putSdiIn_moves (by decide) h
  simp only [lineEffect, full, if_true]
  exact ite_moves (run counted) (ite_moves (dropSdiIn_moves (List.Subset.refl _) (run counted))
    (putSdiIn_moves (by decide) (run counted)))

theorem lineEffect_fifo (full : x.overflow = true) :
    (faultOf (lineEffect e b x s) (laneFault (256 + e))).sticky = true
      ∧ (laneOf (lineEffect e b x s) (256 + e)).counters.fifoOverflow
          = sat32 (laneOf s (256 + e)).counters.fifoOverflow 1 := by
  obtain ⟨sticky, counted⟩ := fifoOverflow_counts (s := s) (f := 256 + e)
  have after := lineEffect_overflows (s := s) (e := e) (b := b) full
  exact ⟨after.rises.sticky _ sticky,
    (congrArg LaneCounters.fifoOverflow (after.counters (by decide) _)).trans counted⟩

/-! ### The clauses -/

/-- The payload IDs of a line are those of the input, as far as they are looked at. -/
theorem not_pidDiffers {y : RxAnc} (same : ((sdiInOf s b).state = .usable ∨ (sdiInOf s b).state = .outOfWindow) →
    y.good = true → ancKind (receivesSd s b) y.packet = .payloadId →
      samePid ((sdiInOf s b).detected.getD 0) (packetPid y.packet) (sdiInOf s b).pid = true) : ¬ PidDiffers s b y :=
  fun ⟨carries, good, kind, other⟩ => by
    rw [same carries good kind] at other
    cases other

/-- A line that is counted at the base lane: its run, and what it counts, stand; the rest of the input stays. -/
theorem lineEffect_kept (same : e - b = 0 → ∀ y ∈ x.anc, ¬ PidDiffers s b y) (clean : x.overflow = false)
    (short : runAfter x (sdiInOf s e) < 3) :
    let c := (sdiInOf (countLine b (e - b) x s) b).counters
    let t := lineEffect e b x s
    (sdiInOf t e).trsRun = runAfter x (sdiInOf s e) ∧ (sdiInOf t b).state = (sdiInOf s b).state
      ∧ (sdiInOf t b).counters.trsErrors = c.trsErrors ∧ (sdiInOf t b).counters.lnErrors = c.lnErrors
      ∧ (sdiInOf t b).counters.crcErrors = c.crcErrors ∧ (sdiInOf t b).counters.audioAsync = c.audioAsync
      ∧ (∀ k, k ≠ e → k ≠ b → sdiInOf t k = sdiInOf s k) ∧ (∀ m d, destOf t m d = destOf s m d) := by
  intro c t
  have brings := line_brings same
  obtain ⟨state, counters⟩ := withRun_keeps (x := x) (e := e) (s := inputWhole b (e - b) x (countLine b (e - b) x s)) b
  obtain ⟨trs, ln, crc, async⟩ := brings.counted
  show _ ∧ _ ∧ _ ∧ _ ∧ _ ∧ _ ∧ _ ∧ _
  rw [show t = _ from lineEffect_short same clean short, state, counters]
  refine ⟨trsRun_withRun.trans (runAfter_line same), brings.state.trans (state_countLine b), trs, ln, crc, async,
    fun k notLane notBase => ?_, fun m d => ?_⟩
  · rw [sdiInOf_withRun_other notLane, brings.others k notBase, sdiInOf_countLine_other notBase]
  · have kept := brings.dests m d
    cases m <;> exact kept

/-- The payload IDs of a line are those that its input has detected (R115). -/
def SamePids (s : State) (b : Nat) (x : SdiLine) : Prop :=
  ∀ y ∈ x.anc, y.good = true → ancKind (receivesSd s b) y.packet = .payloadId →
    samePid ((sdiInOf s b).detected.getD 0) (packetPid y.packet) (sdiInOf s b).pid = true

theorem exists_pidDiffers (carries : (sdiInOf s b).state = .usable ∨ (sdiInOf s b).state = .outOfWindow)
    (h : ¬ SamePids s b x) : ∃ y ∈ x.anc, PidDiffers s b y := by
  unfold SamePids at h
  push Not at h
  obtain ⟨y, mem, good, kind, other⟩ := h
  exact ⟨y, mem, carries, good, kind, Bool.not_eq_true _ ▸ other⟩

/-- Three bad lines in a row end USABLE, if a payload ID has not done so. -/
theorem lineEffect_ends (small : b < 160) (base : b ≤ e) (clean : x.overflow = false)
    (third : 3 ≤ runAfter x (sdiInOf s e)) (usable : (sdiInOf s b).state = .usable) :
    Falls b s (lineEffect e b x s) := by
  by_cases same : e - b = 0 → ∀ y ∈ x.anc, ¬ PidDiffers s b y
  · exact lineEffect_third same clean small third usable
  · push Not at same
    obtain ⟨first, y, mem, differs⟩ := same
    obtain rfl : e = b := by omega
    exact lineEffect_falls small clean mem differs

end Sys2Proof.Machine
end

section
namespace Sys2Proof.Machine

/-! ## The frame start of an SDI output (R123 to R129, R291) -/

variable {α : Type} {s t u : State} {e k n : Nat} {v : SdiOut} {l : Fin 160}

/-! ### What an output shows is judged (R126 to R128, R135) -/

/-- An output but for what is judged of the source that it shows. -/
def served (o : SdiOut) : SdiOut :=
  { o with outOf := none, recovering := false, inRange := false, mistimed := 0, isolated := false, lastPid := none }

/-- Beside output e and what a judgment reaches, the device stays. -/
structure BesideOut (e : Nat) (s t : State) : Prop where
  others : ∀ k, k ≠ e → sdiOutOf t k = sdiOutOf s k
  embeds : t.sdi.pendingEmbed = s.sdi.pendingEmbed
  settings : t.set = s.set
  lanes : t.fab.lanes = s.fab.lanes
  dests : ∀ m d, destOf t m d = destOf s m d

theorem BesideOut.refl : BesideOut e s s := ⟨fun _ _ => rfl, rfl, rfl, rfl, fun _ _ => rfl⟩

theorem BesideOut.trans (h : BesideOut e s t) (g : BesideOut e t u) : BesideOut e s u :=
  ⟨fun k hk => (g.others k hk).trans (h.others k hk), g.embeds.trans h.embeds, g.settings.trans h.settings,
    g.lanes.trans h.lanes, fun m d => (g.dests m d).trans (h.dests m d)⟩

theorem putSdiOut_beside : BesideOut e s (putSdiOut s e v) :=
  ⟨fun _ hk => sdiOutOf_putSdiOut_other hk, rfl, rfl, rfl, fun m _ => by cases m <;> rfl⟩

theorem Formats.besideOut (h : Formats e s t) : BesideOut e s t :=
  ⟨h.others, h.keeps (fun u => u.sdi.pendingEmbed) fun _ _ => rfl, h.keeps (fun u => u.set) fun _ _ => rfl,
    h.keeps (fun u => u.fab.lanes) fun _ _ => rfl,
    fun m d => h.keeps (fun u => destOf u m d) fun _ _ => by cases m <;> rfl⟩

/-- Of output e a judgment alone has changed. -/
structure Serves (e : Nat) (s t : State) : Prop extends BesideOut e s t where
  output : served (sdiOutOf t e) = served (sdiOutOf s e)

theorem Serves.running (h : Serves e s t) : (sdiOutOf t e).running = (sdiOutOf s e).running :=
  (congrArg SdiOut.running h.output :)
theorem Serves.pendingCfg (h : Serves e s t) : (sdiOutOf t e).pendingCfg = (sdiOutOf s e).pendingCfg :=
  (congrArg SdiOut.pendingCfg h.output :)
theorem Serves.current (h : Serves e s t) : (sdiOutOf t e).current = (sdiOutOf s e).current :=
  (congrArg SdiOut.current h.output :)
theorem Serves.raster (h : Serves e s t) : (sdiOutOf t e).raster = (sdiOutOf s e).raster :=
  (congrArg SdiOut.raster h.output :)
theorem Serves.fill (h : Serves e s t) : (sdiOutOf t e).fill = (sdiOutOf s e).fill := (congrArg SdiOut.fill h.output :)
theorem Serves.slips (h : Serves e s t) : (sdiOutOf t e).slips = (sdiOutOf s e).slips :=
  (congrArg SdiOut.slips h.output :)

theorem Serves.refl : Serves e s s := ⟨.refl, rfl⟩

theorem Serves.trans (h : Serves e s t) (g : Serves e t u) : Serves e s u :=
  ⟨h.toBesideOut.trans g.toBesideOut, g.output.trans h.output⟩

theorem Serves.ite {c : Prop} [Decidable c] (h : Serves e s t) (g : Serves e s u) :
    Serves e s (if c then t else u) := by
  split <;> assumption

theorem Serves.put (same : served v = served (sdiOutOf s e)) : Serves e s (putSdiOut s e v) :=
  ⟨putSdiOut_beside, (congrArg served sdiOutOf_putSdiOut_same).trans same⟩

/-- What moves in the fault sources and the matrices, and leaves the destinations. -/
theorem Serves.of_moves (h : Moves [.fault, .mtx] s t) (still : steady t = steady s) : Serves e s t := by
  have sdi : t.sdi = s.sdi := h.keeps (fun u => u.sdi) fun _ => rfl
  exact ⟨⟨fun k _ => sdiOutOf_of_sdi sdi k, congrArg Sdi.pendingEmbed sdi, h.keeps (fun u => u.set) fun _ => rfl,
    h.keeps (fun u => u.fab.lanes) fun _ => rfl, destOf_of_steady still⟩, congrArg served (sdiOutOf_of_sdi sdi e)⟩

theorem judgeDest_serves {d : Nat} : Serves e s (judgeDest d s) :=
  .of_moves (judgeDest_moves (by decide) (by decide) .refl) (judgeDest_steady rfl)

theorem raiseCore_serves {id : Nat} : Serves e s (raiseCore id s) :=
  .of_moves (raiseCore_moves (by decide) .refl) (raiseCore_steady rfl)

theorem raiseSdiOut_serves (small : e < 160) : Serves e s (raiseSdi (sdiOutFault e) s) := by
  rw [raiseSdi_output small]
  have isolated : ∀ u, Serves e u (isolateSdiOut e u) := fun u => by
    have marked : Serves e u (putSdiOut u e { sdiOutOf u e with isolated := true }) := .put rfl
    exact marked.trans judgeDest_serves
  have raised : Serves e s (raiseCore (sdiOutFault e) s) := raiseCore_serves
  exact .ite (raised.trans (isolated _)) raised

theorem judgeTiming_serves {arrival : Int} (small : e < 160) : Serves e s (judgeTiming e arrival s) := by
  unfold judgeTiming
  extract_lets d o delay
  split
  · exact .put rfl
  · split
    · exact .ite (.put rfl) (.put rfl)
    · extract_lets t
      have judged : Serves e s t := .put rfl
      exact .ite (judged.trans (raiseSdiOut_serves small)) judged

theorem keepPid_serves : Serves e s (keepPid e s) := by
  unfold keepPid
  extract_lets d
  split
  · exact .ite .refl (.put rfl)
  · exact .refl

/-- The elastic stage of an output at its frame start (R128). -/
def filled (fill : Nat) (slip : LineSlip) (o : SdiOut) : SdiOut :=
  if 90 < fill then { o with fill := 50, slips := some slip, txSlip := sat32 o.txSlip 1 }
  else { o with fill := fill, slips := none }

theorem judgeFill_serves {fill : Nat} {slip : LineSlip} (small : e < 160) :
    Serves e (putSdiOut s e (filled fill slip (sdiOutOf s e))) (judgeFill e fill slip s) := by
  unfold judgeFill filled
  extract_lets o
  split
  · exact raiseSdiOut_serves small
  · exact .refl

/-! ### The words of a frame that ends (R46, R125) -/

/-- The links of an output send a raster. -/
def sendLinks (e f : Nat) (raster : List RasterLine) (ks : List Nat) (s : State) : State :=
  ks.foldl (fun s k => sendWords (e + k) (linkWords f k raster) s) s

/-- An output but for the state of its scrambler. -/
def unscrambled (o : SdiOut) : SdiOut := { o with scrambler := 0, level := false }

/-- The device with words sent on a lane. -/
def sentWords (e : Nat) (ws : List (BitVec 10)) (s : State) : State :=
  let r := nrziBits (ws.flatMap (fun w => bitsOf 10 w.toNat)) (sdiOutOf s e).scrambler (sdiOutOf s e).level
  let t := putSdiOut s e { sdiOutOf s e with scrambler := r.2.1, level := r.2.2 }
  putLane t (256 + e) { laneOf t (256 + e) with sent := lineLevels 0 (laneCfg t (256 + e)).txInvert r.1 }

theorem sendWords_eq (e : Nat) (ws : List (BitVec 10)) (s : State) : sendWords e ws s =
    if !isSdi s e || (laneOf s (256 + e)).state == .down then s else sentWords e ws s := rfl

theorem sendWords_keeps {ws : List (BitVec 10)} (f : State → α)
    (blank : ∀ u x y, f { u with fab := { u.fab with lanes := x }, sdi := { u.sdi with outputs := y } } = f u) :
    f (sendWords e ws s) = f s := by
  rw [sendWords_eq]
  split
  · rfl
  · exact blank s _ _

theorem sendWords_outputs {ws : List (BitVec 10)} (k : Nat) :
    unscrambled (sdiOutOf (sendWords e ws s) k) = unscrambled (sdiOutOf s k)
      ∧ (k ≠ e → sdiOutOf (sendWords e ws s) k = sdiOutOf s k)
      ∧ (k ≠ 256 + e → laneOf (sendWords e ws s) k = laneOf s k) := by
  rw [sendWords_eq]
  split
  · exact ⟨rfl, fun _ => rfl, fun _ => rfl⟩
  · refine ⟨?_, fun other => sdiOutOf_putSdiOut_other other,
      fun other => (laneOf_putLane _ _ _ _).trans (if_neg (Ne.symm other))⟩
    by_cases same : k = e
    · let r := nrziBits (ws.flatMap (fun w => bitsOf 10 w.toNat)) (sdiOutOf s e).scrambler (sdiOutOf s e).level
      have output : sdiOutOf (sentWords e ws s) e = { sdiOutOf s e with scrambler := r.2.1, level := r.2.2 } :=
        sdiOutOf_putSdiOut_same
      rw [same, output]
      rfl
    · exact congrArg unscrambled (sdiOutOf_putSdiOut_other same)

/-- What a lane in mode SDI sends of a word sequence. -/
theorem sendWords_sent {ws : List (BitVec 10)} (sdi : isSdi s e = true) (up : (laneOf s (256 + e)).state ≠ .down) :
    (laneOf (sendWords e ws s) (256 + e)).sent = lineLevels 0 (laneCfg s (256 + e)).txInvert
      (nrziBits (ws.flatMap (fun w => bitsOf 10 w.toNat)) (sdiOutOf s e).scrambler (sdiOutOf s e).level).1 := by
  rw [sendWords_eq, if_neg (by simp [sdi, up])]
  exact congrArg Lane.sent ((laneOf_putLane _ _ _ _).trans (if_pos rfl))

theorem sendLinks_outputs {f : Nat} {raster : List RasterLine} {ks : List Nat} (k : Nat) :
    unscrambled (sdiOutOf (sendLinks e f raster ks s) k) = unscrambled (sdiOutOf s k)
      ∧ ((∀ j ∈ ks, k ≠ e + j) → sdiOutOf (sendLinks e f raster ks s) k = sdiOutOf s k)
      ∧ ((∀ j ∈ ks, k ≠ 256 + (e + j)) → laneOf (sendLinks e f raster ks s) k = laneOf s k) := by
  unfold sendLinks
  induction ks generalizing s with
  | nil => exact ⟨rfl, fun _ => rfl, fun _ => rfl⟩
  | cons j ks ih =>
    obtain ⟨kept, output, lane⟩ := ih (s := sendWords (e + j) (linkWords f j raster) s)
    obtain ⟨first, own, link⟩ := sendWords_outputs (e := e + j) (ws := linkWords f j raster) (s := s) k
    exact ⟨kept.trans first,
      fun h => (output fun i mem => h i (List.mem_cons_of_mem _ mem)).trans (own (h j List.mem_cons_self)),
      fun h => (lane fun i mem => h i (List.mem_cons_of_mem _ mem)).trans (link (h j List.mem_cons_self))⟩

theorem sendLinks_keeps {f : Nat} {raster : List RasterLine} {ks : List Nat} (g : State → α)
    (blank : ∀ u x y, g { u with fab := { u.fab with lanes := x }, sdi := { u.sdi with outputs := y } } = g u) :
    g (sendLinks e f raster ks s) = g s := foldl_keeps (fun _ _ => sendWords_keeps g blank) _

/-! ### A frame that ends (R125, R127, R129) -/

/-- The raster of the frame in progress as it is sent. -/
def sentRaster (e : Nat) (s : State) : List RasterLine := (sentFrame (keepPid e s) e).1

/-- An output whose frame in progress has been sent. -/
def endedOut (e : Nat) (s : State) (o : SdiOut) : SdiOut :=
  { o with raster := sentRaster e s, audio := [], ancBefore := none, shift := 0
           secondField := isLevelB o.current && !o.secondField
           csPlace := (o.csPlace + o.audio.length) % 192 }

/-- The device with the frame in progress of an output built, and not yet on its links. -/
def frameBuilt (e : Nat) (s : State) : State :=
  countSdiIn e (fun c => { c with ancDrop := sat32 c.ancDrop (sentFrame (keepPid e s) e).2 })
    (putSdiOut (keepPid e s) e (endedOut e s (sdiOutOf (keepPid e s) e)))

theorem endOutputFrame_idle (idle : (sdiOutOf s e).running = false) : endOutputFrame e s = s :=
  if_neg (by rw [idle]; exact Bool.false_ne_true)

theorem endOutputFrame_running (running : (sdiOutOf s e).running = true) : endOutputFrame e s =
    sendLinks e (sdiOutOf (keepPid e s) e).current (sentRaster e s)
      (List.range (if isQuad (sdiOutOf (keepPid e s) e).current then 4 else 1)) (frameBuilt e s) := if_pos running

/-- What the end of a frame leaves. -/
structure Ends (e : Nat) (s t : State) : Prop where
  running : (sdiOutOf t e).running = (sdiOutOf s e).running
  pendingCfg : (sdiOutOf t e).pendingCfg = (sdiOutOf s e).pendingCfg
  current : (sdiOutOf t e).current = (sdiOutOf s e).current
  raster : (sdiOutOf s e).running = true → (sdiOutOf t e).raster = sentRaster e s
  others : ∀ k, k < e ∨ e + 3 < k → sdiOutOf t k = sdiOutOf s k
  lanes : ∀ k, k < 256 + e ∨ 259 + e < k → laneOf t k = laneOf s k
  embeds : t.sdi.pendingEmbed = s.sdi.pendingEmbed
  settings : t.set = s.set
  dests : ∀ m d, destOf t m d = destOf s m d

theorem frameBuilt_output :
    sdiOutOf (frameBuilt e s) e = endedOut e s (sdiOutOf (keepPid e s) e) := sdiOutOf_putSdiOut_same

theorem endOutputFrame_ends : Ends e s (endOutputFrame e s) := by
  cases running : (sdiOutOf s e).running with
  | false =>
    rw [endOutputFrame_idle running]
    exact ⟨rfl, rfl, rfl, fun h => absurd (running.symm.trans h) (by decide), fun _ _ => rfl, fun _ _ => rfl, rfl, rfl,
      fun _ _ => rfl⟩
  | true =>
    have keeps : Serves e s (keepPid e s) := keepPid_serves
    have few : ∀ {c : Prop} [Decidable c], ∀ j ∈ List.range (if c then 4 else 1), j < 4 := fun j mem => by
      have := List.mem_range.mp mem
      split at this <;> omega
    have output : unscrambled (sdiOutOf (endOutputFrame e s) e)
        = unscrambled (endedOut e s (sdiOutOf (keepPid e s) e)) := by
      rw [endOutputFrame_running running, ← frameBuilt_output]
      exact (sendLinks_outputs e).1
    refine ⟨?_, ?_, ?_, fun _ => (congrArg SdiOut.raster output :), fun k far => ?_, fun k far => ?_,
      ?_, ?_, fun m d => ?_⟩
    · exact (congrArg SdiOut.running output :).trans keeps.running
    · exact (congrArg SdiOut.pendingCfg output :).trans keeps.pendingCfg
    · exact (congrArg SdiOut.current output :).trans keeps.current
    · rw [endOutputFrame_running running, (sendLinks_outputs k).2.1 fun j mem => by have := few j mem; omega]
      have other : k ≠ e := by omega
      exact (sdiOutOf_putSdiOut_other other).trans (keeps.others k other)
    · rw [endOutputFrame_running running, (sendLinks_outputs k).2.2 fun j mem => by have := few j mem; omega]
      show laneOf (keepPid e s) k = laneOf s k
      simp only [laneOf, keeps.lanes]
    · rw [endOutputFrame_running running]
      exact (sendLinks_keeps (fun u => u.sdi.pendingEmbed) fun _ _ _ => rfl).trans keeps.embeds
    · rw [endOutputFrame_running running]
      exact (sendLinks_keeps (fun u => u.set) fun _ _ _ => rfl).trans keeps.settings
    · rw [endOutputFrame_running running]
      refine (sendLinks_keeps (fun u => destOf u m d) fun _ _ _ => by cases m <;> rfl).trans ?_
      exact Eq.trans (by cases m <;> rfl) (keeps.dests m d)

/-- The base link of an output sends the frame that ends. -/
theorem endOutputFrame_sends (running : (sdiOutOf s e).running = true) (sdi : isSdi s e = true)
    (up : (laneOf s (256 + e)).state ≠ .down) :
    (laneOf (endOutputFrame e s) (256 + e)).sent = lineLevels 0 (laneCfg s (256 + e)).txInvert
      (nrziBits ((linkWords (sdiOutOf s e).current 0 (sentRaster e s)).flatMap (fun w => bitsOf 10 w.toNat))
        (sdiOutOf s e).scrambler (sdiOutOf s e).level).1 := by
  have keeps : Serves e s (keepPid e s) := keepPid_serves
  let f := (sdiOutOf (keepPid e s) e).current
  let raster := sentRaster e s
  let rest := fun (n : Nat) => (List.range n).map Nat.succ
  have later : ∀ n u, laneOf (sendLinks e f raster (rest n) u) (256 + e) = laneOf u (256 + e) := fun n u =>
    (sendLinks_outputs _).2.2 fun j mem => by
      obtain ⟨i, -, rfl⟩ := List.mem_map.mp mem
      omega
  have links : ∃ n, List.range (if isQuad f then 4 else 1) = 0 :: rest n := by
    split
    · exact ⟨3, rfl⟩
    · exact ⟨0, rfl⟩
  obtain ⟨n, links⟩ := links
  have settings : (frameBuilt e s).set = s.set := keeps.settings
  have lane : laneOf (frameBuilt e s) (256 + e) = laneOf s (256 + e) := by
    show laneOf (keepPid e s) _ = _
    simp only [laneOf, keeps.lanes]
  have mode : isSdi (frameBuilt e s) e = true := by rwa [isSdi, laneMode_of_set settings]
  have cfg : laneCfg (frameBuilt e s) (256 + e) = laneCfg s (256 + e) := by simp only [laneCfg, settings]
  have current : f = (sdiOutOf s e).current := keeps.current
  have scrambler : (sdiOutOf (frameBuilt e s) e).scrambler = (sdiOutOf s e).scrambler := by
    rw [frameBuilt_output]
    exact (congrArg SdiOut.scrambler keeps.output :)
  have level : (sdiOutOf (frameBuilt e s) e).level = (sdiOutOf s e).level := by
    rw [frameBuilt_output]
    exact (congrArg SdiOut.level keeps.output :)
  rw [endOutputFrame_running running, links]
  show (laneOf (sendLinks e f raster (rest n) (sendWords e (linkWords f 0 raster) (frameBuilt e s))) (256 + e)).sent = _
  rw [later, sendWords_sent mode (lane ▸ up), cfg, scrambler, level, ← current]

/-! ### Settings that waited (R123, R291) -/

/-- The device with an output's settings in force that waited for its frame start. -/
def applyPendingOut (e : Nat) (s : State) : State :=
  match (sdiOutOf s e).pendingCfg with | some c => setSdiOut e c s | none => s

/-- What the settings that apply leave of an output, and of the rest. -/
structure AppliesOut (e : Nat) (s t : State) : Prop where
  running : (sdiOutOf t e).running = (sdiOutOf s e).running
  pendingCfg : (sdiOutOf t e).pendingCfg = none
  raster : (sdiOutOf t e).raster = (sdiOutOf s e).raster ∨ (sdiOutOf t e).raster = []
  cfg : ∀ k, sdiOutCfg t k = if e = k then ((sdiOutOf s e).pendingCfg).getD (sdiOutCfg s e) else sdiOutCfg s k
  others : ∀ k, k ≠ e → sdiOutOf t k = sdiOutOf s k
  lanes : ∀ k, k < 256 + e ∨ 259 + e < k → laneOf t k = laneOf s k
  embeds : t.sdi.pendingEmbed = s.sdi.pendingEmbed
  dests : ∀ m d, destOf t m d = destOf s m d

theorem applyPendingOut_none (none : (sdiOutOf s e).pendingCfg = none) : applyPendingOut e s = s := by
  unfold applyPendingOut
  rw [none]

theorem applyPendingOut_applies : AppliesOut e s (applyPendingOut e s) := by
  cases waits : (sdiOutOf s e).pendingCfg with
  | none =>
    rw [applyPendingOut_none waits]
    refine ⟨rfl, waits, .inl rfl, fun k => ?_, fun _ _ => rfl, fun _ _ => rfl, rfl, fun _ _ => rfl⟩
    split
    · rename_i same
      rw [waits, same]
      rfl
    · rfl
  | some c =>
    have set : applyPendingOut e s = setSdiOut e c s := by
      unfold applyPendingOut
      rw [waits]
    obtain ⟨running, pending, raster, others⟩ := sdiOutOf_setSdiOut (e := e) (c := c) (s := s)
    rw [set]
    refine ⟨running, pending, raster, fun k => ?_, others, fun k far => ?_, ?_, destOf_of_steady ?_⟩
    · rw [waits]
      exact sdiOutCfg_setSdiOut k
    · refine (laneOf_setSdiOut k).resolve_right fun ⟨⟨above, below⟩, _⟩ => ?_
      omega
    · exact setSdiOut_keeps (fun u => u.sdi.pendingEmbed) (fun _ _ _ _ => rfl) fun _ _ =>
        congrArg Sdi.pendingEmbed judgeDest_sdi
    · exact setSdiOut_keeps steady (fun _ _ _ _ => rfl) fun _ _ => judgeDest_steady rfl

/-- Settings of embedded audio that wait are in force behind the frame start, and none wait. -/
theorem applyEmbed_applies : tfind (applyEmbed e s).sdi.pendingEmbed e = none
    ∧ (∀ c, tfind s.sdi.pendingEmbed e = some c → tget (fun _ => {}) (applyEmbed e s).set.embed e = c)
    ∧ (applyEmbed e s).sdi.outputs = s.sdi.outputs ∧ (applyEmbed e s).set.sdiOut = s.set.sdiOut
    ∧ (applyEmbed e s).fab = s.fab ∧ (applyEmbed e s).mtx = s.mtx := by
  unfold applyEmbed
  split
  · rename_i c waits
    refine ⟨(tfind_tdel _ _ _).trans (if_pos rfl), fun d h => ?_, rfl, rfl, rfl, rfl⟩
    rw [Option.some.inj (waits.symm.trans h)]
    exact tget_tset_same _ _ _ _
  · rename_i none
    exact ⟨none, fun c h => absurd (none.symm.trans h) nofun, rfl, rfl, rfl, rfl⟩

end Sys2Proof.Machine
end

section
namespace Sys2Proof.Machine

/-! ## SDI inputs and outputs run (R110 to R128, R291) -/

variable {s t : State} {e fill : Nat} {arrival : Int} {slip : LineSlip} {l : Fin 160}

/-! ### The stages of an output's frame start -/

/-- The frame that ends has been sent, and what waited applies. -/
def renewedOut (e : Nat) (s : State) : State := applyEmbed e (applyPendingOut e (endOutputFrame e s))

/-- The output runs. -/
def runningOut (e : Nat) (s : State) : State :=
  putSdiOut (renewedOut e s) e { sdiOutOf (renewedOut e s) e with running := true }

/-- The output and its elastic stage have been judged. -/
def judgedOut (e : Nat) (arrival : Int) (fill : Nat) (slip : LineSlip) (s : State) : State :=
  judgeDest (1280 + e) (judgeFill e fill slip (judgeTiming e arrival (runningOut e s)))

/-- The output has its format and its payload ID. -/
def formattedOut (e : Nat) (arrival : Int) (fill : Nat) (slip : LineSlip) (s : State) : State :=
  keepPid e (followFormat e (judgedOut e arrival fill slip s))

/-- The new frame leaves at the output timing point. -/
def timedOut (e : Nat) (u : State) : State := putSdiOut u e { sdiOutOf u e with startAt := outputTiming u e }

/-- The output has started its frame. -/
def startedOut (e : Nat) (arrival : Int) (fill : Nat) (slip : LineSlip) (s : State) : State :=
  timedOut e (formattedOut e arrival fill slip s)

theorem sdiOutputFrameStart_starts (sdi : isSdi s l.val = true) (enabled : (sdiOutCfg s l.val).enable = true)
    (up : (laneOf s (256 + l.val)).state ≠ .down) :
    exec (.sdiOutputFrameStart l arrival fill slip) s = .next (startedOut l.val arrival fill slip s) :=
  congrArg Host.Outcome.next (if_pos (by simp [sdi, enabled, up]))

theorem sdiOutputFrameStart_idle
    (idle : isSdi s l.val = false ∨ (sdiOutCfg s l.val).enable = false ∨ (laneOf s (256 + l.val)).state = .down) :
    exec (.sdiOutputFrameStart l arrival fill slip) s = .next s := by
  refine congrArg Host.Outcome.next (if_neg fun running => ?_)
  simp only [Bool.and_eq_true, bne_iff_ne] at running
  obtain ⟨⟨sdi, enabled⟩, up⟩ := running
  rcases idle with off | off | off
  · rw [off] at sdi; cases sdi
  · rw [off] at enabled; cases enabled
  · exact up off

/-! ### What each stage leaves -/

theorem filled_keeps (o : SdiOut) : (filled fill slip o).running = o.running
    ∧ (filled fill slip o).pendingCfg = o.pendingCfg ∧ (filled fill slip o).current = o.current
    ∧ (filled fill slip o).raster = o.raster ∧ (filled fill slip o).fill = (if 90 < fill then 50 else fill)
    ∧ (filled fill slip o).slips = (if 90 < fill then some slip else none) := by
  unfold filled
  split <;> exact ⟨rfl, rfl, rfl, rfl, rfl, rfl⟩

theorem sdiOutOf_of_outputs (h : t.sdi.outputs = s.sdi.outputs) (k : Nat) : sdiOutOf t k = sdiOutOf s k := by
  simp only [sdiOutOf, h]

/-- The settings and the embedding that waited are in force, and the frame that ends has been sent. -/
structure Renews (e : Nat) (s t : State) : Prop where
  pendingCfg : (sdiOutOf t e).pendingCfg = none
  raster : (sdiOutOf s e).running = true → (sdiOutOf t e).raster = sentRaster e s ∨ (sdiOutOf t e).raster = []
  cfg : ∀ k, sdiOutCfg t k = if e = k then ((sdiOutOf s e).pendingCfg).getD (sdiOutCfg s e) else sdiOutCfg s k
  others : ∀ k, k < e ∨ e + 3 < k → sdiOutOf t k = sdiOutOf s k
  lanes : ∀ k, k < 256 + e ∨ 259 + e < k → laneOf t k = laneOf s k
  embeds : tfind t.sdi.pendingEmbed e = none
  embedded : ∀ c, tfind s.sdi.pendingEmbed e = some c → tget (fun _ => {}) t.set.embed e = c
  dests : ∀ m d, destOf t m d = destOf s m d

theorem renewedOut_renews : Renews e s (renewedOut e s) := by
  have ended : Ends e s (endOutputFrame e s) := endOutputFrame_ends
  have applied : AppliesOut e (endOutputFrame e s) (applyPendingOut e (endOutputFrame e s)) := applyPendingOut_applies
  obtain ⟨embeds, embedded, outputs, cfgs, fab, mtx⟩ :=
    applyEmbed_applies (e := e) (s := applyPendingOut e (endOutputFrame e s))
  have output : ∀ k, sdiOutOf (renewedOut e s) k = sdiOutOf (applyPendingOut e (endOutputFrame e s)) k :=
    sdiOutOf_of_outputs outputs
  have lane : ∀ k, laneOf (renewedOut e s) k = laneOf (applyPendingOut e (endOutputFrame e s)) k := laneOf_of_fab fab
  have cfg : ∀ k, sdiOutCfg (renewedOut e s) k = sdiOutCfg (applyPendingOut e (endOutputFrame e s)) k :=
    fun k => by simp only [sdiOutCfg, renewedOut, cfgs]
  have settings : ∀ k, sdiOutCfg (endOutputFrame e s) k = sdiOutCfg s k := fun k => by
    simp only [sdiOutCfg, ended.settings]
  refine ⟨?_, fun running => ?_, fun k => ?_, fun k far => ?_, fun k far => ?_, embeds,
    fun c waits => ?_, fun m d => ?_⟩
  · rw [output, applied.pendingCfg]
  · rw [output, ← ended.raster running]
    exact applied.raster
  · rw [cfg, applied.cfg, ended.pendingCfg, settings, settings]
  · rw [output, applied.others k (by omega), ended.others k far]
  · rw [lane, applied.lanes k far, ended.lanes k far]
  · exact embedded c (by rw [applied.embeds, ended.embeds, waits])
  · rw [← ended.dests m d, ← applied.dests m d]
    simp only [destOf, renewedOut, mtx]

/-- Where no settings wait, the frame that ends decides alone. -/
theorem renewedOut_unset (none : (sdiOutOf s e).pendingCfg = none) :
    sdiOutOf (renewedOut e s) e = sdiOutOf (endOutputFrame e s) e
      ∧ ∀ k, laneOf (renewedOut e s) k = laneOf (endOutputFrame e s) k := by
  have ended : Ends e s (endOutputFrame e s) := endOutputFrame_ends
  have applied : applyPendingOut e (endOutputFrame e s) = endOutputFrame e s :=
    applyPendingOut_none (ended.pendingCfg.trans none)
  obtain ⟨-, -, outputs, -, fab, -⟩ := applyEmbed_applies (e := e) (s := endOutputFrame e s)
  unfold renewedOut
  rw [applied]
  exact ⟨sdiOutOf_of_outputs outputs e, laneOf_of_fab fab⟩

/-- A judged output runs in the raster in which it was, its elastic stage re-centred past 90 %. -/
theorem judgedOut_judges (small : e < 160) : (sdiOutOf (judgedOut e arrival fill slip s) e).running = true
    ∧ (sdiOutOf (judgedOut e arrival fill slip s) e).pendingCfg = (sdiOutOf (renewedOut e s) e).pendingCfg
    ∧ (sdiOutOf (judgedOut e arrival fill slip s) e).current = (sdiOutOf (renewedOut e s) e).current
    ∧ (sdiOutOf (judgedOut e arrival fill slip s) e).raster = (sdiOutOf (renewedOut e s) e).raster
    ∧ (sdiOutOf (judgedOut e arrival fill slip s) e).fill = (if 90 < fill then 50 else fill)
    ∧ (sdiOutOf (judgedOut e arrival fill slip s) e).slips = (if 90 < fill then some slip else none) := by
  let o := sdiOutOf (renewedOut e s) e
  let timed := judgeTiming e arrival (runningOut e s)
  have runs : sdiOutOf (runningOut e s) e = { o with running := true } := sdiOutOf_putSdiOut_same
  have times : Serves e (runningOut e s) timed := judgeTiming_serves small
  have fills : sdiOutOf (putSdiOut timed e (filled fill slip (sdiOutOf timed e))) e
      = filled fill slip (sdiOutOf timed e) :=
    sdiOutOf_putSdiOut_same
  have judges : Serves e (putSdiOut timed e (filled fill slip (sdiOutOf timed e))) (judgedOut e arrival fill slip s) :=
    (judgeFill_serves small).trans judgeDest_serves
  obtain ⟨running, pending, current, raster, level, slips⟩ :=
    filled_keeps (fill := fill) (slip := slip) (sdiOutOf timed e)
  refine ⟨?_, ?_, ?_, ?_, ?_, ?_⟩
  · rw [judges.running, fills, running, times.running, runs]
  · rw [judges.pendingCfg, fills, pending, times.pendingCfg, runs]
  · rw [judges.current, fills, current, times.current, runs]
  · rw [judges.raster, fills, raster, times.raster, runs]
  · rw [judges.fill, fills, level]
  · rw [judges.slips, fills, slips]

theorem startedOut_beside (small : e < 160) : BesideOut e (renewedOut e s) (startedOut e arrival fill slip s) := by
  have runs : BesideOut e (renewedOut e s) (runningOut e s) := putSdiOut_beside
  let timed := judgeTiming e arrival (runningOut e s)
  have times : BesideOut e (runningOut e s) timed := (judgeTiming_serves small).toBesideOut
  have fills : BesideOut e timed (putSdiOut timed e (filled fill slip (sdiOutOf timed e))) := putSdiOut_beside
  have judged : Serves e (putSdiOut timed e (filled fill slip (sdiOutOf timed e))) (judgedOut e arrival fill slip s) :=
    (judgeFill_serves small).trans judgeDest_serves
  have formats : BesideOut e (judgedOut e arrival fill slip s) (formattedOut e arrival fill slip s) :=
    followFormat_formats.besideOut.trans keepPid_serves.toBesideOut
  exact runs.trans (times.trans (fills.trans (judged.toBesideOut.trans (formats.trans putSdiOut_beside))))

theorem timedOut_output (u : State) :
    sdiOutOf (timedOut e u) e = { sdiOutOf u e with startAt := outputTiming (timedOut e u) e } := by
  have output : sdiOutOf (timedOut e u) e = { sdiOutOf u e with startAt := outputTiming u e } := sdiOutOf_putSdiOut_same
  have timing : outputTiming (timedOut e u) e = outputTiming u e := by
    unfold outputTiming
    rw [output]
    rfl
  rw [timing, output]

/-- The format in which the output starts its frame: its raster restarts with another one. -/
theorem startedOut_formats (small : e < 160) :
    (sdiOutOf (startedOut e arrival fill slip s) e).running = true
      ∧ (sdiOutOf (startedOut e arrival fill slip s) e).pendingCfg = (sdiOutOf (renewedOut e s) e).pendingCfg
      ∧ (sdiOutOf (startedOut e arrival fill slip s) e).fill = (if 90 < fill then 50 else fill)
      ∧ (sdiOutOf (startedOut e arrival fill slip s) e).slips = (if 90 < fill then some slip else none)
      ∧ (sdiOutOf (startedOut e arrival fill slip s) e).startAt = outputTiming (startedOut e arrival fill slip s) e
      ∧ (sdiOutOf (startedOut e arrival fill slip s) e).raster =
        if (sdiOutOf (startedOut e arrival fill slip s) e).current = (sdiOutOf (renewedOut e s) e).current
        then (sdiOutOf (renewedOut e s) e).raster else [] := by
  obtain ⟨running, pending, current, raster, level, slips⟩ :=
    judgedOut_judges (arrival := arrival) (fill := fill) (slip := slip) (s := s) small
  have formats : Formats e (judgedOut e arrival fill slip s) (followFormat e (judgedOut e arrival fill slip s)) :=
    followFormat_formats
  have keeps : Serves e (followFormat e (judgedOut e arrival fill slip s)) (formattedOut e arrival fill slip s) :=
    keepPid_serves
  have output : sdiOutOf (startedOut e arrival fill slip s) e = { sdiOutOf (formattedOut e arrival fill slip s) e with
      startAt := outputTiming (startedOut e arrival fill slip s) e } := timedOut_output _
  have same : (sdiOutOf (startedOut e arrival fill slip s) e).current
      = (sdiOutOf (followFormat e (judgedOut e arrival fill slip s)) e).current := by rw [output, ← keeps.current]
  refine ⟨?_, ?_, ?_, ?_, ?_, ?_⟩
  · rw [output, ← running, ← formats.running, ← keeps.running]
  · rw [output, ← pending, ← formats.pendingCfg, ← keeps.pendingCfg]
  · rw [output, ← level, ← formats.fill, ← keeps.fill]
  · rw [output, ← slips, ← formats.slips, ← keeps.slips]
  · rw [output]
  · rw [same, ← raster, ← current, ← formats.raster, output, ← keeps.raster]

/-! ### SDI_OUTPUT_FRAME_START -/

theorem laneOf_startedOut (small : e < 160) (k : Nat) :
    laneOf (startedOut e arrival fill slip s) k = laneOf (renewedOut e s) k := by
  simp only [laneOf, (startedOut_beside small).lanes]

theorem sdiOutCfg_startedOut (small : e < 160) (k : Nat) : sdiOutCfg (startedOut e arrival fill slip s) k =
    if e = k then ((sdiOutOf s e).pendingCfg).getD (sdiOutCfg s e) else sdiOutCfg s k := by
  rw [← renewedOut_renews.cfg k]
  simp only [sdiOutCfg, (startedOut_beside small).settings]

/-- A frame that was in progress has been sent, in the raster that goes on where the format stays. -/
theorem startedOut_sent (small : e < 160) (sdi : isSdi s e = true) (up : (laneOf s (256 + e)).state ≠ .down)
    (running : (sdiOutOf s e).running = true) (none : (sdiOutOf s e).pendingCfg = none) :
    (sdiOutOf (startedOut e arrival fill slip s) e).raster =
        (if (sdiOutOf (startedOut e arrival fill slip s) e).current = (sdiOutOf s e).current
          then sentRaster e s else [])
      ∧ (laneOf (startedOut e arrival fill slip s) (256 + e)).sent = lineLevels 0 (laneCfg s (256 + e)).txInvert
        (nrziBits ((linkWords (sdiOutOf s e).current 0 (sentRaster e s)).flatMap (fun w => bitsOf 10 w.toNat))
          (sdiOutOf s e).scrambler (sdiOutOf s e).level).1 := by
  have ended : Ends e s (endOutputFrame e s) := endOutputFrame_ends
  obtain ⟨output, lanes⟩ := renewedOut_unset none
  obtain ⟨-, -, -, -, -, raster⟩ :=
    startedOut_formats (arrival := arrival) (fill := fill) (slip := slip) (s := s) small
  constructor
  · rw [raster, output, ended.current, ended.raster running]
  · rw [laneOf_startedOut small, lanes, endOutputFrame_sends running sdi up]

theorem startedOut_idle (small : e < 160) (idle : (sdiOutOf s e).running = false)
    (none : (sdiOutOf s e).pendingCfg = none) (k : Nat) :
    laneOf (startedOut e arrival fill slip s) k = laneOf s k := by
  rw [laneOf_startedOut small, (renewedOut_unset none).2, endOutputFrame_idle idle]

theorem startedOut_raster (small : e < 160) (running : (sdiOutOf s e).running = true) :
    (sdiOutOf (startedOut e arrival fill slip s) e).raster = sentRaster e s
      ∨ (sdiOutOf (startedOut e arrival fill slip s) e).raster = [] := by
  obtain ⟨-, -, -, -, -, raster⟩ :=
    startedOut_formats (arrival := arrival) (fill := fill) (slip := slip) (s := s) small
  rw [raster]
  split
  · exact renewedOut_renews.raster running
  · exact .inr rfl

/-! ### The obligation -/

/-- Settles O27: the losses of an input by what they make of it, a line and a frame by what they bring, an output by the
stages of its frame start. -/
theorem sdiInputsAndOutputsRun : Obligations.SdiInputsAndOutputsRun := by
  unfold Obligations.SdiInputsAndOutputsRun
  refine ⟨fun l rate s sdi up => cdrLock_detects sdi up, fun l why s sdi other locked => ?_, fun l x s sdi => ?_,
    fun l x s sdi own => ?_, fun l x s member => ?_, fun l rate why x y s other => ?_,
    fun l arrival fill slip s sdi enabled up => ?_, fun l arrival fill slip s idle => sdiOutputFrameStart_idle idle⟩
  · have after := signalLost_moves (e := l.val) (why := if why = .cdr then whyCdr else whyNoSignal) (s := s)
    have hunts := laneOf_hunting (e := l.val) (s := s)
    refine ⟨_, sdiSignalLoss_loses sdi other locked, ?_, ?_, signalLost_sticky, signalLost_silent l.isLt sdi,
      signalLost_unusable l.isLt sdi, signalLost_base l.isLt sdi, signalLost_destOf⟩
    · refine after.unlocked (by decide) _ ?_
      rw [laneLocked, hunts]
      rfl
    · rw [after.counters (by decide), hunts]
  · have base : quadBaseIn s l.val ≤ l.val := quadBaseIn_le
    have small : quadBaseIn s l.val < 160 := Nat.lt_of_le_of_lt base l.isLt
    refine ⟨sdiLineRx_idle, fun runs clean here carries differs => ?_, fun runs clean short same => ?_,
      fun runs clean third usable => ?_, fun runs full => ⟨_, sdiLineRx_runs sdi runs, lineEffect_fifo full⟩⟩
    · obtain ⟨y, mem, differs⟩ := exists_pidDiffers carries differs
      refine ⟨_, sdiLineRx_runs sdi runs, ?_⟩
      rw [← here] at small differs ⊢
      exact lineEffect_falls small clean mem differs
    · refine ⟨_, sdiLineRx_runs sdi runs,
        lineEffect_kept (fun first y mem => not_pidDiffers fun carries => ?_) clean short⟩
      exact same (by omega) carries y mem
    · obtain ⟨state, losses⟩ := lineEffect_ends small base clean third usable
      exact ⟨_, sdiLineRx_runs sdi runs, state, losses usable⟩
  · refine ⟨sdiFrameRx_silent, fun detecting twice fits => ?_, fun usable links format pid inside => ?_,
      sdiFrameRx_differs sdi own, sdiFrameRx_outside sdi own⟩
    · obtain ⟨input, gains⟩ := enterUsable_enters (s := framed l.val x s) (e := l.val) (x := x)
      rw [sdiInOf_framed, sdiInCfg_framed] at input
      rw [sdiInCfg_framed] at gains
      refine ⟨_, sdiFrameRx_detects sdi own detecting twice fits, ?_⟩
      rw [input]
      exact ⟨rfl, rfl, rfl, rfl, rfl, gains⟩
    · refine (sdiFrameRx_usable sdi own usable).trans (congrArg Host.Outcome.next ?_)
      have stays := frameUsable_stays (s := framed l.val x s) (e := l.val) (x := x)
      rw [linksGood_framed, sdiInOf_framed, sdiInCfg_framed] at stays
      exact stays links format pid inside
  · exact congrArg Host.Outcome.next (if_neg (by simp [member]))
  · have off : ∀ c : Bool, ¬ (isSdi s l.val && c) = true := fun c => by rw [other]; exact Bool.false_ne_true
    refine ⟨congrArg Host.Outcome.next (if_neg (off _)), congrArg Host.Outcome.next (if_neg (by rw [other]; decide)),
      congrArg Host.Outcome.next (if_neg (off _)), congrArg Host.Outcome.next (if_neg ?_)⟩
    rw [other]
    exact Bool.false_ne_true
  · have small := l.isLt
    have renewed : Renews l.val s (renewedOut l.val s) := renewedOut_renews
    have beside := startedOut_beside (arrival := arrival) (fill := fill) (slip := slip) (s := s) small
    obtain ⟨running, pending, level, slips, timed, -⟩ :=
      startedOut_formats (arrival := arrival) (fill := fill) (slip := slip) (s := s) small
    refine ⟨_, sdiOutputFrameStart_starts sdi enabled up, running,
      pending.trans renewed.pendingCfg, level, slips, timed,
      ⟨startedOut_raster small, startedOut_sent small sdi up⟩, startedOut_idle small,
      (sdiOutCfg_startedOut small _).trans (if_pos rfl), ?_, fun c waits => ?_, fun k differs => ?_, fun k far => ?_,
      fun k far => ?_, fun m d => ?_⟩
    · rw [beside.embeds, renewed.embeds]
    · rw [beside.settings, renewed.embedded c waits]
    · rw [sdiOutCfg_startedOut small, if_neg (Ne.symm differs)]
    · rw [beside.others k (by omega), renewed.others k far]
    · rw [laneOf_startedOut small, renewed.lanes k far]
    · rw [beside.dests, renewed.dests]

end Sys2Proof.Machine
end

section
namespace Sys2Proof.Machine

/-! ## Commands of a restate (R176, R179) -/

variable {i : Instr} {p : Packet} {r : Restate} {s : State}

theorem restating_of_open (isOpen : s.mtx.restate = some r) (own : r.session = sess p) :
    restating s (sess p) = true := by
  unfold restating
  rw [isOpen]
  exact beq_iff_eq.mpr own

theorem restating_taken (o : OpSpec) : restating (taken o p s) (sess p) = restating s (sess p) := by
  rw [taken_eq]
  rfl

/-- The state with a command added to what an open restate has collected. -/
def collected (code : BitVec 16) (p : Packet) (r : Restate) (s : State) : State :=
  { s with mtx := { s.mtx with restate := some { r with collected := r.collected ++ [{ opcode := code, body := p }] } } }

theorem collect_open (isOpen : s.mtx.restate = some r) (code : BitVec 16) (p : Packet) :
    collect code p s = collected code p r s := by
  unfold collect
  rw [isOpen]
  rfl

theorem collect_taken (isOpen : s.mtx.restate = some r) (o : OpSpec) (code : BitVec 16) :
    collect code p (taken o p s) = { collected code p r s with cmd := (taken o p s).cmd } := by
  rw [taken_eq]
  exact collect_open (s := { s with cmd := (taken o p s).cmd }) isOpen code p

/-- A take of the session whose restate is open is collected. -/
theorem take_collected {code : BitVec 16} {read : Bytes → TakeReq} {size : Nat} (isOpen : s.mtx.restate = some r)
    (own : r.session = sess p) (runs : Runs (specTake code read size) p s)
    (run : exec i s = .next (runHost (specTake code read size) p s)) :
    Effects (specTake code read size) p s i (collected code p r s) (accepted 0 p.family.toNat) := by
  refine effects_atOnce run runs ?_ rfl
  rw [← collect_taken isOpen]
  exact if_pos ((restating_taken _).trans (restating_of_open isOpen own))

/-- A setting of the session whose restate is open is collected. -/
theorem setting_collected {o : OpSpec} {f : Packet → State → State × Answer} {apply : State → State}
    (isOpen : s.mtx.restate = some r) (own : r.session = sess p) (runs : Runs o p s)
    (run : exec i s = .next (runHost o p s)) (effect : o.effect = atOnce f)
    (collects : ∀ u, f p u = if restating u (sess p) then (collect o.code p u, done) else (apply u, done)) :
    Effects o p s i (collected o.code p r s) (done []) := by
  refine effects_atOnce run runs ?_ rfl
  rw [← collect_taken isOpen, effect]
  unfold atOnce
  rw [collects, if_pos ((restating_taken _).trans (restating_of_open isOpen own))]

theorem restateBegin_effects (runs : Runs specRestateBegin p s) : Effects specRestateBegin p s (.restateBegin p)
    { s with mtx := { s.mtx with restate := some { session := sess p, openedAt := s.time.count } } } (done []) :=
  effects_atOnce rfl runs (by rw [taken_eq]; rfl) rfl

/-- Settles O11: a command that is collected by the one branch of its effect, the discard by the age of the restate. -/
theorem restateCollects : Obligations.RestateCollects := by
  unfold Obligations.RestateCollects
  refine ⟨fun p s => restateBegin_effects, fun i o p r s command runs isOpen own => ?_,
    fun i o p r s command runs isOpen own => ?_, fun r s isOpen => ?_, fun s closed => ?_⟩
  · simp only [List.mem_cons, Prod.mk.injEq, List.not_mem_nil, or_false] at command
    obtain ⟨rfl, rfl⟩ | ⟨rfl, rfl⟩ | ⟨rfl, rfl⟩ | ⟨rfl, rfl⟩ | ⟨rfl, rfl⟩ := command <;>
      exact take_collected isOpen own runs rfl
  · simp only [List.mem_cons, Prod.mk.injEq, List.not_mem_nil, or_false] at command
    obtain ⟨rfl, rfl⟩ | ⟨rfl, rfl⟩ | ⟨rfl, rfl⟩ := command
    · exact setting_collected isOpen own runs rfl rfl fun _ => rfl
    · exact setting_collected isOpen own runs rfl rfl fun _ => rfl
    · exact setting_collected isOpen own runs rfl rfl fun _ => rfl
  · show execRestateTimeout s = _
    unfold execRestateTimeout
    rw [isOpen]
    rfl
  · show execRestateTimeout s = _
    unfold execRestateTimeout
    rw [closed]

end Sys2Proof.Machine
end

section
namespace Sys2Proof.Machine
open Relation

/-! ## Completions that are due, and the replies of commands that send them (R160, R364) -/

variable {α : Type} {i : Instr} {o : OpSpec} {p : Packet} {a : Answer} {s t u : State}

/-! ### Sending what is due -/

/-- A command still waits for something of its own to hang. -/
def stillOwed (s : State) (o : Owed) : Bool :=
  (allEntries s).any (waitsFor o.cmd) || s.mtx.settings.any (fun x => x.cmd == o.cmd)

/-- The state from whose owed completions those that are due have been taken. -/
def dueTaken (s : State) : State := { s with mtx := { s.mtx with owed := s.mtx.owed.filter (stillOwed s) } }

theorem sendDue_eq (s : State) : sendDue s = (s.mtx.owed.filter (fun o => !stillOwed s o)).foldl (fun s o =>
    if o.hung then sendCompletion o.reply (hungAt o.reply.hang o.reply.family) s else s) (dueTaken s) := rfl

theorem sendDue_moves : Moves replyAreas (dueTaken s) (sendDue s) := by
  rw [sendDue_eq]
  exact foldl_moves (fun _ _ h => ite_moves (sendReply_moves (List.Subset.refl _) h) h) .refl

/-- What looks at nothing that a reply reaches, nor at what is owed. -/
theorem sendDue_keeps (f : State → α) (blank : ∀ u, f (beyond replyAreas u) = f u) (taken : f (dueTaken s) = f s) :
    f (sendDue s) = f s := (sendDue_moves.keeps f blank).trans taken

theorem destOf_sendDue (m : Matrix) (d : Nat) : destOf (sendDue s) m d = destOf s m d := by
  cases m <;> exact sendDue_keeps (fun u => destOf u _ d) (fun _ => rfl) rfl

/-- Sending what is due touches what a reply may touch, and the completions that are owed. -/
theorem sendDue_settled (x : Matrices) : settled { sendDue s with mtx := x } = settled { s with mtx := x } := by
  rw [sendDue_eq]
  refine foldl_keeps (g := fun u => settled { u with mtx := x }) (fun u o => ?_) _
  split
  · exact congrArg (fun v : State => { v with mtx := x }) (sendReply_settled u _)
  · rfl

theorem sendReply_sessionTable (r : Reply) : (sendReply r s).cmd.sessions = s.cmd.sessions := by
  have posts : (postReply r s).cmd.sessions = s.cmd.sessions := by
    unfold postReply
    split <;> rfl
  unfold sendReply
  split
  · exact posts
  · exact (congrArg (fun x => x.2.2) (offerControl_mail (postReply r s) _ _ _)).trans posts
  · exact (congrArg (fun x => x.2.2) (sendTwin_mail (postReply r s) _ _)).trans posts

theorem sendDue_sessions : (sendDue s).cmd.sessions = s.cmd.sessions := by
  rw [sendDue_eq]
  refine foldl_keeps (g := fun u => u.cmd.sessions) (fun u o => ?_) _
  split
  · exact sendReply_sessionTable _
  · rfl

/-! ### Commands that leave the streams and the rings -/

theorem ringOf_of_cmd (h : (settled t).cmd = (settled s).cmd) (c : Nat) : ringOf t c = ringOf s c :=
  (ringOf_settled (s := { s with cmd := t.cmd }) (congrArg (fun x : Command => { settled s with cmd := x }) h) c :)

theorem taken_cmd : (settled (taken o p s)).cmd = (settled s).cmd := congrArg State.cmd (taken_settled s o p)

/-- What follows a host command whose effect leaves the streams and the rings. -/
theorem runHost_leaves (runs : Runs o p s) (effect : o.effect (replyHeader o.code p) p (taken o p s) = (u, some a))
    (sessions : u.cmd.sessions = (taken o p s).cmd.sessions) (rings : (settled u).cmd = (settled s).cmd) :
    Leaves p u (runHost o p s) ∧ Answered o p a (runHost o p s) := by
  have free : (streamOf (sessionOf (mirrorAfter o p (some a) u) (sess p)) p.cls.toNat).owed = [] := by
    rw [mail_sessionOf (mirrorAfter_mail _ _ _ _), sessionOf, sessions]
    exact (taken_owed s o p).trans runs.alone
  have left : settled (answerCommand o (replyHeader o.code p) p (some a) (mirrorAfter o p (some a) u)) = settled u := by
    rw [answerCommand_settled, mirrorAfter_settled]
  have ran := runHost_runs runs
  simp only [effect] at ran
  rw [readRings_none _ fun c => by rw [ringOf_settled left c, ringOf_of_cmd rings c]; exact runs.noUnread c] at ran
  rw [ran]
  refine ⟨⟨left, fun ring own => ?_⟩, answerCommand_posted _ _ _ _ free⟩
  rw [answerCommand_pcie _ _ _ _ _ ring free, mirrorAfter, own]
  rfl

theorem effects_beside (run : exec i s = .next (runHost o p s)) (runs : Runs o p s)
    (effect : o.effect (replyHeader o.code p) p (taken o p s) = (u, some a))
    (sessions : u.cmd.sessions = (taken o p s).cmd.sessions) (rings : (settled u).cmd = (settled s).cmd) :
    Effects o p s i u a :=
  let ⟨leaves, answered⟩ := runHost_leaves runs effect sessions rings
  ⟨_, run, leaves, answered⟩

end Sys2Proof.Machine
end

section
namespace Sys2Proof.Machine
open Relation

/-! ## Entries that are staged and taken out (R151 to R158) -/

variable {α : Type} {a s t : State} {m q : Matrix} {d k : Nat} {f : Entry → Bool} {e : Entry}

/-- One change of the staging: the counts of takes, or the entries staged at one destination. -/
inductive Restage : State → State → Prop
  | books (s : State) (k : Nat) (x : List TakeCount) (y z : TakeTotals) : Restage s
      { s with mtx := { s.mtx with nextTake := k, counts := x, totals := y }, led := { s.led with takes := z } }
  | entries (s : State) (m : Matrix) (d : Nat) (l : List Entry) :
      Restage s (putDest s m d { destOf s m d with staged := l })

/-- A run of changes of the staging. -/
abbrev Restages : State → State → Prop := ReflTransGen Restage

/-- What looks at no staged entry and at no count of takes stays. -/
theorem Restages.keeps (h : Restages s t) (f : State → α)
    (books : ∀ u k x y z, f { u with mtx := { u.mtx with nextTake := k, counts := x, totals := y }
                                     led := { u.led with takes := z } } = f u)
    (entries : ∀ u m d l, f (putDest u m d { destOf u m d with staged := l }) = f u) : f t = f s := by
  induction h with
  | refl => rfl
  | tail _ g ih =>
    cases g with
    | books => exact (books _ _ _ _ _).trans ih
    | entries => exact (entries _ _ _ _).trans ih

/-- The selection of a destination: what is active, what is loaded, and its lock. -/
def selection (v : Dest) : Option Nat × Option Entry × Option Nat := (v.active, v.shadow, v.lock)

theorem Restages.selection (h : Restages s t) (m : Matrix) (d : Nat) :
    selection (destOf t m d) = selection (destOf s m d) := by
  refine h.keeps (fun u => Machine.selection (destOf u m d)) (fun _ _ _ _ _ => by cases m <;> rfl) fun u q k l => ?_
  dsimp only
  rw [destOf_putDest]
  split
  · rename_i here
    rw [here.1, here.2]
    rfl
  · rfl

theorem Restages.selections (h : Restages s t) (m : Matrix) (d : Nat) :
    (destOf t m d).active = (destOf s m d).active ∧ (destOf t m d).shadow = (destOf s m d).shadow
      ∧ (destOf t m d).lock = (destOf s m d).lock := by
  have kept := h.selection m d
  simpa only [Machine.selection, Prod.mk.injEq] using kept

/-- Beside the matrices and the Ledger's totals the device stays. -/
theorem Restages.beside (h : Restages s t) (x : Matrices) (y : Ledger) :
    { t with mtx := x, led := y } = { s with mtx := x, led := y } :=
  h.keeps (fun u => { u with mtx := x, led := y }) (fun _ _ _ _ _ => rfl) fun _ m _ _ => by cases m <;> rfl

/-! ### Composing -/

theorem ite_restages {c : Prop} [Decidable c] (h : Restages a s) (g : Restages a t) :
    Restages a (if c then s else t) := by split <;> assumption

theorem foldl_restages {β : Type} {g : State → β → State} {l : List β}
    (hg : ∀ s x, Restages a s → Restages a (g s x)) (h : Restages a s) : Restages a (l.foldl g s) :=
  List.foldlRecOn l g h fun u hu x _ => hg u x hu

theorem putStaged_restages {l : List Entry} (h : Restages a s) :
    Restages a (putDest s m d { destOf s m d with staged := l }) := h.tail (.entries s m d l)

theorem addTotals_restages {g : TakeTotals → TakeTotals} (h : Restages a s) : Restages a (addTotals g s) :=
  h.tail (.books s s.mtx.nextTake s.mtx.counts _ _)

theorem unstageCount_restages (h : Restages a s) : Restages a (unstageCount e s) := by
  unfold unstageCount
  refine ite_restages h ?_
  split
  · exact addTotals_restages h
  · exact h.tail (.books s s.mtx.nextTake _ s.mtx.totals s.led.takes)

theorem unstageCounts_restages {l : List Entry} (h : Restages a s) :
    Restages a (l.foldl (fun s x => unstageCount x s) s) := foldl_restages (fun _ _ => unstageCount_restages) h

theorem stageEntry_restages (h : Restages a s) : Restages a (stageEntry m d e s) :=
  unstageCounts_restages (putStaged_restages h)

theorem unstageWhere_restages (h : Restages a s) : Restages a (unstageWhere m d f s) :=
  ite_restages h (unstageCounts_restages (putStaged_restages h))

theorem unstageForConfig_restages {c : DestCfg} (h : Restages a s) : Restages a (unstageForConfig d c s) := by
  have each : ∀ {m : Matrix} {f : Entry → Bool} {l : List Nat} {u : State}, Restages a u →
      Restages a (l.foldl (fun u k => unstageWhere m k f u) u) := foldl_restages fun _ _ => unstageWhere_restages
  unfold unstageForConfig
  exact ite_restages (each (foldl_restages (fun _ _ h => unstageWhere_restages (unstageWhere_restages h)) h))
    (ite_restages (unstageWhere_restages (unstageWhere_restages (each (each h)))) h)

end Sys2Proof.Machine
end

section
namespace Sys2Proof.Machine
open Relation

/-! ## Settings of the matrices (R163 to R171, R391) -/

variable {α : Type} {p : Packet} {s : State} {d n : Nat} {c : DestCfg} {v : SourceCfg}

/-! ### SOURCE_CONFIG -/

/-- The device with a source's settings in force, before its destinations are judged again. -/
def withSourceCfg (n : Nat) (v : SourceCfg) (s : State) : State :=
  { s with set := { s.set with sources := tset (fun _ => {}) s.set.sources n v } }

theorem applySourceCfg_moves : Moves [.fault, .mtx] (withSourceCfg n v s) (applySourceCfg n v s) :=
  judgeAll_moves (by decide) (by decide) .refl

theorem sourceCfg_applySourceCfg (k : Nat) :
    sourceCfg (applySourceCfg n v s) k = if n = k then v else sourceCfg s k :=
  (applySourceCfg_moves.keeps (fun u => sourceCfg u k) fun _ => rfl).trans (tget_tset _ _ _ _ _)

theorem destOf_applySourceCfg (m : Matrix) (d : Nat) : destOf (applySourceCfg n v s) m d = destOf s m d :=
  (destOf_of_steady (judgeAll_steady rfl) m d).trans (by cases m <;> rfl)

/-- Beside the settings of sources and what a judgment reaches the device stays. -/
theorem applySourceCfg_settled : settled { applySourceCfg n v s with
    fab := { (applySourceCfg n v s).fab with tx := s.fab.tx }, mtx := s.mtx
    set := { (applySourceCfg n v s).set with sources := s.set.sources } } = settled s :=
  applySourceCfg_moves.keeps (fun u => settled { u with
    fab := { u.fab with tx := s.fab.tx }, mtx := s.mtx, set := { u.set with sources := s.set.sources } }) fun _ => rfl

theorem effectSourceConfig_alone (alone : restating s (sess p) = false) :
    effectSourceConfig p s = (applySourceCfg (u16 p 0) (readSourceCfg s p) s, done []) := by
  simp only [effectSourceConfig, alone, Bool.false_eq_true, if_false]

theorem sourceConfig_effects (runs : Runs specSourceConfig p s) (alone : restating s (sess p) = false) :
    Effects specSourceConfig p s (.sourceConfig p)
      (applySourceCfg (u16 p 0) (readSourceCfg s p) (taken specSourceConfig p s)) (done []) := by
  have read : readSourceCfg (taken specSourceConfig p s) p = readSourceCfg s p := by rw [taken_eq]; rfl
  refine effects_beside rfl runs ?_ (applySourceCfg_moves.keeps (fun u => u.cmd.sessions) fun _ => rfl)
    ((applySourceCfg_moves.keeps (fun u => (settled u).cmd) fun _ => rfl).trans taken_cmd)
  show atOnce effectSourceConfig (replyHeader specSourceConfig.code p) p _ = _
  rw [atOnce, effectSourceConfig_alone ((restating_taken _).trans alone), read]

/-! ### DEST_CONFIG -/

/-- New settings of a destination wait: FAMILY, BOND or the audio run changes, and the destination's family runs. -/
abbrev configWaits (d : Nat) (c : DestCfg) (s : State) : Prop :=
  (c.family ≠ (destCfg s d).family ∨ c.bond ≠ (destCfg s d).bond ∨ c.run ≠ (destCfg s d).run)
    ∧ familyOn s (destFamily s d) = true

/-- The device once the entries that new settings of a destination unstage are gone. -/
def unstagedFor (d : Nat) (c : DestCfg) (s : State) : State := sendDue (unstageForConfig d c s)

/-- The device with another free space of the Reserve. -/
def respaced (n : Nat) (s : State) : State := { s with reserveFree := n }

/-- The free space of the Reserve once a destination's depth has changed. -/
def spaceLeft (old new free : Nat) : Nat := free + old * frameBuffer - new * frameBuffer

/-- The device cleared for new settings of a destination: its entries unstaged, and its record space taken. -/
def clearedFor (d : Nat) (c : DestCfg) (s : State) : State :=
  respaced (spaceLeft (destCfg s d).depth c.depth (unstagedFor d c s).reserveFree) (unstagedFor d c s)

/-- The device with settings of a destination that wait for its frame start, but for those that apply at once. -/
def waitingDest (d : Nat) (c old : DestCfg) (s : State) : State :=
  setDestCfg d { c with family := old.family, bond := old.bond, run := old.run }
    (putDestRun s d { destRun s d with pendingCfg := some c })

/-- What looks at no staged entry, no count of takes, and at nothing that sending what is due reaches. -/
theorem unstagedFor_keeps (f : State → α) (due : ∀ u, f (sendDue u) = f u)
    (books : ∀ u k x y z, f { u with mtx := { u.mtx with nextTake := k, counts := x, totals := y }
                                     led := { u.led with takes := z } } = f u)
    (entries : ∀ u m d l, f (putDest u m d { destOf u m d with staged := l }) = f u) :
    f (unstagedFor d c s) = f s := (due _).trans ((unstageForConfig_restages .refl).keeps f books entries)

theorem familyOn_respaced (n : Nat) : familyOn (respaced n s) (destFamily (respaced n s) d)
    = familyOn s (destFamily s d) := rfl

theorem familyOn_clearedFor : familyOn (clearedFor d c s) (destFamily (clearedFor d c s) d)
    = familyOn s (destFamily s d) := by
  rw [clearedFor, familyOn_respaced]
  exact unstagedFor_keeps (fun u => familyOn u (destFamily u d))
    (fun _ => sendDue_keeps (fun u => familyOn u (destFamily u d)) (fun _ => rfl) rfl)
    (fun _ _ _ _ _ => rfl) fun _ m _ _ => by cases m <;> rfl

theorem applyDestCfg_eq : applyDestCfg d c s = judgeDest d
    (if (c.family ≠ (destCfg s d).family ∨ c.bond ≠ (destCfg s d).bond ∨ c.run ≠ (destCfg s d).run)
        ∧ familyOn (clearedFor d c s) (destFamily (clearedFor d c s) d) = true then
      waitingDest d c (destCfg s d) (clearedFor d c s) else configured d c (clearedFor d c s)) := rfl

theorem applyDestCfg_waits (waits : configWaits d c s) :
    applyDestCfg d c s = judgeDest d (waitingDest d c (destCfg s d) (clearedFor d c s)) := by
  rw [applyDestCfg_eq, familyOn_clearedFor, if_pos waits]

theorem applyDestCfg_now (now : ¬ configWaits d c s) :
    applyDestCfg d c s = judgeDest d (configured d c (clearedFor d c s)) := by
  rw [applyDestCfg_eq, familyOn_clearedFor, if_neg now]

/-- Beside staging, destinations' settings and records, the record space and a judgment, new settings leave all. -/
theorem applyDestCfg_keeps (f : State → α) (due : ∀ u, f (sendDue u) = f u)
    (books : ∀ u k x y z, f { u with mtx := { u.mtx with nextTake := k, counts := x, totals := y }
                                     led := { u.led with takes := z } } = f u)
    (entries : ∀ u m d l, f (putDest u m d { destOf u m d with staged := l }) = f u)
    (spaces : ∀ u x, f { u with reserveFree := x } = f u)
    (sets : ∀ u d c x, f (setDestCfg d c (putDestRun u d x)) = f u)
    (judge : ∀ u, f (judgeDest d u) = f u) : f (applyDestCfg d c s) = f s := by
  have cleared : f (clearedFor d c s) = f s :=
    (spaces _ _).trans (unstagedFor_keeps f due books entries)
  by_cases waits : configWaits d c s
  · rw [applyDestCfg_waits waits, judge]
    exact (sets _ _ _ _).trans cleared
  · rw [applyDestCfg_now waits, judge]
    exact (sets _ _ _ _).trans cleared

theorem applyDestCfg_selection (m : Matrix) (k : Nat) :
    selection (destOf (applyDestCfg d c s) m k) = selection (destOf s m k) := by
  refine applyDestCfg_keeps (fun u => selection (destOf u m k)) (fun u => congrArg selection (destOf_sendDue m k))
    (fun _ _ _ _ _ => by cases m <;> rfl) (fun u q j l => (putStaged_restages .refl).selection m k)
    (fun _ _ => by cases m <;> rfl) (fun _ _ _ _ => by cases m <;> rfl)
    fun u => congrArg selection (destOf_of_steady (judgeDest_steady rfl) m k)

theorem applyDestCfg_sessions : (applyDestCfg d c s).cmd.sessions = s.cmd.sessions :=
  applyDestCfg_keeps (fun u => u.cmd.sessions) (fun _ => sendDue_sessions) (fun _ _ _ _ _ => rfl)
    (fun _ m _ _ => by cases m <;> rfl) (fun _ _ => rfl) (fun _ _ _ _ => rfl)
    fun _ => judgeDest_keeps (fun u => u.cmd.sessions) fun _ => rfl

/-- Beside the settings of destinations, the record space, the Ledger's totals and what a judgment reaches the device
stays. -/
theorem applyDestCfg_settled (x : Tab TxContainer) (y : Matrices) (l : Ledger) (n : Nat) (z : Tab DestCfg) :
    settled { applyDestCfg d c s with
      fab := { (applyDestCfg d c s).fab with tx := x }, mtx := y, led := l, reserveFree := n
      set := { (applyDestCfg d c s).set with dests := z } }
    = settled { s with fab := { s.fab with tx := x }, mtx := y, led := l, reserveFree := n
                       set := { s.set with dests := z } } := by
  let rest := fun (u : State) => settled { u with
    fab := { u.fab with tx := x }, mtx := y, led := l, reserveFree := n, set := { u.set with dests := z } }
  exact applyDestCfg_keeps rest
    (fun u => congrArg (fun v : State => { v with
      fab := { v.fab with tx := x }, led := l, reserveFree := n, set := { v.set with dests := z } }) (sendDue_settled y))
    (fun _ _ _ _ _ => rfl) (fun _ m _ _ => by cases m <;> rfl) (fun _ _ => rfl) (fun _ _ _ _ => rfl)
    fun _ => judgeDest_keeps rest fun _ => rfl

theorem applyDestCfg_cmd : (settled (applyDestCfg d c s)).cmd = (settled s).cmd :=
  (congrArg State.cmd (applyDestCfg_settled (d := d) (c := c) (s := s) [] {} {} 0 []) :)

theorem destSettings_respaced (n k : Nat) : destSettings (respaced n s) k = destSettings s k := rfl

/-- Neither unstaging nor sending what is due reaches the settings of destinations. -/
theorem destSettings_clearedFor (k : Nat) : destSettings (clearedFor d c s) k = destSettings s k := by
  rw [clearedFor, destSettings_respaced]
  exact unstagedFor_keeps (fun u => destSettings u k)
    (fun _ => sendDue_keeps (fun u => destSettings u k) (fun _ => rfl) rfl) (fun _ _ _ _ _ => rfl)
    fun _ m _ _ => by cases m <;> rfl

theorem destSettings_judgeDest (j k : Nat) : destSettings (judgeDest j s) k = destSettings s k := by
  unfold destSettings
  rw [(judgeDest_shows (T := [.fault, .mtx]) (by decide) (by decide) .refl).pendingCfg,
    show destCfg (judgeDest j s) k = destCfg s k from judgeDest_keeps (fun u => destCfg u k) fun _ => rfl]

theorem destSettings_put {w : DestRun} (k : Nat) : destSettings (setDestCfg d c (putDestRun s d w)) k =
    if d = k then (c, w.pendingCfg) else destSettings s k := by
  have cfg : destCfg (setDestCfg d c (putDestRun s d w)) k = if d = k then c else destCfg s k := tget_tset _ _ _ _ _
  have run : destRun (setDestCfg d c (putDestRun s d w)) k = if d = k then w else destRun s k :=
    destRun_putDestRun _ _ _ _
  unfold destSettings
  rw [cfg, run]
  split <;> rfl

theorem destSettings_applyDestCfg_waits (waits : configWaits d c s) (k : Nat) :
    destSettings (applyDestCfg d c s) k = if d = k then
      ({ c with family := (destCfg s d).family, bond := (destCfg s d).bond, run := (destCfg s d).run }, some c)
    else destSettings s k := by
  rw [applyDestCfg_waits waits, destSettings_judgeDest, waitingDest, destSettings_put, destSettings_clearedFor]

theorem destSettings_applyDestCfg_now (now : ¬ configWaits d c s) (k : Nat) :
    destSettings (applyDestCfg d c s) k = if d = k then (c, none) else destSettings s k := by
  rw [applyDestCfg_now now, destSettings_judgeDest, configured, destSettings_put, destSettings_clearedFor]

theorem destCfg_applyDestCfg_other {k : Nat} (other : k ≠ d) : destCfg (applyDestCfg d c s) k = destCfg s k := by
  refine congrArg Prod.fst (?_ : destSettings (applyDestCfg d c s) k = destSettings s k)
  by_cases waits : configWaits d c s
  · rw [destSettings_applyDestCfg_waits waits, if_neg (Ne.symm other)]
  · rw [destSettings_applyDestCfg_now waits, if_neg (Ne.symm other)]

theorem applyDestCfg_reserveFree :
    (applyDestCfg d c s).reserveFree = spaceLeft (destCfg s d).depth c.depth s.reserveFree := by
  have space : (unstagedFor d c s).reserveFree = s.reserveFree :=
    unstagedFor_keeps (fun u => u.reserveFree) (fun _ => sendDue_keeps (fun u => u.reserveFree) (fun _ => rfl) rfl)
      (fun _ _ _ _ _ => rfl) fun _ m _ _ => by cases m <;> rfl
  have judge : ∀ u, (judgeDest d u).reserveFree = u.reserveFree := fun _ =>
    judgeDest_keeps (fun u => u.reserveFree) fun _ => rfl
  rw [← space]
  by_cases waits : configWaits d c s
  · rw [applyDestCfg_waits waits, judge]
    rfl
  · rw [applyDestCfg_now waits, judge]
    rfl

theorem effectDestConfig_alone (alone : restating s (sess p) = false) :
    effectDestConfig p s = (applyDestCfg (u16 p 0) (readDestCfg s p) s, done []) := by
  simp only [effectDestConfig, alone, Bool.false_eq_true, if_false]

theorem destConfig_effects (runs : Runs specDestConfig p s) (alone : restating s (sess p) = false) :
    Effects specDestConfig p s (.destConfig p)
      (applyDestCfg (u16 p 0) (readDestCfg s p) (taken specDestConfig p s)) (done []) := by
  have read : readDestCfg (taken specDestConfig p s) p = readDestCfg s p := by rw [taken_eq]; rfl
  refine effects_beside rfl runs ?_ applyDestCfg_sessions (applyDestCfg_cmd.trans taken_cmd)
  show atOnce effectDestConfig (replyHeader specDestConfig.code p) p _ = _
  rw [atOnce, effectDestConfig_alone ((restating_taken _).trans alone), read]

/-! ### DEST_LOCK -/

theorem effectDestLock_alone (alone : restating s (sess p) = false) : effectDestLock p s =
    (setLock (matrixCode (u8 p 2)) (u16 p 0) (if u8 p 3 = 1 then some (sess p) else none) s, done []) := by
  simp only [effectDestLock, alone, Bool.false_eq_true, if_false]

theorem destLock_effects (runs : Runs specDestLock p s) (alone : restating s (sess p) = false) :
    Effects specDestLock p s (.destLock p)
      (setLock (matrixCode (u8 p 2)) (u16 p 0) (if u8 p 3 = 1 then some (sess p) else none) s) (done []) := by
  refine effects_atOnce rfl runs ?_ (putDest_cmd _ _ _ _)
  show atOnce effectDestLock (replyHeader specDestLock.code p) p _ = _
  rw [atOnce, effectDestLock_alone ((restating_taken _).trans alone), taken_eq]
  cases matrixCode (u8 p 2) <;> rfl

/-- Settles O15: each setting by what it makes of its own record, and by what unstaging and judging leave. -/
theorem matrixSettingsApply : Obligations.MatrixSettingsApply := by
  unfold Obligations.MatrixSettingsApply
  refine ⟨fun p s => destLock_effects, fun p s runs alone => ?_, fun p s runs alone => ?_⟩
  · obtain ⟨t, run, leaves, answered⟩ := sourceConfig_effects runs alone
    refine ⟨t, _, run, leaves, answered, ?_, fun n other => ?_, fun m d => ?_, ?_⟩
    · exact (sourceCfg_applySourceCfg _).trans (if_pos rfl)
    · rw [sourceCfg_applySourceCfg, if_neg (Ne.symm other), taken_eq]
      rfl
    · rw [destOf_applySourceCfg, taken_eq]
      cases m <;> rfl
    · rw [taken_eq]
      exact applySourceCfg_settled.trans (by rw [← taken_eq, taken_settled])
  · obtain ⟨t, run, leaves, answered⟩ := destConfig_effects runs alone
    have same := taken_settled s specDestConfig p
    rw [taken_eq] at leaves same
    generalize (taken specDestConfig p s).cmd = cmd at leaves same
    refine ⟨t, _, run, leaves, answered, fun waits => ?_, fun now => ?_, fun n => destCfg_applyDestCfg_other,
      fun m k => ?_, applyDestCfg_reserveFree, ?_⟩
    · exact Prod.mk.inj ((destSettings_applyDestCfg_waits (s := { s with cmd := cmd }) waits _).trans (if_pos rfl))
    · exact Prod.mk.inj ((destSettings_applyDestCfg_now (s := { s with cmd := cmd }) now _).trans (if_pos rfl))
    · have kept := applyDestCfg_selection (d := u16 p 0) (c := readDestCfg s p) (s := { s with cmd := cmd }) m k
      simp only [selection, Prod.mk.injEq] at kept
      exact kept
    · exact (applyDestCfg_settled s.fab.tx s.mtx s.led s.reserveFree s.set.dests).trans same

end Sys2Proof.Machine
end

section
namespace Sys2Proof.Machine

/-! ## HANG_REF_CONFIG (R137, R140) -/

variable {p : Packet} {s : State} {n k : Nat} {c : FamilyCfg}

/-- The device with a family's settings in force. -/
def withFamilyCfg (n : Nat) (c : FamilyCfg) (s : State) : State :=
  { s with set := { s.set with families := tset familyCfgDefault s.set.families n c } }

theorem familyCfg_withFamilyCfg : familyCfg (withFamilyCfg n c s) k = if n = k then c else familyCfg s k :=
  tget_tset _ _ _ _ _

/-- The settings that a HANG_REF_CONFIG carries. -/
def readFamilyCfg (p : Packet) : FamilyCfg :=
  { enable := u8 p 1 == 1, rate := u8 p 2, cutoff := orDefault (u16 p 4) 250 }

/-! ### What new settings of a family do -/

theorem applyFamilyCfg_running (was : (familyCfg s n).enable = true) (stays : c.enable = true)
    (rate : (familyCfg s n).rate = c.rate) : applyFamilyCfg n c s = putFamily s n { familyOf s n with
      newCutoff := if c.cutoff = (familyCfg s n).cutoff then none else some (c.cutoff, 1) } := by
  unfold applyFamilyCfg
  simp only [was, stays, rate, beq_self_eq_true, Bool.and_self, if_true]
  split <;> rfl

theorem applyFamilyCfg_off (off : c.enable = false) : applyFamilyCfg n c s = withFamilyCfg n c (putFamily s n
    { realigns := (familyOf s n).realigns, lastShift := (familyOf s n).lastShift,
      lastNumber := (familyOf s n).lastNumber }) := by
  unfold applyFamilyCfg
  simp only [off, Bool.and_false, Bool.false_and, Bool.false_eq_true, if_false]
  rfl

theorem applyFamilyCfg_placed (on : c.enable = true)
    (changes : (familyCfg s n).enable = false ∨ (familyCfg s n).rate ≠ c.rate) :
    applyFamilyCfg n c s = placeFamily n (withFamilyCfg n c s) := by
  have other : ((familyCfg s n).enable && c.enable && (familyCfg s n).rate == c.rate) = false := by
    rcases changes with was | rate
    · rw [was, Bool.false_and, Bool.false_and]
    · rw [beq_eq_false_iff_ne.mpr rate, Bool.and_false]
  unfold applyFamilyCfg
  dsimp only
  rw [other, if_neg Bool.false_ne_true, if_pos on]
  rfl

/-! ### A family that is placed -/

/-- What looks at no raise sees a family's ALIGNED alone change. -/
theorem setAligned_keeps {α : Type} (f : State → α) {first now : Bool} (raise : ∀ u id, f (raiseCore id u) = f u) :
    f (setAligned n first now s) = f (putFamily s n { familyOf s n with aligned := now }) := by
  unfold setAligned
  extract_lets v s1
  split
  · exact raise _ _
  · rfl

/-- A family's boundaries and numbers under the active triple, before ALIGNED is judged (R140). -/
def placedFamily (n : Nat) (s : State) : Family :=
  let c := familyCfg s n
  let i := hangIndexAt s.time.triple c.rate (rootNow s)
  let b := boundaryRoot s.time.triple c.rate i
  { familyOf s n with
    hang := BitVec.ofInt 32 i, boundary := b, realign := none, newCutoff := none, aligned := false, stepped := false
    cutoffPassed := decide (b + periodRoot c.rate - 4752 * c.cutoff ≤ rootNow s) }

theorem placeFamily_eq (n : Nat) (s : State) : placeFamily n s = setAligned n true
    (isAligned s (familyCfg s n).rate (placedFamily n s).boundary (placedFamily n s).hang)
    (putFamily s n (placedFamily n s)) := rfl

theorem placeFamily_keeps {α : Type} (f : State → α) (raise : ∀ u id, f (raiseCore id u) = f u)
    (put : ∀ u v, f (putFamily u n v) = f u) : f (placeFamily n s) = f s := by
  rw [placeFamily_eq, setAligned_keeps f raise, put, put]

theorem familyOf_placeFamily : ∃ aligned, familyOf (placeFamily n s) k =
    if n = k then { placedFamily n s with aligned := aligned } else familyOf s k := by
  refine ⟨isAligned s (familyCfg s n).rate (placedFamily n s).boundary (placedFamily n s).hang, ?_⟩
  rw [placeFamily_eq, setAligned_keeps (fun u => familyOf u k) fun u id => by simp only [familyOf, raiseCore_mtx],
    familyOf_putFamily, familyOf_putFamily, familyOf_putFamily, if_pos rfl]
  split <;> rfl

theorem familyCfg_placeFamily : familyCfg (placeFamily n s) k = familyCfg s k :=
  placeFamily_keeps (fun u => familyCfg u k) (fun _ _ => by simp only [familyCfg, raiseCore_set]) fun _ _ => rfl

/-- Beside the families the device stays. -/
theorem placeFamily_settled (x : Tab Family) (y : Tab FamilyCfg) : settled { placeFamily n s with
    mtx := { (placeFamily n s).mtx with families := x }, set := { (placeFamily n s).set with families := y } }
    = settled { s with mtx := { s.mtx with families := x }, set := { s.set with families := y } } :=
  placeFamily_keeps (fun u => settled { u with
      mtx := { u.mtx with families := x }, set := { u.set with families := y } })
    (fun u id => congrArg (fun v : State => { v with
      mtx := { v.mtx with families := x }, set := { v.set with families := y } }) (raiseCore_settled u id))
    fun _ _ => rfl

/-! ### The command -/

theorem hangRefConfig_at_once {e : State} (runs : Runs specHangRefConfig p s)
    (applied : ∀ x, applyFamilyCfg (u8 p 0) (readFamilyCfg p) { s with cmd := x } = { e with cmd := x })
    (kept : e.cmd = s.cmd) : Effects specHangRefConfig p s (.hangRefConfig p) e (done []) := by
  refine effects_atOnce rfl runs ?_ kept
  rw [← applied, ← taken_eq]
  rfl

theorem hangRefConfig_places (runs : Runs specHangRefConfig p s) (on : (readFamilyCfg p).enable = true)
    (changes : (familyCfg s (u8 p 0)).enable = false ∨ (familyCfg s (u8 p 0)).rate ≠ (readFamilyCfg p).rate) :
    Effects specHangRefConfig p s (.hangRefConfig p)
      (placeFamily (u8 p 0) (withFamilyCfg (u8 p 0) (readFamilyCfg p) (taken specHangRefConfig p s))) (done []) := by
  have change : (familyCfg (taken specHangRefConfig p s) (u8 p 0)).enable = false
      ∨ (familyCfg (taken specHangRefConfig p s) (u8 p 0)).rate ≠ (readFamilyCfg p).rate := by
    rw [taken_eq]
    exact changes
  refine effects_beside rfl runs ?_ ?_ ?_
  · rw [← applyFamilyCfg_placed on change]
    rfl
  · exact placeFamily_keeps (fun u => u.cmd.sessions)
      (fun u id => congrArg (fun x => x.2.2) (raiseCore_mail u id)) fun _ _ => rfl
  · refine (placeFamily_keeps (fun u => (settled u).cmd) (fun u id => ?_) fun _ _ => rfl).trans taken_cmd
    exact congrArg State.cmd (raiseCore_settled u id)

/-- Settles O16: the three branches of the settings, and a placed family by what its source's raise leaves. -/
theorem hangReferencesAreSet : Obligations.HangReferencesAreSet := by
  unfold Obligations.HangReferencesAreSet
  intro p s runs
  refine ⟨fun was stays rate => ?_, fun off => ?_, fun on changes => ?_⟩
  · exact hangRefConfig_at_once runs (fun x => applyFamilyCfg_running was stays rate) rfl
  · exact hangRefConfig_at_once runs (fun x => applyFamilyCfg_off off) rfl
  · obtain ⟨t, run, leaves, answered⟩ := hangRefConfig_places runs on changes
    have same := taken_settled s specHangRefConfig p
    rw [taken_eq] at leaves same
    generalize (taken specHangRefConfig p s).cmd = cmd at leaves same
    have families := fun k => familyOf_placeFamily (n := u8 p 0) (k := k)
      (s := withFamilyCfg (u8 p 0) (readFamilyCfg p) { s with cmd := cmd })
    refine ⟨t, _, run, leaves, answered, ?_, ?_, fun k other => ⟨?_, ?_⟩, ?_⟩
    · exact (familyCfg_placeFamily.trans familyCfg_withFamilyCfg).trans (if_pos rfl)
    · obtain ⟨aligned, family⟩ := families (u8 p 0)
      rw [family, if_pos rfl]
      have cfg : familyCfg (withFamilyCfg (u8 p 0) (readFamilyCfg p) { s with cmd := cmd }) (u8 p 0) = readFamilyCfg p :=
        familyCfg_withFamilyCfg.trans (if_pos rfl)
      unfold placedFamily
      rw [cfg]
      exact ⟨rfl, rfl, rfl, rfl, rfl⟩
    · obtain ⟨aligned, family⟩ := families k
      rw [family, if_neg (Ne.symm other)]
      rfl
    · rw [familyCfg_placeFamily, familyCfg_withFamilyCfg, if_neg (Ne.symm other)]
      rfl
    · exact (placeFamily_settled s.mtx.families s.set.families).trans same

end Sys2Proof.Machine
end

section
namespace Sys2Proof.Machine

/-! ## Destinations changed one by one -/

variable {I : State → Prop} {op : State → Nat → State} {F : Nat → Dest → Dest} {l : List Nat} {s : State}
  {m q : Matrix} {k : Nat}

/-- Each step changes the one destination that it names, by its record alone. -/
def Alters (I : State → Prop) (m : Matrix) (F : Nat → Dest → Dest) (op : State → Nat → State) : Prop :=
  ∀ u d, I u → I (op u d) ∧ ∀ q k, destOf (op u d) q k = if m = q ∧ d = k then F k (destOf u q k) else destOf u q k

/-- Over a list of destinations, one that is listed is changed, as often as it is listed. -/
theorem destOf_foldl (alters : Alters I m F op) (idem : ∀ k v, F k (F k v) = F k v) (start : I s) :
    destOf (l.foldl op s) q k = if m = q ∧ k ∈ l then F k (destOf s q k) else destOf s q k := by
  induction l generalizing s with
  | nil => simp
  | cons d l ih =>
    obtain ⟨kept, one⟩ := alters s d start
    rw [List.foldl_cons, ih kept, one]
    by_cases here : m = q
    · by_cases first : d = k
      · simp only [here, first, and_self, if_true, true_and, List.mem_cons, true_or, idem, ite_self]
      · simp only [here, first, Ne.symm first, and_false, if_false, true_and, List.mem_cons, false_or]
    · simp only [here, false_and, if_false]

theorem foldl_alters_start (alters : Alters I m F op) (start : I s) : I (l.foldl op s) :=
  List.foldlRecOn l op start fun u h d _ => (alters u d h).1

/-- Where the list holds every destination of the matrix that would change. -/
theorem destOf_foldl_all (alters : Alters I m F op) (idem : ∀ k v, F k (F k v) = F k v) (start : I s)
    (covers : ∀ k, k ∉ l → F k (destOf s m k) = destOf s m k) :
    destOf (l.foldl op s) q k = if m = q then F k (destOf s q k) else destOf s q k := by
  rw [destOf_foldl alters idem start]
  by_cases here : m = q
  · subst here
    by_cases mem : k ∈ l
    · simp only [mem, and_self, if_true]
    · simp only [mem, and_false, if_false, if_true, covers k mem]
  · simp only [here, false_and, if_false]

/-- A destination that is not as at reset is listed. -/
theorem mem_destsOf (out : destOf s m k ≠ {}) : (k, destOf s m k) ∈ destsOf s m := by
  have present : ∀ t : Tab Dest, tget (fun _ => ({} : Dest)) t k ≠ {} → (k, tget (fun _ => ({} : Dest)) t k) ∈ t := by
    intro t
    induction t with
    | nil => exact fun h => absurd rfl h
    | cons e t ih =>
      obtain ⟨i, v⟩ := e
      unfold tget tfind
      by_cases same : i = k
      · rw [if_pos same, ← same]
        exact fun _ => List.mem_cons_self
      · rw [if_neg same]
        exact fun h => List.mem_cons_of_mem _ (ih h)
  cases m <;> exact present _ out

theorem destOf_unlisted (out : k ∉ listed s m) : destOf s m k = {} := by
  by_contra some
  exact out (List.mem_map.mpr ⟨_, mem_destsOf some, rfl⟩)

end Sys2Proof.Machine
end

section
namespace Sys2Proof.Machine
open Relation

/-! ## HANG_AT and UNSTAGE (R157, R158) -/

variable {s u : State} {p : Packet} {m q : Matrix} {d k fam cmd : Nat} {hang : Word} {late : Bool}
  {g : Matrix → Nat → Entry → Bool} {f : Entry → Bool} {x y : Entry} {v : Dest}

theorem settled_cmd {t : State} (h : t.cmd = u.cmd) : (settled t).cmd = (settled u).cmd := by
  simp only [settled, h]

/-- Changes of the staging leave the command channel. -/
theorem restages_cmd (h : Restages s u) : u.cmd = s.cmd :=
  h.keeps State.cmd (fun _ _ _ _ _ => rfl) fun _ m _ _ => by cases m <;> rfl

theorem destOf_unstageCounts (l : List Entry) : destOf (l.foldl (fun s x => unstageCount x s) s) m d = destOf s m d := by
  refine foldl_keeps (g := fun u => destOf u m d) (fun u x => ?_) l
  unfold unstageCount
  split
  · rfl
  · split <;> cases m <;> rfl

/-! ### Releasing -/

/-- The entry as a HANG_AT releases it. -/
def releasedEntry (fam : Nat) (hang : Word) (late : Bool) (cmd : Nat) (x : Entry) : Entry :=
  { x with aim := .hang hang, family := fam, late := late, released := some cmd }

/-- A destination of which a HANG_AT has released the entry that it selects. -/
def releasedDest (f : Entry → Bool) (fam : Nat) (hang : Word) (late : Bool) (cmd : Nat) (v : Dest) : Dest :=
  match v.staged.find? f with
  | none => v
  | some x => { v with
      staged := (v.staged.filter fun y => !f y && !(y.aim == .hang hang && y.family == fam))
        ++ [releasedEntry fam hang late cmd x] }

theorem releasedDest_none (none : v.staged.find? f = none) : releasedDest f fam hang late cmd v = v := by
  unfold releasedDest
  rw [none]

theorem releasedDest_left (held : ∀ x, f (releasedEntry fam hang late cmd x) = false) :
    (releasedDest f fam hang late cmd v).staged.find? f = none := by
  unfold releasedDest
  split
  · assumption
  · refine List.find?_eq_none.mpr fun y mem => ?_
    rcases List.mem_append.mp mem with kept | new
    · have gone := List.of_mem_filter kept
      revert gone
      cases f y <;> simp
    · rw [List.mem_singleton.mp new, held]
      exact Bool.false_ne_true

theorem mem_releasedDest (found : v.staged.find? f = some x) :
    releasedEntry fam hang late cmd x ∈ (releasedDest f fam hang late cmd v).staged := by
  unfold releasedDest
  rw [found]
  exact List.mem_append_right _ (List.mem_singleton.mpr rfl)

theorem destOf_releaseAt : destOf (releaseAt m d f fam hang late cmd u) q k =
    if m = q ∧ d = k then releasedDest f fam hang late cmd (destOf u q k) else destOf u q k := by
  unfold releaseAt
  dsimp only
  split
  case h_1 none =>
    split
    · rename_i here
      rw [releasedDest_none (by rw [← here.1, ← here.2, none])]
    · rfl
  case h_2 x found =>
    rw [destOf_unstageCounts, destOf_putDest]
    split
    · rename_i here
      obtain ⟨rfl, rfl⟩ := here
      unfold releasedDest
      rw [found]
      rfl
    · rfl

/-- A destination that holds an entry which is selected is released. -/
theorem mem_stagedWhere (found : (destOf s m k).staged.find? (g m k) = some x) :
    k ∈ (stagedWhere s m g).map (fun e => e.1) := by
  have some : destOf s m k ≠ {} := fun none => by simp [none] at found
  refine List.mem_map.mpr ⟨(k, x), List.mem_flatMap.mpr ⟨_, mem_destsOf some, List.mem_map.mpr ⟨x, ?_, rfl⟩⟩, rfl⟩
  exact List.mem_filter.mpr ⟨List.mem_of_find?_eq_some found, List.find?_some found⟩

theorem destOf_releaseAll (held : ∀ m d x, g m d (releasedEntry fam hang late cmd x) = false) :
    destOf (releaseAll m g fam hang late cmd u) q k =
      if m = q then releasedDest (g q k) fam hang late cmd (destOf u q k) else destOf u q k := by
  have alters : Alters (fun _ => True) m (fun k => releasedDest (g m k) fam hang late cmd)
      (fun u d => releaseAt m d (g m d) fam hang late cmd u) := fun u d _ => ⟨trivial, fun q k => by
    rw [destOf_releaseAt]
    split
    · rename_i here
      rw [here.2]
    · rfl⟩
  refine (destOf_foldl_all alters (fun k v => releasedDest_none (releasedDest_left (held m k))) trivial
    fun k out => releasedDest_none ?_).trans ?_
  · cases found : (destOf u m k).staged.find? (g m k) with
    | none => rfl
    | some x => exact absurd (mem_stagedWhere found) out
  · split
    · rename_i here
      rw [here]
    · rfl

theorem releaseAt_restages {a : State} (h : Restages a u) : Restages a (releaseAt m d f fam hang late cmd u) := by
  unfold releaseAt
  dsimp only
  split
  · exact h
  · exact unstageCounts_restages (putStaged_restages h)

theorem releaseAll_restages {a : State} (h : Restages a u) : Restages a (releaseAll m g fam hang late cmd u) :=
  foldl_restages (fun _ _ => releaseAt_restages) h

/-- Every entry that a test selects is released, in all three matrices. -/
def releasedAll (g : Matrix → Nat → Entry → Bool) (fam : Nat) (r : Word × Bool) (s : State) : State :=
  releaseAll .audio g fam r.1 r.2 s.mtx.nextCmd (releaseAll .anc g fam r.1 r.2 s.mtx.nextCmd
    (releaseAll .video g fam r.1 r.2 s.mtx.nextCmd s))

theorem releasedAll_restages {r : Word × Bool} : Restages s (releasedAll g fam r s) :=
  releaseAll_restages (releaseAll_restages (releaseAll_restages .refl))

theorem destOf_releasedAll {r : Word × Bool} (held : ∀ m d x, g m d (releasedEntry fam r.1 r.2 s.mtx.nextCmd x) = false) :
    destOf (releasedAll g fam r s) m d = releasedDest (g m d) fam r.1 r.2 s.mtx.nextCmd (destOf s m d) := by
  unfold releasedAll
  rw [destOf_releaseAll held, destOf_releaseAll held, destOf_releaseAll held]
  cases m <;> rfl

/-! ### The two commands -/

theorem heldBy_released {tag ses : Nat} (x : Entry) :
    heldBy s ses tag fam m d (releasedEntry fam hang late cmd x) = false := by
  have other : ((Aim.hang hang) == Aim.held tag) = false := beq_eq_false_iff_ne.mpr (by simp)
  simp only [heldBy, releasedEntry, other, Bool.false_and]

theorem destOf_of_mtx {t : State} (h : t.mtx = s.mtx) : destOf t m d = destOf s m d := by
  cases m <;> simp only [destOf, h]

/-- What an owed completion and the counts of a HANG_AT leave. -/
theorem destOf_oweCompletion {b : Bool} {h : Reply} {a : Answer} (x : Nat) (y : List TakeCount) :
    destOf (oweCompletion b cmd h a { u with mtx := { u.mtx with nextCmd := x, counts := y } }) m d = destOf u m d := by
  unfold oweCompletion
  split <;> cases m <;> rfl

theorem oweCompletion_beside {b : Bool} {h : Reply} {a : Answer} {n : Nat} {y : List TakeCount} (x : Matrices) (z : Ledger) :
    { oweCompletion b cmd h a { u with mtx := { u.mtx with nextCmd := n, counts := y } } with mtx := x, led := z }
      = { u with mtx := x, led := z } := by
  unfold oweCompletion
  split <;> rfl

/-- What a HANG_AT that releases something leaves, before its reply. -/
def hangAtLeft (p : Packet) (s : State) : State :=
  let fam := p.family.toNat
  let takes := takesWhere s (heldBy s (sess p) (u16 p 0) fam)
  let r := hangAtHang s p
  let u := releasedAll (heldBy s (sess p) (u16 p 0) fam) fam r s
  oweCompletion (notifyHung p) s.mtx.nextCmd (replyHeader specHangAt.code p)
    { answerFor r fam with results := leBytes 4 takes.length }
    { u with mtx := { u.mtx with
        nextCmd := s.mtx.nextCmd + 1
        counts := u.mtx.counts ++ takes.map fun t => { take := t, family := fam, hang := r.1, late := r.2 } } }

theorem hangAt_releases (holds : takesWhere s (heldBy s (sess p) (u16 p 0) p.family.toNat) ≠ []) :
    effectHangAt (replyHeader specHangAt.code p) p s = (hangAtLeft p s, some { answerFor (hangAtHang s p) p.family.toNat with
      results := leBytes 4 (takesWhere s (heldBy s (sess p) (u16 p 0) p.family.toNat)).length }) :=
  by
  unfold effectHangAt hangAtLeft releasedAll
  dsimp only
  rw [if_neg (by simpa using holds)]

theorem hangAt_nothing {h : Reply} (nothing : takesWhere s (heldBy s (sess p) (u16 p 0) p.family.toNat) = []) :
    effectHangAt h p s = (s, some (done (leBytes 4 0))) := by
  unfold effectHangAt
  dsimp only
  rw [nothing, List.isEmpty_nil, if_pos rfl]

theorem hangAtLeft_beside (x : Matrices) (y : Ledger) :
    { hangAtLeft p s with mtx := x, led := y } = { s with mtx := x, led := y } :=
  (oweCompletion_beside x y).trans (releasedAll_restages.beside x y)

theorem destOf_hangAtLeft : destOf (hangAtLeft p s) m d =
    releasedDest (heldBy s (sess p) (u16 p 0) p.family.toNat m d) p.family.toNat (hangAtHang s p).1 (hangAtHang s p).2
      s.mtx.nextCmd (destOf s m d) :=
  (destOf_oweCompletion _ _).trans (destOf_releasedAll fun _ _ => heldBy_released)

theorem releasedDest_selection : selection (releasedDest f fam hang late cmd v) = selection v := by
  unfold releasedDest
  split <;> rfl

theorem heldTakes_taken {o : OpSpec} {ses tag : Nat} : takesWhere (taken o p s) (heldBy (taken o p s) ses tag fam)
    = takesWhere s (heldBy s ses tag fam) := by
  rw [taken_eq]
  rfl

theorem hangAt_answers (nothing : takesWhere s (heldBy s (sess p) (u16 p 0) p.family.toNat) = []) :
    specHangAt.effect (replyHeader specHangAt.code p) p (taken specHangAt p s)
      = ({ s with cmd := (taken specHangAt p s).cmd }, some (done (leBytes 4 0))) := by
  show effectHangAt _ p _ = _
  rw [hangAt_nothing (heldTakes_taken.trans nothing), ← taken_eq]

theorem hangAt_effects (runs : Runs specHangAt p s)
    (holds : takesWhere s (heldBy s (sess p) (u16 p 0) p.family.toNat) ≠ []) :
    Effects specHangAt p s (.hangAt p) { hangAtLeft p (taken specHangAt p s) with cmd := s.cmd }
      { answerFor (hangAtHang s p) p.family.toNat with
        results := leBytes 4 (takesWhere s (heldBy s (sess p) (u16 p 0) p.family.toNat)).length } := by
  have cmd : (hangAtLeft p (taken specHangAt p s)).cmd = (taken specHangAt p s).cmd :=
    (congrArg State.cmd (hangAtLeft_beside s.mtx s.led) :)
  have at' : hangAtHang (taken specHangAt p s) p = hangAtHang s p := by
    rw [taken_eq]
    rfl
  have effect := hangAt_releases (s := taken specHangAt p s) (heldTakes_taken.symm ▸ holds)
  rw [heldTakes_taken, at'] at effect
  have rings : (settled (hangAtLeft p (taken specHangAt p s))).cmd = (settled s).cmd :=
    (settled_cmd cmd).trans taken_cmd
  obtain ⟨⟨left, mirror⟩, answered⟩ := runHost_leaves runs effect (congrArg Command.sessions cmd) rings
  exact ⟨_, rfl,
    ⟨left.trans (congrArg (fun x : Command => { settled (hangAtLeft p (taken specHangAt p s)) with cmd := x }) rings),
    mirror⟩, answered⟩

/-! ### UNSTAGE -/

/-- A destination without the entries that a test selects. -/
def without (f : Entry → Bool) (v : Dest) : Dest := { v with staged := v.staged.filter fun e => !f e }

theorem without_without : without f (without f v) = without f v := by
  simp only [without, List.filter_filter, Bool.and_self]

theorem destOf_unstageWhere : destOf (unstageWhere m d f u) q k =
    if m = q ∧ d = k then without f (destOf u q k) else destOf u q k := by
  unfold unstageWhere
  dsimp only
  split
  case isTrue nothing =>
    split
    · rename_i here
      rw [← here.1, ← here.2]
      have all : (destOf u m d).staged.filter (fun e => !f e) = (destOf u m d).staged := by
        refine List.filter_eq_self.mpr fun x mem => ?_
        have keeps := List.filter_eq_nil_iff.mp (List.isEmpty_iff.mp nothing) x mem
        simpa using keeps
      rw [without, all]
    · rfl
  case isFalse =>
    rw [destOf_unstageCounts, destOf_putDest]
    split
    · rename_i here
      rw [here.1, here.2]
      rfl
    · rfl

theorem destOf_unstageMatrix : destOf (unstageMatrix p s m u) q k =
    if m = q then without (unstagePick s p q k) (destOf u q k) else destOf u q k := by
  have alters : Alters (fun _ => True) m (fun k => without (unstagePick s p m k))
      (fun u d => unstageWhere m d (unstagePick s p m d) u) := fun u d _ => ⟨trivial, fun q k => by
    rw [destOf_unstageWhere]
    split
    · rename_i here
      rw [here.2]
    · rfl⟩
  refine (destOf_foldl_all alters (fun k v => without_without) trivial fun k out => ?_).trans ?_
  · rw [destOf_unlisted out]
    rfl
  · split
    · rename_i here
      rw [here]
    · rfl

/-- The state without the entries that an UNSTAGE selects. -/
def unstagedAll (p : Packet) (s : State) : State :=
  unstageMatrix p s .audio (unstageMatrix p s .anc (unstageMatrix p s .video s))

theorem destOf_unstagedAll : destOf (unstagedAll p s) m d = without (unstagePick s p m d) (destOf s m d) := by
  unfold unstagedAll
  rw [destOf_unstageMatrix, destOf_unstageMatrix, destOf_unstageMatrix]
  cases m <;> rfl

theorem unstagedAll_restages : Restages s (unstagedAll p s) := by
  have each : ∀ {m : Matrix} {u : State}, Restages s u → Restages s (unstageMatrix p s m u) :=
    foldl_restages fun _ _ => unstageWhere_restages
  exact each (each (each .refl))

/-- Sending what is due leaves the streams and rings, and beside the matrices the device. -/
theorem sendDue_cmd : (settled (sendDue s)).cmd = (settled s).cmd :=
  (congrArg State.cmd (sendDue_settled (s := s) s.mtx) :)

theorem sendDue_beside (x : Matrices) (y : Ledger) :
    settled { sendDue s with mtx := x, led := y } = settled { s with mtx := x, led := y } :=
  (congrArg (fun v : State => { v with led := y }) (sendDue_settled (s := s) x) :)

theorem taken_beside {o : OpSpec} : settled { taken o p s with mtx := s.mtx, led := s.led } = settled s := by
  refine Eq.trans ?_ (taken_settled s o p)
  rw [taken_eq]

theorem allEntries_sendDue : allEntries (sendDue s) = allEntries s :=
  sendDue_keeps allEntries (fun _ => rfl) rfl

theorem contains_dedup {a : List Nat} (k : Nat) : a.dedup.contains k = a.contains k := by
  simp only [List.contains_eq_mem, List.mem_dedup]

theorem unstage_effect : effectUnstage p s = (sendDue (unstagedAll p s),
    done (leBytes 4 (((allEntries s).map (fun x => x.take)).dedup.filter
        (fun k => !((allEntries (sendDue (unstagedAll p s))).map (fun x => x.take)).contains k)).length
      ++ leBytes 4 (tooLate p s).length)) := by
  simp only [allEntries_sendDue, ← contains_dedup (a := (allEntries (unstagedAll p s)).map _)]
  rfl

theorem unstage_effects (runs : Runs specUnstage p s) : Effects specUnstage p s (.unstage p)
    (sendDue (unstagedAll p (taken specUnstage p s)))
    (done (leBytes 4 (((allEntries s).map (fun x => x.take)).dedup.filter
        (fun k => !((allEntries (sendDue (unstagedAll p (taken specUnstage p s)))).map (fun x => x.take)).contains k)).length
      ++ leBytes 4 (tooLate p s).length)) := by
  have entries : allEntries (taken specUnstage p s) = allEntries s := by
    rw [taken_eq]
    rfl
  have late : tooLate p (taken specUnstage p s) = tooLate p s := by
    rw [taken_eq]
    rfl
  refine effects_beside rfl runs ?_ (sendDue_sessions.trans (congrArg Command.sessions (restages_cmd unstagedAll_restages))) ?_
  · rw [← entries, ← late]
    show atOnce effectUnstage (replyHeader specUnstage.code p) p _ = _
    rw [atOnce, unstage_effect]
  · refine sendDue_cmd.trans ?_
    exact (settled_cmd (restages_cmd unstagedAll_restages)).trans taken_cmd

/-- Settles O14: a release and an unstaging by what they make of each destination's record. -/
theorem heldTakesAreReleasedAndUnstaged : Obligations.HeldTakesAreReleasedAndUnstaged := by
  unfold Obligations.HeldTakesAreReleasedAndUnstaged
  refine ⟨fun p s runs => ⟨fun none => ?_, fun holds => ?_⟩, fun p s runs => ?_⟩
  · exact effects_atOnce rfl runs (hangAt_answers none) rfl
  · obtain ⟨t, run, leaves, answered⟩ := hangAt_effects runs holds
    have dest : ∀ m d, destOf { hangAtLeft p (taken specHangAt p s) with cmd := s.cmd } m d
        = releasedDest (heldBy s (sess p) (u16 p 0) p.family.toNat m d) p.family.toNat (hangAtHang s p).1
          (hangAtHang s p).2 s.mtx.nextCmd (destOf s m d) := fun m d => by
      refine (destOf_of_mtx (s := hangAtLeft p (taken specHangAt p s)) rfl).trans ?_
      rw [destOf_hangAtLeft, taken_eq, destOf_of_mtx (s := s) (t := { s with cmd := _ }) rfl]
      rfl
    refine ⟨t, _, run, leaves, answered, ?_, fun m d => ?_, fun m d y mem => ?_, fun m d none => ?_, fun m d x found => ?_⟩
    · rw [taken_eq]
      exact congrArg (fun u : State => { u with cmd := s.cmd }) (hangAtLeft_beside s.mtx s.led)
    · rw [dest]
      have kept := releasedDest_selection (f := heldBy s (sess p) (u16 p 0) p.family.toNat m d) (fam := p.family.toNat)
        (hang := (hangAtHang s p).1) (late := (hangAtHang s p).2) (cmd := s.mtx.nextCmd) (v := destOf s m d)
      simpa only [selection, Prod.mk.injEq] using kept
    · rw [dest] at mem
      have left := List.find?_eq_none.mp (releasedDest_left (v := destOf s m d) fun x =>
        heldBy_released (s := s) (ses := sess p) (tag := u16 p 0) x) y mem
      exact Bool.eq_false_iff.mpr left
    · rw [dest]
      exact releasedDest_none (List.find?_eq_none.mpr fun y mem => Bool.eq_false_iff.mp (none y mem))
    · rw [dest]
      exact ⟨_, mem_releasedDest found, rfl, rfl, rfl, rfl⟩
  · obtain ⟨t, run, leaves, answered⟩ := unstage_effects runs
    refine ⟨t, _, run, leaves, answered, ?_, fun m d => ?_⟩
    · rw [sendDue_beside, unstagedAll_restages.beside, taken_beside]
    · rw [destOf_sendDue, destOf_unstagedAll, taken_eq]
      cases m <;> rfl

end Sys2Proof.Machine
end

section
namespace Sys2Proof.Machine

/-! ## CUTOFF (R152, R288) -/

variable {α : Type} {s t u : State} {m q : Matrix} {c d k n fam : Nat} {hang : Word} {f : Entry → Bool} {v : Dest}
  {x : Entry}

/-! ### Loading the shadow selections -/

/-- A destination whose entry has been loaded, where it stages one that a test selects. -/
def loadedDest (f : Entry → Bool) (hang : Word) (v : Dest) : Dest :=
  match v.staged.find? f with
  | none => v
  | some x => { v with staged := v.staged.filter (fun y => !f y), shadow := some (loadedEntry hang x), ready := false }

theorem loadedDest_none (none : v.staged.find? f = none) : loadedDest f hang v = v := by
  unfold loadedDest
  rw [none]

theorem loadedDest_twice : loadedDest f hang (loadedDest f hang v) = loadedDest f hang v := by
  refine loadedDest_none (List.find?_eq_none.mpr ?_)
  unfold loadedDest
  split
  case h_1 none => exact List.find?_eq_none.mp none
  case h_2 =>
    intro y mem
    have left := List.of_mem_filter mem
    simpa using left

/-- What the loading of an entry looks at stays with the families and their settings. -/
theorem loadsAt_putDest : loadsAt (putDest u m d v) fam hang = loadsAt u fam hang := by
  cases m <;> rfl

theorem loadShadow_alters : Alters (fun u => loadsAt u fam hang = f) m (fun _ => loadedDest f hang)
    (fun u d => loadShadow m fam hang d u) := by
  intro u d same
  unfold loadShadow
  dsimp only
  rw [same]
  split
  case h_1 none =>
    refine ⟨same, fun q k => ?_⟩
    split
    · rename_i here
      rw [loadedDest_none (by rw [← here.1, ← here.2, none])]
    · rfl
  case h_2 x found =>
    refine ⟨loadsAt_putDest.trans same, fun q k => ?_⟩
    rw [destOf_putDest]
    split
    · rename_i here
      obtain ⟨rfl, rfl⟩ := here
      unfold loadedDest
      rw [found]
    · rfl

theorem destOf_loadMatrix (same : loadsAt u fam hang = f) : destOf (loadMatrix m fam hang u) q k =
    if m = q then loadedDest f hang (destOf u q k) else destOf u q k :=
  destOf_foldl_all loadShadow_alters (fun _ _ => loadedDest_twice) same fun k out => by
    rw [destOf_unlisted out]
    rfl

theorem loadsAt_loadMatrix (same : loadsAt u fam hang = f) : loadsAt (loadMatrix m fam hang u) fam hang = f :=
  foldl_alters_start loadShadow_alters same

/-- Loading puts destinations alone. -/
theorem loadMatrix_keeps (g : State → α) (put : ∀ u d v, g (putDest u m d v) = g u) :
    g (loadMatrix m fam hang u) = g u := by
  refine foldl_keeps (g := g) (fun u d => ?_) _
  unfold loadShadow
  dsimp only
  split
  · rfl
  · exact put _ _ _

/-- The three matrices at the cutoff of a family. -/
def loadAll (fam : Nat) (hang : Word) (u : State) : State :=
  loadMatrix .audio fam hang (loadMatrix .anc fam hang (loadMatrix .video fam hang u))

theorem destOf_loadAll : destOf (loadAll fam hang u) m d = loadedDest (loadsAt u fam hang) hang (destOf u m d) := by
  have video := loadsAt_loadMatrix (m := .video) (rfl : loadsAt u fam hang = _)
  unfold loadAll
  rw [destOf_loadMatrix (loadsAt_loadMatrix video), destOf_loadMatrix video, destOf_loadMatrix rfl]
  cases m <;> rfl

theorem loadAll_keeps (g : State → α) (put : ∀ u m d v, g (putDest u m d v) = g u) : g (loadAll fam hang u) = g u :=
  (loadMatrix_keeps g fun u => put u _).trans ((loadMatrix_keeps g fun u => put u _).trans
    (loadMatrix_keeps g fun u => put u _))

/-! ### Places for fades -/

/-- A channel whose loaded take has become a cut. -/
def cutChannel (v : Dest) : Dest := { v with shadow := v.shadow.map fun e => { e with fade := 0 } }

/-- What looks at no place for a fade, at no fault and at no fade that became a cut. -/
theorem reserveFade_keeps (g : State → α) (aud : ∀ u x, g { u with aud := x } = g u)
    (raise : ∀ u id, g (raiseCore id u) = g u)
    (cut : ∀ u c, g (putDest u .audio c (cutChannel (destOf u .audio c))) = g u) : g (reserveFade s c) = g s := by
  unfold reserveFade
  split
  · rfl
  · split
    · exact aud _ _
    · exact (raise _ _).trans ((aud _ _).trans (cut s c))

theorem reserveFades_keeps {l : List Nat} (g : State → α) (aud : ∀ u x, g { u with aud := x } = g u)
    (raise : ∀ u id, g (raiseCore id u) = g u)
    (cut : ∀ u c, g (putDest u .audio c (cutChannel (destOf u .audio c))) = g u) : g (l.foldl reserveFade s) = g s :=
  foldl_keeps (g := g) (fun _ _ => reserveFade_keeps g aud raise cut) l

/-- A channel beside whether its loaded take fades. -/
def unfaded (v : Dest) : Option Nat × List Entry × Option (Option Nat) :=
  (v.active, v.staged, v.shadow.map fun x => x.source)

theorem reserveFades_other {l : List Nat} (other : m ≠ .audio) : destOf (l.foldl reserveFade s) m d = destOf s m d := by
  refine reserveFades_keeps (fun u => destOf u m d) (fun _ _ => by cases m <;> rfl)
    (fun u id => destOf_of_mtx (raiseCore_mtx id)) fun u c => ?_
  rw [destOf_putDest, if_neg fun h => other h.1.symm]

theorem reserveFades_unfaded {l : List Nat} :
    unfaded (destOf (l.foldl reserveFade s) .audio d) = unfaded (destOf s .audio d) := by
  refine reserveFades_keeps (fun u => unfaded (destOf u .audio d)) (fun _ _ => rfl)
    (fun u id => congrArg unfaded (destOf_of_mtx (raiseCore_mtx id))) fun u c => ?_
  rw [destOf_putDest]
  split
  · rename_i here
    rw [← here.2]
    simp only [unfaded, cutChannel, Option.map_map, Function.comp_def]
  · rfl

theorem reserveFades_families {l : List Nat} : (l.foldl reserveFade s).mtx.families = s.mtx.families :=
  reserveFades_keeps (fun u => u.mtx.families) (fun _ _ => rfl) (fun u id => by simp only [raiseCore_mtx])
    fun _ _ => rfl

theorem reserveFades_settled {l : List Nat} (x : Matrices) (y : Audio) :
    settled { l.foldl reserveFade s with mtx := x, aud := y } = settled { s with mtx := x, aud := y } :=
  reserveFades_keeps (fun u => settled { u with mtx := x, aud := y }) (fun _ _ => rfl)
    (fun u id => (congrArg (fun v : State => { v with mtx := x, aud := y }) (raiseCore_settled u id) :)) fun _ _ => rfl

/-! ### A new CUTOFF -/

theorem destOf_adoptCutoff : destOf (adoptCutoff fam s) m d = destOf s m d := by
  unfold adoptCutoff
  dsimp only
  split <;> cases m <;> rfl

theorem familyOf_adoptCutoff : familyOf (adoptCutoff fam s) k =
    if fam = k then { familyOf s k with newCutoff := none } else familyOf s k := by
  unfold adoptCutoff
  dsimp only
  split
  · refine (familyOf_putFamily (s := s) fam k _).trans ?_
    split
    · rename_i here
      rw [here]
    · rfl
  · rename_i none
    split
    · rename_i here
      rw [← here, ← none]
    · rfl

theorem adoptCutoff_beside (x : Matrices) (y : Tab FamilyCfg) :
    { adoptCutoff fam s with mtx := x, set := { (adoptCutoff fam s).set with families := y } }
      = { s with mtx := x, set := { s.set with families := y } } := by
  unfold adoptCutoff
  dsimp only
  split <;> rfl

/-! ### The cutoff -/

/-- The counts of takes after realignment has moved those of skipped hangs. -/
def recounted (fam : Nat) (n : Word) (s : State) : State :=
  { s with mtx := { s.mtx with counts := s.mtx.counts.map (fun c =>
      if c.family = fam ∧ skipped s fam c.hang then { c with hang := n, late := true } else c) } }

/-- The device at a cutoff once the entries are loaded. -/
def cutoffLoaded (fam : Nat) (n : Word) (s : State) : State :=
  let u := loadAll fam n (recounted fam n s)
  putFamily u fam { familyOf u fam with cutoffPassed := true }

theorem doCutoff_eq (fam : Nat) (s : State) : doCutoff fam s =
    let n := nextNumber s fam (familyOf s fam).hang
    adoptCutoff fam ((fadesLoaded (cutoffLoaded fam n s) fam n).foldl reserveFade (cutoffLoaded fam n s)) := rfl

theorem destOf_putFamily {w : Family} : destOf (putFamily u n w) m d = destOf u m d := by
  cases m <;> rfl

theorem destOf_cutoffLoaded : destOf (cutoffLoaded fam hang s) m d =
    loadedDest (loadsAt s fam hang) hang (destOf s m d) := by
  unfold cutoffLoaded
  dsimp only
  rw [destOf_putFamily, destOf_loadAll]
  cases m <;> rfl

theorem familyOf_cutoffLoaded : familyOf (cutoffLoaded fam hang s) k =
    if fam = k then { familyOf s k with cutoffPassed := true } else familyOf s k := by
  have families : ∀ k, familyOf (loadAll fam hang (recounted fam hang s)) k = familyOf s k := fun k =>
    loadAll_keeps (fun u => familyOf u k) fun _ m _ _ => by cases m <;> rfl
  unfold cutoffLoaded
  dsimp only
  rw [familyOf_putFamily, families, families]
  split
  · rename_i here
    rw [here]
  · rfl

theorem cutoffLoaded_keeps (g : State → α) (families : ∀ u v, g (putFamily u fam v) = g u)
    (put : ∀ u m d v, g (putDest u m d v) = g u) (counts : g (recounted fam hang s) = g s) :
    g (cutoffLoaded fam hang s) = g s := (families _ _).trans ((loadAll_keeps g put).trans counts)

theorem cutoffLoaded_settled : settled { cutoffLoaded fam hang s with mtx := s.mtx, aud := s.aud, set := {
    (cutoffLoaded fam hang s).set with families := s.set.families } } = settled s :=
  cutoffLoaded_keeps (fun u => settled { u with
    mtx := s.mtx, aud := s.aud, set := { u.set with families := s.set.families } })
    (fun _ _ => rfl) (fun _ m _ _ => by cases m <;> rfl) rfl

theorem familyOf_doCutoff : familyOf (doCutoff fam s) k =
    if fam = k then { familyOf s k with cutoffPassed := true, newCutoff := none } else familyOf s k := by
  rw [doCutoff_eq]
  dsimp only
  have kept : ∀ (l : List Nat) (u : State), familyOf (l.foldl reserveFade u) k = familyOf u k := fun l u => by
    simp only [familyOf, reserveFades_families]
  rw [familyOf_adoptCutoff, kept, familyOf_cutoffLoaded]
  split <;> rfl

theorem destOf_doCutoff (other : m ≠ .audio) : destOf (doCutoff fam s) m d =
    loadedDest (loadsAt s fam (nextNumber s fam (familyOf s fam).hang)) (nextNumber s fam (familyOf s fam).hang)
      (destOf s m d) := by
  rw [doCutoff_eq]
  dsimp only
  rw [destOf_adoptCutoff, reserveFades_other other, destOf_cutoffLoaded]

theorem unfaded_doCutoff : unfaded (destOf (doCutoff fam s) .audio d) =
    unfaded (loadedDest (loadsAt s fam (nextNumber s fam (familyOf s fam).hang))
      (nextNumber s fam (familyOf s fam).hang) (destOf s .audio d)) := by
  rw [doCutoff_eq]
  dsimp only
  rw [destOf_adoptCutoff, reserveFades_unfaded, destOf_cutoffLoaded]

theorem loadedDest_active : (loadedDest f hang v).active = v.active := by
  unfold loadedDest
  split <;> rfl

theorem loadedEntry_source : (loadedEntry hang x).source = x.source := by
  unfold loadedEntry
  split <;> rfl

/-- Beside the matrices, the audio grid and the families' settings the device stays. -/
theorem doCutoff_settled : settled { doCutoff fam s with mtx := s.mtx, aud := s.aud, set := {
    (doCutoff fam s).set with families := s.set.families } } = settled s := by
  have adopted : ∀ u : State, settled { adoptCutoff fam u with mtx := s.mtx, aud := s.aud, set := {
      (adoptCutoff fam u).set with families := s.set.families } }
      = settled { u with mtx := s.mtx, aud := s.aud, set := { u.set with families := s.set.families } } := fun u =>
    (congrArg (fun v : State => settled { v with aud := s.aud }) (adoptCutoff_beside s.mtx s.set.families) :)
  have reserved : ∀ (l : List Nat) (u : State), settled { l.foldl reserveFade u with mtx := s.mtx, aud := s.aud, set := {
      (l.foldl reserveFade u).set with families := s.set.families } }
      = settled { u with mtx := s.mtx, aud := s.aud, set := { u.set with families := s.set.families } } := fun l u =>
    (congrArg (fun v : State => { v with set := { v.set with families := s.set.families } })
      (reserveFades_settled (l := l) (s := u) s.mtx s.aud) :)
  rw [doCutoff_eq]
  dsimp only
  rw [adopted, reserved]
  exact cutoffLoaded_settled

/-- Settles O17: what a cutoff makes of each destination's record, and that places for fades change no more of an audio
channel than whether its take fades. -/
theorem cutoffLoadsShadows : Obligations.CutoffLoadsShadows := by
  unfold Obligations.CutoffLoadsShadows
  refine ⟨fun fam s on notPassed => ⟨doCutoff fam.val s, ?_, ?_, fun m d other => ?_, fun d => ?_, fun k other => ?_, ?_⟩,
    fun fam s closed => ?_⟩
  · exact congrArg Host.Outcome.next (if_pos (by rw [on, notPassed]; rfl))
  · rw [familyOf_doCutoff, if_pos rfl]
  · rw [destOf_doCutoff other]
    rfl
  · have channel := unfaded_doCutoff (fam := fam.val) (s := s) (d := d)
    simp only [unfaded, Prod.mk.injEq] at channel
    obtain ⟨active, staged, shadow⟩ := channel
    refine ⟨?_, fun x found => ?_, fun none => ?_⟩
    · rw [active, loadedDest_active]
    · rw [shadow, loadedDest, found]
      exact congrArg some loadedEntry_source
    · rw [staged, loadedDest_none none]
  · rw [familyOf_doCutoff, if_neg (Ne.symm other)]
  · exact doCutoff_settled
  · refine congrArg Host.Outcome.next (if_neg ?_)
    rcases closed with off | passed
    · rw [off, Bool.false_and]
      exact Bool.false_ne_true
    · rw [passed, Bool.not_true, Bool.and_false]
      exact Bool.false_ne_true

end Sys2Proof.Machine
end

section
namespace Sys2Proof.Machine

/-! ## HANG_BOUNDARY (R139, R277) -/

variable {α : Type} {s t u : State} {m : Matrix} {d k n fam : Nat} {hang : Word}

/-! ### The family's record -/

/-- The number, the boundary and the cutoff of a family. -/
def pace (f : Family) : Word × Int × Bool := (f.hang, f.boundary, f.cutoffPassed)

/-- How far the computed realignment of the next boundary of a family moves it. -/
def boundaryShift (f : Family) : Int :=
  match f.realign with
  | some { target := m, computed := some (d, _), .. } => if m = f.hang + 1 then d else 0
  | _ => 0

/-- The pace of a family after its next boundary. -/
def nextPace (fam : Nat) (s : State) : Word × Int × Bool :=
  let f := familyOf s fam
  (nextNumber s fam f.hang, f.boundary + periodRoot (familyRate s fam) + boundaryShift f, false)

/-- Family `fam` has pace `x`, and the others stay. -/
def Paced (fam : Nat) (x : Word × Int × Bool) (s t : State) : Prop :=
  pace (familyOf t fam) = x ∧ ∀ k, k ≠ fam → familyOf t k = familyOf s k

theorem Paced.trans {x : Word × Int × Bool} (h : Paced fam x s t) (g : Paced fam (pace (familyOf t fam)) t u) :
    Paced fam x s u := ⟨g.1.trans h.1, fun k other => (g.2 k other).trans (h.2 k other)⟩

theorem paced_refl : Paced fam (pace (familyOf s fam)) s s := ⟨rfl, fun _ _ => rfl⟩

theorem putFamily_paced {v : Family} : Paced fam (pace v) s (putFamily s fam v) :=
  ⟨congrArg pace ((familyOf_putFamily s fam fam v).trans (if_pos rfl)),
    fun k other => (familyOf_putFamily s fam k v).trans (if_neg (Ne.symm other))⟩

theorem advanceFamily_paced : Paced fam (nextPace fam s) s (advanceFamily fam s) := by
  have hung : ∀ (v : Family) (x : Sdi), Paced fam (pace v) s (putFamily { s with sdi := x } fam v) := fun v x =>
    putFamily_paced (s := { s with sdi := x })
  unfold advanceFamily nextPace nextNumber boundaryShift
  dsimp only
  cases (familyOf s fam).realign with
  | none =>
    rw [Int.add_zero]
    exact putFamily_paced
  | some r =>
    obtain ⟨source, target, computed⟩ := r
    cases computed with
    | none =>
      simp only [Int.add_zero, ite_self]
      exact putFamily_paced
    | some x =>
      by_cases next : target = (familyOf s fam).hang + 1
      · simp only [next, if_true]
        exact hung _ _
      · simp only [next, Ne.symm next, if_false, Int.add_zero]
        exact putFamily_paced

theorem prepareRealign_paced : Paced fam (pace (familyOf s fam)) s (prepareRealign fam s) := by
  unfold prepareRealign
  dsimp only
  split
  · split
    · exact putFamily_paced
    · exact paced_refl
  · exact paced_refl

theorem setAligned_paced {first now : Bool} : Paced fam (pace (familyOf s fam)) s (setAligned fam first now s) := by
  have same : ∀ k, familyOf (setAligned fam first now s) k
      = familyOf (putFamily s fam { familyOf s fam with aligned := now }) k := fun k =>
    setAligned_keeps (fun u => familyOf u k) fun u id => by simp only [familyOf, raiseCore_mtx]
  have put := putFamily_paced (fam := fam) (s := s) (v := { familyOf s fam with aligned := now })
  exact ⟨(congrArg pace (same fam)).trans put.1, fun k other => (same k).trans (put.2 k other)⟩

/-! ### What follows a boundary -/

theorem settleHang_keeps (f : State → α) (counts : ∀ u x, f { u with mtx := { u.mtx with counts := x } } = f u)
    (totals : ∀ u g, f (addTotals g u) = f u) : f (settleHang fam hang s) = f s :=
  (foldl_keeps (g := f) (fun _ _ => totals _ _) _).trans (counts _ _)

/-! ### Channels, pulses and settings -/

theorem readyChannel_moves {a : State} (h : Moves [.mtx] a s) : Moves [.mtx] a (readyChannel s d) := by
  unfold readyChannel
  dsimp only
  split
  · exact ite_moves (mtx_moves (by decide) h) h
  · exact h

theorem readyLoose_moves : Moves [.mtx] s (readyLoose fam s) := by
  refine foldl_moves (fun u c h => ?_) .refl
  split
  · exact ite_moves (readyChannel_moves h) h
  · exact h

theorem readyLoose_families : (readyLoose fam s).mtx.families = s.mtx.families := by
  have channel : ∀ u c, (readyChannel u c).mtx.families = u.mtx.families := fun u c => by
    unfold readyChannel
    dsimp only
    split
    · split <;> rfl
    · rfl
  refine foldl_keeps (g := fun u => u.mtx.families) (fun u c => ?_) _
  split
  · split
    · exact channel u c
    · rfl
  · rfl

theorem pulseOutput_moves {a : State} (h : Moves [.ref, .set] a s) : Moves [.ref, .set] a (pulseOutput fam n s) := by
  have applied : Moves [.ref, .set] a (applyPulse fam n s) := by
    unfold applyPulse
    dsimp only
    split
    · exact h
    · exact ite_moves ((h.tail (.ref _ _ (by decide))).tail (.set _ _ (by decide))) h
  exact ite_moves (applied.tail (.ref _ _ (by decide))) applied

theorem pulseOutputs_moves : Moves [.ref, .set] s (pulseOutputs fam s) :=
  foldl_moves (fun _ _ => pulseOutput_moves) .refl

theorem applySetting_moves {c : SettingChange} {a : State} (h : Moves [.fault, .mtx, .set] a s) :
    Moves [.fault, .mtx, .set] a (applySetting c s) := by
  cases c with
  | dest d c => exact judgeDest_moves (by decide) (by decide) ((mtx_moves (by decide) h).tail (.set _ _ (by decide)))
  | source n c => exact judgeAll_moves (by decide) (by decide) (h.tail (.set _ _ (by decide)))
  | lock m d l => cases m <;> exact mtx_moves (by decide) h

theorem applySetting_families {c : SettingChange} : familyOf (applySetting c s) k = familyOf s k := by
  cases c with
  | dest d c =>
    exact (judgeDest_shows (T := [.fault, .mtx]) (by decide) (by decide) .refl).familyOf k
  | source n c =>
    exact (judgeAll_shows (T := [.fault, .mtx]) (by decide) (by decide) .refl).familyOf k
  | lock m d l => cases m <;> rfl

theorem applySettings_moves : Moves [.fault, .mtx, .set] s (applySettings fam hang s) :=
  foldl_moves (fun _ _ => applySetting_moves) (mtx_moves (by decide) .refl)

theorem familyOf_applySettings : familyOf (applySettings fam hang s) k = familyOf s k :=
  foldl_keeps (g := fun u => familyOf u k) (fun _ _ => applySetting_families) _

/-! ### The boundary -/

/-- The device at a boundary once the family has its number and is judged. -/
def advanced (fam : Nat) (s : State) : State :=
  let u := prepareRealign fam (advanceFamily fam s)
  let f := familyOf u fam
  setAligned fam false (isAligned u (familyRate u fam) f.boundary f.hang && !f.stepped) u

/-- What follows at a boundary once the hang's takes are counted. -/
def afterHang (fam : Nat) (hang : Word) (s : State) : State :=
  sendDue (applySettings fam hang (pulseOutputs fam (readyLoose fam s)))

theorem doBoundary_eq : doBoundary fam s =
    let hang := (familyOf (prepareRealign fam (advanceFamily fam s)) fam).hang
    afterHang fam hang (settleHang fam hang (raiseIrq (irqHang fam) (advanced fam s))) := rfl

theorem advanced_paced : Paced fam (nextPace fam s) s (advanced fam s) :=
  (advanceFamily_paced.trans prepareRealign_paced).trans setAligned_paced

theorem familyOf_afterHang : familyOf (afterHang fam hang s) k = familyOf s k := by
  unfold afterHang
  rw [sendDue_keeps (fun u => familyOf u k) (fun _ => rfl) rfl, familyOf_applySettings,
    pulseOutputs_moves.keeps (fun u => familyOf u k) fun _ => rfl]
  simp only [familyOf, readyLoose_families]

theorem afterHang_rises : Rises s (afterHang fam hang s) := by
  have owed : ∀ u : State, Rises u (sendDue u) := fun u =>
    (rises_of_flt (s := u) (t := dueTaken u) rfl fun _ h => h).trans sendDue_moves.rises
  exact readyLoose_moves.rises.trans (pulseOutputs_moves.rises.trans (applySettings_moves.rises.trans (owed _)))

theorem doBoundary_paced : Paced fam (nextPace fam s) s (doBoundary fam s) := by
  have same : ∀ k, familyOf (doBoundary fam s) k = familyOf (advanced fam s) k := fun k => by
    rw [doBoundary_eq]
    dsimp only
    rw [familyOf_afterHang, settleHang_keeps (fun u => familyOf u k) (fun _ _ => rfl) fun _ _ => rfl]
    exact (irq_moves .refl : Moves [] (advanced fam s) _).keeps (fun u => familyOf u k) fun _ => rfl
  exact ⟨(congrArg pace (same fam)).trans advanced_paced.1, fun k other => (same k).trans (advanced_paced.2 k other)⟩

theorem doBoundary_irq (small : fam < 4) : (doBoundary fam s).cmd.irqStatus.getLsbD (8 + fam) = true := by
  rw [doBoundary_eq]
  dsimp only
  refine afterHang_rises.irq _ ?_
  rw [settleHang_keeps State.cmd (fun _ _ => rfl) fun _ _ => rfl]
  exact raiseIrq_bit _ _ (by unfold irqHang; omega)

/-- Settles O19: the pace of the family is set as it advances, and what follows leaves it and the interrupt. -/
theorem boundaryAdvancesFamily : Obligations.BoundaryAdvancesFamily := by
  unfold Obligations.BoundaryAdvancesFamily
  refine ⟨fun fam s on => ?_, fun fam s off => congrArg Host.Outcome.next (if_neg (by rw [off]; exact Bool.false_ne_true))⟩
  obtain ⟨paced, others⟩ := doBoundary_paced (fam := fam.val) (s := s)
  simp only [pace, nextPace, Prod.mk.injEq] at paced
  obtain ⟨hang, boundary, cutoff⟩ := paced
  exact ⟨_, congrArg Host.Outcome.next (if_pos on), hang, cutoff, boundary, doBoundary_irq fam.isLt, others⟩

end Sys2Proof.Machine
end

section
namespace Sys2Proof.Machine
open Relation

/-! ## RESTATE_COMMIT (R177, R178, R389) -/

variable {α : Type} {a s t u : State} {p : Packet} {r : Restate} {x : Stated} {m : Matrix} {d k n ses : Nat} {b : Bool}

/-! ### What a commit may change while it stages -/

/-- A change of the staging, or of the free space of the Reserve. -/
inductive Draft : State → State → Prop
  | restage {s t : State} (h : Restage s t) : Draft s t
  | space (s : State) (n : Nat) : Draft s { s with reserveFree := n }

/-- A run of such changes. -/
abbrev Drafts : State → State → Prop := ReflTransGen Draft

theorem Restages.drafts (h : Restages s t) : Drafts s t := ReflTransGen.mono (fun _ _ => Draft.restage) _ _ h

/-- What looks at no staged entry, no count of takes and no free space stays. -/
theorem Drafts.keeps (h : Drafts s t) (f : State → α)
    (books : ∀ u k x y z, f { u with mtx := { u.mtx with nextTake := k, counts := x, totals := y }
                                     led := { u.led with takes := z } } = f u)
    (entries : ∀ u m d l, f (putDest u m d { destOf u m d with staged := l }) = f u)
    (space : ∀ u n, f { u with reserveFree := n } = f u) : f t = f s := by
  induction h with
  | refl => rfl
  | tail _ g ih =>
    cases g with
    | restage h => exact (Restages.keeps (.single h) f books entries).trans ih
    | space => exact (space _ _).trans ih

theorem unstageLater_drafts (h : Drafts a s) : Drafts a (unstageLater u p x s).1 := by
  unfold unstageLater
  refine List.foldlRecOn (motive := fun (z : State × List Place) => Drafts a z.1) _ _ h fun z hz w _ => ?_
  dsimp only
  split
  · exact hz.trans (unstageWhere_restages .refl).drafts
  · exact hz

theorem prepareSetting_drafts {c : SettingChange} (h : Drafts a s) : Drafts a (prepareSetting c s) := by
  cases c with
  | dest d c => exact (h.trans (unstageForConfig_restages .refl).drafts).tail (.space _ _)
  | source | lock => exact h

theorem prepareSettings_drafts {sets : List (Nat × Option Place × SettingChange)} (h : Drafts a s) :
    Drafts a (prepareSettings sets s).1 := by
  unfold prepareSettings
  refine List.foldlRecOn (motive := fun (z : State × List Place) => Drafts a z.1) _ _ h fun z hz w _ => ?_
  dsimp only
  split <;> exact prepareSetting_drafts hz

theorem makeRoom_restages {pl : Place} {aim : Aim} (h : Restages a s) : Restages a (makeRoom pl aim n ses s) := by
  unfold makeRoom
  refine ite_restages h ?_
  split
  · exact unstageWhere_restages h
  · exact h

theorem stageDiff_restages {hang : Word} {x : DiffTake} (h : Restages a s) :
    Restages a (stageDiff ses k b hang x s) := by
  unfold stageDiff
  exact foldl_restages (fun _ _ h => stageEntry_restages (makeRoom_restages h))
    (h.tail (.books s (s.mtx.nextTake + 1) _ s.mtx.totals s.led.takes))

theorem spread_restages {half : Bool} {l : List DiffTake} {hang : Word} {used : Used} (h : Restages a s) :
    Restages a (spread ses k b half l hang used s).1 := by
  induction l generalizing hang used s with
  | nil => exact h
  | cons x l ih => exact ih (stageDiff_restages h)

theorem stageDiffs_restages {start : Nat → Word} {l : List DiffTake} (h : Restages a s) :
    Restages a (stageDiffs p k b start l s).1 := by
  unfold stageDiffs
  exact List.foldlRecOn (motive := fun (z : State × List (Nat × Word × Word) × List Place) => Restages a z.1) _ _ h
    fun z hz w _ => spread_restages hz

/-! ### The parts of a commit -/

/-- What the restate says under the settings that the commit's hang will find. -/
def saidBy (p : Packet) (r : Restate) (u : State) : Stated := statedOf (restatedView u p r) r

/-- The settings that differ. -/
def commitSets (p : Packet) (r : Restate) (u : State) : List (Nat × Option Place × SettingChange) :=
  settingDiffs u (restatedView u p r) p (saidBy p r u)

/-- The device without the entries for later hangs, and where there were some. -/
def commitCleared (p : Packet) (r : Restate) (u : State) : State × List Place :=
  unstageLater u p (saidBy p r u) { u with mtx := { u.mtx with nextCmd := u.mtx.nextCmd + 1, restate := none } }

/-- The device with what the settings that differ need done at once. -/
def commitPrepared (p : Packet) (r : Restate) (u : State) : State × List Place :=
  prepareSettings (commitSets p r u) (commitCleared p r u).1

/-- The takes that differ. -/
def commitTakes (p : Packet) (r : Restate) (u : State) : List DiffTake :=
  takeDiffs (commitPrepared p r u).1 (restatedView u p r) p (saidBy p r u)

/-- The device with the settings that wait for their hangs. -/
def commitWaits (p : Packet) (r : Restate) (u : State) : State :=
  let v := (commitPrepared p r u).1
  { v with mtx := { v.mtx with settings := v.mtx.settings ++ (commitSets p r u).map fun e =>
      { family := e.1, hang := commitHangOf u p e.1, cmd := u.mtx.nextCmd, change := e.2.2 } } }

/-- The device with the takes staged, the hangs used, and where an entry gave way. -/
def commitStaged (p : Packet) (r : Restate) (u : State) : State × List (Nat × Word × Word) × List Place :=
  stageDiffs p u.mtx.nextCmd (commitHang u p).2 (commitHangOf u p) (commitTakes p r u) (commitWaits p r u)

def commitDiffer (p : Packet) (r : Restate) (u : State) : List Place :=
  ((commitTakes p r u).map (fun d => d.unit) ++ (commitSets p r u).filterMap (fun e => e.2.1)).dedup

def commitSame (p : Packet) (r : Restate) (u : State) : List Place :=
  (((saidBy p r u).units.map (fun x => x.2)).dedup).filter (fun x => !(commitDiffer p r u).contains x)

def commitLost (p : Packet) (r : Restate) (u : State) : List Place :=
  (commitCleared p r u).2 ++ (commitPrepared p r u).2 ++ (commitStaged p r u).2.2

def commitHangs (p : Packet) (r : Restate) (u : State) : Word × Word :=
  usedIn u p.family.toNat (commitHang u p).1
    ((commitSets p r u).map (fun e => (e.1, commitHangOf u p e.1, commitHangOf u p e.1)) ++ (commitStaged p r u).2.1)

def commitAnswer (p : Packet) (r : Restate) (u : State) : Answer :=
  { status := if (commitHang u p).2 then 0x0101 else 0, hang := (commitHangs p r u).1, family := p.family.toNat
    results := leBytes 4 (commitDiffer p r u).length ++ leBytes 4 (commitSame p r u).length
      ++ leBytes 4 (commitLost p r u).dedup.length ++ leBytes 4 (commitHangs p r u).1.toNat
      ++ leBytes 4 (commitHangs p r u).2.toNat }

/-- The completion that a commit owes. -/
def commitOwed (h : Reply) (p : Packet) (r : Restate) (u : State) : Owed :=
  { cmd := u.mtx.nextCmd
    reply := { firstReply h (commitAnswer p r u) with
      hang := (commitHangs p r u).2, family := p.family.toNat, results := [] }
    fixed := true, hung := (commitTakes p r u).isEmpty && (commitSets p r u).isEmpty }

/-- The device after a commit, before its reply. -/
def commitLeft (h : Reply) (p : Packet) (r : Restate) (u : State) : State :=
  let v := (commitStaged p r u).1
  if notifyHung p then { v with mtx := { v.mtx with owed := v.mtx.owed ++ [commitOwed h p r u] } } else v

theorem restateCommit_effect {h : Reply} (isOpen : u.mtx.restate = some r) :
    effectRestateCommit h p u = (commitLeft h p r u, some (commitAnswer p r u)) := by
  unfold effectRestateCommit
  rw [isOpen]
  rfl

/-! ### What a commit leaves -/

/-- The device once the restate has ended. -/
def commitBegun (u : State) : State := { u with mtx := { u.mtx with nextCmd := u.mtx.nextCmd + 1, restate := none } }

theorem commitPrepared_drafts : Drafts (commitBegun u) (commitPrepared p r u).1 :=
  prepareSettings_drafts (unstageLater_drafts .refl)

/-- What looks at nothing that is staged, waits, is counted or is owed, and at no number of commands. -/
theorem commitLeft_keeps {h : Reply} (f : State → α) (begun : f (commitBegun u) = f u)
    (books : ∀ u k x y z, f { u with mtx := { u.mtx with nextTake := k, counts := x, totals := y }
                                     led := { u.led with takes := z } } = f u)
    (entries : ∀ u m d l, f (putDest u m d { destOf u m d with staged := l }) = f u)
    (space : ∀ u n, f { u with reserveFree := n } = f u)
    (settings : ∀ u x, f { u with mtx := { u.mtx with settings := x } } = f u)
    (owed : ∀ u x, f { u with mtx := { u.mtx with owed := x } } = f u) : f (commitLeft h p r u) = f u := by
  have staged : f (commitStaged p r u).1 = f u :=
    (Restages.keeps (stageDiffs_restages .refl) f books entries).trans
      ((settings _ _).trans ((commitPrepared_drafts.keeps f books entries space).trans begun))
  unfold commitLeft
  dsimp only
  split
  · exact (owed _ _).trans staged
  · exact staged

theorem commitLeft_restate {h : Reply} : (commitLeft h p r u).mtx.restate = none := by
  have staged : (commitStaged p r u).1.mtx.restate = none :=
    (Restages.keeps (stageDiffs_restages .refl) (fun v => v.mtx.restate) (fun _ _ _ _ _ => rfl)
      fun _ m _ _ => by cases m <;> rfl).trans (commitPrepared_drafts.keeps (fun v => v.mtx.restate)
        (fun _ _ _ _ _ => rfl) (fun _ m _ _ => by cases m <;> rfl) fun _ _ => rfl)
  unfold commitLeft
  dsimp only
  split <;> exact staged

theorem commitLeft_beside {h : Reply} (x : Matrices) (y : Ledger) (z : Nat) :
    { commitLeft h p r u with mtx := x, led := y, reserveFree := z } = { u with mtx := x, led := y, reserveFree := z } :=
  commitLeft_keeps (fun v => { v with mtx := x, led := y, reserveFree := z }) rfl (fun _ _ _ _ _ => rfl)
    (fun _ m _ _ => by cases m <;> rfl) (fun _ _ => rfl) (fun _ _ => rfl) fun _ _ => rfl

theorem commitLeft_cmd {h : Reply} : (commitLeft h p r u).cmd = u.cmd :=
  commitLeft_keeps State.cmd rfl (fun _ _ _ _ _ => rfl)
    (fun _ m _ _ => by cases m <;> rfl) (fun _ _ => rfl) (fun _ _ => rfl) fun _ _ => rfl

theorem commitLeft_staged {h : Reply} (x : List Owed) :
    { commitLeft h p r u with mtx := { (commitLeft h p r u).mtx with owed := x } }
      = { (commitStaged p r u).1 with mtx := { (commitStaged p r u).1.mtx with owed := x } } := by
  unfold commitLeft
  generalize (commitStaged p r u).1 = v
  dsimp only
  split <;> rfl

/-! ### A restate that says nothing -/

section
variable (nothing : r.collected = [])
include nothing

theorem saidBy_nothing : saidBy p r u = {} := by
  unfold saidBy statedOf
  rw [nothing]
  rfl

theorem commitSets_nothing : commitSets p r u = [] := by
  unfold commitSets
  rw [saidBy_nothing nothing]
  rfl

theorem commitPrepared_nothing : commitPrepared p r u = (commitBegun u, []) := by
  unfold commitPrepared commitCleared
  rw [commitSets_nothing nothing, saidBy_nothing nothing]
  rfl

theorem commitTakes_nothing : commitTakes p r u = [] := by
  unfold commitTakes
  rw [saidBy_nothing nothing]
  rfl

theorem commitWaits_nothing : commitWaits p r u = commitBegun u := by
  unfold commitWaits
  rw [commitPrepared_nothing nothing, commitSets_nothing nothing]
  simp only [List.map_nil, List.append_nil]

theorem commitStaged_nothing : commitStaged p r u = (commitBegun u, [], []) := by
  unfold commitStaged
  rw [commitTakes_nothing nothing, commitWaits_nothing nothing]
  rfl

theorem commitDiffer_nothing : commitDiffer p r u = [] := by
  unfold commitDiffer
  rw [commitTakes_nothing nothing, commitSets_nothing nothing]
  rfl

theorem commitSame_nothing : commitSame p r u = [] := by
  unfold commitSame
  rw [saidBy_nothing nothing]
  rfl

theorem commitLost_nothing : commitLost p r u = [] := by
  unfold commitLost commitCleared
  rw [commitStaged_nothing nothing, commitPrepared_nothing nothing, saidBy_nothing nothing]
  rfl

theorem commitHangs_nothing : commitHangs p r u = ((commitHang u p).1, (commitHang u p).1) := by
  unfold commitHangs
  rw [commitStaged_nothing nothing, commitSets_nothing nothing]
  rfl

/-- Nothing is staged, and no space is taken. -/
theorem commitLeft_nothing {h : Reply} (f : State → α) (begun : f (commitBegun u) = f u)
    (owed : ∀ v x, f { v with mtx := { v.mtx with owed := x } } = f v) : f (commitLeft h p r u) = f u := by
  unfold commitLeft
  rw [commitStaged_nothing nothing]
  dsimp only
  split
  · exact (owed _ _).trans begun
  · exact begun

end

/-! ### The command -/

theorem restateCommit_leaves (runs : Runs specRestateCommit p s) (isOpen : s.mtx.restate = some r) :
    Leaves p (commitLeft (replyHeader specRestateCommit.code p) p r (taken specRestateCommit p s))
        (runHost specRestateCommit p s)
      ∧ Answered specRestateCommit p (commitAnswer p r (taken specRestateCommit p s)) (runHost specRestateCommit p s) := by
  have still : (taken specRestateCommit p s).mtx.restate = some r := by
    rw [taken_eq]
    exact isOpen
  exact runHost_leaves runs (restateCommit_effect still) (congrArg Command.sessions commitLeft_cmd)
    ((settled_cmd commitLeft_cmd).trans taken_cmd)

theorem taken_beyondSpace {o : OpSpec} :
    settled { taken o p s with mtx := s.mtx, led := s.led, reserveFree := s.reserveFree } = settled s := by
  refine Eq.trans ?_ (taken_settled s o p)
  rw [taken_eq]

/-- Settles O12: the parts of the commit in order; what they leave by the changes of staging that they are made of, and a
restate that says nothing by its parts that are empty. -/
theorem restateCommitAnswers : Obligations.RestateCommitAnswers := by
  unfold Obligations.RestateCommitAnswers
  intro p r s runs isOpen
  obtain ⟨leaves, answered⟩ := restateCommit_leaves runs isOpen
  refine ⟨_, _, rfl, leaves, answered, commitLeft_staged _, commitLeft_restate, ?_, fun nothing =>
    ⟨commitDiffer_nothing nothing, commitSame_nothing nothing, commitLost_nothing nothing, commitHangs_nothing nothing,
      ?_, ?_, ?_, ?_, ?_⟩⟩
  · rw [commitLeft_beside]
    exact taken_beyondSpace
  · exact (commitLeft_nothing nothing (fun v => v.reserveFree) rfl fun _ _ => rfl).trans (by rw [taken_eq])
  · exact (commitLeft_nothing nothing (fun v => v.mtx.video) rfl fun _ _ => rfl).trans (by rw [taken_eq])
  · exact (commitLeft_nothing nothing (fun v => v.mtx.anc) rfl fun _ _ => rfl).trans (by rw [taken_eq])
  · exact (commitLeft_nothing nothing (fun v => v.mtx.audio) rfl fun _ _ => rfl).trans (by rw [taken_eq])
  · exact (commitLeft_nothing nothing (fun v => v.mtx.settings) rfl fun _ _ => rfl).trans (by rw [taken_eq])

end Sys2Proof.Machine
end

section
namespace Sys2Proof.Machine

/-! ## SWITCH_POINT (R146 to R149, R152, R172, R173) -/

variable {α : Type} {s t u : State} {m q : Matrix} {c d e k n : Nat} {x : Entry} {b hung : Bool}

/-- The protection of a video destination: its settings, and whether it is in effect. -/
def protection (r : DestRun) : Option Nat × Bool × Bool × Nat × Bool :=
  (r.protSource, r.revert, r.followAudio, r.wtr, r.onProtection)

/-- The video destinations with their protection. -/
def videoSide (s : State) : Tab Dest × (Nat → Option Nat × Bool × Bool × Nat × Bool) :=
  (s.mtx.video, fun d => protection (destRun s d))

theorem videoSide_of_mtx (h : t.mtx = s.mtx) : videoSide t = videoSide s := by
  simp only [videoSide, destRun, h]

theorem destOf_of_videoSide (h : videoSide t = videoSide s) (k : Nat) : destOf t .video k = destOf s .video k := by
  have video := congrArg Prod.fst h
  simp only [videoSide] at video
  simp only [destOf, video]

theorem protection_of_videoSide (h : videoSide t = videoSide s) (k : Nat) :
    protection (destRun t k) = protection (destRun s k) := congrFun (congrArg Prod.snd h) k

theorem videoSide_putDestRun {r : DestRun} (same : protection r = protection (destRun s d)) :
    videoSide (putDestRun s d r) = videoSide s := by
  refine congrArg (Prod.mk s.mtx.video) (funext fun k => ?_)
  rw [destRun_putDestRun]
  split
  · rename_i here
    rw [same, here]
  · rfl

/-! ### What a container destination sends leaves the matrices -/

theorem pushLine_mtx {l : PicLine} : (pushLine d l s).mtx = s.mtx := by
  unfold pushLine
  split
  split <;> rfl

theorem blackRest_mtx : (blackRest d s).mtx = s.mtx := by
  unfold blackRest
  dsimp only
  split
  · rfl
  · exact foldl_keeps (g := fun u => u.mtx) (fun _ _ => pushLine_mtx) _

theorem pushAnc_mtx {p : AncPacket} : (pushAnc d p s).mtx = s.mtx := by
  unfold pushAnc
  dsimp only
  split
  · rfl
  · split <;> rfl

theorem resumeFrame_mtx : (resumeFrame d n s).mtx = s.mtx := by
  have lines : ∀ (l : List PicLine) u, (l.foldl (fun s l => pushLine d l s) u).mtx = u.mtx := fun l u =>
    foldl_keeps (g := fun u => u.mtx) (fun _ _ => pushLine_mtx) l
  have start : ∀ p g, (pushFrameStart d p g s).mtx = s.mtx := fun _ _ => rfl
  unfold resumeFrame
  dsimp only
  split
  · exact (foldl_keeps (g := fun u => u.mtx) (fun _ _ => pushAnc_mtx) _).trans ((lines _ _).trans (start _ _))
  · exact (lines _ _).trans (start _ _)

/-! ### Judging leaves the protection -/

theorem countJudgment_videoSide : videoSide (countJudgment d s) = videoSide s := by
  unfold countJudgment
  extract_lets r
  split
  · exact videoSide_putDestRun rfl
  · extract_lets mism ref s1 again src s2
    have h1 : videoSide s1 = videoSide s := videoSide_putDestRun rfl
    have h2 : videoSide s2 = videoSide s := by
      show videoSide (if _ then _ else _) = _
      split
      · exact h1
      · exact h1
    split
    · exact (videoSide_of_mtx (raiseCore_mtx _)).trans h2
    · exact h2

theorem enterFallback_videoSide : videoSide (enterFallback d s) = videoSide s := by
  have fell : videoSide (fallen d s) = videoSide s :=
    (videoSide_of_mtx blackRest_mtx).trans (videoSide_putDestRun rfl)
  rw [enterFallback_eq]
  split
  · rfl
  · split
    · exact (videoSide_of_mtx (raiseCore_mtx _)).trans fell
    · exact fell

theorem judgeAtSwitch_videoSide : videoSide (judgeAtSwitch d s) = videoSide s := by
  unfold judgeAtSwitch
  dsimp only
  split
  · exact enterFallback_videoSide.trans countJudgment_videoSide
  · refine Eq.trans ?_ (countJudgment_videoSide (d := d))
    exact videoSide_putDestRun rfl

/-! ### What follows the switch of a video destination -/

theorem markHung_videoSide : videoSide (markHung x s) = videoSide s := rfl

theorem switchAnc_videoSide : videoSide (switchAnc d s) = videoSide s := by
  unfold switchAnc
  dsimp only
  split
  · split <;> rfl
  · rfl

theorem readyChannel_videoSide : videoSide (readyChannel s c) = videoSide s := by
  unfold readyChannel
  dsimp only
  split
  · split <;> rfl
  · rfl

theorem keepAncBefore_mtx {o : Option Nat} : (keepAncBefore d o s).mtx = s.mtx := by
  unfold keepAncBefore
  dsimp only
  split <;> rfl

theorem joinFrame_mtx : (joinFrame d hung s).mtx = s.mtx := by
  unfold joinFrame
  split
  · split
    · exact resumeFrame_mtx
    · rfl
  · rfl

theorem followFormat_mtx : (followFormat e s).mtx = s.mtx :=
  followFormat_formats.keeps (fun u => u.mtx) fun _ _ => rfl

theorem sendDue_videoSide : videoSide (sendDue s) = videoSide s :=
  sendDue_keeps videoSide (fun _ => rfl) rfl

/-- A switch point at which a take has hung, from the ancillary destination's switch on. -/
def afterSwitch (d : Nat) (old : Option Nat) (s : State) : State :=
  let s := switchAnc d s
  let s := (runChannels (destAudio s d)).foldl readyChannel s
  let s := joinFrame d true (keepAncBefore d old (judgeAtSwitch d s))
  sendDue (if 1280 ≤ d ∧ d < 1440 then followFormat (d - 1280) s else s)

theorem afterSwitch_videoSide {o : Option Nat} : videoSide (afterSwitch d o s) = videoSide s := by
  have ready : ∀ (l : List Nat) u, videoSide (l.foldl readyChannel u) = videoSide u := fun l u =>
    foldl_keeps (g := videoSide) (fun _ _ => readyChannel_videoSide) l
  have joined : ∀ u, videoSide (joinFrame d true (keepAncBefore d o (judgeAtSwitch d u))) = videoSide u := fun u =>
    (videoSide_of_mtx joinFrame_mtx).trans ((videoSide_of_mtx keepAncBefore_mtx).trans judgeAtSwitch_videoSide)
  have followed : ∀ u, videoSide (if 1280 ≤ d ∧ d < 1440 then followFormat (d - 1280) u else u) = videoSide u := by
    intro u
    split
    · exact videoSide_of_mtx followFormat_mtx
    · rfl
  exact sendDue_videoSide.trans ((followed _).trans ((joined _).trans ((ready _ _).trans switchAnc_videoSide)))

theorem switchDest_hung (settled : (destRun s d).pendingCfg = none) (switches : switchVideo d s = (u, true)) :
    switchDest d s = afterSwitch d (destOf s .anc d).active u := by
  unfold switchDest
  dsimp only
  rw [applyPendingDest_none settled, switches]
  rfl

/-! ### Moving a selection -/

/-- The record of a destination's protection once a loaded entry is active. -/
def switchedRun (r : DestRun) (x : Entry) : DestRun :=
  match x.kind with
  | .protect revert follow wtr =>
    { r with onProtection := false, protSource := x.source, revert := revert, followAudio := follow, wtr := wtr }
  | .take =>
    match x.prot with
    | some (src, .protect revert follow wtr) =>
      { r with onProtection := false, protSource := src, revert := revert, followAudio := follow, wtr := wtr }
    | _ => { r with onProtection := false }

theorem switchedRun_off {r : DestRun} : (switchedRun r x).onProtection = false := by
  unfold switchedRun
  split
  · rfl
  · split <;> rfl

/-- The record of a video destination once its loaded entry is active. -/
def switchedDest (v : Dest) (x : Entry) : Dest :=
  match x.kind with
  | .take => { v with active := x.source, shadow := none }
  | .protect .. => { v with shadow := none }

/-- The source with whose frame a loaded entry switches. -/
def leadingSource (v : Dest) (x : Entry) : Option Nat :=
  match x.kind with | .take => x.source | .protect .. => v.active

theorem switchVideo_reached (loaded : (destOf s .video d).shadow = some x)
    (begun : frameReached s d (leadingSource (destOf s .video d) x) x = true) :
    switchVideo d s = (markHung x (putDestRun (putDest s .video d (switchedDest (destOf s .video d) x)) d
      (switchedRun (destRun s d) x)), true) := by
  unfold switchVideo switchedDest switchedRun
  dsimp only
  rw [loaded]
  cases kind : x.kind with
  | take =>
    simp only [leadingSource, kind] at begun ⊢
    simp only [begun, Bool.not_true, Bool.false_eq_true, if_false] <;> rfl
  | protect a b w =>
    simp only [leadingSource, kind] at begun ⊢
    simp only [begun, Bool.not_true, Bool.false_eq_true, if_false]

/-- A video destination's switch point at which its loaded entry becomes active. -/
theorem switchDest_reached (settled : (destRun s d).pendingCfg = none) (loaded : (destOf s .video d).shadow = some x)
    (begun : frameReached s d (leadingSource (destOf s .video d) x) x = true) :
    (∀ k, destOf (switchDest d s) .video k
      = if d = k then switchedDest (destOf s .video d) x else destOf s .video k)
    ∧ protection (destRun (switchDest d s) d) = protection (switchedRun (destRun s d) x) := by
  rw [switchDest_hung settled (switchVideo_reached loaded begun)]
  refine ⟨fun k => ?_, ?_⟩
  · rw [destOf_of_videoSide afterSwitch_videoSide]
    exact (destOf_putDest s .video .video d k _).trans (by simp only [true_and])
  · rw [protection_of_videoSide afterSwitch_videoSide]
    exact congrArg protection ((destRun_putDestRun _ d d _).trans (if_pos rfl))

/-! ### The ancillary matrix, and audio channels -/

theorem switchAnc_reached (loaded : (destOf s .anc d).shadow = some x)
    (begun : frameReached s d (destOf s .video d).active x = true) :
    switchAnc d s = markHung x (putDest s .anc d { destOf s .anc d with active := x.source, shadow := none }) := by
  unfold switchAnc
  dsimp only
  rw [loaded]
  exact if_pos begun

theorem readyChannel_reached (loaded : (destOf s .audio c).shadow = some x)
    (begun : frameReached s ((assocDest s c).getD videoDests) (destOf s .video ((assocDest s c).getD videoDests)).active x
      = true) : readyChannel s c = putDest s .audio c { destOf s .audio c with ready := true } := by
  unfold readyChannel
  dsimp only
  rw [loaded]
  exact if_pos begun

/-- The switch point of an ancillary destination. -/
def ancSwitched (d : Nat) (s : State) : State :=
  sendDue (keepAncBefore d (destOf s .anc d).active (switchAnc d s))

theorem keepAncBefore_beside {o : Option Nat} (x : Sdi) : { keepAncBefore d o s with sdi := x } = { s with sdi := x } := by
  unfold keepAncBefore
  dsimp only
  split <;> rfl

theorem switchAnc_beside (x : Matrices) : { switchAnc d s with mtx := x } = { s with mtx := x } := by
  unfold switchAnc
  dsimp only
  split
  · split <;> rfl
  · rfl

theorem destOf_ancSwitched : destOf (ancSwitched d s) m k = destOf (switchAnc d s) m k :=
  (destOf_sendDue m k).trans (destOf_of_mtx keepAncBefore_mtx)

theorem ancSwitched_settled : settled { ancSwitched d s with mtx := s.mtx, sdi := s.sdi } = settled s := by
  have sent : ∀ (u : State) (x : Matrices) (y : Sdi),
      settled { sendDue u with mtx := x, sdi := y } = settled { u with mtx := x, sdi := y } := fun u x y =>
    (congrArg (fun v : State => { v with sdi := y }) (sendDue_settled (s := u) x) :)
  have kept : ∀ (u : State) (o : Option Nat) (x : Matrices) (y : Sdi),
      { keepAncBefore d o u with mtx := x, sdi := y } = { u with mtx := x, sdi := y } := fun u o x y =>
    (congrArg (fun v : State => { v with mtx := x }) (keepAncBefore_beside (s := u) y) :)
  have moved : ∀ (x : Matrices) (y : Sdi), { switchAnc d s with mtx := x, sdi := y } = { s with mtx := x, sdi := y } :=
    fun x y => (congrArg (fun v : State => { v with sdi := y }) (switchAnc_beside (s := s) x) :)
  rw [ancSwitched, sent, kept, moved]

theorem switchPoint_none (other : m ≠ .audio) {d : Fin 32768} (none : 2304 ≤ d.val ∨ switchesNow s d.val = false) :
    exec (.switchPoint m d) s = .next s := by
  have no : ¬(d.val < videoDests ∧ switchesNow s d.val = true) := fun ⟨small, now⟩ => by
    rcases none with big | not
    · exact absurd small (by unfold videoDests; omega)
    · rw [not] at now
      exact Bool.false_ne_true now
  cases m with
  | video => exact congrArg Host.Outcome.next (if_neg no)
  | anc => exact congrArg Host.Outcome.next (if_neg no)
  | audio => exact absurd rfl other

/-- Settles O18: the record that a loaded entry makes of its destination, which the rest of the switch point leaves. -/
theorem switchPointMovesSelection : Obligations.SwitchPointMovesSelection := by
  unfold Obligations.SwitchPointMovesSelection
  refine ⟨fun d x s small settled loaded now begun => ?_, fun d x s small loaded now begun => ?_,
    fun d x s loaded begun => ?_, fun m d s other none => switchPoint_none other none,
    fun s d n x h dest source usable family aim => ?_⟩
  · obtain ⟨dests, run⟩ := switchDest_reached settled loaded begun
    refine ⟨_, congrArg Host.Outcome.next (if_pos ⟨small, now⟩), fun take => ?_, fun a b w protect => ?_, ?_,
      fun k other => (dests k).trans (if_neg (Ne.symm other))⟩
    · rw [dests, if_pos rfl, switchedDest, take]
    · rw [dests, if_pos rfl, switchedDest, protect]
      simp only [protection, switchedRun, protect, Prod.mk.injEq] at run
      obtain ⟨source, revert, follow, wtr, -⟩ := run
      exact ⟨rfl, source, revert, follow, wtr⟩
    · have off := congrArg (fun r => r.2.2.2.2) run
      exact (off :).trans switchedRun_off
  · have moved := switchAnc_reached loaded begun
    refine ⟨ancSwitched d.val s, congrArg Host.Outcome.next (if_pos ⟨small, now⟩), ?_, fun k other => ?_, fun k => ?_,
      ancSwitched_settled⟩
    · rw [destOf_ancSwitched, moved]
      exact (destOf_putDest s .anc .anc d.val d.val _).trans (if_pos ⟨rfl, rfl⟩)
    · rw [destOf_ancSwitched, moved]
      exact (destOf_putDest s .anc .anc d.val k _).trans (if_neg fun h => other h.2.symm)
    · rw [destOf_ancSwitched, moved]
      rfl
  · exact congrArg Host.Outcome.next (readyChannel_reached loaded begun)
  · unfold frameReached
    rw [aim]
    exact if_pos ⟨dest, source, usable, family⟩

end Sys2Proof.Machine
end

section
namespace Sys2Proof.Machine

/-! ## What a flow's tick draws (R201, R203) -/

variable {s : State} {n y fmt src : Nat} {f : RxFlow} {b : RxBuffer} {m : Bool}

theorem presentLine_draws {l : PicLine} : (presentLine n l s).draws = s.draws :=
  (presentLine_moves (T := [.mtx]) (by decide) .refl).keeps State.draws fun _ => rfl

theorem presentSamples_draws {k : Nat} {ws : List Word} : (presentSamples n k ws s).draws = s.draws := rfl

theorem repeatSample_draws {k c : Nat} : (repeatSample n k c s).draws = s.draws := rfl

theorem presentAnc_draws {p : AncPacket} : (presentAnc n p s).draws = s.draws :=
  (presentAnc_moves (T := [.mtx, .link]) (by decide) (by decide) .refl).keeps State.draws fun _ => rfl

theorem countIncomplete_draws : (countIncomplete n f m s).draws = s.draws := by
  unfold countIncomplete
  split <;> rfl

theorem releaseRow_draws : (releaseRow n y f b s).draws = s.draws := by
  unfold releaseRow
  split
  dsimp only
  split
  · exact presentLine_draws.trans countIncomplete_draws
  · exact countIncomplete_draws

theorem flowPacket_draws {sd : Bool} {line : List RxAnc} {x : RxAnc} : (flowPacket n src sd line s x).draws = s.draws := by
  unfold flowPacket
  split
  · rfl
  · split
    · split
      · rfl
      · split
        · exact foldl_keeps (g := State.draws) (fun _ _ => presentSamples_draws) _
        · exact foldl_keeps (g := State.draws) (fun _ _ => repeatSample_draws) _
    · split <;> rfl
    · split
      · exact presentAnc_draws
      · rfl
    · rfl

theorem releaseRaster_draws : (releaseRaster n y fmt f b s).draws = s.draws := by
  unfold releaseRaster
  dsimp only
  split
  · exact (foldl_keeps (g := State.draws) (fun _ _ => flowPacket_draws) _).trans
      ((foldl_keeps (g := State.draws) (fun _ _ => presentLine_draws) _).trans countIncomplete_draws)
  · exact countIncomplete_draws

theorem releaseLine_draws : (releaseLine n s y).draws = s.draws := by
  unfold releaseLine
  split
  · rfl
  · extract_lets s1 f1
    split
    · rfl
    · split
      · exact releaseRow_draws
      · exact releaseRaster_draws
      · rfl

theorem releaseTo_draws : (releaseTo n y s).draws = s.draws := by
  unfold releaseTo
  split
  · rfl
  · exact foldl_keeps (g := State.draws) (fun _ _ => releaseLine_draws) _

/-- A flow's source is none of the twelve that isolate a port. -/
theorem raisePacket_flow (g : Nat) : raisePacket (faultId 0x05 g 12) s = raiseCore (faultId 0x05 g 12) s := by
  have index : ¬ faultIndex (faultId 0x05 g 12) < 12 := by
    unfold faultIndex faultId
    omega
  unfold raisePacket
  simp only [index, false_and, decide_false, Bool.false_eq_true, if_false]

theorem loseFlow_draws : (loseFlow n f s).draws = s.draws := by
  have lost : ((flowSources n f).foldl (fun s x => loseSource x s) s).draws = s.draws :=
    (foldl_moves (T := [.fault, .mtx]) (fun _ _ => loseSource_moves (by decide) (by decide)) .refl).keeps State.draws
      fun _ => rfl
  unfold loseFlow
  dsimp only
  split
  · rw [raisePacket_flow]
    exact (raiseCore_keeps State.draws (fun _ => rfl) _).trans lost
  · exact lost

theorem settleShown_draws : (settleShown n s).draws = s.draws := by
  unfold settleShown
  split
  · rfl
  · extract_lets s1
    have released : s1.draws = s.draws := releaseTo_draws
    split
    · extract_lets holds pid same f1 s2
      split
      · exact loseFlow_draws.trans released
      · exact released
    · exact released

theorem presentAncillary_draws {b : Option RxBuffer} : (presentAncillary n f b s).draws = s.draws := by
  unfold presentAncillary
  dsimp only
  split
  · rfl
  · refine (foldl_keeps (g := State.draws) (fun _ _ => presentAnc_draws) _).trans ?_
    split <;> rfl

theorem presentPicture_draws : (presentPicture n f m s).draws = s.draws := by
  have began : ∀ u k p, (beginFrame k p u).draws = u.draws := fun u k p =>
    (beginFrame_moves (T := [.mtx]) (by decide) .refl).keeps State.draws fun _ => rfl
  have gained : ∀ u k fmt fam p, (gainSource k fmt fam p u).draws = u.draws := fun u k fmt fam p =>
    (gainSource_moves (T := [.fault, .mtx]) (by decide) (by decide) .refl).keeps State.draws fun _ => rfl
  unfold presentPicture
  dsimp only
  split
  · exact loseFlow_draws
  · split
    · rfl
    · exact (foldl_keeps (g := State.draws) (fun u x => began u x _) _).trans
        (foldl_keeps (g := State.draws) (fun u x => gained u x _ _ _) _)

theorem presentAt_draws {x : Int} : (presentAt n x s).draws = s.draws := by
  unfold presentAt
  dsimp only
  split
  · exact settleShown_draws
  · split
    · exact presentAncillary_draws.trans settleShown_draws
    · exact presentPicture_draws.trans settleShown_draws

theorem flowTick_draws : (flowTick n s).draws = s.draws := by
  unfold flowTick
  split
  · rfl
  · dsimp only
    split
    · exact presentAt_draws.trans releaseTo_draws
    · exact releaseTo_draws

theorem flowTick_shows {T : List Area} (hT : flowAreas ⊆ T) {a : State} (h : Shows T a s) : Shows T a (flowTick n s) := by
  unfold flowTick
  split
  · exact h
  · exact ite_shows (presentAt_shows hT (releaseTo_shows hT (putRxFlow_shows hT h)))
      (releaseTo_shows hT (putRxFlow_shows hT h))

end Sys2Proof.Machine
end

section
namespace Sys2Proof.Machine
open Relation

/-! ## A grid period beside the TDM frames and the switches (R201, R281 to R289) -/

variable {α β γ : Type} {a s t : State} {k n : Nat}

/-- One step of a period: a flow's tick, or a change of samples on their way, of what the ports of the grid are not. -/
inductive Play : State → State → Prop
  | tick (s : State) (n : Nat) : Play s (flowTick n s)
  | put (s : State) (u : Audio) (p : Packets) (e : Tab Essence) (r : Tab (List (List Word))) (x : Tab TxContainer)
      (i : Tab SdiIn) (o : Tab SdiOut) (g : Engines) (ports : u.ports = s.aud.ports) : Play s
      { s with aud := u, pkt := p, mtx := { s.mtx with essences := e, recordAudio := r }, fab := { s.fab with tx := x }
               sdi := { s.sdi with inputs := i, outputs := o }, eng := g }

/-- A run of such steps. -/
abbrev Plays : State → State → Prop := ReflTransGen Play

theorem Plays.keeps (h : Plays s t) (f : State → α) (tick : ∀ u n, f (flowTick n u) = f u)
    (put : ∀ (u : State) v p e r x i o g, v.ports = u.aud.ports → f { u with
      aud := v, pkt := p, mtx := { u.mtx with essences := e, recordAudio := r }, fab := { u.fab with tx := x }
      sdi := { u.sdi with inputs := i, outputs := o }, eng := g } = f u) : f t = f s := by
  induction h with
  | refl => rfl
  | tail _ g ih =>
    cases g with
    | tick => exact (tick _ _).trans ih
    | put _ _ _ _ _ _ _ _ ports => exact (put _ _ _ _ _ _ _ _ _ ports).trans ih

/-! ### Composing -/

theorem foldl_plays {f : State → α → State} {l : List α} (hf : ∀ s x, Plays a s → Plays a (f s x)) (h : Plays a s) :
    Plays a (l.foldl f s) := List.foldlRecOn l f h fun u hu x _ => hf u x hu

theorem foldl_fst_plays {f : State × β → γ → State × β} {l : List γ} {z : State × β}
    (hf : ∀ z x, Plays a z.1 → Plays a (f z x).1) (h : Plays a z.1) : Plays a (l.foldl f z).1 :=
  List.foldlRecOn (motive := fun z : State × β => Plays a z.1) l f h fun u hu x _ => hf u x hu

theorem ite_plays {c : Prop} [Decidable c] (h : Plays a s) (g : Plays a t) : Plays a (if c then s else t) := by
  split <;> assumption

theorem aud_plays {x : Audio} (ports : x.ports = s.aud.ports) (h : Plays a s) : Plays a { s with aud := x } :=
  h.tail (.put s x _ _ _ _ _ _ _ ports)
theorem pkt_plays {x : Packets} (h : Plays a s) : Plays a { s with pkt := x } := h.tail (.put s _ x _ _ _ _ _ _ rfl)
theorem eng_plays {x : Engines} (h : Plays a s) : Plays a { s with eng := x } := h.tail (.put s _ _ _ _ _ _ _ x rfl)
theorem putEssence_plays {v : Essence} (h : Plays a s) : Plays a (putEssence s n v) :=
  h.tail (.put s _ _ _ _ _ _ _ _ rfl)
theorem putTx_plays {v : TxContainer} (h : Plays a s) : Plays a (putTx s n v) := h.tail (.put s _ _ _ _ _ _ _ _ rfl)
theorem putSdiIn_plays {v : SdiIn} (h : Plays a s) : Plays a (putSdiIn s n v) := h.tail (.put s _ _ _ _ _ _ _ _ rfl)
theorem putSdiOut_plays {v : SdiOut} (h : Plays a s) : Plays a (putSdiOut s n v) := h.tail (.put s _ _ _ _ _ _ _ _ rfl)

/-! ### The sources of the period -/

theorem clearPeriod_plays {keep : Nat → Bool} (h : Plays a s) : Plays a (clearPeriod k keep s) := aud_plays rfl h
theorem writeSource_plays {e : Nat × Word} (h : Plays a s) : Plays a (writeSource k s e) := aud_plays rfl h

theorem playFlows_plays (h : Plays a s) : Plays a (playFlows s).1 := by
  unfold playFlows
  refine foldl_fst_plays (fun z e hz => ?_) h
  dsimp only
  split
  · exact pkt_plays hz
  · exact hz

theorem countSlip_plays {b : Bool} (h : Plays a s) : Plays a (countSlip n b s) := ite_plays (putSdiIn_plays h) h

theorem playEssences_plays (h : Plays a s) : Plays a (playEssences s).1 := by
  unfold playEssences
  exact foldl_fst_plays (fun z e hz => foldl_fst_plays (fun w k hw => putEssence_plays (countSlip_plays hw)) hz) h

theorem playEngines_plays (h : Plays a s) : Plays a (playEngines s).1 := by
  unfold playEngines
  refine foldl_fst_plays (fun z e hz => ?_) h
  dsimp only
  split
  · exact hz
  · exact eng_plays hz

theorem trackStatus_plays {e : Nat × Word} (h : Plays a s) : Plays a (trackStatus s e) := by
  unfold trackStatus
  dsimp only
  split
  · exact h
  · exact ite_plays (aud_plays rfl h) (aud_plays rfl h)

/-! ### The outputs of the period -/

theorem pushAudio_plays {ch : List Word} (h : Plays a s) : Plays a (pushAudio n ch s) := by
  unfold pushAudio
  exact ite_plays h (ite_plays (putTx_plays h) (putTx_plays (putTx_plays h)))

theorem embedOutputs_plays (h : Plays a s) : Plays a (embedOutputs s) := by
  unfold embedOutputs
  exact foldl_plays (fun u d hu => ite_plays (pushAudio_plays hu) hu)
    (foldl_plays (fun u e hu => ite_plays (putSdiOut_plays hu) hu) h)

theorem recordPeriod_plays (h : Plays a s) : Plays a (recordPeriod s) := h.tail (.put s _ _ _ _ _ _ _ _ rfl)

theorem sendPeriod_plays (h : Plays a s) : Plays a (sendPeriod k s) :=
  foldl_plays (fun _ _ hu => ite_plays (pkt_plays hu) hu) h

/-! ### The parts of a period -/

/-- The flows' ticks of a period. -/
def gridTicked (k : Nat) (s : State) : State :=
  let s := clearPeriod k isTdmChannel s
  (s.pkt.rxFlows.map (fun e => e.1)).foldl (fun s n => flowTick n s) s

/-- The words of a period are written. -/
def gridWritten (k : Nat) (words : List (Nat × Word)) (s : State) : State :=
  endBlocks words (words.foldl trackStatus (words.foldl (writeSource k) s))

/-- A period once its channels hold their words. -/
def gridHeard (k : Nat) (sources : List (Nat × Word)) (s : State) : State :=
  let (s, played) := playFlows (gridTicked k s)
  let given := sources.filterMap (fun e => (deliveredWord e.1 e.2).map (fun w => (e.1, w)))
  let (s, come) := playEssences s
  let (s, made) := playEngines s
  gridWritten k (given ++ played ++ made ++ come) s

/-- The outputs of a period. -/
def gridOutputs (k : Nat) (s : State) : State :=
  { s with aud := { s.aud with outputsBefore := s.aud.outputs, outputs := allOutputs s k } }

/-- A period once its outputs have left, before the next one is numbered. -/
def gridSent (k : Nat) (s : State) : State :=
  let s := hearEngines (sendPeriod k (recordPeriod (embedOutputs (stepFades (gridOutputs k s)))))
  clearPeriod (k + 1) (fun c => isTdmChannel c && decide (gridPeriod.tdmRunning s c)) s

/-- The next period is numbered, and no inversion is left. -/
def gridEnded (k : Nat) (s : State) : State :=
  { s with aud := { s.aud with period := k + 1 }
           flt := { s.flt with invert := tdel s.flt.invert (faultId 0x0C 31 1) } }

theorem gridPeriod_eq {sources : List (Nat × Word)} {din : List (Fin 16 × List Word)} : gridPeriod sources din s =
    gridEnded s.aud.period (gridSent s.aud.period (switchChannels (gridHeard s.aud.period sources
      (tdmFrames s.aud.period din (applyDeembed (applyGroups s)))))) := by
  unfold gridPeriod
  extract_lets k s1 s2 s3
  unfold gridHeard
  rw [show gridTicked k s1 = s3 from rfl]
  rcases playFlows s3 with ⟨s4, played⟩
  dsimp -zeta only
  extract_lets words t1 t2 a2 t3 t4 t5
  have sent : t5 = gridSent k t2 := by
    clear_value t2
    rfl
  exact congrArg (gridEnded k) sent

theorem gridTicked_plays : Plays s (gridTicked k s) :=
  foldl_plays (fun u n hu => hu.tail (.tick u n)) (clearPeriod_plays .refl)

theorem gridWritten_plays {words : List (Nat × Word)} (h : Plays a s) : Plays a (gridWritten k words s) := by
  unfold gridWritten endBlocks
  exact aud_plays rfl (foldl_plays (fun _ _ => trackStatus_plays) (foldl_plays (fun _ _ => writeSource_plays) h))

theorem gridHeard_plays {sources : List (Nat × Word)} : Plays s (gridHeard k sources s) :=
  gridWritten_plays (playEngines_plays (playEssences_plays (playFlows_plays gridTicked_plays)))

theorem stepFades_plays (h : Plays a s) : Plays a (stepFades s) := aud_plays rfl h
theorem gridOutputs_plays (h : Plays a s) : Plays a (gridOutputs k s) := aud_plays rfl h
theorem hearEngines_plays (h : Plays a s) : Plays a (hearEngines s) := eng_plays h

theorem gridSent_plays : Plays s (gridSent k s) := by
  unfold gridSent
  exact clearPeriod_plays (hearEngines_plays (sendPeriod_plays (recordPeriod_plays (embedOutputs_plays
    (stepFades_plays (gridOutputs_plays .refl))))))

end Sys2Proof.Machine
end

section
namespace Sys2Proof.Machine
open Relation

/-! ## The switches of a grid period (R149, R286) -/

variable {α : Type} {s t u : State} {m : Matrix} {c d k n p : Nat} {v : Dest}

/-- A channel whose loaded take has switched where it is ready. -/
def switchedChannel (v : Dest) : Dest :=
  match v.shadow with
  | none => v
  | some e => if v.ready then { v with active := e.source, shadow := none, ready := false } else v

theorem switchedChannel_none (none : v.shadow = none) : switchedChannel v = v := by
  unfold switchedChannel
  rw [none]

theorem switchedChannel_waits (waits : v.ready = false) : switchedChannel v = v := by
  unfold switchedChannel
  rw [waits]
  split <;> rfl

theorem switchedChannel_ready {e : Entry} (loaded : v.shadow = some e) (ready : v.ready = true) :
    switchedChannel v = { v with active := e.source, shadow := none, ready := false } := by
  unfold switchedChannel
  rw [loaded, ready]
  rfl

theorem switchedChannel_twice : switchedChannel (switchedChannel v) = switchedChannel v := by
  cases loaded : v.shadow with
  | none => rw [switchedChannel_none loaded, switchedChannel_none loaded]
  | some e =>
    cases ready : v.ready with
    | false => rw [switchedChannel_waits ready, switchedChannel_waits ready]
    | true =>
      rw [switchedChannel_ready loaded ready]
      exact switchedChannel_none rfl

theorem destOf_markHung {x : Entry} : destOf (markHung x s) m d = destOf s m d := by
  cases m <;> rfl

theorem destOf_switchChannel : destOf (switchChannel d u) m k =
    if .audio = m ∧ d = k then switchedChannel (destOf u m k) else destOf u m k := by
  have stays : switchedChannel (destOf u .audio d) = destOf u .audio d → destOf u m k =
      if Matrix.audio = m ∧ d = k then switchedChannel (destOf u m k) else destOf u m k := fun same => by
    split
    · rename_i here
      rw [← here.1, ← here.2, same]
    · rfl
  unfold switchChannel
  dsimp only
  split
  case h_1 none => exact stays (switchedChannel_none none)
  case h_2 e loaded =>
    split
    · rename_i ready
      rw [destOf_markHung, destOf_putDest]
      split
      · rename_i here
        obtain ⟨rfl, rfl⟩ := here
        exact (switchedChannel_ready loaded ready).symm
      · cases m <;> rfl
    · rename_i waits
      exact stays (switchedChannel_waits (Bool.eq_false_iff.mpr waits))

theorem destOf_switchChannels : destOf (switchChannels s) .audio d = switchedChannel (destOf s .audio d) := by
  have alters : Alters (fun _ => True) .audio (fun _ => switchedChannel) (fun u d => switchChannel d u) :=
    fun u d _ => ⟨trivial, fun q k => destOf_switchChannel⟩
  have listed : s.mtx.audio.foldl (fun s e => switchChannel e.1 s) s
      = (listed s .audio).foldl (fun s d => switchChannel d s) s := by
    unfold listed destsOf
    rw [List.foldl_map]
  unfold switchChannels
  rw [destOf_sendDue, listed, destOf_foldl_all alters (fun _ _ => switchedChannel_twice) trivial fun k out => by
    rw [destOf_unlisted out]; rfl]
  exact if_pos rfl

/-- The switches leave what looks at no fade, at no completion and at nothing that a reply reaches. -/
theorem switchChannels_keeps (f : State → α) (due : ∀ u, f (sendDue u) = f u)
    (switch : ∀ (u : State) x y v k, x.ports = u.aud.ports →
      f { u with aud := x, mtx := { u.mtx with owed := y, audio := tset (fun _ => {}) u.mtx.audio k v } } = f u) :
    f (switchChannels s) = f s := by
  refine (due _).trans (foldl_keeps (g := f) (fun u e => ?_) _)
  unfold switchChannel
  dsimp only
  split
  · rfl
  · split
    · exact switch u _ _ _ _ rfl
    · rfl

/-! ## De-embedder settings that wait for a period (R290) -/

section
variable {β : Type} [DecidableEq β] {dflt : Nat → β} {l x y : Tab β} {e : Nat × β}

theorem foldl_tset_other (other : ∀ e ∈ l, e.1 ≠ k) :
    tget dflt (l.foldl (fun t e => tset dflt t e.1 e.2) x) k = tget dflt x k := by
  induction l generalizing x with
  | nil => rfl
  | cons a l ih =>
    rw [List.foldl_cons, ih fun e mem => other e (List.mem_cons_of_mem _ mem), tget_tset,
      if_neg (other a List.mem_cons_self)]

/-- Records that are set one by one, each under a number of its own, are all set. -/
theorem foldl_tset_mem (nodup : (l.map Prod.fst).Nodup) (mem : e ∈ l) :
    tget dflt (l.foldl (fun t e => tset dflt t e.1 e.2) x) e.1 = e.2 := by
  induction l generalizing x with
  | nil => cases mem
  | cons a l ih =>
    obtain ⟨fresh, nodup⟩ := List.nodup_cons.mp nodup
    rcases List.mem_cons.mp mem with rfl | mem
    · have others : ∀ b ∈ l, b.1 ≠ e.1 := fun b inl same => fresh (List.mem_map.mpr ⟨b, inl, same⟩)
      rw [List.foldl_cons, foldl_tset_other others, tget_tset, if_pos rfl]
    · exact ih nodup mem

omit [DecidableEq β] in
theorem tfind_foldl_tdel : tfind (l.foldl (fun t e => tdel t e.1) x) k =
    if k ∈ l.map Prod.fst then none else tfind x k := by
  induction l generalizing x with
  | nil => simp
  | cons a l ih =>
    rw [List.foldl_cons, ih, tfind_tdel]
    by_cases here : a.1 = k
    · simp [here]
    · simp only [here, if_false, List.map_cons, List.mem_cons, Ne.symm here, false_or]

omit [DecidableEq β] in
theorem tab_nil (none : ∀ k, tfind x k = none) : x = [] := by
  cases x with
  | nil => rfl
  | cons a x =>
    have found := none a.1
    simp [tfind] at found

omit [DecidableEq β] in
/-- Records that are all taken off the list leave an empty one. -/
theorem foldl_tdel_self : l.foldl (fun t e => tdel t e.1) l = [] := by
  refine tab_nil fun k => ?_
  rw [tfind_foldl_tdel]
  split
  · rfl
  · rename_i out
    by_contra some
    obtain ⟨v, found⟩ := Option.ne_none_iff_exists'.mp some
    exact out (mem_keys_of_listed found)

end

theorem applyDeembed_pending : (applyDeembed s).sdi.pendingDeembed = [] :=
  (List.foldl_hom (fun u : State => u.sdi.pendingDeembed) fun _ _ => rfl).symm.trans foldl_tdel_self

theorem applyDeembed_groups (nodup : (s.sdi.pendingDeembed.map Prod.fst).Nodup) {e : Nat × BitVec 4}
    (mem : e ∈ s.sdi.pendingDeembed) : deembedGroups (applyDeembed s) e.1 = e.2 :=
  (congrArg (fun x => tget (fun _ => (0xF : BitVec 4)) x e.1)
    (List.foldl_hom (fun u : State => u.set.deembed) fun _ _ => rfl).symm).trans (foldl_tset_mem nodup mem)

theorem applyDeembed_keeps (f : State → α)
    (put : ∀ u x y, f { u with set := { u.set with deembed := x }, sdi := { u.sdi with pendingDeembed := y } } = f u) :
    f (applyDeembed s) = f s := foldl_keeps (g := f) (fun _ _ => put _ _ _) _

theorem applyGroups_keeps (f : State → α)
    (put : ∀ u x y, f { u with set := { u.set with groups := x }, aud := { u.aud with pendingGroups := y } } = f u) :
    f (applyGroups s) = f s := by
  refine foldl_keeps (g := f) (fun u e => ?_) _
  split
  · exact put _ _ _
  · rfl

end Sys2Proof.Machine
end

section
namespace Sys2Proof.Machine
open Relation

/-! ## The TDM ports in a grid period (R292 to R304) -/

variable {α β γ : Type} {a s t u : State} {k n p : Nat} {v : TdmPort} {c : TdmCfg}

/-- A change of port p and its settings, of the sample memory or of the Ledger. -/
inductive PortTouch (p : Nat) : State → State → Prop
  | port (s : State) (v : TdmPort) : PortTouch p s (putTdm s p v)
  | cfg (s : State) (c : TdmCfg) :
      PortTouch p s { s with set := { s.set with tdm := tset (fun _ => {}) s.set.tdm p c } }
  | memory (s : State) (x : Tab Word) : PortTouch p s { s with aud := { s.aud with memory := x } }
  | ledger (s : State) (x : Ledger) : PortTouch p s { s with led := x }

/-- A run of such changes. -/
abbrev PortRun (p : Nat) : State → State → Prop := ReflTransGen (PortTouch p)

/-- What looks at no port, at no setting of one, at no sample and not into the Ledger. -/
theorem PortRun.keeps (h : PortRun p s t) (f : State → α)
    (put : ∀ (u : State) x y z w, f { u with
      aud := { u.aud with ports := x, memory := y }, led := z, set := { u.set with tdm := w } } = f u) : f t = f s := by
  induction h with
  | refl => rfl
  | tail _ g ih =>
    refine Eq.trans ?_ ih
    cases g with
    | port => exact put _ _ _ _ _
    | cfg => exact put _ _ _ _ _
    | memory => exact put _ _ _ _ _
    | ledger => exact put _ _ _ _ _

/-- Other ports and their settings stay. -/
theorem PortRun.other (h : PortRun p s t) (other : p ≠ n) : tdmOf t n = tdmOf s n ∧ tdmCfg t n = tdmCfg s n := by
  induction h with
  | refl => exact ⟨rfl, rfl⟩
  | tail _ g ih =>
    cases g with
    | port => exact ⟨(tget_tset_other _ _ _ _ _ other).trans ih.1, ih.2⟩
    | cfg => exact ⟨ih.1, (tget_tset_other _ _ _ _ _ other).trans ih.2⟩
    | memory => exact ih
    | ledger => exact ih

theorem ite_portRun {b : Prop} [Decidable b] (h : PortRun p a s) (g : PortRun p a t) :
    PortRun p a (if b then s else t) := by split <;> assumption

theorem foldl_portRun {f : State → α → State} {l : List α} (hf : ∀ s x, PortRun p a s → PortRun p a (f s x))
    (h : PortRun p a s) : PortRun p a (l.foldl f s) := List.foldlRecOn l f h fun u hu x _ => hf u x hu

theorem putTdm_portRun (h : PortRun p a s) : PortRun p a (putTdm s p v) := h.tail (.port s v)

/-! ### A frame boundary -/

/-- A changed configuration at a frame boundary. -/
def tdmConfigured (p : Nat) (s : State) : State :=
  match (tdmOf s p).pendingCfg with | none => s | some c => reconfigTdm p c s

/-- A restart at a frame boundary. -/
def tdmRestarted (p : Nat) (s : State) : State :=
  let v := tdmOf s p
  if v.restartPending && v.state == .running then
    putTdm s p { stopTdm v .waitingStart (allOff (tdmCfg s p)) with startFrom := startAfter s }
  else s

/-- Changed masks at a frame boundary. -/
def tdmMasked (p : Nat) (s : State) : State :=
  let v := tdmOf s p
  match v.pendingMasks with
  | none => s
  | some (tx, rx) =>
    let v := { v with pendingMasks := none, txMask := tx, rxMask := rx }
    if v.state = .running then
      let due := waitDue s p
      putTdm s p { v with
        txWaiting := startWaits v.txOn tx due (lastOut s p) v.txWaiting
        rxWaiting := startWaits v.rxOn rx due (fun t => slotSample (v.din.getD t 0)) v.rxWaiting }
    else putTdm s p v

theorem tdmBoundary_eq : tdmBoundary p s = tdmMasked p (tdmRestarted p (tdmConfigured p s)) := rfl

theorem reconfigTdm_portRun : PortRun p s (reconfigTdm p c s) :=
  (ReflTransGen.single (.cfg s c)).tail (.port _ _)

theorem tdmConfigured_portRun : PortRun p s (tdmConfigured p s) := by
  unfold tdmConfigured
  split
  · exact .refl
  · exact reconfigTdm_portRun

theorem tdmRestarted_portRun (h : PortRun p a s) : PortRun p a (tdmRestarted p s) := ite_portRun (putTdm_portRun h) h

theorem tdmMasked_portRun (h : PortRun p a s) : PortRun p a (tdmMasked p s) := by
  unfold tdmMasked
  dsimp only
  split
  · exact h
  · exact ite_portRun (putTdm_portRun h) (putTdm_portRun h)

theorem tdmBoundary_portRun : PortRun p s (tdmBoundary p s) := by
  rw [tdmBoundary_eq]
  exact tdmMasked_portRun (tdmRestarted_portRun tdmConfigured_portRun)

/-! ### A frame -/

theorem countWords_portRun (h : PortRun p a s) : PortRun p a (countWords k n s) := by
  unfold countWords
  split
  exact h.tail (.ledger _ _)

theorem tdmFrameRun_portRun {j : Nat} {din : List Word} (h : PortRun p a s) : PortRun p a (tdmFrameRun p j din s).1 := by
  unfold tdmFrameRun
  exact countWords_portRun (countWords_portRun (putTdm_portRun h))

theorem tdmPeriod_portRun {din : List Word} (h : PortRun p a s) : PortRun p a (tdmPeriod p din s).1 := by
  unfold tdmPeriod
  exact List.foldlRecOn (motive := fun z : State × List (Nat × Word) => PortRun p a z.1) _ _ (putTdm_portRun h)
    fun _ hz _ _ => tdmFrameRun_portRun hz

/-! ### A port in a period -/

/-- The words received on a port's DIN in a period. -/
def portWords (din : List (Fin 16 × List Word)) (p : Nat) : List Word :=
  match din.find? (fun e => e.1.val == p) with | some e => e.2 | none => []

/-- A port in a period: what waits for its frame boundary, then its frames, whose samples are written. -/
def tdmStep (k : Nat) (din : List (Fin 16 × List Word)) (s : State) (p : Nat) : State :=
  let s := tdmBoundary p s
  if (tdmOf s p).state = .running then
    let (s, got) := tdmPeriod p (portWords din p) s
    got.foldl (fun s e => writeSource (k + 1) s e) s
  else s

theorem tdmFrames_eq {din : List (Fin 16 × List Word)} : tdmFrames k din s = (List.range 16).foldl (tdmStep k din) s := rfl

theorem tdmStep_portRun {din : List (Fin 16 × List Word)} : PortRun p s (tdmStep k din s p) := by
  unfold tdmStep
  exact ite_portRun (foldl_portRun (fun u e hu => hu.tail (.memory u _)) (tdmPeriod_portRun tdmBoundary_portRun))
    tdmBoundary_portRun

theorem tdmFrames_keeps {din : List (Fin 16 × List Word)} (f : State → α)
    (put : ∀ (u : State) x y z w, f { u with
      aud := { u.aud with ports := x, memory := y }, led := z, set := { u.set with tdm := w } } = f u) :
    f (tdmFrames k din s) = f s := foldl_keeps (g := f) (fun _ _ => tdmStep_portRun.keeps f put) _

/-- In a fold over numbers that are all different, one of them is met once, in a state that the others have left as it
was for it. -/
theorem foldl_visits {step : State → Nat → State} {view : State → α} {l : List Nat} (nodup : l.Nodup) (mem : n ∈ l)
    (other : ∀ u p, p ≠ n → view (step u p) = view u) :
    ∃ u, view u = view s ∧ view (l.foldl step s) = view (step u n) := by
  obtain ⟨before, after, rfl⟩ := List.append_of_mem mem
  have fresh := List.nodup_middle.mp nodup
  have out : ∀ p ∈ before ++ after, p ≠ n := fun p inl same => (List.nodup_cons.mp fresh).1 (same ▸ inl)
  have stays : ∀ (l : List Nat) u, (∀ p ∈ l, p ≠ n) → view (l.foldl step u) = view u := fun l u out =>
    List.foldlRecOn (motive := fun w => view w = view u) l step rfl fun w hw p inl => (other w p (out p inl)).trans hw
  refine ⟨before.foldl step s, stays before s fun p inl => out p (List.mem_append_left _ inl), ?_⟩
  rw [List.foldl_append, List.foldl_cons]
  exact stays after _ fun p inl => out p (List.mem_append_right _ inl)

/-- A port after the frames of a period: its step from a state in which it and its settings are as before. -/
theorem tdmFrames_visits {din : List (Fin 16 × List Word)} (small : n < 16) : ∃ u,
    tdmOf u n = tdmOf s n ∧ tdmCfg u n = tdmCfg s n ∧ tdmOf (tdmFrames k din s) n = tdmOf (tdmStep k din u n) n
      ∧ tdmCfg (tdmFrames k din s) n = tdmCfg (tdmStep k din u n) n := by
  have others : ∀ u p, p ≠ n → (tdmOf (tdmStep k din u p) n, tdmCfg (tdmStep k din u p) n) = (tdmOf u n, tdmCfg u n) :=
    fun u p other => by
      obtain ⟨port, cfg⟩ := (tdmStep_portRun (k := k) (din := din) (s := u)).other other
      rw [port, cfg]
  obtain ⟨u, before, after⟩ := foldl_visits (s := s) (view := fun u => (tdmOf u n, tdmCfg u n))
    List.nodup_range (List.mem_range.mpr small) others
  rw [← tdmFrames_eq] at after
  simp only [Prod.mk.injEq] at before after
  obtain ⟨port, cfg⟩ := before
  obtain ⟨port', cfg'⟩ := after
  exact ⟨u, port, cfg, port', cfg'⟩

/-! ### What a period makes of a port -/

/-- What of a port its frames leave: its state, and what waits for a frame boundary. -/
def duty (v : TdmPort) : TdmState × Option TdmCfg × Option (BitVec 32 × BitVec 32) :=
  (v.state, v.pendingCfg, v.pendingMasks)

theorem tdmMasked_masks : (tdmOf (tdmMasked p s) p).pendingMasks = none := by
  unfold tdmMasked
  dsimp only
  split
  case h_1 none => exact none
  case h_2 =>
    split
    · rw [tdmOf_putTdm, if_pos rfl]
    · rw [tdmOf_putTdm, if_pos rfl]

/-- Changed masks leave the state, the frames and the settings of a port. -/
def course (v : TdmPort) : TdmState × Nat × Option TdmCfg := (v.state, v.frames, v.pendingCfg)

theorem tdmMasked_course : course (tdmOf (tdmMasked p s) p) = course (tdmOf s p) := by
  unfold tdmMasked
  dsimp only
  split
  · rfl
  · split
    · rw [tdmOf_putTdm, if_pos rfl]
      rfl
    · rw [tdmOf_putTdm, if_pos rfl]
      rfl

theorem tdmMasked_cfg : tdmCfg (tdmMasked p s) p = tdmCfg s p := by
  unfold tdmMasked
  dsimp only
  split
  · rfl
  · split <;> rfl

theorem tdmRestarted_none (none : (tdmOf s p).restartPending = false ∨ (tdmOf s p).state ≠ .running) :
    tdmRestarted p s = s := by
  refine if_neg ?_
  rcases none with unasked | idle
  · simp [unasked]
  · simp [idle]

theorem tdmConfigured_none (none : (tdmOf s p).pendingCfg = none) : tdmConfigured p s = s := by
  unfold tdmConfigured
  rw [none]

/-- The state of a port after a changed configuration (R292, R306). -/
def configuredState (v : TdmPort) (c : TdmCfg) : TdmState :=
  if v.state = .isolated then .isolated else if c.enable = true then .waitingStart else .stopped

theorem tdmConfigured_some (waits : (tdmOf s p).pendingCfg = some c) : tdmCfg (tdmConfigured p s) p = c
    ∧ (tdmOf (tdmConfigured p s) p).pendingCfg = none
    ∧ (tdmOf (tdmConfigured p s) p).state = configuredState (tdmOf s p) c := by
  unfold tdmConfigured configuredState
  rw [waits]
  dsimp only
  unfold reconfigTdm
  refine ⟨tget_tset_same _ _ _ _, ?_, ?_⟩
  · dsimp only
    rw [tdmOf_putTdm, if_pos rfl]
    split <;> split <;> rfl
  · dsimp only
    rw [tdmOf_putTdm, if_pos rfl]
    by_cases isolated : (tdmOf s p).state = .isolated
    · simp only [isolated, if_true]
      split <;> rfl
    · simp only [isolated, if_false]
      split <;> rfl

theorem tdmOf_countWords {q m : Nat} : tdmOf (countWords k m s) q = tdmOf s q := by
  unfold countWords
  split
  rfl

theorem tdmFrameRun_port {j : Nat} {din : List Word} : duty (tdmOf (tdmFrameRun p j din s).1 p) = duty (tdmOf s p)
    ∧ (tdmOf (tdmFrameRun p j din s).1 p).frames = sat48 (tdmOf s p).frames 1 := by
  unfold tdmFrameRun
  dsimp only
  rw [tdmOf_countWords, tdmOf_countWords, tdmOf_putTdm, if_pos rfl]
  exact ⟨rfl, rfl⟩

theorem countWords_set {m : Nat} : (countWords k m s).set = s.set := by
  unfold countWords
  split
  rfl

theorem tdmFrameRun_set {j : Nat} {din : List Word} : (tdmFrameRun p j din s).1.set = s.set := by
  unfold tdmFrameRun
  dsimp only
  rw [countWords_set, countWords_set]
  rfl

/-- One of the frames of a period. -/
def tdmRun (p : Nat) (din : List Word) (c : TdmCfg) : State × List (Nat × Word) → Nat → State × List (Nat × Word) :=
  fun (s, got) j =>
    let (s, x) := tdmFrameRun p j ((din.drop (c.slots * j)).take c.slots) s
    (s, got ++ x)

theorem tdmRun_fst {din : List Word} {z : State × List (Nat × Word)} {j : Nat} :
    (tdmRun p din c z j).1 = (tdmFrameRun p j ((din.drop (c.slots * j)).take c.slots) z.1).1 := rfl

/-- A port at the start of a period's frames. -/
def tdmBegun (p : Nat) (s : State) : State := putTdm s p { tdmOf s p with dout := [] }

theorem tdmPeriod_eq {din : List Word} : tdmPeriod p din s =
    (List.range (framesPer (tdmCfg s p))).foldl (tdmRun p din (tdmCfg s p)) (tdmBegun p s, []) := rfl

theorem tdmOf_tdmBegun : tdmOf (tdmBegun p s) p = { tdmOf s p with dout := [] } :=
  (tdmOf_putTdm s p p _).trans (if_pos rfl)

/-- What of a port and of the settings the frames of a period change: the count of the frames. -/
theorem tdmRuns_port {din : List Word} {l : List Nat} {z : State × List (Nat × Word)} :
    duty (tdmOf (l.foldl (tdmRun p din c) z).1 p) = duty (tdmOf z.1 p)
    ∧ (tdmOf (l.foldl (tdmRun p din c) z).1 p).frames = l.foldl (fun f _ => sat48 f 1) (tdmOf z.1 p).frames
    ∧ (l.foldl (tdmRun p din c) z).1.set = z.1.set := by
  induction l generalizing z with
  | nil => exact ⟨rfl, rfl, rfl⟩
  | cons j l ih =>
    obtain ⟨kept, frames, set⟩ := ih (z := tdmRun p din c z j)
    rw [tdmRun_fst] at kept frames set
    rw [tdmFrameRun_port.1] at kept
    rw [tdmFrameRun_port.2] at frames
    rw [tdmFrameRun_set] at set
    simp only [List.foldl_cons]
    exact ⟨kept, frames, set⟩

theorem foldl_frames {f : Nat} : (List.range (framesPer c)).foldl (fun f _ => sat48 f 1) f = sat48 f (framesPer c) := by
  unfold framesPer
  split
  · show sat48 (sat48 f 1) 1 = sat48 f 2
    unfold sat48
    omega
  · rfl

theorem tdmPeriod_port {din : List Word} : duty (tdmOf (tdmPeriod p din s).1 p) = duty (tdmOf s p)
    ∧ (tdmOf (tdmPeriod p din s).1 p).frames = sat48 (tdmOf s p).frames (framesPer (tdmCfg s p))
    ∧ (tdmPeriod p din s).1.set = s.set := by
  rw [tdmPeriod_eq]
  obtain ⟨kept, frames, set⟩ := tdmRuns_port (p := p) (din := din) (c := tdmCfg s p)
    (l := List.range (framesPer (tdmCfg s p))) (z := (tdmBegun p s, []))
  rw [tdmOf_tdmBegun] at kept frames
  exact ⟨kept, frames.trans foldl_frames, set⟩

/-- A port's step: its frames leave its duty and the settings, and are counted where it runs. -/
theorem tdmStep_port {din : List (Fin 16 × List Word)} :
    duty (tdmOf (tdmStep k din s p) p) = duty (tdmOf (tdmBoundary p s) p)
    ∧ ((tdmOf (tdmBoundary p s) p).state = .running → (tdmOf (tdmStep k din s p) p).frames
        = sat48 (tdmOf (tdmBoundary p s) p).frames (framesPer (tdmCfg (tdmBoundary p s) p)))
    ∧ (tdmStep k din s p).set = (tdmBoundary p s).set := by
  have each : ∀ u e, tdmOf (writeSource (k + 1) u e) p = tdmOf u p := fun _ _ => rfl
  have kept : ∀ u e, (writeSource (k + 1) u e).set = u.set := fun _ _ => rfl
  unfold tdmStep
  dsimp only
  split
  · rw [foldl_keeps (g := fun u => tdmOf u p) each, foldl_keeps (g := State.set) kept]
    obtain ⟨duty, frames, set⟩ := tdmPeriod_port (p := p) (s := tdmBoundary p s)
      (din := portWords din p)
    exact ⟨duty, fun _ => frames, set⟩
  · exact ⟨rfl, fun running => absurd running ‹_›, rfl⟩

/-- A port that runs and of which nothing waits runs its frames. -/
theorem tdmStep_running {din : List (Fin 16 × List Word)} (running : (tdmOf s p).state = .running)
    (settled : (tdmOf s p).pendingCfg = none) (unasked : (tdmOf s p).restartPending = false) :
    (tdmOf (tdmStep k din s p) p).state = .running
      ∧ (tdmOf (tdmStep k din s p) p).frames = sat48 (tdmOf s p).frames (framesPer (tdmCfg s p)) := by
  have boundary : tdmBoundary p s = tdmMasked p s := by
    rw [tdmBoundary_eq, tdmConfigured_none settled, tdmRestarted_none (.inl unasked)]
  have course := tdmMasked_course (p := p) (s := s)
  obtain ⟨same, counts, -⟩ := tdmStep_port (k := k) (din := din) (p := p) (s := s)
  rw [boundary] at same counts
  simp only [Machine.course, duty, Prod.mk.injEq] at course same
  obtain ⟨state, frames, -⟩ := course
  rw [state, running, frames, tdmMasked_cfg] at counts
  exact ⟨same.1.trans (state.trans running), counts rfl⟩

/-- A port for which a configuration waits takes it over. -/
theorem tdmStep_configured {din : List (Fin 16 × List Word)} (waits : (tdmOf s p).pendingCfg = some c) :
    tdmCfg (tdmStep k din s p) p = c ∧ (tdmOf (tdmStep k din s p) p).pendingCfg = none
      ∧ (tdmOf (tdmStep k din s p) p).state = configuredState (tdmOf s p) c := by
  obtain ⟨cfg, none, state⟩ := tdmConfigured_some waits
  have idle : (tdmOf (tdmConfigured p s) p).state ≠ .running := by
    rw [state]
    unfold configuredState
    split
    · simp
    · split <;> simp
  have boundary : tdmBoundary p s = tdmMasked p (tdmConfigured p s) := by
    rw [tdmBoundary_eq, tdmRestarted_none (.inr idle)]
  have course := tdmMasked_course (p := p) (s := tdmConfigured p s)
  obtain ⟨same, -, set⟩ := tdmStep_port (k := k) (din := din) (p := p) (s := s)
  rw [boundary] at same set
  simp only [Machine.course, duty, Prod.mk.injEq] at course same
  refine ⟨?_, same.2.1.trans (course.2.2.trans none), same.1.trans (course.1.trans state)⟩
  have same : tdmCfg (tdmStep k din s p) p = tdmCfg (tdmMasked p (tdmConfigured p s)) p := by
    simp only [tdmCfg, set]
  exact (same.trans tdmMasked_cfg).trans cfg

theorem tdmStep_masks {din : List (Fin 16 × List Word)} : (tdmOf (tdmStep k din s p) p).pendingMasks = none := by
  have same := (tdmStep_port (k := k) (din := din) (p := p) (s := s)).1
  rw [tdmBoundary_eq] at same
  simp only [duty, Prod.mk.injEq] at same
  exact same.2.2.trans tdmMasked_masks

end Sys2Proof.Machine
end

section
namespace Sys2Proof.Machine
open Relation

/-! ## What a grid period leaves (R149, R290, R293, R439) -/

variable {s t u v : State} {d k n : Nat} {sources : List (Nat × Word)} {din : List (Fin 16 × List Word)}

/-! ### Ports, settings and what waits for a period -/

/-- The ports of the grid, the settings, and the de-embedder settings that wait. -/
def gridPart (u : State) : Tab TdmPort × Settings × Tab (BitVec 4) := (u.aud.ports, u.set, u.sdi.pendingDeembed)

/-- The de-embedder settings, in force and waiting. -/
def deembedPart (u : State) : Tab (BitVec 4) × Tab (BitVec 4) := (u.set.deembed, u.sdi.pendingDeembed)

theorem gridPart_flowTick : gridPart (flowTick n u) = gridPart u :=
  (flowTick_moves (List.Subset.refl _) .refl).keeps gridPart fun _ => rfl

theorem Plays.gridPart (h : Plays s t) : Machine.gridPart t = Machine.gridPart s :=
  h.keeps Machine.gridPart (fun _ _ => gridPart_flowTick) fun _ _ _ _ _ _ _ _ _ ports => Prod.ext ports rfl

theorem gridPart_switchChannels : gridPart (switchChannels s) = gridPart s :=
  switchChannels_keeps gridPart (fun _ => sendDue_keeps gridPart (fun _ => rfl) rfl)
    fun _ _ _ _ _ ports => Prod.ext ports rfl

theorem gridPart_gridEnded : gridPart (gridEnded k u) = gridPart u := rfl

theorem gridPeriod_part : gridPart (gridPeriod sources din s)
    = gridPart (tdmFrames s.aud.period din (applyDeembed (applyGroups s))) := by
  rw [gridPeriod_eq, gridPart_gridEnded, gridSent_plays.gridPart, gridPart_switchChannels, gridHeard_plays.gridPart]

theorem tdmOf_of_gridPart (h : gridPart t = gridPart u) : tdmOf t n = tdmOf u n := by
  obtain ⟨ports, -⟩ := Prod.mk.inj h
  simp only [tdmOf, ports]

theorem tdmCfg_of_gridPart (h : gridPart t = gridPart u) : tdmCfg t n = tdmCfg u n := by
  obtain ⟨-, rest⟩ := Prod.mk.inj h
  obtain ⟨set, -⟩ := Prod.mk.inj rest
  simp only [tdmCfg, set]

theorem deembedPart_of_gridPart (h : gridPart t = gridPart u) : deembedPart t = deembedPart u := by
  obtain ⟨-, rest⟩ := Prod.mk.inj h
  obtain ⟨set, pending⟩ := Prod.mk.inj rest
  simp only [deembedPart, set, pending]

theorem tdmOf_gridBegun : tdmOf (applyDeembed (applyGroups s)) n = tdmOf s n :=
  (applyDeembed_keeps (fun u => tdmOf u n) fun _ _ _ => rfl).trans (applyGroups_keeps (fun u => tdmOf u n) fun _ _ _ => rfl)

theorem tdmCfg_gridBegun : tdmCfg (applyDeembed (applyGroups s)) n = tdmCfg s n :=
  (applyDeembed_keeps (fun u => tdmCfg u n) fun _ _ _ => rfl).trans
    (applyGroups_keeps (fun u => tdmCfg u n) fun _ _ _ => rfl)

/-- A port after a grid period: its step, from a state in which it and its settings are as before. -/
theorem gridPeriod_port (small : n < 16) : ∃ u, tdmOf u n = tdmOf s n ∧ tdmCfg u n = tdmCfg s n
    ∧ tdmOf (gridPeriod sources din s) n = tdmOf (tdmStep s.aud.period din u n) n
    ∧ tdmCfg (gridPeriod sources din s) n = tdmCfg (tdmStep s.aud.period din u n) n := by
  obtain ⟨u, port, cfg, port', cfg'⟩ :=
    tdmFrames_visits (k := s.aud.period) (din := din) (s := applyDeembed (applyGroups s)) small
  exact ⟨u, port.trans tdmOf_gridBegun, cfg.trans tdmCfg_gridBegun, (tdmOf_of_gridPart gridPeriod_part).trans port',
    (tdmCfg_of_gridPart gridPeriod_part).trans cfg'⟩

theorem gridPeriod_running (small : n < 16) (running : (tdmOf s n).state = .running)
    (none : (tdmOf s n).pendingCfg = none) (unasked : (tdmOf s n).restartPending = false) :
    (tdmOf (gridPeriod sources din s) n).state = .running
      ∧ (tdmOf (gridPeriod sources din s) n).frames
        = sat48 (tdmOf s n).frames (if (tdmCfg s n).fs96 = true then 2 else 1) := by
  obtain ⟨u, port, cfg, port', -⟩ := gridPeriod_port (sources := sources) (din := din) (s := s) small
  rw [← port] at running none unasked
  rw [port', ← port, ← cfg]
  exact tdmStep_running running none unasked

theorem gridPeriod_configured (small : n < 16) {c : TdmCfg} (waits : (tdmOf s n).pendingCfg = some c) :
    tdmCfg (gridPeriod sources din s) n = c ∧ (tdmOf (gridPeriod sources din s) n).pendingCfg = none
      ∧ (tdmOf (gridPeriod sources din s) n).state = configuredState (tdmOf s n) c := by
  obtain ⟨u, port, -, port', cfg'⟩ := gridPeriod_port (sources := sources) (din := din) (s := s) small
  rw [← port] at waits
  rw [port', cfg', ← port]
  exact tdmStep_configured waits

theorem gridPeriod_masks (small : n < 16) : (tdmOf (gridPeriod sources din s) n).pendingMasks = none := by
  obtain ⟨u, -, -, port', -⟩ := gridPeriod_port (sources := sources) (din := din) (s := s) small
  rw [port']
  exact tdmStep_masks

theorem gridPeriod_deembedPart :
    deembedPart (gridPeriod sources din s) = deembedPart (applyDeembed (applyGroups s)) :=
  (deembedPart_of_gridPart gridPeriod_part).trans (tdmFrames_keeps deembedPart fun _ _ _ _ _ => rfl)

theorem pendingDeembed_applyGroups : (applyGroups s).sdi.pendingDeembed = s.sdi.pendingDeembed :=
  applyGroups_keeps (fun u => u.sdi.pendingDeembed) fun _ _ _ => rfl

theorem gridPeriod_pendingDeembed : (gridPeriod sources din s).sdi.pendingDeembed = [] := by
  obtain ⟨-, pending⟩ := Prod.mk.inj (gridPeriod_deembedPart (sources := sources) (din := din) (s := s))
  rw [pending, applyDeembed_pending]

theorem gridPeriod_deembedGroups (nodup : (s.sdi.pendingDeembed.map Prod.fst).Nodup) {e : Nat × BitVec 4}
    (mem : e ∈ s.sdi.pendingDeembed) : deembedGroups (gridPeriod sources din s) e.1 = e.2 := by
  rw [← pendingDeembed_applyGroups] at nodup mem
  obtain ⟨groups, -⟩ := Prod.mk.inj (gridPeriod_deembedPart (sources := sources) (din := din) (s := s))
  refine Eq.trans ?_ (applyDeembed_groups nodup mem)
  simp only [deembedGroups, groups]

/-! ### The audio matrix -/

theorem Plays.destOf_audio (h : Plays s t) : destOf t .audio d = destOf s .audio d :=
  h.keeps (fun u => destOf u .audio d)
    (fun _ _ => (flowTick_shows (List.Subset.refl _) .refl).destOf .audio d) fun _ _ _ _ _ _ _ _ _ _ => rfl

theorem destOf_gridBegun :
    destOf (tdmFrames k din (applyDeembed (applyGroups s))) .audio d = destOf s .audio d :=
  (tdmFrames_keeps (fun u => destOf u .audio d) fun _ _ _ _ _ => rfl).trans
    ((applyDeembed_keeps (fun u => destOf u .audio d) fun _ _ _ => rfl).trans
      (applyGroups_keeps (fun u => destOf u .audio d) fun _ _ _ => rfl))

theorem destOf_gridEnded : destOf (gridEnded k u) .audio d = destOf u .audio d := rfl

theorem gridPeriod_dest : destOf (gridPeriod sources din s) .audio d = switchedChannel (destOf s .audio d) := by
  rw [gridPeriod_eq, destOf_gridEnded, gridSent_plays.destOf_audio, destOf_switchChannels, gridHeard_plays.destOf_audio,
    destOf_gridBegun]

theorem switchedChannel_loaded {v : Dest} {e : Entry} (loaded : v.shadow = some e) : switchedChannel v =
    if v.ready = true then { v with active := e.source, shadow := none, ready := false } else v := by
  split
  · exact switchedChannel_ready loaded ‹_›
  · exact switchedChannel_waits (Bool.eq_false_iff.mpr ‹_›)

/-! ### Everything beside -/

/-- A state with the parts that a grid period touches taken from another. -/
def besideGrid (a u : State) : State :=
  settled { u with aud := a.aud, led := a.led, mtx := a.mtx, pkt := a.pkt, sdi := a.sdi, set := a.set
                   flt := a.flt, fab := a.fab, eng := a.eng }

theorem besideGrid_flowTick : besideGrid s (flowTick n u) = besideGrid s u := by
  have rest : besideGrid s { flowTick n u with draws := 0 } = besideGrid s { u with draws := 0 } :=
    (flowTick_moves (List.Subset.refl _) .refl).keeps (fun w => besideGrid s { w with draws := 0 }) fun _ => rfl
  have back : ∀ w, besideGrid s w = { besideGrid s { w with draws := 0 } with draws := w.draws } := fun _ => rfl
  rw [back, rest, flowTick_draws, ← back]

theorem Plays.besideGrid (h : Plays u v) : Machine.besideGrid s v = Machine.besideGrid s u :=
  h.keeps (Machine.besideGrid s) (fun _ _ => besideGrid_flowTick) fun _ _ _ _ _ _ _ _ _ _ => rfl

theorem besideGrid_sendDue : besideGrid s (sendDue u) = besideGrid s u := by
  have whole : ∀ w, besideGrid s w = besideGrid s (settled { w with mtx := s.mtx }) := fun _ => rfl
  rw [whole (sendDue u), sendDue_settled, ← whole]

theorem besideGrid_switchChannels : besideGrid s (switchChannels u) = besideGrid s u :=
  switchChannels_keeps (besideGrid s) (fun _ => besideGrid_sendDue) fun _ _ _ _ _ _ => rfl

theorem besideGrid_gridBegun :
    besideGrid s (tdmFrames k din (applyDeembed (applyGroups u))) = besideGrid s u :=
  (tdmFrames_keeps (besideGrid s) fun _ _ _ _ _ => rfl).trans
    ((applyDeembed_keeps (besideGrid s) fun _ _ _ => rfl).trans (applyGroups_keeps (besideGrid s) fun _ _ _ => rfl))

theorem besideGrid_gridEnded : besideGrid s (gridEnded k u) = besideGrid s u := rfl

theorem gridPeriod_besideGrid : besideGrid s (gridPeriod sources din s) = settled s := by
  rw [gridPeriod_eq, besideGrid_gridEnded, gridSent_plays.besideGrid, besideGrid_switchChannels,
    gridHeard_plays.besideGrid, besideGrid_gridBegun]
  rfl

theorem gridPeriod_period : (gridPeriod sources din s).aud.period = s.aud.period + 1 :=
  congrArg (fun u => u.aud.period) (gridPeriod_eq (sources := sources) (din := din))

theorem invert_gridEnded : (gridEnded k u).flt.invert = tdel u.flt.invert (faultId 0x0C 31 1) := rfl

theorem gridPeriod_invert : tfind (gridPeriod sources din s).flt.invert (faultId 0x0C 31 1) = none := by
  rw [gridPeriod_eq, invert_gridEnded, tfind_tdel, if_pos rfl]

/-! ## A waiting slot's timeout (R301) -/

theorem tdmOf_of_aud (h : t.aud = u.aud) : tdmOf t n = tdmOf u n := by
  unfold tdmOf
  rw [h]

/-- The source of R301 is none of a port, so it isolates none. -/
theorem raiseAudio_timeout : raiseAudio (faultId 0x09 31 16) s = raiseCore (faultId 0x09 31 16) s := by
  have index : ¬ faultIndex (faultId 0x09 31 16) < 16 := by decide
  unfold raiseAudio
  simp only [index, false_and, decide_false, Bool.false_eq_true, if_false]

/-- A port whose waiting slot k has changed at its timeout. -/
def timedOutPort (v : TdmPort) (transmit : Bool) (k : Nat) (w : SlotWait) : TdmPort :=
  if transmit then
    { v with zcTimeouts := sat32 v.zcTimeouts 1, txWaiting := v.txWaiting.filter (fun w => w.slot != k)
             txOn := putBit v.txOn k w.target, txZcSlots := putBit v.txZcSlots k true }
  else
    { v with zcTimeouts := sat32 v.zcTimeouts 1, rxWaiting := v.rxWaiting.filter (fun w => w.slot != k)
             rxOn := putBit v.rxOn k w.target, rxZcSlots := putBit v.rxZcSlots k true }

/-- The slots of a port that wait for a zero crossing. -/
def waitingSlots (v : TdmPort) (transmit : Bool) : List SlotWait := if transmit then v.txWaiting else v.rxWaiting

/-- A wait for slot k is over in period j. -/
def waitOver (k j : Nat) (w : SlotWait) : Bool := w.slot == k && decide (w.due ≤ j)

theorem timeoutWait_none {transmit : Bool}
    (none : (waitingSlots (tdmOf s n) transmit).find? (waitOver k s.aud.period) = none) :
    timeoutWait n transmit k s = s := by
  unfold waitingSlots waitOver at none
  unfold timeoutWait
  dsimp only
  rw [none]

section
variable {transmit : Bool} {w : SlotWait}
  (found : (waitingSlots (tdmOf s n) transmit).find? (waitOver k s.aud.period) = some w)
include found

theorem timeoutWait_some :
    timeoutWait n transmit k s
      = raiseCore (faultId 0x09 31 16) (putTdm s n (timedOutPort (tdmOf s n) transmit k w)) := by
  unfold waitingSlots waitOver at found
  unfold timeoutWait timedOutPort
  dsimp only
  rw [found, ← raiseAudio_timeout]
  cases transmit <;> rfl

theorem tdmOf_timeoutWait {j : Nat} :
    tdmOf (timeoutWait n transmit k s) j = if n = j then timedOutPort (tdmOf s n) transmit k w else tdmOf s j := by
  rw [timeoutWait_some found, tdmOf_of_aud (raiseCore_aud _), tdmOf_putTdm]

theorem timeoutWait_settled :
    settled { timeoutWait n transmit k s with aud := s.aud } = settled s := by
  have whole : ∀ u, settled { u with aud := s.aud } = { settled u with aud := s.aud } := fun _ => rfl
  rw [timeoutWait_some found, whole, raiseCore_settled]
  rfl

end

/-! ## A port's start (R298, R304) -/

theorem fillReply_moves {T : List Area} (hT : replyAreas ⊆ T) {a : State} {r : Reply} (h : Moves T a s) :
    Moves T a (fillReply r s) := by
  unfold fillReply
  dsimp only
  split
  · exact sendReply_moves hT h
  · exact ite_moves (flushOwed_moves hT (putSession_moves (hT (by decide)) h)) h

theorem fillReply_settled {r : Reply} : settled (fillReply r s) = settled s := by
  unfold fillReply
  dsimp only
  split
  · exact sendReply_settled _ _
  · split
    · rw [flushOwed_settled]
      rfl
    · rfl

/-- A port that has started. -/
def startedPort (s : State) (n : Nat) : TdmPort :=
  let v := tdmOf s n
  { v with
    state := .running, restartPending := false, restartReplies := [], dout := []
    restarts := sat32 v.restarts (bit v.restartPending)
    txOn := if v.restartPending then 0 else v.txMask, rxOn := if v.restartPending then 0 else v.rxMask
    txWaiting := if v.restartPending then startWaits 0 v.txMask (waitDue s n) (lastOut s n) [] else []
    rxWaiting := if v.restartPending then startWaits 0 v.rxMask (waitDue s n) (fun _ => 0) [] else [] }

theorem startTdm_waits
    (waits : (tdmOf s n).state ≠ .waitingStart ∨ atGroupBoundary s n = false
      ∨ 99000 * s.aud.period < (tdmOf s n).startFrom) :
    startTdm n s = s := by
  refine if_neg fun ⟨waiting, boundary, due⟩ => ?_
  rcases waits with other | off | early
  · exact other waiting
  · exact Bool.noConfusion (off.symm.trans boundary)
  · exact absurd due (Int.not_le.mpr early)

theorem answers_aud {l : List Reply} : (l.foldl (fun s r => answerLater r done s) u).aud = u.aud :=
  foldl_keeps (g := State.aud) (fun _ _ => (fillReply_moves (List.Subset.refl _) .refl).keeps State.aud fun _ => rfl) l

theorem answers_settled {l : List Reply} : settled (l.foldl (fun s r => answerLater r done s) u) = settled u :=
  foldl_keeps (g := settled) (fun _ _ => fillReply_settled) l

section
variable (waiting : (tdmOf s n).state = .waitingStart) (boundary : atGroupBoundary s n = true)
  (due : (tdmOf s n).startFrom ≤ 99000 * s.aud.period)
include waiting boundary due

theorem startTdm_starts : startTdm n s =
      (tdmOf s n).restartReplies.foldl (fun s r => answerLater r done s) (putTdm s n (startedPort s n)) :=
  if_pos ⟨waiting, boundary, due⟩

theorem tdmOf_startTdm {j : Nat} : tdmOf (startTdm n s) j = if n = j then startedPort s n else tdmOf s j := by
  rw [startTdm_starts waiting boundary due, tdmOf_of_aud answers_aud, tdmOf_putTdm]

theorem startTdm_settled : settled { startTdm n s with aud := s.aud } = settled s := by
  have whole : ∀ u, settled { u with aud := s.aud } = { settled u with aud := s.aud } := fun _ => rfl
  rw [startTdm_starts waiting boundary due, whole, answers_settled]
  rfl

end

/-! ## The audio events -/

theorem gridPeriod_events (x : List (Fin 32768 × Word)) (locked : s.chip.rootLocked = true) :
    exec (.audioGridPeriod x din) s = .next (gridPeriod (x.map fun e => (e.1.val, e.2)) din s) :=
  congrArg Host.Outcome.next (if_pos locked)

/-- Settles O44: a period's parts one after another, of which each leaves what the others decide. -/
theorem audioEventsRunTheGrid : Obligations.AudioEventsRunTheGrid := by
  unfold Obligations.AudioEventsRunTheGrid
  refine ⟨fun x din s => ⟨fun unlocked => ?_, fun locked => ?_⟩, fun n tx k s => ⟨fun none => ?_, fun w found => ?_⟩,
    fun n s => ⟨fun waits => ?_, fun waiting boundary due => ?_⟩⟩
  · exact congrArg Host.Outcome.next (if_neg (Bool.eq_false_iff.mp unlocked))
  · refine ⟨_, gridPeriod_events x locked, gridPeriod_period, fun d e loaded => ?_, fun d none => ?_,
      fun n small running none unasked => gridPeriod_running small running none unasked,
      fun n c small waits => gridPeriod_configured small waits, fun n small => gridPeriod_masks small,
      fun nodup => ⟨gridPeriod_pendingDeembed, fun e mem => gridPeriod_deembedGroups nodup mem⟩,
      gridPeriod_invert, gridPeriod_besideGrid⟩
    · rw [gridPeriod_dest, switchedChannel_loaded loaded]
    · rw [gridPeriod_dest, switchedChannel_none none]
  · exact congrArg Host.Outcome.next (timeoutWait_none none)
  · refine ⟨_, rfl, ?_, ?_, ?_, fun j other => ?_, timeoutWait_settled found⟩
    · rw [tdmOf_timeoutWait found, if_pos rfl]
      cases tx <;> rfl
    · rw [tdmOf_timeoutWait found, if_pos rfl]
      cases tx <;> exact ⟨rfl, rfl, rfl⟩
    · rw [timeoutWait_some found]
      exact raiseCore_sticky _ _
    · rw [tdmOf_timeoutWait found, if_neg (Ne.symm other)]
  · exact congrArg Host.Outcome.next (startTdm_waits waits)
  · refine ⟨_, rfl, ?_, fun unasked => ?_, fun again => ?_, ?_, ?_, fun j other => ?_,
      startTdm_settled waiting boundary due⟩
    · rw [tdmOf_startTdm waiting boundary due, if_pos rfl]
      rfl
    · rw [tdmOf_startTdm waiting boundary due, if_pos rfl]
      simp only [startedPort, unasked]
      exact ⟨rfl, rfl, rfl⟩
    · rw [tdmOf_startTdm waiting boundary due, if_pos rfl]
      simp only [startedPort, again]
      exact ⟨rfl, rfl, rfl⟩
    · rw [tdmOf_startTdm waiting boundary due, if_pos rfl]
      rfl
    · rw [tdmOf_startTdm waiting boundary due, if_pos rfl]
      rfl
    · rw [tdmOf_startTdm waiting boundary due, if_neg (Ne.symm other)]

end Sys2Proof.Machine
end
